-- ==== Sys2Proof/Config.lean ====
section
/-! DEFINITION. What an implementation fixes and the spec leaves open: constants with no body, so that no proof can see
a value of theirs. A claim about the model holds whatever they are. -/

namespace Sys2Proof

/-- FREE VALUE (log 3). A fresh value for each count of `Dev.free`: register contents the spec leaves open. -/
opaque Config.freeValue : Nat → W64

/-- FREE VALUE (log 4). The OTP array as manufactured, 512 bytes by index (R450); burns are held in the state. -/
opaque Config.otpByte : Nat → Byte

/-- FREE VALUE (log 5). Falcon-1024 verification: public key bytes, 64-byte digest of the message, signature bytes.
The signature scheme is a published standard that the spec names and does not restate (R448, R454). -/
opaque Config.falconVerify : List Byte → List Byte → List Byte → Bool

/-- FREE VALUE (log 5). Falcon-1024 signing with the identity key (R457, R458): the 1,280-byte signature over a digest;
the number counts the signing nonces drawn. -/
opaque Config.falconSign : List Byte → Nat → Nat → Byte

/-- FREE VALUE (log 4). The identity certificate held in the module flash, 3,584 bytes by index (R457). -/
opaque Config.certByte : Nat → Byte

/-- FREE VALUE (log 4). The images in the module flash as shipped: slot (0 A, 1 B), component (0 manifest, 1 to 7), byte. -/
opaque Config.flashByte : Nat → Nat → Nat → Byte

/-- FREE VALUE (log 4). The length in bytes of a shipped image: slot, component. -/
opaque Config.flashLen : Nat → Nat → Nat

/-- FREE VALUE (log 108). The greatest contributor of a steering entry that has none but NaN, from its contributor words (R329). -/
opaque Config.steerMax : List W32 → W32

/-- FREE VALUE (log 108). The new scale of a steering entry whose greatest history value is negative or NaN, from FMT, MARGIN, SCALE
and that value (R329). -/
opaque Config.steerScale : Nat → Nat → W32 → W32 → W32

/-- FREE VALUE (log 102). Byte i of the payload of a SCALAR flit, from its destination, source, tag, step and first index and its
values: the spec gives that payload no layout (R338, R364). -/
opaque Config.scalarByte : List Nat → List W32 → Nat → Byte

/-- FREE VALUE (log 102). Byte i of the payload of a LINK flit, from the SEQ acknowledged, the SEQ NAKed and the free buffers it
advertises: the spec gives that payload no layout (R340). -/
opaque Config.linkByte : Option Nat → Option Nat → Option Nat → Nat → Byte

/-- FREE VALUE (log 102). Byte i of the payload of an IDLE flit (R338). -/
opaque Config.idleByte : Nat → Byte

/-- FREE VALUE (log 112). A cell of an AB slot that holds no node, as AB_SAVE writes it, by course, number of saves completed, slot of the
record and cell: the spec does not say what such a slot holds (R226). -/
opaque Config.idleCell : Nat → Nat → Nat → Nat → W32

/-- FREE VALUE (log 4). Bits [11:0] of the IDCODE, which the Module Drawing Set gives (R559). -/
opaque Config.idcode : BitVec 12

end Sys2Proof
end

