-- ==== Sys2Proof/Syntax.lean ====
section
/-! DEFINITION. The commands of the block: one constructor for each row of spec/opcode_table.json, with its operands.
No row has encoding bits, so a command is its constructor and its operands, and nothing else. -/

namespace Sys2Proof

/-- A payload block as it travels: 512 data bytes and the 4-byte check beside them (R281, R424). -/
structure Blk where
  data : List Byte
  chk  : W32
  deriving DecidableEq, Repr

/-- A command packet as it arrives on QUARTER_0 of a host port (R424), its HEADER_CRC, TYPE, VERSION and OPCODE good:
a packet that fails those is the row BAD_CONTROL_PACKET. -/
structure HostCmd where
  port    : Fin 2
  tag     : W16
  ctx     : W16
  p0      : W32
  p1      : W32
  p2      : W32
  p3      : W32
  len     : W32
  payload : List Blk
  deriving DecidableEq, Repr

/-- Which launched tab line a unit works on, and the addresses of the blocks whose check fails at the consumer on this
read although the stored copy is intact (R283, R287: a fault on the way), and the addresses of the deep-store words in which the
die corrected a single-bit error on this read (R274). -/
structure Work where
  course : Fin 96
  line   : Nat
  bad    : List Nat
  corrected : List Nat := []
  deriving DecidableEq, Repr

/-- The name of a bundle: the tower that registers it, its CLASS (1 to 4) and its index (R476, R477). -/
structure BundleId where
  tower : Fin 8
  cls   : Fin 5
  index : Fin 512
  deriving DecidableEq, Repr

/-- What one housekeeping round reads (R517, R520): sensor conversions in 1/16 °C (none for a timeout), rail voltages
in mV and currents in 0.1 A, the input voltage, current and power, the good clock sites of each layer of each tower
(R485), the lanes whose corrected-symbol count of the round is given (R344, R420), and the links with the codewords of the round
that FEC could not correct (R376, R447). -/
structure RoundInput where
  sensors : List (Option (BitVec 16))
  railMv  : List (BitVec 16)
  railCur : List (BitVec 16)
  vin     : BitVec 16
  iin     : BitVec 16
  pin     : BitVec 16
  sites   : List (BitVec 4)
  lanes   : List (Fin 32 × Fin 8 × Nat)
  uncorrected : List (Fin 32 × Nat) := []
  deriving DecidableEq, Repr

/-- How a training ended (R343, R420, R336): the lanes that failed, the flight time measured, rounded up to whole cycles,
the neighbour's rank and port, the lane on which each lane arrives (none for the order of R551), and the lanes whose polarity is
inverted (R552). -/
structure TrainResult where
  failed : BitVec 8
  flight : BitVec 8
  nbrRank : BitVec 10
  nbrPort : BitVec 5
  order : List Nat := []
  invert : BitVec 8 := 0
  deriving DecidableEq, Repr

/-- What a LINK flit carries (R340): the highest SEQ received in order, a NAK naming the next SEQ expected, and the free
receive buffers. The spec gives the payload of a LINK flit no layout, so the values themselves are the operand. -/
structure LinkMsg where
  ack    : Option (Fin 512)
  nak    : Option (Fin 512)
  credit : Option (BitVec 16)
  deriving DecidableEq, Repr

/-- What a SCALAR flit carries (R364): the rank it goes to, the rank that sent it, the tag and step of its collective, the
index of its first value and up to 60 values. The spec gives its payload no layout either. -/
structure ScalarMsg where
  dest   : BitVec 16
  src    : BitVec 16
  tag    : BitVec 16
  step   : BitVec 8
  first  : BitVec 16
  values : List (BitVec 32)
  deriving DecidableEq, Repr

/-- A fret marker as it arrives (R70, R342), with the arrival time less the measured link delay, relative to the
device's own fret start, in picoseconds. -/
structure Marker where
  bytes  : List Byte
  offset : Int
  deriving DecidableEq, Repr

/-- A far-store or boot response as it arrives on a quarter (R425, R440, R442): its TAG and STATUS, the cycles from the
request to its first block, and its blocks. -/
structure FarResp where
  quarter : Fin 8
  tag     : W16
  status  : W16
  latency : Nat
  payload : List Blk
  deriving DecidableEq, Repr

/-- What the reset release samples and measures (R511, R513, R492): the BOOT_SRC and CLK_MODE straps, the bundles'
failing lanes found by the training field test, and the good clock sites of each layer of each tower. -/
structure ReleaseInput where
  bootSrc : BitVec 2
  clkMode : BitVec 2
  lanes   : List (BundleId × List Nat)
  sites   : List (BitVec 4)
  deriving DecidableEq, Repr

/-- What the other replicas send of one 512-byte block of working weights that the bisection ends at (R331), and what comes from the
far store: the run, the block within it, the run's roots at the other replicas, the block's data there, the masters of its parameters
there where they are replicated, the own master blocks where they lie in the far store (none if one of them is poisoned), and the
block as its owner derives it where the owner is another rank (none if its master is poisoned). -/
structure DigestDiff where
  run     : Nat
  block   : Nat
  roots   : List (List Byte)
  blocks  : List (List Byte)
  masters : List (List Byte)
  far     : Option (List Byte)
  owned   : Option (List Byte)
  deriving DecidableEq, Repr

/-- The commands. The comment before a group names the chapter of spec/ that defines it. -/
inductive Instr where
  -- host commands (R434)
  | identify (h : HostCmd) | readReg (h : HostCmd) | writeReg (h : HostCmd) | reset (h : HostCmd)
  | attest (h : HostCmd) | sensorRead (h : HostCmd)
  | ctxCreate (h : HostCmd) | ctxLoadTab (h : HostCmd) | ctxStart (h : HostCmd) | ctxPark (h : HostCmd)
  | ctxResume (h : HostCmd) | ctxDestroy (h : HostCmd) | ctxQuery (h : HostCmd)
  | memWrite (h : HostCmd) | memRead (h : HostCmd) (bad : List Nat) | memFill (h : HostCmd) | memCopy (h : HostCmd)
  | farMap (h : HostCmd) | hedgeJoin (h : HostCmd) | hedgeLeave (h : HostCmd) | fretConfig (h : HostCmd)
  | routeLoad (h : HostCmd) | droneRaise (h : HostCmd)
  | fwStage (h : HostCmd) | fwVerify (h : HostCmd) | fwCommitAt (h : HostCmd) | fwAbort (h : HostCmd)
  | fwStatus (h : HostCmd)
  | svcStart (h : HostCmd) | svcQuery (h : HostCmd) | svcStop (h : HostCmd) | checkpoint (h : HostCmd)
  | bistRun (h : HostCmd) | towerFence (h : HostCmd) | towerRestore (h : HostCmd) | logRead (h : HostCmd)
  | commandDone (port : Fin 2) (tag : W16) (bad : List Nat)
  -- writes of registers with an action of their own
  | retrainFull (port : Fin 24) | portDisable (port : Fin 24) (on : Bool)
  | quarterRetrainFull (q : Fin 8) | quarterDisable (q : Fin 8) (on : Bool)
  | flush (t : Fin 8) | memFarBudgetWrite (v : W32) | fhCtrlWrite (v : W32) | fhWindowWrite (v : W32)
  -- the fret (02)
  | fretStart | holdLatch | settlePoint | guardBandStart (damaged : List Nat)
  | droneFrameSend | fretMarkerSend (copy : Nat) | droneFrameRx (port : Fin 24) (frame : List Byte)
  | fretMarkerRx (port : Fin 24) (m : Marker)
  | leaderTakeover | leaderRealigned | fretConfigApply | ctxStartFret (ctx : Nat)
  | lineLaunch (c : Fin 96) (line : Nat) | lineLateLaunch (c : Fin 96) (line : Nat) | lineComplete (c : Fin 96) (line : Nat)
  -- matrix array, accumulator buffer (05, 06)
  | maProduct (w : Work) | drain (w : Work) | importNode (w : Work) | abSave (w : Work) | abRestore (w : Work)
  -- predicates and routines (02, 04)
  | setPred (c : Fin 96) (line : Nat)
  | ccRoutine (w : Work)
  | ccHalt (c : Fin 96)
  | ccAdd (c : Fin 96) (rd ra rb : Fin 32) | ccSub (c : Fin 96) (rd ra rb : Fin 32) | ccAnd (c : Fin 96) (rd ra rb : Fin 32)
  | ccOr (c : Fin 96) (rd ra rb : Fin 32) | ccXor (c : Fin 96) (rd ra rb : Fin 32) | ccSll (c : Fin 96) (rd ra rb : Fin 32)
  | ccSrl (c : Fin 96) (rd ra rb : Fin 32) | ccSra (c : Fin 96) (rd ra rb : Fin 32) | ccSlt (c : Fin 96) (rd ra rb : Fin 32)
  | ccSltu (c : Fin 96) (rd ra rb : Fin 32) | ccMul (c : Fin 96) (rd ra rb : Fin 32) | ccMulhu (c : Fin 96) (rd ra rb : Fin 32)
  | ccMin (c : Fin 96) (rd ra rb : Fin 32) | ccMax (c : Fin 96) (rd ra rb : Fin 32)
  | ccAddi (c : Fin 96) (rd ra : Fin 32) (imm : W16) | ccAndi (c : Fin 96) (rd ra : Fin 32) (imm : W16)
  | ccOri (c : Fin 96) (rd ra : Fin 32) (imm : W16) | ccXori (c : Fin 96) (rd ra : Fin 32) (imm : W16)
  | ccSlli (c : Fin 96) (rd ra : Fin 32) (imm : W16) | ccSrli (c : Fin 96) (rd ra : Fin 32) (imm : W16)
  | ccSrai (c : Fin 96) (rd ra : Fin 32) (imm : W16) | ccLui (c : Fin 96) (rd : Fin 32) (imm : W16)
  | ccShlori (c : Fin 96) (rd ra : Fin 32) (imm : W16)
  | ccLd (c : Fin 96) (rd ra : Fin 32) (imm : W16) (bad : Bool) | ccLw (c : Fin 96) (rd ra : Fin 32) (imm : W16) (bad : Bool)
  | ccSd (c : Fin 96) (rd ra : Fin 32) (imm : W16) (bad : Bool) | ccSw (c : Fin 96) (rd ra : Fin 32) (imm : W16) (bad : Bool)
  | ccFlt (c : Fin 96) (rd ra rb : Fin 32) | ccFle (c : Fin 96) (rd ra rb : Fin 32) | ccFeq (c : Fin 96) (rd ra rb : Fin 32)
  | ccBeq (c : Fin 96) (ra rb : Fin 32) (off : W16) | ccBne (c : Fin 96) (ra rb : Fin 32) (off : W16)
  | ccBlt (c : Fin 96) (ra rb : Fin 32) (off : W16) | ccBge (c : Fin 96) (ra rb : Fin 32) (off : W16)
  | ccBltu (c : Fin 96) (ra rb : Fin 32) (off : W16) | ccBgeu (c : Fin 96) (ra rb : Fin 32) (off : W16)
  | ccJmp (c : Fin 96) (off : W16) | ccLoop (c : Fin 96) (count : Fin 4096) (body : BitVec 14)
  | ccFlag (c : Fin 96) (imm : W16) | ccTmax (c : Fin 96) (rd ra rb : Fin 32) | ccRdsp (c : Fin 96) (rd ra : Fin 32) (imm : W16)
  -- vector engine (07)
  | veCopy (w : Work) | veFill (w : Work) | veAdd (w : Work) | veSub (w : Work) | veMul (w : Work) | veFma (w : Work)
  | veMin (w : Work) | veMax (w : Work) | veAbs (w : Work) | veNeg (w : Work) | veDiv (w : Work) | veSqrt (w : Work)
  | veExp2 (w : Work) | veLog2 (w : Work) | veRecip (w : Work) | veRsqrt (w : Work) | veTanh (w : Work) | veExp (w : Work)
  | veSilu (w : Work) | veGelu (w : Work) | veCmp (w : Work) | veSelect (w : Work) | veIadd (w : Work) | veIsub (w : Work)
  | veImul (w : Work) | veMaskgen (w : Work) | veRsum (w : Work) | veRmean (w : Work) | veRmax (w : Work) | veRmin (w : Work)
  | veRsumsq (w : Work) | veRargmax (w : Work) | veRargmin (w : Work) | veRlse (w : Work) | veRmsStats (w : Work)
  | veLnStats (w : Work) | veNormApply (w : Work) | veSmStats (w : Work) | veSmApply (w : Work) | veSmMerge (w : Work)
  | veTopk (w : Work) | veGather (w : Work) | veScatter (w : Work)
  -- movers (08)
  | moverCopy (w : Work) | moverCopy2d (w : Work) | moverFill (w : Work) | moverScrub (w : Work)
  -- fabric (10)
  | p2pSend (w : Work) | reduceScatter (w : Work) | allGather (w : Work) | allReduce (w : Work) | allToAll (w : Work)
  | scalarCollective (w : Work) | normCollective (w : Work)
  -- update engine (09)
  | ueOpen (w : Work) | ueUpdate (w : Work) | trustP1 (w : Work) | trustP2 (w : Work) | ueDigest (w : Work) | steer (w : Work)
  -- links (10, 13)
  | flitDataRx (link : Fin 32) (flit : List Byte) | flitLinkRx (link : Fin 32) (flit : List Byte) (m : LinkMsg)
  | flitScalarRx (link : Fin 32) (flit : List Byte) (m : ScalarMsg) | flitTrainRx (link : Fin 32) (flit : List Byte)
  | flitIdleRx (link : Fin 32) (flit : List Byte)
  | portTrainDone (link : Fin 32) (r : TrainResult) | portRetrainDone (link : Fin 32) (failed : BitVec 8)
  | laneLossOfLock (link : Fin 32) (lane : Fin 8)
  | cableConnect (link : Fin 32) | cableDisconnect (link : Fin 32)
  | readData (r : FarResp) | writeAck (r : FarResp) | streamAck (r : FarResp) | checkpointStreamStart (ctx : Nat)
  -- the ladder and the bundles (08, 15)
  | blockRereadDone (block : Nat) (ok : Bool) | ladderVerdict (block : Nat) (rereadOk : Bool)
  | bundleFlitRx (b : BundleId) (flit : List Byte) (framing : W64) | blockAckRx (b : BundleId) (block : Nat)
  | bundleTestDone (b : BundleId) (failed : List Nat) | bundleRemapDone (b : BundleId)
  | fieldTestPassStart (t : Fin 8)
  | fenceStart (t : Fin 8) | coreResetAssert (t : Fin 8) | coreResetRelease (t : Fin 8) | bundleRetrainDone (t : Fin 8)
  | coreResetWaitTimeout (t : Fin 8) | coreEscalation (t : Fin 8) (unit : BitVec 4) | progressTimeout (c : Fin 96) (line : Nat)
  -- resets and the warden (14, 16)
  | powerOnReset | undervoltage | regulatorShutdown | clockLoss | powerOnResetRelease (r : ReleaseInput)
  | sysRstPin | systemResetRelease (r : ReleaseInput) | watchdogExpiry (wd : Fin 2)
  | wardenReady (wd : Fin 2) | bootRetry | heartbeatSend (wd : Fin 2)
  | heartbeatRx (wd : Fin 2) (epoch : W64) (seq : W16) (restarting : Bool) (crc : Byte)
  | custodyClaim (wd : Fin 2) | managementTransaction (wd : Fin 2) (epoch : W64) (addr : W32) (value : W64)
  | soundpostTimeout (wd : Fin 2) | fwUnitLoad | wardenRestartDone (wd : Fin 2) | fwSelfCheckDone (ok : Bool)
  | housekeepingRound (r : RoundInput) | tripHoldRelease | wearRecordWrite
  | dramRefresh (t : Fin 8) (die : Fin 2) | patrolScrub (t : Fin 8) (corrected : Nat) (bad : List Nat)
  | eventSend | digestCompare (differs : List DigestDiff) | retrievalBatchDone (inst : Nat) (bad : List Nat)
  -- board (18)
  | leak | smbIdent | smbStatus | smbInput | smbCause
  | jtagBypass (tdi : List Bool) | jtagIdcode | jtagSamplePreload (bits : List Bool) | jtagExtest | jtagTrst
  | badControlPacket (quarter : Fin 8) (bytes : List Byte) | unlistedFlitType (link : Fin 32) (flit : List Byte)
  | heartbeatMissed (wd : Fin 2) | stagedSlotReverified (wd : Fin 2)
  deriving DecidableEq, Repr

end Sys2Proof
end

