-- ==== Sys2Proof/Decode.lean ====
section
/-! DEFINITION. The words of the table's rows. No row of spec/opcode_table.json has encoding bits (every row's list of fields is
empty), so no word spells a command: a command reaches the block as its constructor and its operands (log 6). -/

namespace Sys2Proof

/-- The command that a word of `nbits` bits spells by the table's bits: none, since no row gives any. -/
def decodeTableWord (_nbits _w : Nat) : Option Instr := none

end Sys2Proof
end

