-- ==== Sys2Proof/Machine/State.lean ====
section
/-! DEFINITION. The state of the device, as plain data. A value kept by number is a `Tab`: a list of pairs in rising order of
the number. The registers of the register maps are held in one table by 32-bit address (R39 to R41), where an address that
is not listed holds its reset value; the rest of the state is held in the structures below. -/

namespace Sys2Proof.Machine

/-- A table by number: pairs in strictly rising order of the number. -/
abbrev Tab (α : Type) := List (Nat × α)

/-- Why the block stops. No command of the spec stops it: every row has an effect in every state. -/
inductive Fault where
  /-- Raised by no meaning. It stands because the interface asks for a reason type; safe. -/
  | unreachable
  deriving DecidableEq, Repr

/-- Why a command is not run. -/
inductive Refusal where
  /-- The command has no meaning in this model yet; safe, the block stops where the device goes on. -/
  | notModelled (mnemonic : String)
  deriving DecidableEq, Repr

/-- The stores inside the device (R36, R37, R281): bytes by device address, tiers 0x0 to 0x2, and for each block the XOR
of its stored check with the CRC-32C of its stored data. A byte not listed reads 0x00, a block not listed has a good check. -/
structure Memory where
  bytes : List Host.Cell
  syn   : Tab W32
  deriving DecidableEq, Repr

/-- The reset level the device is in (R503, R529). -/
inductive Level where
  | run | system | tripHold | powerOn
  deriving DecidableEq, Repr

/-- The fret timebase and the drone network of the device (R43 to R75). -/
structure Ft where
  /-- cycle of the current fret at which the last timed event fell -/
  cycle : Nat
  /-- the hold latch of this fret has been taken (R51) -/
  latched : Bool
  /-- the settle point of this fret has been taken (R66) -/
  settled : Bool
  /-- the guard band of this fret has begun -/
  guard : Bool
  /-- position flags pending in the local contribution (R61) -/
  posFlags : W64
  /-- those of them raised since this fret's sample (R61) -/
  freshPos : W64
  /-- TAB_MAX pending, and as raised since this fret's sample -/
  tabMax : W16
  freshTabMax : W16
  /-- the contribution sampled at this fret's cycle 0 (R57) -/
  sample : W128
  /-- the drone word folded so far in this fret (R62) -/
  word : W128
  /-- the hold vote folded so far in this fret (R63) -/
  voteReq : Bool
  voteLen : W16
  voteTherm : W16
  /-- HOLD_REQ of the vote latched at cycle 240 -/
  latchedReq : Bool
  /-- no further line launches in this fret (R67) -/
  launchStop : Bool
  /-- the ABORT still to be latched was raised for a hold split (R67), which DETAIL of ABORT_LATCHED tells -/
  split : Bool
  /-- hold length asked for by DRONE_RAISE for the next sample (R52, R69) -/
  hostHold : W16
  /-- hold length that the warden asks for in the next sample (R52) -/
  wardenHold : W16
  /-- values of FRET_CONFIG that wait for their apply fret (R47) -/
  pendingCfg : Option (Nat × Nat × Nat × Nat)
  /-- a valid marker arrived in this guard band (R73) -/
  markerSeen : Bool
  /-- what the last marker taken announces: the next FT_FRET_NUM, P, G and S of the leader (R70) -/
  marker : Option (Nat × Nat × Nat × Nat)
  /-- the device holds with cause LEADER: outside 8 ns, or leader lost (R71, R73) -/
  leaderHold : Bool
  /-- consecutive frets within bound (R71) -/
  aligned : Nat
  /-- the hedge count must still be adopted from the leader's marker: after HEDGE_JOIN or a takeover (R72, R73) -/
  adopt : Bool
  /-- trim to be applied at the end of this guard band, cycles (R49) -/
  trim : Int
  /-- consecutive hold frets, for the log entry of class 0x19 (R534) -/
  holdRun : Nat
  /-- the local causes recorded for the current sample, for REMOTE -/
  localCause : Bool
  /-- hold frets that the last hold vote asked for and that are still to come (R52); HOLD_REMAIN shows it saturated -/
  remain : Nat
  /-- drone frames sent in this fret (R62) -/
  frames : Nat
  deriving DecidableEq, Repr

/-- One tab line of the position a course runs (R81), and where it stands. -/
inductive LinePhase where
  | waiting | held | launched | worked | done | skipped | abandoned
  deriving DecidableEq, Repr

/-- The fields of a tab line (R81). -/
structure Line where
  offset : Nat
  unit : Nat
  pred : Nat
  path : Nat
  dep : Nat
  wcCompute : Nat
  wcXfer : Nat
  desc : Nat
  window : Nat
  deriving DecidableEq, Repr

/-- A line in the line buffer (R138). `prog` counts the steps a line that works over several commands has taken, and
`idle` the frets it has made no progress (R505). -/
structure LineSt where
  ln : Line
  phase : LinePhase
  prog : Nat
  idle : Nat
  /-- the descriptors as the unit read them when it started the line's work (R189, R248, R297), by address -/
  read : Tab (List Byte)
  /-- the drone word visible to the line: the one latched when its OFFSET came (R66) -/
  word : W128
  /-- the line found its unit busy, or a line of it held back, when its OFFSET or its predicate came (R96, R141) -/
  late : Bool
  /-- the value a SET_PRED line has given its predicate (R83) -/
  wrote : Option Bool
  /-- causes recorded for the line when it ran past the end of a fret (R56): RESEND, FAR_LATE, OVERRUN -/
  resend : Bool
  farLate : Bool
  overrun : Bool
  deriving DecidableEq, Repr

/-- A LOOP of a routine in work (R149): index of the first body instruction, index after the body, iterations, iteration. -/
structure LoopSt where
  first : Nat
  after : Nat
  count : Nat
  iter : Nat
  deriving DecidableEq, Repr

/-- The routine engine while a routine runs (R147, R152). -/
structure Routine where
  line : Nat
  set : Nat
  ctx : Nat
  code : List W32
  /-- WRITE_MASK and READ_MASK of its header (R148, R151) -/
  wmask : Nat
  rmask : Nat
  pc : Nat
  cost : Nat
  wc : Nat
  loops : List LoopSt
  deriving DecidableEq, Repr

/-- What a resident register set holds beside its registers (R157): line count, line-stream pointer, pass count.
The scalars, predicates, context and position are the registers CC_SREG, CC_SET and CC_POS. -/
structure CSet where
  lineCount : Nat
  ptr : Nat
  pass : Nat
  deriving DecidableEq, Repr

/-- One level or the root of a cell's merge stack: a node of the tile, its cells' bits by cell index (R202). -/
structure Node where
  cells : List (Option W32)
  deriving DecidableEq, Repr

/-- What an AB group holds of its open accumulation (R197 to R207): the address of its descriptor, the next offset, the nodes of
the occupied levels that the buffer holds (16 for the root), rows and columns of the last product line, the running amax. SPAN,
ROOT_BASE, INT32 and the occupied levels are the registers AB_GROUP and AB_NEXT. -/
structure Accum where
  open_ : Bool
  held : Bool
  acc : Nat
  next : Nat
  levels : Tab Node
  lastM : Nat
  lastN : Nat
  lastQuad : Bool
  amax : Nat
  deriving DecidableEq, Repr

/-- The units of one course. -/
structure Course where
  sets : Tab CSet
  /-- v0 to v31 of set n at 32n + k, 128 lanes of 32 bits, lane 0 lowest (R136, R157) -/
  vregs : Tab (BitVec 4096)
  /-- m0 to m7 of set n at 8n + k (R157) -/
  mregs : Tab W128
  /-- the line buffer: the lines of the position of the active set (R138) -/
  lines : List LineSt
  /-- the lines fetched for the next fret, and their context (R138) -/
  fetched : Option (Nat × List Line)
  /-- the context whose lines are in the buffer -/
  runner : Option Nat
  /-- the predicates as they stood when the position started (R83) -/
  predsAt : Nat
  routine : Option Routine
  /-- the AB groups (R198) -/
  groups : Tab Accum
  /-- whether the nodes of a tie area are INT32 (R196), by TIE_ADDR, from the first node to the DRAIN (log 111) -/
  ties : Tab Bool
  deriving DecidableEq, Repr

/-- The states of a context (R389). -/
inductive CtxSt where
  | free | loaded | runnable | resident | parked | faulted
  deriving DecidableEq, Repr

/-- How a running context stops at the next fret boundary (R395). -/
structure Stop where
  tgt : CtxSt
  status : W16
  detail : W16
  param : W32
  deriving DecidableEq, Repr

/-- A context descriptor (R389), and beside it what the device keeps of a running context. -/
structure Ctx where
  st : CtxSt
  kind : Nat
  partition : Nat
  filler : Byte
  priority : Byte
  tabValid : Bool
  seed : W64
  mask : BitVec 96
  /-- COURSE_MASK of the loaded tab, within the courses allocated (R87 check 0x13, R395) -/
  tabMask : BitVec 96
  tabOff : Nat
  tabSpace : Nat
  saveOff : Nat
  pos : Nat
  passes : Nat
  runFrets : Nat
  startFret : Nat
  parkPos : Option Nat
  lastStatus : W16
  lastDetail : W16
  lastParam : W32
  tabDigest : List Byte
  /-- the stop that waits for the fret boundary -/
  stop : Option Stop
  /-- the start or resume fret has been reached (R392) -/
  begun : Bool
  /-- courses whose set takes a zero image at the first residency after CTX_START (R398) -/
  fresh : BitVec 96
  /-- a position has started and is not complete -/
  posOpen : Bool
  /-- the context ran in this fret -/
  ran : Bool
  /-- the host command that destroys it (R391) -/
  destroy : Option (Fin 2 × W16)
  /-- blocks each receive window has counted (R79) -/
  win : Tab Nat
  /-- non-hold frets run in the current window of 64 (R402) -/
  windowRuns : Nat
  /-- the status a change of the hardware gave a loaded context that no longer fits (R93); OK for none -/
  hwStatus : W16
  deriving DecidableEq, Repr

/-- How far a core reset of a tower has come (R508 to R510). -/
inductive ResetStep where
  | none | waiting | fenced | asserted | retraining
  deriving DecidableEq, Repr

/-- What ST keeps of a tower beside its registers. -/
structure Tower where
  step : ResetStep
  /-- source of the core reset: 0 host, 1 escalation, 2 fence -/
  why : Nat
  waited : Nat
  held : Bool
  restore : Bool
  /-- bundles entered for a targeted test, oldest first (R487) -/
  queue : List Nat
  /-- the field pass in work: bundles still to be tested, 4 × key + timing point (R494) -/
  field : List Nat
  /-- a BIST_RUN or TOWER_RESTORE waits for these tests; its verdict counts (R497, R499) -/
  bist : Bool
  lasting : Nat
  narrowings : Nat
  /-- wear counting (R495) -/
  rising : Bool
  peak : Int
  seenPeak : Bool
  halfCycles : Nat
  warned : Bool
  deriving DecidableEq, Repr

/-- A bundle of lanes (R476 to R491). `spares` maps a failed lane to the spare that covers it. -/
structure Bundle where
  /-- 0 full, 1 spared, 2 narrowed low, 3 narrowed high, 4 failed -/
  state : Nat
  failed : List Nat
  spares : Tab Nat
  lasting : Nat
  transients : Nat
  replays : Nat
  /-- the test it is under: 0 none, 1 targeted, 2 to 4 a field test at the nominal, early or late point (R486, R494) -/
  underTest : Nat
  /-- a remap, narrowing or retraining is under way (R482, R489, R490), and the state it ends in -/
  remapping : Bool
  next : Nat
  expectSeq : Nat
  nakSeq : Nat
  nakRun : Nat
  /-- blocks kept until acknowledged (R481) -/
  resend : List Nat
  /-- DIR of the direction in work, flits carried since the last turn, up to 128, and expectSeq, nakSeq and nakRun of the other
  direction (R479) -/
  dir : Bool
  run : Nat
  back : Nat × Nat × Nat
  /-- the highest SEQ received in order and not yet acknowledged, and the flits received since the last acknowledgement (R480) -/
  pend : Option Nat
  heard : Nat
  deriving DecidableEq, Repr

/-- The payload of a numbered flit: a slice of the packet stream, or scalar-lane values (R338). -/
inductive TxFlit where
  | data (bytes : List Byte)
  | scalar (m : ScalarMsg)
  deriving DecidableEq, Repr

/-- A peer port (0 to 23) or a host quarter (24 to 31): its link layer (R337 to R344, R419). -/
structure Link where
  cable : Bool
  /-- retraining after a lane failure or NAKs, or under RETRAIN_FULL (R344, R345), and whether it was narrowed before -/
  retraining : Bool
  full : Bool
  wasNarrow : Bool
  /-- the neighbour that training found: rank and port (R349) -/
  nbr : Option (Nat × Nat)
  /-- numbered flits sent, modulo 512: the next SEQ, the buffers advertised (R339, R340) -/
  nextSeq : Nat
  credit : Nat
  /-- the next SEQ expected, and the numbered flits received since the last LINK flit sent -/
  expect : Nat
  unsaid : Nat
  /-- the SEQ last NAKed to this transmitter, and how often in a row -/
  nakSeq : Nat
  nakRun : Nat
  /-- flits sent and not acknowledged, with their SEQ, and the two queues of flits that wait for a free buffer: SCALAR flits and the
  own packets of a port or the control packets of a quarter; what a port forwards or the memory packets of a quarter (R350, R422) -/
  replay : List (Nat × TxFlit)
  txq : List TxFlit
  txq2 : List TxFlit
  /-- flit slots used, modulo 256 (R350, R422) -/
  slot : Nat
  /-- the packet being received, and the blocks whose packet header failed its CRC, once for each copy (R354): sender, context, tag,
  step and block index -/
  rx : List Byte
  hdrBad : List (List Nat)
  /-- the lanes arrive in reversed order, and the lanes of inverted polarity (R552) -/
  reversed : Bool
  inverted : Nat
  deriving DecidableEq, Repr

/-- A packet sent or queued: its header fields (R424, R425) and its payload. -/
structure Pkt where
  typ : Nat
  opcode : W16
  ctx : W16
  tag : W16
  status : W16
  detail : W16
  fret : W64
  param : W32
  p0 : W32
  p1 : W32
  p2 : W32
  p3 : W32
  payload : List Blk
  deriving DecidableEq, Repr

/-- A command that replied ACCEPTED and waits for its conclusion (R433). -/
structure HostJob where
  h : HostCmd
  opcode : Nat
  /-- the final status, once the work behind it has ended -/
  result : Option (W16 × W16)
  deriving DecidableEq, Repr

/-- A memory request (R440, R441): on its quarter, or waiting for room there. `who` is the client that waits for it: a tab
line 256 × course + line, a host command, a ladder, the checkpoint stream or boot. -/
structure FarReq where
  quarter : Nat
  tag : Nat
  sent : Bool
  opcode : Nat
  off : Nat
  count : Nat
  reread : Bool
  medium : Bool
  who : Nat
  ctx : Nat
  blocks : List Blk
  deriving DecidableEq, Repr

/-- A far block that has arrived for a client that still waits for others: its device address. -/
structure FarGot where
  who : Nat
  addr : Nat
  blk : Blk
  deriving DecidableEq, Repr

/-- The host link and the command interpreter. -/
structure Hl where
  events : List Pkt
  lost : Nat
  /-- tags outstanding by port -/
  outstanding : List (Nat × W16)
  jobs : List HostJob
  /-- commands that have been checked and counted and wait for an earlier one on the same range, context or slots, in order of their start
  (R431) -/
  held : List HostJob
  far : List FarReq
  farGot : List FarGot
  nextTag : Tab Nat
  deriving DecidableEq, Repr

/-- The hedge the device has joined, and the route image (R72, R347 to R349). -/
structure Hedge where
  joined : Bool
  size : Nat
  rank : Nat
  route : List Byte
  deriving DecidableEq, Repr

/-- One warden (R448, R456, R469). -/
structure Warden where
  ready : Bool
  custody : Bool
  epoch : Nat
  seq : Nat
  /-- misses still counted against 64 after RESTARTING (R470) -/
  grace : Nat
  lostOnce : Bool
  gotBeat : Bool
  /-- consecutive heartbeats missed (R470) -/
  run : Nat
  everReady : Bool
  /-- rounds since this warden's watchdog expired, none if it has not -/
  dog : Option Nat
  deriving DecidableEq, Repr

/-- Field update, flash slots and the OTP array (R450 to R468). -/
structure Fw where
  state : Nat
  /-- images written over the shipped ones: key 16 × slot + component -/
  images : Tab (List Byte)
  deltas : Tab (List Byte)
  /-- blocks staged for each component of the inactive slot -/
  staged : Tab (List Nat)
  active : Nat
  recordSeq : Nat
  pendingFloors : List Nat
  burnt : List Nat
  lastStatus : W16
  lastDetail : W16
  commit : Nat
  job : Option (Fin 2 × W16)
  hold : Bool
  reverify : Bool
  flashBad : Bool
  loaded : Bool
  restarted : List Nat
  measure : Tab (List Byte)
  arbEpoch : Nat
  powerCycles : Nat
  wearLog : List Nat
  wearSeq : Nat
  signs : Nat
  /-- the boot image as it has arrived from the host link (R455) -/
  bootImg : List Byte
  deriving DecidableEq, Repr

/-- A service (R404 to R415). -/
structure Service where
  active : Bool
  share : Nat
  config : List Byte
  queue : List HostCmd
  /-- checkpoint: which of the two destinations comes next (R411) -/
  alt : Nat
  /-- digest: the runs whose root has been built and not compared (R414) -/
  due : List Nat
  /-- digest: where the weights of each run begin, from its last DIGEST pass (R330) -/
  bases : Tab Nat
  /-- digest: blocks to be repaired in the holds that it raises (R331) -/
  repairs : List DigestDiff
  /-- the block of a SVC_START that replaces the configuration at the next fret boundary (R406) -/
  next : Option (List Byte)
  /-- checkpoint: position and pass of the last checkpoint that the service has asked for (R411) -/
  asked : Option (Nat × Nat)
  deriving DecidableEq, Repr

/-- A checkpoint asked for or in work (R411 to R413). -/
structure Ckpt where
  ctx : Nat
  slot : Nat
  pos : Nat
  dest : Nat
  far : Nat
  regions : List Byte
  job : Option (Fin 2 × W16)
  running : Bool
  sent : Bool
  total : Nat
  digest : List Byte
  deriving DecidableEq, Repr

/-- A block on the re-read ladder (R287). -/
structure Ladder where
  block : Nat
  step : Nat
  tries : Nat
  unit : Nat
  course : Nat
  set : Nat
  ctx : Nat
  pos : Nat
  /-- store check of step 2: none not yet run -/
  store : Option Bool
  /-- bundles still to be tested, and whether one of those tested failed -/
  segs : List Nat
  pathFailed : Bool
  /-- the block was delivered at step 1 and only the path is still to be tested (R288) -/
  after : Bool
  /-- for a far block: the clients that wait for it -/
  clients : List Nat
  deriving DecidableEq, Repr

/-- An entry of the fault log (R541). -/
structure LogEntry where
  seq : Nat
  cls : Nat
  tower : Nat
  source : Nat
  fret : Nat
  status : W16
  detail : W16
  ctx : Nat
  index : Nat
  addr : Nat
  pos : Nat
  param : Nat
  event : Nat
  course : Nat
  flags : Nat
  dropped : Nat
  deriving DecidableEq, Repr

/-- The fault log (R540): entries in flash, the queues of the root dies, the entries dropped, the next number. -/
structure Log where
  flash : List LogEntry
  queues : Tab (List LogEntry)
  dropped : Tab Nat
  next : Nat
  deriving DecidableEq, Repr

/-- The pins and straps (R513, R514, R559) and what stands behind the temperature logic (R520 to R529). -/
structure Board where
  bootSrc : BitVec 2
  clkMode : BitVec 2
  alertN : Bool
  tripN : Bool
  leak : Bool
  fretPulse : Nat
  /-- boundary scan: instruction (0 BYPASS, 1 IDCODE, 2 SAMPLE/PRELOAD, 3 EXTEST), the bypass bit of each root die, scan cells -/
  tapInstr : Nat
  bypass : List Bool
  cells : List Bool
  /-- readings of the last round by sensor; the last ten zone values, newest first; suspicion counts -/
  zoneHist : Tab (List (Option Int))
  badRun : Tab Nat
  goodRun : Tab Nat
  tripRun : Tab Nat
  levelRun : Nat
  overRun : Nat
  underRun : Nat
  railRun : Tab Nat
  warnNow : Bool
  coolRounds : Nat
  rounds : Nat
  deriving DecidableEq, Repr

/-- A message of a collective or a point-to-point send received and not yet used, and what the format-health unit and
the step machinery keep beside their registers. -/
structure RxBlock where
  ctx : Nat
  tag : Nat
  src : Nat
  step : Nat
  index : Nat
  blk : Blk
  deriving DecidableEq, Repr

/-- What a line has sent to a rank, so that a re-send request can be served (R353, R359): the device address each block was
read from (0 for one that stands in no block of its own) and the block as it left. -/
structure Sent where
  dest : Nat
  kind : Nat
  ctx : Nat
  tag : Nat
  step : Nat
  addr : Nat
  items : List (Nat × Blk)
  deriving DecidableEq, Repr

/-- A block that arrived and failed its check, asked for again (R353). -/
structure Want where
  src : Nat
  kind : Nat
  ctx : Nat
  tag : Nat
  step : Nat
  index : Nat
  addr : Nat
  port : Nat
  tries : Nat
  deriving DecidableEq, Repr

/-- A step slot beside its registers (R304 to R316). -/
structure Slot where
  param : List Byte
  normStack : Tab W32
  normNext : Nat
  verdict : Nat
  posNormed : Nat
  /-- the passes that wrote working weights at the T beside them: launching course and descriptor (R319, R331) -/
  derived : List (Nat × List Byte)
  derivedT : Nat
  /-- the merge stacks of segment sums that a later pass goes on with (R223, R324): by twice the address of the table entry, plus 1 for
  the sum of δ × δ, the nodes by level -/
  trust : Tab (Tab Nat)
  deriving DecidableEq, Repr

/-- Live format-health counts by tensor set (R132). -/
structure FhLive where
  total : Nat
  ovr : Nat
  under : Nat
  deriving DecidableEq, Repr

/-- What the device sends out (R425, R440, R62, R70, R338, R469, R558, R559). A `reply`, `event` or `memReq` is a packet handed to the
link layer of its quarter; its flits follow as `flit`. -/
inductive Out where
  | reply (port : Nat) (p : Pkt)
  | event (port : Nat) (p : Pkt)
  | memReq (quarter : Nat) (p : Pkt)
  | flit (link : Nat) (bytes : List Byte)
  | scalar (link : Nat) (m : ScalarMsg) (bytes : List Byte)
  | link (link : Nat) (m : LinkMsg) (bytes : List Byte)
  | drone (port : Nat) (bytes : List Byte)
  | marker (port : Nat) (bytes : List Byte)
  | heartbeat (tower : Nat) (epoch : W64) (seq : W16) (restarting : Bool)
  | bundleAck (b : BundleId) (seq : Nat)
  | bundleNak (b : BundleId) (seq : Nat)
  | fretPulse (width : Nat)
  | smb (bytes : List Byte)
  | jtag (bits : List Bool)
  deriving DecidableEq, Repr

/-- Everything but the command queue and the stores. -/
structure Dev where
  level : Level
  regs : Tab W64
  ft : Ft
  courses : Tab Course
  ctxs : Tab Ctx
  towers : Tab Tower
  bundles : Tab Bundle
  links : Tab Link
  hl : Hl
  hedge : Hedge
  wardens : Tab Warden
  fw : Fw
  svcs : Tab Service
  ckpts : List Ckpt
  ladders : List Ladder
  /-- blocks that went on the ladder, each with the line (256 × course + line) that still waits for what it held (R301) -/
  waits : List (Nat × Nat)
  rx : List RxBlock
  /-- what running and past lines have sent, blocks asked for again, scalar values received, and the values a scalar line
  holds (R353, R364) -/
  sent : List Sent
  wants : List Want
  srx : List ScalarMsg
  efVals : Tab (List W32)
  slots : Tab Slot
  fh : Tab FhLive
  fhPositions : Nat
  /-- a write of FH_CTRL or FH_WINDOW: the window starts over at the next position start (R134) -/
  fhRestart : Bool
  log : Log
  board : Board
  out : List Out
  /-- the rank in the order of R399 of the standalone context that was chosen first in the last fret that ran one (R401) -/
  turn : Option Nat
  /-- counts the free values drawn (log 3) -/
  free : Nat
  deriving DecidableEq, Repr

/-- The block: the commands that wait, first in first out; the stores; everything else. -/
structure State where
  pending : List Instr
  mem : Memory
  dev : Dev
  deriving DecidableEq, Repr

/-- FT after a reset that clears it. -/
def Ft.init : Ft :=
  { cycle := 0, latched := false, settled := false, guard := false, posFlags := 0, freshPos := 0, tabMax := 0,
    freshTabMax := 0, sample := 0, word := 0, voteReq := false, voteLen := 0, voteTherm := 0, latchedReq := false,
    launchStop := false, split := false, hostHold := 0, wardenHold := 0,
    pendingCfg := none, markerSeen := false, marker := none, leaderHold := false, aligned := 0, adopt := false, trim := 0, holdRun := 0,
    localCause := false, remain := 0, frames := 0 }

/-- A course with nothing resident (R504). -/
def Course.init : Course :=
  { sets := [], vregs := [], mregs := [], lines := [], fetched := none, runner := none, predsAt := 0, routine := none, groups := [], ties := [] }

/-- A line as it enters the line buffer: its OFFSET has not come (R138). -/
def LineSt.init (l : Line) : LineSt :=
  { ln := l, phase := .waiting, prog := 0, idle := 0, read := [], word := 0, late := false, wrote := none, resend := false, farLate := false, overrun := false }

/-- A FREE context (R389). -/
def Ctx.init : Ctx :=
  { st := .free, kind := 0, partition := 0, filler := 0, priority := 0, tabValid := false, seed := 0, mask := 0, tabMask := 0,
    tabOff := 0, tabSpace := 0, saveOff := 0, pos := 0, passes := 0, runFrets := 0, startFret := 0, parkPos := none,
    lastStatus := 0, lastDetail := 0, lastParam := 0, tabDigest := [], stop := none, begun := false, fresh := 0,
    posOpen := false, ran := false, destroy := none, win := [], windowRuns := 0, hwStatus := 0 }

def Tower.init : Tower :=
  { step := .none, why := 0, waited := 0, held := false, restore := false, queue := [], field := [], bist := false, lasting := 0,
    narrowings := 0, rising := true, peak := 0, seenPeak := false, halfCycles := 0, warned := false }

def Bundle.init : Bundle :=
  { state := 0, failed := [], spares := [], lasting := 0, transients := 0, replays := 0,
    underTest := 0, remapping := false, next := 0, expectSeq := 0, nakSeq := 0, nakRun := 0, resend := [],
    dir := false, run := 0, back := (0, 0, 0), pend := none, heard := 0 }

def Link.init : Link :=
  { cable := false, retraining := false, full := false, wasNarrow := false, nbr := none, nextSeq := 0, 
    credit := 128, expect := 0, unsaid := 0, nakSeq := 0, nakRun := 0, replay := [], txq := [], txq2 := [], slot := 0, rx := [],
    hdrBad := [], reversed := false, inverted := 0 }

def Hl.init : Hl :=
  { events := [], lost := 0, outstanding := [], jobs := [], held := [], far := [], farGot := [], nextTag := [] }

def Hedge.init : Hedge := { joined := false, size := 1, rank := 0, route := [] }

def Warden.init : Warden :=
  { ready := false, custody := false, epoch := 0, seq := 0, grace := 0, lostOnce := false,
    gotBeat := false, run := 0, everReady := false, dog := none }

def Fw.init : Fw :=
  { state := 0, images := [], deltas := [], staged := [], active := 0, recordSeq := 0, pendingFloors := [], burnt := [],
    lastStatus := 0, lastDetail := 0, commit := 0, job := none, hold := false, reverify := false,
    flashBad := false, loaded := false, restarted := [], measure := [], arbEpoch := 0, powerCycles := 0, wearLog := [],
    wearSeq := 0, signs := 0, bootImg := [] }

def Service.init : Service := { active := false, share := 0, config := [], queue := [], alt := 0, due := [], bases := [], repairs := [], next := none, asked := none }

def Slot.init : Slot :=
  { param := [], normStack := [], normNext := 0, verdict := 0, posNormed := 0, derived := [], derivedT := 0, trust := [] }

def Log.init : Log := { flash := [], queues := [], dropped := [], next := 0 }

def Board.init : Board :=
  { bootSrc := 0, clkMode := 0, alertN := true, tripN := true, leak := false, fretPulse := 0, tapInstr := 1, bypass := [],
    cells := [], zoneHist := [], badRun := [], goodRun := [], tripRun := [], levelRun := 0, overRun := 0, underRun := 0,
    railRun := [], warnNow := false, coolRounds := 0, rounds := 0 }

def Memory.empty : Memory := { bytes := [], syn := [] }

/-- The device as a power-on reset leaves it, before POWER_ON_RESET_RELEASE (R13, R504, R511): every register at its reset
value, nothing resident, no context loaded, memory with nothing listed. -/
def Dev.reset : Dev :=
  { level := .powerOn, regs := [], ft := .init, courses := [], ctxs := [], towers := [], bundles := [], links := [],
    hl := .init, hedge := .init, wardens := [], fw := .init, svcs := [], ckpts := [], ladders := [], waits := [], rx := [], sent := [], wants := [], srx := [], efVals := [], slots := [],
    fh := [], fhPositions := 0, fhRestart := false, log := .init, board := .init, out := [], turn := none, free := 0 }

/-- The block right after reset: no command waits. -/
def State.reset : State := { pending := [], mem := .empty, dev := .reset }

end Sys2Proof.Machine
end

