-- ==== Sys2Proof/Machine/Bits.lean ====
section
/-! DEFINITION. Tables, bit fields, byte order and the checks (R8, R9, R10, R341, R478). -/

namespace Sys2Proof.Machine

/-- The value a table holds at a number. -/
def tfind {α : Type} : Tab α → Nat → Option α
  | [], _ => none
  | (k, v) :: t, n => if k = n then some v else tfind t n

/-- The value a table holds at a number, or the value of an entry that is not listed. -/
def tget {α : Type} (dflt : α) (t : Tab α) (n : Nat) : α := (tfind t n).getD dflt

/-- The table without its entry at a number. -/
def tdel {α : Type} (t : Tab α) (n : Nat) : Tab α := t.filter (fun e => decide (e.1 ≠ n))

/-- The table with an entry set, the numbers still rising. -/
def tput {α : Type} (t : Tab α) (n : Nat) (v : α) : Tab α :=
  t.filter (fun e => decide (e.1 < n)) ++ (n, v) :: t.filter (fun e => decide (n < e.1))

/-- The field [hi:lo] of a number. -/
def bitsOf (x hi lo : Nat) : Nat := (x >>> lo) % 2 ^ (hi + 1 - lo)

/-- Bit `n` of a number. -/
def bitOf (x n : Nat) : Bool := (x >>> n) % 2 == 1

/-- The field [hi:lo] of a word. -/
def fieldOf (v : W64) (hi lo : Nat) : Nat := bitsOf v.toNat hi lo

/-- A word with its field [hi:lo] set to the low bits of a number. -/
def withField (v : W64) (hi lo x : Nat) : W64 :=
  let m := (2 ^ (hi + 1 - lo) - 1) <<< lo
  BitVec.ofNat 64 ((v.toNat - (v.toNat &&& m)) + ((x <<< lo) &&& m))

/-- A number as `n` bytes, the least significant at the lowest offset (R9). -/
def leBytes : Nat → Nat → List Byte
  | 0, _ => []
  | n + 1, x => BitVec.ofNat 8 (x % 256) :: leBytes n (x / 256)

/-- The number that bytes spell, the least significant first (R9). -/
def leNat : List Byte → Nat
  | [] => 0
  | b :: bs => b.toNat + 256 * leNat bs

/-- Bytes [a, a + n) of a list, with zeros past its end. -/
def slice (bs : List Byte) (a n : Nat) : List Byte :=
  let t := (bs.drop a).take n
  t ++ List.replicate (n - t.length) 0

/-- The number in bytes [a, a + n) of a list. -/
def numAt (bs : List Byte) (a n : Nat) : Nat := leNat ((bs.drop a).take n)

/-- Whether bytes [a, b) of a list are all zero. -/
def zeroAt (bs : List Byte) (a b : Nat) : Bool := ((bs.drop a).take (b - a)).all (· == 0)

/-- A list of bytes padded with zeros, or cut, to `n` bytes. -/
def padTo (n : Nat) (bs : List Byte) : List Byte := slice bs 0 n

/-- Cut a list into pieces of `n`, the last padded with zeros; `fuel` bounds the pieces. -/
def chunks (n : Nat) : Nat → List Byte → List (List Byte)
  | 0, _ => []
  | fuel + 1, bs => if bs.isEmpty then [] else slice bs 0 n :: chunks n fuel (bs.drop n)

/-- `⌈a / b⌉`. -/
def ceilDiv (a b : Nat) : Nat := (a + b - 1) / b

/-- The signed reading of an `n`-bit number. -/
def signedOf (n x : Nat) : Int := if x < 2 ^ (n - 1) then (x : Int) else (x : Int) - 2 ^ n

/-- Fold a step `n` times. -/
def iter {α : Type} (f : α → α) : Nat → α → α
  | 0, a => a
  | n + 1, a => iter f n (f a)

/-- The first number below `n` that a test accepts. -/
def firstBelow (p : Nat → Bool) : Nat → Nat → Option Nat
  | 0, _ => none
  | fuel + 1, i => if p i then some i else firstBelow p fuel (i + 1)

/-- One bit step of a reflected CRC. -/
def crcStepR (poly x : Nat) : Nat := if x % 2 = 1 then (x >>> 1) ^^^ poly else x >>> 1

/-- CRC-32C of bytes in ascending order (R10): reflected polynomial 0x82F6_3B78. -/
def crc32c (bs : List Byte) : W32 :=
  BitVec.ofNat 32 ((bs.foldl (fun c b => iter (crcStepR 0x82F63B78) 8 (c ^^^ b.toNat)) 0xFFFFFFFF) ^^^ 0xFFFFFFFF)

/-- One bit step of a CRC shifted left, `w` bits wide. -/
def crcStepL (w poly x : Nat) : Nat :=
  if (x >>> (w - 1)) % 2 = 1 then ((x <<< 1) ^^^ poly) % 2 ^ w else (x <<< 1) % 2 ^ w

/-- CRC of bytes, not reflected: width, polynomial, initial value. -/
def crcLeft (w poly init : Nat) (bs : List Byte) : Nat :=
  bs.foldl (fun c b => iter (crcStepL w poly) 8 (c ^^^ (b.toNat <<< (w - 8)))) init

/-- CRC-16 of a bundle flit (R478): polynomial 0x1021, initial value 0xFFFF. -/
def crc16 (bs : List Byte) : Nat := crcLeft 16 0x1021 0xFFFF bs

/-- The XOR that marks the poison form of a check (R284). -/
def poisonMark : W32 := 0x504F4953

/-- The 512 data bytes of a block the device writes in poison form (R284): 0x7FC0_0000 repeated. -/
def poisonData : List Byte := (List.replicate 128 [0x00#8, 0x00#8, 0xC0#8, 0x7F#8]).flatten

/-- A saturating count of `w` bits (R16). -/
def satAdd (w x n : Nat) : Nat := min (x + n) (2 ^ w - 1)

end Sys2Proof.Machine
end

