-- ==== Sys2Proof/Machine/Regs.lean ====
section
/-! DEFINITION. The register map: the registers of every chapter's register section, block by block (R12, R13, R39 to R42),
and how a register is read and written. -/

namespace Sys2Proof.Machine

/-- The access codes of R12; a reserved bit belongs to no field. -/
inductive Access where
  | ro | rw | w1c | wo
  deriving DecidableEq, Repr

/-- A field [hi:lo] of a register, its access code and its reset value. -/
structure RegField where
  hi : Nat
  lo : Nat
  acc : Access
  reset : Nat
  deriving DecidableEq, Repr

/-- A register of a block at offset `off`, repeated `n1` times by `s1` bytes and `n2` times by `s2` bytes, in the towers of
the mask, 64 bits wide or 32. -/
structure RegRow where
  name : String
  off : Nat
  n1 : Nat
  s1 : Nat
  n2 : Nat
  s2 : Nat
  towers : Nat
  wide : Bool
  fields : List RegField
  deriving DecidableEq, Repr

/-- Registers of the block ident (R42). -/
def rowsIdent : List RegRow := [
  ⟨"IDENT_DEVICE", 0x0, 1, 0x0, 1, 0x0, 0x1, true, [⟨63, 48, .ro, 0x4D4C⟩, ⟨47, 32, .ro, 0x740⟩, ⟨31, 24, .ro, 0xA⟩, ⟨23, 16, .ro, 0xFF⟩, ⟨15, 8, .ro, 0x0⟩]⟩,
  ⟨"IDENT_BUILD", 0x8, 1, 0x0, 1, 0x0, 0x1, true, [⟨63, 48, .ro, 0x0⟩, ⟨47, 32, .ro, 0x0⟩, ⟨31, 16, .ro, 0x0⟩, ⟨15, 8, .ro, 0x0⟩]⟩]

/-- Registers of the block rst (R532). -/
def rowsRst : List RegRow := [
  ⟨"RST_CAUSE", 0x0, 1, 0x0, 1, 0x0, 0xFF, false, [⟨10, 10, .w1c, 0x0⟩, ⟨9, 9, .w1c, 0x0⟩, ⟨8, 8, .w1c, 0x0⟩, ⟨7, 7, .w1c, 0x0⟩, ⟨6, 6, .w1c, 0x0⟩, ⟨5, 5, .w1c, 0x0⟩, ⟨4, 4, .w1c, 0x0⟩, ⟨3, 3, .w1c, 0x0⟩, ⟨2, 2, .w1c, 0x0⟩, ⟨1, 1, .w1c, 0x0⟩, ⟨0, 0, .w1c, 0x1⟩]⟩,
  ⟨"RST_STATUS", 0x8, 1, 0x0, 1, 0x0, 0xFF, false, [⟨11, 8, .ro, 0x0⟩, ⟨1, 1, .ro, 0x0⟩, ⟨0, 0, .ro, 0x0⟩]⟩,
  ⟨"RST_STRAPS", 0xC, 1, 0x0, 1, 0x0, 0xFF, false, [⟨4, 4, .ro, 0x0⟩, ⟨3, 2, .ro, 0x0⟩, ⟨1, 0, .ro, 0x0⟩]⟩,
  ⟨"RST_CORE_COUNT", 0x10, 1, 0x0, 1, 0x0, 0xFF, true, [⟨63, 0, .ro, 0x0⟩]⟩,
  ⟨"RST_SYS_COUNT", 0x18, 1, 0x0, 1, 0x0, 0xFF, false, [⟨31, 0, .ro, 0x0⟩]⟩,
  ⟨"CLK_STATUS", 0x20, 1, 0x0, 1, 0x0, 0xFF, false, [⟨3, 2, .ro, 0x0⟩, ⟨1, 1, .ro, 0x0⟩, ⟨0, 0, .ro, 0x0⟩]⟩,
  ⟨"CLK_FRET_OUT", 0x28, 1, 0x0, 1, 0x0, 0x1, false, [⟨15, 8, .rw, 0x10⟩, ⟨0, 0, .rw, 0x0⟩]⟩]

/-- Registers of the block thm (R533). -/
def rowsThm : List RegRow := [
  ⟨"THM_STATUS", 0x0, 1, 0x0, 1, 0x0, 0xFF, false, [⟨31, 24, .ro, 0x0⟩, ⟨23, 16, .ro, 0x0⟩, ⟨15, 8, .ro, 0x0⟩, ⟨2, 2, .ro, 0x0⟩, ⟨1, 0, .ro, 0x0⟩]⟩,
  ⟨"THM_DEVICE", 0x8, 1, 0x0, 1, 0x0, 0x1, false, [⟨31, 24, .rw, 0x3F⟩, ⟨8, 8, .ro, 0x0⟩, ⟨5, 4, .ro, 0x0⟩, ⟨3, 2, .ro, 0x0⟩, ⟨1, 0, .ro, 0x0⟩]⟩,
  ⟨"THM_COUNTS", 0x10, 1, 0x0, 1, 0x0, 0xFF, true, [⟨63, 32, .ro, 0x0⟩, ⟨31, 0, .ro, 0x0⟩]⟩,
  ⟨"THM_FAULT", 0x18, 1, 0x0, 1, 0x0, 0xFF, false, [⟨3, 3, .w1c, 0x0⟩, ⟨2, 2, .w1c, 0x0⟩, ⟨1, 1, .w1c, 0x0⟩, ⟨0, 0, .w1c, 0x0⟩]⟩,
  ⟨"PWR_INPUT", 0x20, 1, 0x0, 1, 0x0, 0x1, true, [⟨47, 32, .ro, 0x0⟩, ⟨31, 16, .ro, 0x0⟩, ⟨15, 0, .ro, 0x0⟩]⟩,
  ⟨"PWR_LIMIT", 0x28, 1, 0x0, 1, 0x0, 0x1, false, [⟨11, 0, .rw, 0xAF0⟩]⟩,
  ⟨"PWR_RAIL_n", 0x40, 6, 0x8, 1, 0x0, 0xFF, true, [⟨47, 32, .ro, 0x0⟩, ⟨31, 16, .ro, 0x0⟩, ⟨1, 1, .w1c, 0x0⟩, ⟨0, 0, .ro, 0x0⟩]⟩,
  ⟨"THM_SENSOR_k", 0x100, 46, 0x8, 1, 0x0, 0xFF, true, [⟨63, 48, .ro, 0x0⟩, ⟨47, 32, .ro, 0x0⟩, ⟨31, 16, .ro, 0x0⟩, ⟨3, 3, .ro, 0x0⟩, ⟨2, 2, .ro, 0x0⟩, ⟨1, 1, .ro, 0x0⟩, ⟨0, 0, .ro, 0x0⟩]⟩]

/-- Registers of the block ft (R102). -/
def rowsFt1 : List RegRow := [
  ⟨"FT_FRET_PERIOD", 0x0, 1, 0x0, 1, 0x0, 0x1, false, [⟨20, 0, .ro, 0x8000⟩]⟩,
  ⟨"FT_GUARD", 0x4, 1, 0x0, 1, 0x0, 0x1, false, [⟨18, 0, .ro, 0x200⟩]⟩,
  ⟨"FT_DRONE_SETTLE", 0x8, 1, 0x0, 1, 0x0, 0x1, false, [⟨19, 0, .ro, 0x800⟩]⟩,
  ⟨"FT_DIAMETER", 0xC, 1, 0x0, 1, 0x0, 0x1, false, [⟨31, 16, .ro, 0x100⟩, ⟨4, 0, .ro, 0x0⟩]⟩,
  ⟨"FT_FRET_NUM", 0x10, 1, 0x0, 1, 0x0, 0x1, true, [⟨63, 0, .ro, 0x0⟩]⟩,
  ⟨"FT_POS", 0x18, 1, 0x0, 1, 0x0, 0x1, true, [⟨63, 0, .ro, 0x0⟩]⟩,
  ⟨"FT_HOLD_STATUS", 0x20, 1, 0x0, 1, 0x0, 0x1, false, [⟨23, 20, .ro, 0x0⟩, ⟨19, 19, .ro, 0x0⟩, ⟨18, 18, .ro, 0x0⟩, ⟨17, 17, .ro, 0x0⟩, ⟨15, 14, .ro, 0x0⟩, ⟨13, 0, .ro, 0x0⟩]⟩,
  ⟨"FT_HOLD_CAUSE", 0x24, 1, 0x0, 1, 0x0, 0x1, false, [⟨11, 11, .w1c, 0x0⟩, ⟨10, 10, .w1c, 0x0⟩, ⟨9, 9, .w1c, 0x0⟩, ⟨8, 0, .w1c, 0x0⟩]⟩,
  ⟨"FT_HOLD_FRETS", 0x28, 1, 0x0, 1, 0x0, 0x1, true, [⟨63, 0, .ro, 0x0⟩]⟩,
  ⟨"FT_DRONE_LATCH_LO", 0x30, 1, 0x0, 1, 0x0, 0x1, true, [⟨63, 0, .ro, 0x0⟩]⟩,
  ⟨"FT_DRONE_LATCH_HI", 0x38, 1, 0x0, 1, 0x0, 0x1, true, [⟨63, 0, .ro, 0x0⟩]⟩,
  ⟨"FT_DRONE_LOCAL", 0x40, 1, 0x0, 1, 0x0, 0x1, true, [⟨63, 0, .ro, 0x0⟩]⟩]

/-- Registers of the block ft (R102). -/
def rowsFt2 : List RegRow := [
  ⟨"FT_LEADER", 0x48, 1, 0x0, 1, 0x0, 0x1, true, [⟨63, 56, .ro, 0x0⟩, ⟨49, 48, .ro, 0x0⟩, ⟨42, 32, .ro, 0x7FF⟩, ⟨25, 16, .ro, 0x0⟩, ⟨9, 0, .ro, 0x0⟩]⟩,
  ⟨"FT_ALIGN", 0x50, 1, 0x0, 1, 0x0, 0x1, false, [⟨31, 16, .ro, 0x0⟩, ⟨15, 0, .ro, 0x0⟩]⟩]

def rowsFt : List RegRow := rowsFt1 ++ rowsFt2

/-- Registers of the block hl (R447). -/
def rowsHl1 : List RegRow := [
  ⟨"HL_STATUS", 0x0, 1, 0x0, 1, 0x0, 0x1, false, [⟨9, 9, .ro, 0x0⟩, ⟨8, 8, .ro, 0x0⟩, ⟨7, 0, .ro, 0x0⟩]⟩,
  ⟨"HL_CTRL", 0x4, 1, 0x0, 1, 0x0, 0x1, false, [⟨0, 0, .rw, 0x0⟩]⟩,
  ⟨"HL_LANE_LIMIT", 0x8, 1, 0x0, 1, 0x0, 0x1, false, [⟨23, 0, .rw, 0xA800⟩]⟩,
  ⟨"HL_COMMANDS", 0x10, 1, 0x0, 1, 0x0, 0x1, true, [⟨63, 0, .ro, 0x0⟩]⟩,
  ⟨"HL_EVENTS_SENT", 0x18, 1, 0x0, 1, 0x0, 0x1, true, [⟨63, 0, .ro, 0x0⟩]⟩,
  ⟨"HL_EVENTS_LOST", 0x20, 1, 0x0, 1, 0x0, 0x1, true, [⟨63, 0, .ro, 0x0⟩]⟩,
  ⟨"HL_HDR_CRC", 0x28, 1, 0x0, 1, 0x0, 0x1, true, [⟨63, 0, .ro, 0x0⟩]⟩,
  ⟨"HL_FAR_READS", 0x30, 1, 0x0, 1, 0x0, 0x1, true, [⟨63, 0, .ro, 0x0⟩]⟩,
  ⟨"HL_FAR_WRITES", 0x38, 1, 0x0, 1, 0x0, 0x1, true, [⟨63, 0, .ro, 0x0⟩]⟩,
  ⟨"HL_FAR_LATE", 0x40, 1, 0x0, 1, 0x0, 0x1, true, [⟨63, 0, .ro, 0x0⟩]⟩,
  ⟨"HL_FAR_MAX_LAT", 0x48, 1, 0x0, 1, 0x0, 0x1, false, [⟨19, 0, .ro, 0x0⟩]⟩,
  ⟨"HL_FAR_MAP", 0x50, 1, 0x0, 1, 0x0, 0x1, true, [⟨51, 32, .ro, 0x0⟩, ⟨12, 0, .ro, 0x0⟩]⟩]

/-- Registers of the block hl (R447). -/
def rowsHl2 : List RegRow := [
  ⟨"HL_FAULT", 0x58, 1, 0x0, 1, 0x0, 0x1, false, [⟨2, 2, .w1c, 0x0⟩, ⟨1, 1, .w1c, 0x0⟩, ⟨0, 0, .w1c, 0x0⟩]⟩,
  ⟨"HL_STRAY", 0x60, 1, 0x0, 1, 0x0, 0x1, true, [⟨63, 0, .ro, 0x0⟩]⟩,
  ⟨"HL_EVENT_SEQ", 0x68, 1, 0x0, 1, 0x0, 0x1, false, [⟨31, 0, .ro, 0x0⟩]⟩,
  ⟨"HL_QUARTER_n_STATUS", 0x100, 8, 0x40, 1, 0x0, 0x1, true, [⟨35, 32, .ro, 0x0⟩, ⟨19, 16, .ro, 0x0⟩, ⟨6, 0, .ro, 0x0⟩]⟩,
  ⟨"HL_QUARTER_n_REPLAYS", 0x108, 8, 0x40, 1, 0x0, 0x1, true, [⟨63, 0, .ro, 0x0⟩]⟩,
  ⟨"HL_QUARTER_n_LINK_CRC", 0x110, 8, 0x40, 1, 0x0, 0x1, true, [⟨63, 0, .ro, 0x0⟩]⟩,
  ⟨"HL_QUARTER_n_FEC", 0x118, 8, 0x40, 1, 0x0, 0x1, true, [⟨63, 32, .ro, 0x0⟩, ⟨31, 0, .ro, 0x0⟩]⟩,
  ⟨"HL_QUARTER_n_RETRAINS", 0x120, 8, 0x40, 1, 0x0, 0x1, false, [⟨31, 0, .ro, 0x0⟩]⟩,
  ⟨"HL_QUARTER_n_CTRL", 0x124, 8, 0x40, 1, 0x0, 0x1, false, [⟨1, 1, .rw, 0x0⟩, ⟨0, 0, .wo, 0x0⟩]⟩]

def rowsHl : List RegRow := rowsHl1 ++ rowsHl2

/-- Registers of the block ef (R376). -/
def rowsEf1 : List RegRow := [
  ⟨"EF_STATUS", 0x0, 1, 0x0, 1, 0x0, 0xFF, false, [⟨11, 8, .ro, 0x0⟩, ⟨2, 2, .ro, 0x0⟩, ⟨1, 1, .ro, 0x0⟩, ⟨0, 0, .ro, 0x0⟩]⟩,
  ⟨"EF_LANE_LIMIT", 0x8, 1, 0x0, 1, 0x0, 0xFF, false, [⟨23, 0, .rw, 0x15000⟩]⟩,
  ⟨"EF_FAULT", 0x10, 1, 0x0, 1, 0x0, 0xFF, false, [⟨6, 6, .w1c, 0x0⟩, ⟨5, 5, .w1c, 0x0⟩, ⟨4, 4, .w1c, 0x0⟩, ⟨3, 3, .w1c, 0x0⟩, ⟨2, 2, .w1c, 0x0⟩, ⟨1, 1, .w1c, 0x0⟩, ⟨0, 0, .w1c, 0x0⟩]⟩,
  ⟨"EF_FAULT_INFO", 0x18, 1, 0x0, 1, 0x0, 0xFF, true, [⟨63, 32, .ro, 0x0⟩, ⟨31, 22, .ro, 0x0⟩, ⟨21, 16, .ro, 0x0⟩, ⟨15, 14, .ro, 0x0⟩, ⟨13, 0, .ro, 0x0⟩]⟩,
  ⟨"EF_LINES", 0x20, 1, 0x0, 1, 0x0, 0xFF, true, [⟨63, 0, .ro, 0x0⟩]⟩,
  ⟨"EF_PORT_k_STATUS", 0x100, 3, 0x80, 1, 0x0, 0xFF, true, [⟨63, 54, .ro, 0x0⟩, ⟨53, 49, .ro, 0x0⟩, ⟨48, 44, .ro, 0x0⟩, ⟨43, 40, .ro, 0x0⟩, ⟨39, 32, .ro, 0x0⟩, ⟨31, 24, .ro, 0x0⟩, ⟨19, 16, .ro, 0x0⟩]⟩,
  ⟨"EF_PORT_k_CTRL", 0x108, 3, 0x80, 1, 0x0, 0xFF, false, [⟨1, 1, .rw, 0x0⟩, ⟨0, 0, .wo, 0x0⟩]⟩,
  ⟨"EF_PORT_k_TX_BLOCKS", 0x110, 3, 0x80, 1, 0x0, 0xFF, true, [⟨63, 0, .ro, 0x0⟩]⟩,
  ⟨"EF_PORT_k_RX_BLOCKS", 0x118, 3, 0x80, 1, 0x0, 0xFF, true, [⟨63, 0, .ro, 0x0⟩]⟩,
  ⟨"EF_PORT_k_REPLAYS", 0x120, 3, 0x80, 1, 0x0, 0xFF, true, [⟨63, 0, .ro, 0x0⟩]⟩,
  ⟨"EF_PORT_k_LINK_CRC", 0x128, 3, 0x80, 1, 0x0, 0xFF, true, [⟨63, 0, .ro, 0x0⟩]⟩,
  ⟨"EF_PORT_k_FEC", 0x130, 3, 0x80, 1, 0x0, 0xFF, true, [⟨63, 32, .ro, 0x0⟩, ⟨31, 0, .ro, 0x0⟩]⟩]

/-- Registers of the block ef (R376). -/
def rowsEf2 : List RegRow := [
  ⟨"EF_PORT_k_DRONE_DROP", 0x138, 3, 0x80, 1, 0x0, 0xFF, false, [⟨31, 0, .ro, 0x0⟩]⟩,
  ⟨"EF_PORT_k_RETRAINS", 0x13C, 3, 0x80, 1, 0x0, 0xFF, false, [⟨31, 0, .ro, 0x0⟩]⟩,
  ⟨"EF_ROUTE_DIGEST_n", 0x300, 4, 0x8, 1, 0x0, 0x1, true, [⟨63, 0, .ro, 0x0⟩]⟩,
  ⟨"EF_ROUTE_INFO", 0x320, 1, 0x0, 1, 0x0, 0x1, true, [⟨63, 63, .ro, 0x0⟩, ⟨20, 16, .ro, 0x0⟩, ⟨10, 0, .ro, 0x0⟩]⟩]

def rowsEf : List RegRow := rowsEf1 ++ rowsEf2

/-- Registers of the block mem (R302). -/
def rowsMem1 : List RegRow := [
  ⟨"MEM_STATUS", 0x0, 1, 0x0, 1, 0x0, 0xFF, false, [⟨2, 2, .ro, 0x0⟩, ⟨1, 1, .ro, 0x0⟩, ⟨0, 0, .ro, 0x0⟩]⟩,
  ⟨"MEM_FAR_BUDGET", 0x8, 1, 0x0, 1, 0x0, 0x1, false, [⟨19, 0, .rw, 0x1000⟩]⟩,
  ⟨"MEM_CHECK_FAIL", 0x10, 1, 0x0, 1, 0x0, 0xFF, true, [⟨63, 0, .ro, 0x0⟩]⟩,
  ⟨"MEM_REREAD_OK", 0x18, 1, 0x0, 1, 0x0, 0xFF, true, [⟨63, 0, .ro, 0x0⟩]⟩,
  ⟨"MEM_PATH_REPAIRED", 0x20, 1, 0x0, 1, 0x0, 0xFF, true, [⟨63, 0, .ro, 0x0⟩]⟩,
  ⟨"MEM_POISON_MADE", 0x28, 1, 0x0, 1, 0x0, 0xFF, true, [⟨63, 0, .ro, 0x0⟩]⟩,
  ⟨"MEM_POISON_READ", 0x30, 1, 0x0, 1, 0x0, 0xFF, true, [⟨63, 0, .ro, 0x0⟩]⟩,
  ⟨"MEM_POISON_CARRIED", 0x38, 1, 0x0, 1, 0x0, 0xFF, true, [⟨63, 0, .ro, 0x0⟩]⟩,
  ⟨"MEM_DEEP_ECC", 0x40, 1, 0x0, 1, 0x0, 0xFF, true, [⟨63, 32, .ro, 0x0⟩, ⟨31, 0, .ro, 0x0⟩]⟩,
  ⟨"MEM_SCRUB_CTRL", 0x48, 1, 0x0, 1, 0x0, 0xFF, false, [⟨31, 31, .rw, 0x1⟩, ⟨9, 0, .rw, 0xC⟩]⟩,
  ⟨"MEM_BRIDGE_REPLAYS", 0x50, 1, 0x0, 1, 0x0, 0x7F, true, [⟨63, 0, .ro, 0x0⟩]⟩,
  ⟨"MEM_FAULT", 0x58, 1, 0x0, 1, 0x0, 0xFF, false, [⟨4, 4, .w1c, 0x0⟩, ⟨3, 3, .w1c, 0x0⟩, ⟨2, 2, .w1c, 0x0⟩, ⟨1, 1, .w1c, 0x0⟩, ⟨0, 0, .w1c, 0x0⟩]⟩]

/-- Registers of the block mem (R302). -/
def rowsMem2 : List RegRow := [
  ⟨"MEM_FAULT_ADDR", 0x60, 1, 0x0, 1, 0x0, 0xFF, true, [⟨63, 0, .ro, 0x0⟩]⟩,
  ⟨"MEM_FAULT_INFO", 0x68, 1, 0x0, 1, 0x0, 0xFF, true, [⟨63, 32, .ro, 0x0⟩, ⟨31, 28, .ro, 0x0⟩, ⟨27, 26, .ro, 0x0⟩, ⟨22, 16, .ro, 0x0⟩, ⟨15, 14, .ro, 0x0⟩, ⟨13, 0, .ro, 0x0⟩]⟩,
  ⟨"MEM_MOVER_k", 0x100, 12, 0x8, 1, 0x0, 0xFF, true, [⟨63, 0, .ro, 0x0⟩]⟩]

def rowsMem : List RegRow := rowsMem1 ++ rowsMem2

/-- Registers of the block ue (R333). -/
def rowsUe1 : List RegRow := [
  ⟨"UE_STATUS", 0x0, 1, 0x0, 1, 0x0, 0xFF, false, [⟨11, 8, .ro, 0x0⟩, ⟨7, 6, .ro, 0x0⟩, ⟨2, 2, .ro, 0x0⟩, ⟨1, 1, .ro, 0x0⟩, ⟨0, 0, .ro, 0x0⟩]⟩,
  ⟨"UE_PARAMS", 0x8, 1, 0x0, 1, 0x0, 0xFF, true, [⟨63, 0, .ro, 0x0⟩]⟩,
  ⟨"UE_PASSES", 0x10, 1, 0x0, 1, 0x0, 0xFF, true, [⟨63, 0, .ro, 0x0⟩]⟩,
  ⟨"UE_STALL", 0x18, 1, 0x0, 1, 0x0, 0xFF, true, [⟨63, 0, .ro, 0x0⟩]⟩,
  ⟨"UE_REPAIRS", 0x20, 1, 0x0, 1, 0x0, 0xFF, true, [⟨63, 0, .ro, 0x0⟩]⟩,
  ⟨"UE_FAULT", 0x28, 1, 0x0, 1, 0x0, 0xFF, false, [⟨4, 4, .w1c, 0x0⟩, ⟨3, 3, .w1c, 0x0⟩, ⟨2, 2, .w1c, 0x0⟩, ⟨1, 1, .w1c, 0x0⟩, ⟨0, 0, .w1c, 0x0⟩]⟩,
  ⟨"UE_FAULT_INFO", 0x30, 1, 0x0, 1, 0x0, 0xFF, true, [⟨63, 32, .ro, 0x0⟩, ⟨31, 24, .ro, 0x0⟩, ⟨23, 22, .ro, 0x0⟩, ⟨15, 14, .ro, 0x0⟩, ⟨13, 0, .ro, 0x0⟩]⟩,
  ⟨"UE_STEP_n_STATE", 0x100, 4, 0x40, 1, 0x0, 0xFF, true, [⟨63, 48, .ro, 0x0⟩, ⟨47, 32, .ro, 0x0⟩, ⟨31, 27, .ro, 0x0⟩, ⟨26, 26, .ro, 0x0⟩, ⟨25, 24, .ro, 0x0⟩, ⟨19, 17, .ro, 0x0⟩, ⟨13, 0, .ro, 0x0⟩]⟩,
  ⟨"UE_STEP_n_T", 0x108, 4, 0x40, 1, 0x0, 0xFF, true, [⟨63, 0, .ro, 0x0⟩]⟩,
  ⟨"UE_STEP_n_NORM", 0x110, 4, 0x40, 1, 0x0, 0xFF, true, [⟨63, 32, .ro, 0x0⟩, ⟨31, 0, .ro, 0x0⟩]⟩,
  ⟨"UE_STEP_n_SCALE", 0x118, 4, 0x40, 1, 0x0, 0xFF, true, [⟨63, 32, .ro, 0x0⟩, ⟨31, 0, .ro, 0x0⟩]⟩,
  ⟨"UE_STEP_n_POW", 0x120, 4, 0x40, 1, 0x0, 0xFF, true, [⟨63, 32, .ro, 0x0⟩, ⟨31, 0, .ro, 0x0⟩]⟩]

/-- Registers of the block ue (R333). -/
def rowsUe2 : List RegRow := [
  ⟨"UE_STEP_n_SKIPPED", 0x128, 4, 0x40, 1, 0x0, 0xFF, true, [⟨63, 0, .ro, 0x0⟩]⟩]

def rowsUe : List RegRow := rowsUe1 ++ rowsUe2

/-- Registers of the block ctx (R417). -/
def rowsCtx : List RegRow := [
  ⟨"CTX_COUNTS", 0x0, 1, 0x0, 1, 0x0, 0xFF, true, [⟨63, 48, .ro, 0x0⟩, ⟨47, 32, .ro, 0x0⟩, ⟨31, 16, .ro, 0x0⟩, ⟨15, 0, .ro, 0x0⟩]⟩,
  ⟨"CTX_SELECT", 0x8, 1, 0x0, 1, 0x0, 0xFF, false, [⟨10, 0, .rw, 0x0⟩]⟩,
  ⟨"CTX_FILLS", 0x10, 1, 0x0, 1, 0x0, 0xFF, true, [⟨63, 0, .ro, 0x0⟩]⟩,
  ⟨"CTX_IMAGES", 0x18, 1, 0x0, 1, 0x0, 0xFF, true, [⟨63, 0, .ro, 0x0⟩]⟩,
  ⟨"CTX_SVC_k", 0x40, 16, 0x8, 1, 0x0, 0x1, true, [⟨63, 63, .ro, 0x0⟩, ⟨55, 48, .ro, 0x0⟩, ⟨47, 0, .ro, 0x0⟩]⟩,
  ⟨"CTX_VIEW_n", 0x100, 32, 0x8, 1, 0x0, 0xFF, true, [⟨63, 0, .ro, 0x0⟩]⟩]

/-- Registers of the block stk (R502). -/
def rowsStk : List RegRow := [
  ⟨"STK_STATUS", 0x0, 1, 0x0, 1, 0x0, 0xFF, false, [⟨7, 7, .ro, 0x0⟩, ⟨6, 6, .ro, 0x0⟩, ⟨5, 5, .ro, 0x0⟩, ⟨4, 4, .ro, 0x0⟩, ⟨3, 3, .ro, 0x0⟩, ⟨2, 2, .ro, 0x0⟩, ⟨1, 1, .ro, 0x0⟩, ⟨0, 0, .ro, 0x0⟩]⟩,
  ⟨"STK_SEL", 0x8, 1, 0x0, 1, 0x0, 0xFF, false, [⟨18, 16, .rw, 0x1⟩, ⟨8, 0, .rw, 0x0⟩]⟩,
  ⟨"STK_VIEW", 0x10, 1, 0x0, 1, 0x0, 0xFF, true, [⟨63, 32, .ro, 0x0⟩, ⟨31, 24, .ro, 0x0⟩, ⟨23, 16, .ro, 0x0⟩, ⟨15, 8, .ro, 0x0⟩, ⟨7, 4, .ro, 0x0⟩, ⟨3, 0, .ro, 0x0⟩]⟩,
  ⟨"STK_COUNTS", 0x18, 1, 0x0, 1, 0x0, 0xFF, true, [⟨63, 48, .ro, 0x0⟩, ⟨47, 32, .ro, 0x0⟩, ⟨31, 16, .ro, 0x0⟩, ⟨15, 0, .ro, 0x0⟩]⟩,
  ⟨"STK_VERDICTS", 0x20, 1, 0x0, 1, 0x0, 0xFF, true, [⟨63, 32, .ro, 0x0⟩, ⟨31, 0, .ro, 0x0⟩]⟩,
  ⟨"STK_BIST_CTRL", 0x28, 1, 0x0, 1, 0x0, 0xFF, false, [⟨31, 31, .rw, 0x1⟩, ⟨25, 16, .rw, 0x20⟩, ⟨9, 0, .rw, 0x18⟩]⟩,
  ⟨"STK_BIST_LAST", 0x30, 1, 0x0, 1, 0x0, 0xFF, true, [⟨63, 0, .ro, 0x0⟩]⟩,
  ⟨"STK_WEAR", 0x38, 1, 0x0, 1, 0x0, 0xFF, true, [⟨63, 32, .ro, 0x0⟩, ⟨31, 0, .ro, 0x0⟩]⟩,
  ⟨"STK_WEAR_CTRL", 0x40, 1, 0x0, 1, 0x0, 0xFF, false, [⟨0, 0, .wo, 0x0⟩]⟩,
  ⟨"STK_CLOCK", 0x48, 1, 0x0, 1, 0x0, 0xFF, false, [⟨15, 12, .ro, 0xF⟩, ⟨11, 8, .ro, 0xF⟩, ⟨7, 4, .ro, 0xF⟩, ⟨3, 0, .ro, 0xF⟩]⟩,
  ⟨"STK_FAULT", 0x50, 1, 0x0, 1, 0x0, 0xFF, false, [⟨4, 4, .w1c, 0x0⟩, ⟨3, 3, .w1c, 0x0⟩, ⟨2, 2, .w1c, 0x0⟩, ⟨1, 1, .w1c, 0x0⟩, ⟨0, 0, .w1c, 0x0⟩]⟩,
  ⟨"STK_FAULT_INFO", 0x58, 1, 0x0, 1, 0x0, 0xFF, true, [⟨40, 32, .ro, 0x1FF⟩, ⟨27, 24, .ro, 0x0⟩, ⟨18, 16, .ro, 0x0⟩, ⟨8, 0, .ro, 0x0⟩]⟩]

/-- Registers of the block wd (R475). -/
def rowsWd : List RegRow := [
  ⟨"WD_STATUS", 0x0, 1, 0x0, 1, 0x0, 0x11, false, [⟨7, 7, .w1c, 0x0⟩, ⟨6, 6, .w1c, 0x0⟩, ⟨5, 5, .ro, 0x0⟩, ⟨4, 4, .ro, 0x0⟩, ⟨3, 1, .ro, 0x0⟩, ⟨0, 0, .ro, 0x0⟩]⟩,
  ⟨"WD_CUSTODY", 0x8, 1, 0x0, 1, 0x0, 0x11, true, [⟨63, 16, .ro, 0x0⟩, ⟨8, 8, .ro, 0x0⟩, ⟨0, 0, .ro, 0x0⟩]⟩,
  ⟨"WD_SOUNDPOST", 0x10, 1, 0x0, 1, 0x0, 0x11, true, [⟨63, 32, .ro, 0x0⟩, ⟨31, 16, .ro, 0x0⟩, ⟨3, 0, .ro, 0x0⟩]⟩,
  ⟨"WD_LAST_CAUSE", 0x18, 1, 0x0, 1, 0x0, 0x11, false, [⟨15, 0, .ro, 0x0⟩]⟩,
  ⟨"WD_ACTIVATION", 0x20, 1, 0x0, 1, 0x0, 0x11, true, [⟨63, 0, .ro, 0x0⟩]⟩,
  ⟨"WD_FLOORS", 0x28, 1, 0x0, 1, 0x0, 0x11, true, [⟨63, 0, .ro, 0x0⟩]⟩,
  ⟨"WD_ACTIVATIONS", 0x30, 1, 0x0, 1, 0x0, 0x11, false, [⟨31, 16, .ro, 0x0⟩, ⟨15, 0, .ro, 0x0⟩]⟩,
  ⟨"WD_CUSTODY_CHANGES", 0x38, 1, 0x0, 1, 0x0, 0x11, false, [⟨31, 0, .ro, 0x0⟩]⟩]

/-- Registers of the block fh (R135). -/
def rowsFh : List RegRow := [
  ⟨"FH_CTRL", 0x0, 1, 0x0, 1, 0x0, 0x1, false, [⟨31, 31, .rw, 0x0⟩, ⟨13, 0, .rw, 0x0⟩]⟩,
  ⟨"FH_WINDOW", 0x4, 1, 0x0, 1, 0x0, 0x1, false, [⟨23, 0, .rw, 0x1⟩]⟩,
  ⟨"FH_SNAP_SEQ", 0x8, 1, 0x0, 1, 0x0, 0x1, true, [⟨63, 0, .ro, 0x0⟩]⟩,
  ⟨"FH_SNAP_POS", 0x10, 1, 0x0, 1, 0x0, 0x1, true, [⟨63, 0, .ro, 0x0⟩]⟩,
  ⟨"FH_TOTAL_n", 0x1000, 64, 0x20, 1, 0x0, 0x1, true, [⟨63, 0, .ro, 0x0⟩]⟩,
  ⟨"FH_OVER_n", 0x1008, 64, 0x20, 1, 0x0, 0x1, true, [⟨63, 0, .ro, 0x0⟩]⟩,
  ⟨"FH_UNDER_n", 0x1010, 64, 0x20, 1, 0x0, 0x1, true, [⟨63, 0, .ro, 0x0⟩]⟩]

/-- Registers of the block course (R167, R195). -/
def rowsCourse1 : List RegRow := [
  ⟨"CC_STATUS", 0x0, 1, 0x0, 1, 0x0, 0xFF, false, [⟨11, 8, .ro, 0x0⟩, ⟨5, 4, .ro, 0x0⟩, ⟨3, 3, .ro, 0x0⟩, ⟨2, 2, .ro, 0x0⟩, ⟨0, 0, .ro, 0x0⟩]⟩,
  ⟨"CC_SET_n", 0x10, 4, 0x4, 1, 0x0, 0xFF, false, [⟨31, 31, .ro, 0x0⟩, ⟨19, 16, .ro, 0x0⟩, ⟨13, 0, .ro, 0x0⟩]⟩,
  ⟨"CC_POS_n", 0x20, 4, 0x8, 1, 0x0, 0xFF, true, [⟨63, 0, .ro, 0x0⟩]⟩,
  ⟨"CC_FAULT", 0x40, 1, 0x0, 1, 0x0, 0xFF, false, [⟨4, 4, .w1c, 0x0⟩, ⟨3, 3, .w1c, 0x0⟩, ⟨2, 2, .w1c, 0x0⟩, ⟨1, 1, .w1c, 0x0⟩, ⟨0, 0, .w1c, 0x0⟩]⟩,
  ⟨"CC_FAULT_INFO", 0x48, 1, 0x0, 1, 0x0, 0xFF, true, [⟨49, 48, .ro, 0x0⟩, ⟨43, 32, .ro, 0x0⟩, ⟨31, 0, .ro, 0x0⟩]⟩,
  ⟨"CC_LAUNCHED", 0x50, 1, 0x0, 1, 0x0, 0xFF, true, [⟨63, 0, .ro, 0x0⟩]⟩,
  ⟨"CC_LATE", 0x58, 1, 0x0, 1, 0x0, 0xFF, true, [⟨63, 0, .ro, 0x0⟩]⟩,
  ⟨"CC_LD_RETRY", 0x60, 1, 0x0, 1, 0x0, 0xFF, false, [⟨31, 0, .ro, 0x0⟩]⟩,
  ⟨"CC_SREG_n_k", 0x100, 4, 0x100, 32, 0x8, 0xFF, true, [⟨63, 0, .ro, 0x0⟩]⟩,
  ⟨"MA_STATUS", 0x4000, 1, 0x0, 1, 0x0, 0xFF, false, [⟨15, 12, .ro, 0x0⟩, ⟨11, 8, .ro, 0x0⟩, ⟨5, 5, .ro, 0x0⟩, ⟨4, 4, .ro, 0x0⟩, ⟨3, 3, .ro, 0x0⟩, ⟨2, 2, .ro, 0x0⟩, ⟨1, 1, .ro, 0x0⟩, ⟨0, 0, .ro, 0x0⟩]⟩,
  ⟨"MA_PIPE", 0x4004, 1, 0x0, 1, 0x0, 0xFF, false, [⟨4, 0, .ro, 0x0⟩]⟩,
  ⟨"MA_PRODUCTS", 0x4008, 1, 0x0, 1, 0x0, 0xFF, true, [⟨63, 0, .ro, 0x0⟩]⟩]

/-- Registers of the block course (R195, R229). -/
def rowsCourse2 : List RegRow := [
  ⟨"MA_ISSUE", 0x4010, 1, 0x0, 1, 0x0, 0xFF, true, [⟨63, 0, .ro, 0x0⟩]⟩,
  ⟨"MA_MACS", 0x4018, 1, 0x0, 1, 0x0, 0xFF, true, [⟨63, 0, .ro, 0x0⟩]⟩,
  ⟨"MA_STALL_OPND", 0x4020, 1, 0x0, 1, 0x0, 0xFF, true, [⟨63, 0, .ro, 0x0⟩]⟩,
  ⟨"MA_STALL_AB", 0x4028, 1, 0x0, 1, 0x0, 0xFF, true, [⟨63, 0, .ro, 0x0⟩]⟩,
  ⟨"MA_REBLOCK", 0x4030, 1, 0x0, 1, 0x0, 0xFF, true, [⟨63, 0, .ro, 0x0⟩]⟩,
  ⟨"MA_FAULT", 0x4038, 1, 0x0, 1, 0x0, 0xFF, false, [⟨3, 3, .w1c, 0x0⟩, ⟨2, 2, .w1c, 0x0⟩, ⟨1, 1, .w1c, 0x0⟩, ⟨0, 0, .w1c, 0x0⟩]⟩,
  ⟨"MA_FAULT_INFO", 0x4040, 1, 0x0, 1, 0x0, 0xFF, true, [⟨63, 32, .ro, 0x0⟩, ⟨31, 16, .ro, 0x0⟩, ⟨15, 14, .ro, 0x0⟩, ⟨13, 0, .ro, 0x0⟩]⟩,
  ⟨"AB_STATUS", 0xC000, 1, 0x0, 1, 0x0, 0xFF, false, [⟨15, 12, .ro, 0x0⟩, ⟨11, 8, .ro, 0x0⟩, ⟨7, 7, .ro, 0x0⟩, ⟨6, 6, .ro, 0x0⟩, ⟨5, 5, .ro, 0x0⟩, ⟨4, 4, .ro, 0x0⟩, ⟨3, 3, .ro, 0x0⟩, ⟨2, 0, .ro, 0x1⟩]⟩,
  ⟨"AB_GROUP_g", 0xC010, 4, 0x8, 1, 0x0, 0xFF, true, [⟨63, 63, .ro, 0x0⟩, ⟨62, 62, .ro, 0x0⟩, ⟨45, 32, .ro, 0x0⟩, ⟨26, 22, .ro, 0x0⟩, ⟨16, 0, .ro, 0x0⟩]⟩,
  ⟨"AB_NEXT_g", 0xC030, 4, 0x8, 1, 0x0, 0xFF, true, [⟨63, 32, .ro, 0x0⟩, ⟨16, 0, .ro, 0x0⟩]⟩,
  ⟨"AB_MERGES", 0xC050, 1, 0x0, 1, 0x0, 0xFF, true, [⟨63, 0, .ro, 0x0⟩]⟩,
  ⟨"AB_SPILL_BLOCKS", 0xC058, 1, 0x0, 1, 0x0, 0xFF, true, [⟨63, 0, .ro, 0x0⟩]⟩]

/-- Registers of the block course (R229, R270). -/
def rowsCourse3 : List RegRow := [
  ⟨"AB_DRAINS", 0xC060, 1, 0x0, 1, 0x0, 0xFF, true, [⟨63, 0, .ro, 0x0⟩]⟩,
  ⟨"AB_IMPORTS", 0xC068, 1, 0x0, 1, 0x0, 0xFF, true, [⟨63, 0, .ro, 0x0⟩]⟩,
  ⟨"AB_SAVES", 0xC070, 1, 0x0, 1, 0x0, 0xFF, true, [⟨63, 0, .ro, 0x0⟩]⟩,
  ⟨"AB_RESTORES", 0xC078, 1, 0x0, 1, 0x0, 0xFF, true, [⟨63, 0, .ro, 0x0⟩]⟩,
  ⟨"AB_EMPTY_FOLDS", 0xC080, 1, 0x0, 1, 0x0, 0xFF, true, [⟨63, 0, .ro, 0x0⟩]⟩,
  ⟨"AB_FAULT", 0xC088, 1, 0x0, 1, 0x0, 0xFF, false, [⟨4, 4, .w1c, 0x0⟩, ⟨3, 3, .w1c, 0x0⟩, ⟨2, 2, .w1c, 0x0⟩, ⟨1, 1, .w1c, 0x0⟩, ⟨0, 0, .w1c, 0x0⟩]⟩,
  ⟨"AB_FAULT_INFO", 0xC090, 1, 0x0, 1, 0x0, 0xFF, true, [⟨63, 32, .ro, 0x0⟩, ⟨31, 16, .ro, 0x0⟩, ⟨15, 14, .ro, 0x0⟩, ⟨13, 0, .ro, 0x0⟩]⟩,
  ⟨"VE_STATUS", 0x8000, 1, 0x0, 1, 0x0, 0xFF, false, [⟨31, 16, .ro, 0x0⟩, ⟨2, 2, .ro, 0x0⟩, ⟨1, 1, .ro, 0x0⟩, ⟨0, 0, .ro, 0x0⟩]⟩,
  ⟨"VE_OPS", 0x8008, 1, 0x0, 1, 0x0, 0xFF, true, [⟨63, 0, .ro, 0x0⟩]⟩,
  ⟨"VE_STEPS", 0x8010, 1, 0x0, 1, 0x0, 0xFF, true, [⟨63, 0, .ro, 0x0⟩]⟩,
  ⟨"VE_ELEMENTS", 0x8018, 1, 0x0, 1, 0x0, 0xFF, true, [⟨63, 0, .ro, 0x0⟩]⟩,
  ⟨"VE_STALL", 0x8020, 1, 0x0, 1, 0x0, 0xFF, true, [⟨63, 0, .ro, 0x0⟩]⟩]

/-- Registers of the block course (R270). -/
def rowsCourse4 : List RegRow := [
  ⟨"VE_NONFINITE", 0x8028, 1, 0x0, 1, 0x0, 0xFF, true, [⟨63, 0, .ro, 0x0⟩]⟩,
  ⟨"VE_EMPTY_ROWS", 0x8030, 1, 0x0, 1, 0x0, 0xFF, true, [⟨63, 0, .ro, 0x0⟩]⟩,
  ⟨"VE_FAULT", 0x8038, 1, 0x0, 1, 0x0, 0xFF, false, [⟨4, 4, .w1c, 0x0⟩, ⟨3, 3, .w1c, 0x0⟩, ⟨2, 2, .w1c, 0x0⟩, ⟨1, 1, .w1c, 0x0⟩, ⟨0, 0, .w1c, 0x0⟩]⟩,
  ⟨"VE_FAULT_INFO", 0x8040, 1, 0x0, 1, 0x0, 0xFF, true, [⟨63, 32, .ro, 0x0⟩, ⟨31, 16, .ro, 0x0⟩, ⟨15, 14, .ro, 0x0⟩, ⟨13, 0, .ro, 0x0⟩]⟩]

def rowsCourse : List RegRow := rowsCourse1 ++ rowsCourse2 ++ rowsCourse3 ++ rowsCourse4

/-- The registers of a block by its number in R39. -/
def blockRows : Nat → List RegRow
  | 0x0 => rowsIdent
  | 0x1 => rowsRst
  | 0x2 => rowsThm
  | 0x3 => rowsFt
  | 0x4 => rowsHl
  | 0x5 => rowsEf
  | 0x6 => rowsMem
  | 0x7 => rowsUe
  | 0x8 => rowsCtx
  | 0x9 => rowsStk
  | 0xA => rowsWd
  | 0xB => rowsFh
  | _ => []

/-- Whether a row holds the register at an offset of its block, in the instance of a tower. -/
def rowHits (r : RegRow) (tower off : Nat) : Bool :=
  let d := off - r.off
  let i := if r.s1 = 0 then 0 else d / r.s1
  let rem1 := if r.s1 = 0 then d else d % r.s1
  let j := if r.s2 = 0 then 0 else rem1 / r.s2
  let rem2 := if r.s2 = 0 then rem1 else rem1 % r.s2
  bitOf r.towers tower && decide (r.off ≤ off) && decide (i < r.n1) && decide (j < r.n2) && decide (rem2 = 0)

/-- The counter sets of R135 that exist: class 0 to 3, FMT 0x1 to 0x9. -/
def fhSetListed (a : Nat) : Bool :=
  if 0xB1000 ≤ a ∧ a < 0xB1800 then
    let fmt := ((a - 0xB1000) / 0x20) % 16
    decide (1 ≤ fmt ∧ fmt ≤ 9)
  else true

/-- The row of the register map that lists an address; none for an unlisted address (R17, R40, R41). -/
def regRow (a : Nat) : Option RegRow :=
  if a < 0x08000000 then
    if fhSetListed a then (blockRows ((a >>> 16) % 256)).find? (fun r => rowHits r (a >>> 24) (a % 65536)) else none
  else if 0x10000000 ≤ a ∧ a < 0x10600000 then rowsCourse.find? (fun r => rowHits r 0 (a % 65536))
  else none

/-- The reset value of a register, from its fields (R13). -/
def rowReset (r : RegRow) : W64 := r.fields.foldl (fun v f => withField v f.hi f.lo f.reset) 0

/-- The reset value of the register at an address; 0 where none is listed. -/
def resetWord (a : Nat) : W64 := ((regRow a).map rowReset).getD 0

/-- Where a register is held: the step-slot registers read the same in every instance (R333). -/
def regHome (a : Nat) : Nat :=
  if a < 0x08000000 ∧ (a >>> 16) % 256 = 7 ∧ 0x100 ≤ a % 65536 then a % 0x1000000 else a

/-- The word a register table holds at an address. -/
def rget (t : Tab W64) (a : Nat) : W64 := tget (resetWord a) t a

/-- A register table with the word at an address set; a register at its reset value is not listed. -/
def rput (t : Tab W64) (a : Nat) (v : W64) : Tab W64 := if v = resetWord a then tdel t a else tput t a v

/-- The field [hi:lo] of the register at an address. -/
def rfld (t : Tab W64) (a hi lo : Nat) : Nat := fieldOf (rget t a) hi lo

/-- A register table with a field set. -/
def rset (t : Tab W64) (a hi lo x : Nat) : Tab W64 := rput t a (withField (rget t a) hi lo x)

/-- A counter field raised by `n`, saturating at all ones (R16). -/
def rcount (t : Tab W64) (a hi lo n : Nat) : Tab W64 :=
  rset t a hi lo (satAdd (hi + 1 - lo) (rfld t a hi lo) n)

/-- What a field reads as (R12): WO reads 0. -/
def fieldRead (v acc : W64) (f : RegField) : W64 :=
  match f.acc with
  | .wo => acc
  | _ => withField acc f.hi f.lo (fieldOf v f.hi f.lo)

/-- What a read of a register whose held word is `v` returns (R12): reserved bits and WO fields read 0. -/
def rowRead (r : RegRow) (v : W64) : W64 := r.fields.foldl (fieldRead v) 0

/-- A field after a write (R12): RW takes the bits written, W1C clears the bits written 1, RO and WO keep. -/
def fieldWrite (x v : W64) (f : RegField) : W64 :=
  match f.acc with
  | .rw => withField v f.hi f.lo (fieldOf x f.hi f.lo)
  | .w1c => withField v f.hi f.lo (fieldOf (v &&& ~~~x) f.hi f.lo)
  | .ro => v
  | .wo => v

/-- The word a register holds after `x` is written to it (R12). -/
def rowWrite (r : RegRow) (v x : W64) : W64 := r.fields.foldl (fieldWrite x) v

/-! Addresses of the registers that the meanings name. -/

def ccBase (c : Nat) : Nat := 0x10000000 + c * 0x10000
def twBase (blk t : Nat) : Nat := blk * 0x10000 + t * 0x1000000

def IDENT_DEVICE : Nat := 0x0
def IDENT_BUILD : Nat := 0x8
def FT_FRET_PERIOD : Nat := 0x30000
def FT_GUARD : Nat := 0x30004
def FT_DRONE_SETTLE : Nat := 0x30008
def FT_DIAMETER : Nat := 0x3000C
def FT_FRET_NUM : Nat := 0x30010
def FT_POS : Nat := 0x30018
def FT_HOLD_STATUS : Nat := 0x30020
def FT_HOLD_CAUSE : Nat := 0x30024
def FT_HOLD_FRETS : Nat := 0x30028
def FT_LATCH_LO : Nat := 0x30030
def FT_LATCH_HI : Nat := 0x30038
def FT_DRONE_LOCAL : Nat := 0x30040
def FT_LEADER : Nat := 0x30048
def FT_ALIGN : Nat := 0x30050
def FH_CTRL : Nat := 0xB0000
def FH_WINDOW : Nat := 0xB0004
def FH_SNAP_SEQ : Nat := 0xB0008
def FH_SNAP_POS : Nat := 0xB0010
def FH_TOTAL (n : Nat) : Nat := 0xB1000 + n * 0x20
def CC_STATUS (c : Nat) : Nat := ccBase c
def CC_SET (c n : Nat) : Nat := ccBase c + 0x10 + n * 4
def CC_POS (c n : Nat) : Nat := ccBase c + 0x20 + n * 8
def CC_FAULT (c : Nat) : Nat := ccBase c + 0x40
def CC_FAULT_INFO (c : Nat) : Nat := ccBase c + 0x48
def CC_LAUNCHED (c : Nat) : Nat := ccBase c + 0x50
def CC_LATE (c : Nat) : Nat := ccBase c + 0x58
def CC_LD_RETRY (c : Nat) : Nat := ccBase c + 0x60
def CC_SREG (c n k : Nat) : Nat := ccBase c + 0x100 + n * 0x100 + k * 8
def HL_STATUS : Nat := 0x40000
def HL_CTRL : Nat := 0x40004
def HL_LANE_LIMIT : Nat := 0x40008
def HL_COMMANDS : Nat := 0x40010
def HL_EVENTS_SENT : Nat := 0x40018
def HL_EVENTS_LOST : Nat := 0x40020
def HL_HDR_CRC : Nat := 0x40028
def HL_FAR_READS : Nat := 0x40030
def HL_FAR_WRITES : Nat := 0x40038
def HL_FAR_LATE : Nat := 0x40040
def HL_FAR_MAX_LAT : Nat := 0x40048
def HL_FAR_MAP : Nat := 0x40050
def HL_FAULT : Nat := 0x40058
def HL_STRAY : Nat := 0x40060
def HL_EVENT_SEQ : Nat := 0x40068
def MEM_FAR_BUDGET : Nat := 0x60008
def CTX_SVC (k : Nat) : Nat := 0x80040 + k * 8
def CLK_FRET_OUT : Nat := 0x10028
def THM_DEVICE : Nat := 0x20008
def PWR_INPUT : Nat := 0x20020
def PWR_LIMIT : Nat := 0x20028
def EF_ROUTE_DIGEST (n : Nat) : Nat := 0x50300 + n * 8
def EF_ROUTE_INFO : Nat := 0x50320
/-- The status register of link `l`: EF_PORT_k_STATUS of PORT_l, or HL_QUARTER_n_STATUS of quarter l − 24. -/
def linkBase (l : Nat) : Nat :=
  if l < 24 then twBase 5 (l / 3) + 0x100 + (l % 3) * 0x80 else 0x40100 + (l - 24) * 0x40
def WD (t : Nat) : Nat := twBase 0xA t
def STK (t : Nat) : Nat := twBase 9 t
def RST (t : Nat) : Nat := twBase 1 t
def THM (t : Nat) : Nat := twBase 2 t
def MEMR (t : Nat) : Nat := twBase 6 t
def UER (t : Nat) : Nat := twBase 7 t
def EFR (t : Nat) : Nat := twBase 5 t
def CTXR (t : Nat) : Nat := twBase 8 t
def MA (c : Nat) : Nat := ccBase c + 0x4000
def VE (c : Nat) : Nat := ccBase c + 0x8000
def AB (c : Nat) : Nat := ccBase c + 0xC000

end Sys2Proof.Machine
end

