-- ==== Sys2Proof/Machine/Ops.lean ====
section
/-! DEFINITION. The operations every meaning is written over: the stores and their blocks, the registers, the drone flags, the
fault log, replies and events, and how a context is stopped. -/

namespace Sys2Proof.Machine

/-! ## The stores -/

/-- The byte at a device address; one that nothing has written reads 0x00 (log 1). -/
def readByte (m : Memory) (a : Nat) : Byte := (tfind m.bytes a).getD 0

/-- `n` bytes from `a` on, out of cells whose addresses are at least `a`. -/
def gather : Nat → Nat → List Host.Cell → List Byte
  | 0, _, _ => []
  | n + 1, a, [] => 0 :: gather n (a + 1) []
  | n + 1, a, (k, b) :: t => if k = a then b :: gather n (a + 1) t else 0 :: gather n (a + 1) ((k, b) :: t)

/-- `n` bytes from the device address `a` on. -/
def readBytes (m : Memory) (a n : Nat) : List Byte := gather n a (m.bytes.dropWhile (fun c => decide (c.1 < a)))

/-- The cells of bytes written from `a` on: a byte of 0x00 is not listed. -/
def cellsOf : Nat → List Byte → List Host.Cell
  | _, [] => []
  | a, b :: bs => if b = 0 then cellsOf (a + 1) bs else (a, b) :: cellsOf (a + 1) bs

/-- The cells outside [a, a + n), and the given ones between them. -/
def splice (cs : List Host.Cell) (a n : Nat) (mid : List Host.Cell) : List Host.Cell :=
  cs.filter (fun c => decide (c.1 < a)) ++ mid ++ cs.filter (fun c => decide (a + n ≤ c.1))

/-- One effect of a command on the stores. -/
inductive Wr where
  /-- bytes written from an address on -/
  | data (a : Nat) (bs : List Byte)
  /-- the XOR of a block's stored check with the CRC-32C of its data -/
  | syn (a : Nat) (v : W32)
  /-- the contents of a range become undefined (R504): they read as bytes nothing has written -/
  | wipe (a n : Nat)
  deriving DecidableEq, Repr

/-- The stores after one effect. -/
def applyWr (m : Memory) : Wr → Memory
  | .data a bs => { m with bytes := splice m.bytes a bs.length (cellsOf a bs) }
  | .syn a v => { m with syn := if v = 0 then tdel m.syn a else tput m.syn a v }
  | .wipe a n =>
    { bytes := splice m.bytes a n [],
      syn := m.syn.filter (fun e => decide (e.1 < a) || decide (a + n ≤ e.1)) }

/-- The canonical form of the stores: addresses strictly rising, no byte of 0x00 and no good check listed. -/
def Memory.wf (m : Memory) : Bool :=
  decide (m.bytes.Pairwise (fun x y => x.1 < y.1)) && m.bytes.all (fun c => c.2 != 0) &&
  decide (m.syn.Pairwise (fun x y => x.1 < y.1)) && m.syn.all (fun c => c.2 != 0)

/-- What a command works on: the stores and the device as it leaves them so far, and its effects on the stores, newest
first. Only the effects reach the state (`run`). -/
structure World where
  mem : Memory
  d : Dev
  wr : List Wr

/-- The state after a command: its effects on the stores applied in order, the device as it left it, the queue as it was. -/
def commit (s : State) (w : World) : State := { s with mem := w.wr.reverse.foldl applyWr s.mem, dev := w.d }

/-- Run a command's effect. -/
def run (s : State) (f : World → World) : Host.Outcome State Fault Refusal :=
  .next (commit s (f { mem := s.mem, d := s.dev, wr := [] }))

/-- Run the effect of a command that the device takes only outside reset (R503, R504); in reset it has none (log 8). -/
def runLive (s : State) (f : World → World) : Host.Outcome State Fault Refusal :=
  run s (fun w => if w.d.level = .run then f w else w)

/-- Change the device. -/
def World.onDev (w : World) (f : Dev → Dev) : World := { w with d := f w.d }

/-- One effect on the stores. -/
def World.put (w : World) (x : Wr) : World := { w with mem := applyWr w.mem x, wr := x :: w.wr }

/-- The block that holds an address (R281). -/
def blockOf (a : Nat) : Nat := a - a % 512

/-- The data bytes of the block at an address. -/
def World.blk (w : World) (a : Nat) : List Byte := readBytes w.mem a 512

/-- The XOR of a block's stored check with the CRC-32C of its data. -/
def World.synOf (w : World) (a : Nat) : W32 := tget 0 w.mem.syn a

/-- Whether a block is in the poison form (R284). -/
def World.poisoned (w : World) (a : Nat) : Bool := w.synOf a == poisonMark

/-- Write a whole block with a check formed anew (R282), or with the given difference from a good check. -/
def World.putBlk (w : World) (a : Nat) (data : List Byte) (syn : W32) : World :=
  (w.put (.data a (padTo 512 data))).put (.syn a syn)

/-- Write a block in poison form (R284). -/
def World.putPoison (w : World) (a : Nat) : World := w.putBlk a poisonData poisonMark

/-- A block of `w` as it travels: its data and the stored check. -/
def World.carry (w : World) (a : Nat) : Blk :=
  let data := w.blk a
  { data := data, chk := crc32c data ^^^ w.synOf a }

/-- The XOR of a travelling block's check with the CRC-32C of its data. -/
def blkSyn (b : Blk) : W32 := b.chk ^^^ crc32c b.data

/-- A payload block of the given bytes, zero-padded, with its check (R424). -/
def mkBlk (bs : List Byte) : Blk := let data := padTo 512 bs; { data := data, chk := crc32c data }

/-- Payload blocks of the given bytes, the last zero-padded. -/
def mkBlks (bs : List Byte) : List Blk :=
  (chunks 512 (ceilDiv bs.length 512) bs).map (fun d => { data := d, chk := crc32c d })

/-- The bytes a payload holds. -/
def payloadBytes (p : List Blk) : List Byte := (p.map (fun b => padTo 512 b.data)).flatten

/-! ## Device addresses (R36 to R38) -/

def tierOf (a : Nat) : Nat := bitsOf a 63 60
def towerOf (a : Nat) : Nat := bitsOf a 59 57
def offOf (a : Nat) : Nat := bitsOf a 56 0

/-- The course a tier 0x0 address names (R22). -/
def courseOf (a : Nat) : Nat := towerOf a * 12 + bitsOf a 56 53

/-- The address of a byte of a course store, of the near store and of the deep store. -/
def courseAddr (c off : Nat) : Nat := ((c / 12) <<< 57) + ((c % 12) <<< 53) + off
def nearAddr (t off : Nat) : Nat := (1 <<< 60) + (t <<< 57) + off
def deepAddr (t off : Nat) : Nat := (2 <<< 60) + (t <<< 57) + off
def farAddr (off : Nat) : Nat := (3 <<< 60) + off

/-- A far-store address without its Tower field, which R37 ignores: a far offset names one byte from every tower. -/
def farCanon (a : Nat) : Nat := if tierOf a = 3 then farAddr (offOf a) else a

/-- The far capacity mapped, in bytes (R444). -/
def farBytes (d : Dev) : Nat := rfld d.regs HL_FAR_MAP 12 0 * 2 ^ 30

/-- Whether R38 accepts a device address, given the far capacity in bytes. -/
def addrOk (far a : Nat) : Bool :=
  decide (a < 2 ^ 64) &&
  match tierOf a with
  | 0x0 => decide (bitsOf a 56 53 < 12) && decide (bitsOf a 52 23 = 0)
  | 0x1 => decide (bitsOf a 56 31 = 0)
  | 0x2 => decide (bitsOf a 56 35 = 0)
  | 0x3 => decide (bitsOf a 56 42 = 0) && decide (bitsOf a 41 0 < far)
  | 0xC => decide (towerOf a = 0) && decide (bitsOf a 56 32 = 0)
  | _ => false

/-- Whether every byte of a run of `n` bytes from `a` on lies in one tier of one tower, course store and capacity (R38). -/
def runOk (far a n : Nat) : Bool :=
  addrOk far a && (n == 0 || (addrOk far (a + n - 1) && decide (tierOf a = tierOf (a + n - 1)) &&
    decide (towerOf a = towerOf (a + n - 1)) && (tierOf a != 0 || decide (courseOf a = courseOf (a + n - 1)))))

/-- The blocks that a run of bytes touches. -/
def blocksOf (a n : Nat) : List Nat :=
  if n = 0 then [] else (List.range ((blockOf (a + n - 1) - blockOf a) / 512 + 1)).map (fun i => blockOf a + 512 * i)

/-- Whether two runs of bytes overlap. -/
def overlaps (a n b m : Nat) : Bool := decide (a < b + m) && decide (b < a + n) && decide (0 < n) && decide (0 < m)

/-! ## Registers and status codes -/

def Dev.fld (d : Dev) (a hi lo : Nat) : Nat := rfld d.regs a hi lo
def Dev.setReg (d : Dev) (a : Nat) (v : W64) : Dev := { d with regs := rput d.regs a v }
def Dev.setFld (d : Dev) (a hi lo x : Nat) : Dev := { d with regs := rset d.regs a hi lo x }
def Dev.count (d : Dev) (a hi lo n : Nat) : Dev := if n = 0 then d else { d with regs := rcount d.regs a hi lo n }
/-- Set a status bit (R18, R19). -/
def Dev.setBit (d : Dev) (a n : Nat) : Dev := d.setFld a n n 1
def World.setBit (w : World) (a n : Nat) : World := w.onDev (fun d => d.setBit a n)
def World.setFld (w : World) (a hi lo x : Nat) : World := w.onDev (fun d => d.setFld a hi lo x)
def World.setReg (w : World) (a : Nat) (v : W64) : World := w.onDev (fun d => d.setReg a v)
def World.count (w : World) (a hi lo n : Nat) : World := w.onDev (fun d => d.count a hi lo n)

def stOk : W16 := 0x0000
def stAccepted : W16 := 0x0001
def stBadOpcode : W16 := 0x0100
def stBadParam : W16 := 0x0101
def stBadLength : W16 := 0x0102
def stBadHeaderCrc : W16 := 0x0103
def stNoContext : W16 := 0x0200
def stContextState : W16 := 0x0201
def stNoMemory : W16 := 0x0202
def stBlockCrc : W16 := 0x0300
def stPoisoned : W16 := 0x0301
def stStackDegraded : W16 := 0x0302
def stPlanOverrun : W16 := 0x0400
def stPlanMismatch : W16 := 0x0401
def stReplicaDiverged : W16 := 0x0402
def stAuthFail : W16 := 0x0500
def stRollback : W16 := 0x0501
def stCustodyLost : W16 := 0x0502
def stManifestIncomplete : W16 := 0x0503
def stThermal : W16 := 0x0600
def stHeld : W16 := 0x0601

/-- A number as a 16-bit field that saturates at 0xFFFF (R286, R436). -/
def sat16 (n : Nat) : W16 := BitVec.ofNat 16 (min n 0xFFFF)

/-! ## The parts of the device by number -/

def Dev.course (d : Dev) (c : Nat) : Course := tget .init d.courses c
def Dev.setCourse (d : Dev) (c : Nat) (x : Course) : Dev := { d with courses := tput d.courses c x }
def Dev.onCourse (d : Dev) (c : Nat) (f : Course → Course) : Dev := d.setCourse c (f (d.course c))
def Dev.ctx (d : Dev) (i : Nat) : Ctx := tget .init d.ctxs i
def Dev.setCtx (d : Dev) (i : Nat) (x : Ctx) : Dev := { d with ctxs := tput d.ctxs i x }
def Dev.onCtx (d : Dev) (i : Nat) (f : Ctx → Ctx) : Dev := d.setCtx i (f (d.ctx i))
def Dev.tower (d : Dev) (t : Nat) : Tower := tget .init d.towers t
def Dev.onTower (d : Dev) (t : Nat) (f : Tower → Tower) : Dev := { d with towers := tput d.towers t (f (d.tower t)) }
def Dev.link (d : Dev) (l : Nat) : Link := tget .init d.links l
def Dev.onLink (d : Dev) (l : Nat) (f : Link → Link) : Dev := { d with links := tput d.links l (f (d.link l)) }
def Dev.warden (d : Dev) (i : Nat) : Warden := tget .init d.wardens i
def Dev.onWarden (d : Dev) (i : Nat) (f : Warden → Warden) : Dev := { d with wardens := tput d.wardens i (f (d.warden i)) }
def Dev.svc (d : Dev) (i : Nat) : Service := tget .init d.svcs i
def Dev.onSvc (d : Dev) (i : Nat) (f : Service → Service) : Dev := { d with svcs := tput d.svcs i (f (d.svc i)) }
def Dev.slot (d : Dev) (i : Nat) : Slot := tget .init d.slots i
def Dev.onSlot (d : Dev) (i : Nat) (f : Slot → Slot) : Dev := { d with slots := tput d.slots i (f (d.slot i)) }

/-- The number a bundle is kept under. -/
def bundleIdKey (b : BundleId) : Nat := (b.tower.val * 5 + b.cls.val) * 512 + b.index.val
def keyTower (k : Nat) : Nat := k / 2560
def keyCls (k : Nat) : Nat := (k / 512) % 5
def keyIndex (k : Nat) : Nat := k % 512
def bundleKey (t cls i : Nat) : Nat := (t * 5 + cls) * 512 + i
def Dev.bundle (d : Dev) (k : Nat) : Bundle := tget .init d.bundles k
def Dev.onBundle (d : Dev) (k : Nat) (f : Bundle → Bundle) : Dev := { d with bundles := tput d.bundles k (f (d.bundle k)) }

/-- The bundles a tower registers, by CLASS (R476): bonds, DRAM vias, express vias, bridge. -/
def bundleCount (t cls : Nat) : Nat :=
  match cls with
  | 1 => 448
  | 2 => 72
  | 3 => 32
  | 4 => if t < 7 then 16 else 0
  | _ => 0

/-- A bundle that carries half its width (R490). -/
def Dev.narrowed (d : Dev) (k : Nat) : Bool := let s := (d.bundle k).state; s == 2 || s == 3 || s == 4

/-- Whether any bundle of a CLASS in a tower is narrowed. -/
def Dev.clsNarrowed (d : Dev) (t cls : Nat) : Bool :=
  d.bundles.any (fun e => decide (keyTower e.1 = t) && decide (keyCls e.1 = cls) && d.narrowed e.1)

/-- The towers excluded by TOWER_FENCE. -/
def Dev.fenced (d : Dev) (t : Nat) : Bool := bitOf (d.fld IDENT_DEVICE 15 8) t

/-- The custody warden: its number 0 or 1; of two that claim custody the one of the higher epoch, tower 0's on a tie (R471). -/
def Dev.custodyWarden (d : Dev) : Option Nat :=
  if (d.warden 0).custody && (!(d.warden 1).custody || decide ((d.warden 1).epoch ≤ (d.warden 0).epoch)) then some 0
  else if (d.warden 1).custody then some 1
  else none
def wardenTower (i : Nat) : Nat := 4 * i
/-- Whether a warden restarts (R464): WD_STATUS.RESTARTING. -/
def Dev.restarting (d : Dev) : Bool := d.fld (WD 0) 4 4 == 1 || d.fld (WD 4) 4 4 == 1

def Dev.custodyTower (d : Dev) : Nat := match d.custodyWarden with | some i => wardenTower i | none => 0

def Dev.fretNum (d : Dev) : Nat := d.fld FT_FRET_NUM 63 0

/-! ## Drone flags -/

def flagNonfinite : Nat := 0
def flagPoison : Nat := 1
def flagAbort : Nat := 3
def flagMismatch : Nat := 4

/-- Raise a position flag in the local contribution (R57, R61). -/
def Dev.raise (d : Dev) (n : Nat) : Dev :=
  let b := BitVec.ofNat 64 (1 <<< n)
  { d with ft := { d.ft with posFlags := d.ft.posFlags ||| b, freshPos := d.ft.freshPos ||| b } }
def World.raise (w : World) (n : Nat) : World := w.onDev (fun d => d.raise n)

/-! ## The fault log (R540, R541) -/

/-- Put an entry into the queue of its tower; a full queue drops it. -/
def Dev.log_ (d : Dev) (e : LogEntry) : Dev :=
  let q := if e.tower = 0xFF then d.custodyTower else e.tower
  let queue := tget [] d.log.queues q
  let drop := tget 0 d.log.dropped q
  if 64 ≤ queue.length then { d with log := { d.log with dropped := tput d.log.dropped q (drop + 1) } }
  else
    { d with log := { d.log with
        queues := tput d.log.queues q
          (queue ++ [{ e with seq := d.log.next, dropped := drop, fret := d.fretNum }]),
        dropped := tput d.log.dropped q 0,
        next := (d.log.next + 1) % 2 ^ 32 } }

/-- An entry of a class with nothing else to say. -/
def entry (cls tower source : Nat) : LogEntry :=
  { seq := 0, cls := cls, tower := tower, source := source, fret := 0, status := 0, detail := 0, ctx := 0xFFFF,
    index := 0xFFFF, addr := 0, pos := 0, param := 0, event := 0, course := 0xFF, flags := 0, dropped := 0 }

def World.log (w : World) (e : LogEntry) : World := w.onDev (fun d => d.log_ e)

/-- A log entry as its 64 bytes (R541). -/
def entryBytes (e : LogEntry) : List Byte :=
  let b := leBytes 4 e.seq ++ leBytes 2 e.cls ++ leBytes 1 e.tower ++ leBytes 1 e.source ++ leBytes 8 e.fret ++
    leBytes 2 e.status.toNat ++ leBytes 2 e.detail.toNat ++ leBytes 2 e.ctx ++ leBytes 2 e.index ++ leBytes 8 e.addr ++
    leBytes 4 e.pos ++ leBytes 4 e.param ++ leBytes 2 e.event ++ leBytes 1 e.course ++ leBytes 1 e.flags ++
    leBytes 4 e.dropped ++ leBytes 12 0
  b ++ leBytes 4 (crc32c b).toNat

/-! ## Replies and events (R425, R433, R437 to R439) -/

def Dev.emit (d : Dev) (o : Out) : Dev := { d with out := d.out ++ [o] }
def World.emit (w : World) (o : Out) : World := w.onDev (fun d => d.emit o)

/-! ## The transmit side of a link (R337 to R340, R350, R419, R422) -/

/-- The STATE of a link in its status register (R343, R420): 0 DOWN, 1 TRAINING, 2 UP, 3 and 4 narrowed, 5 FAILED, 6 TOO_LONG. -/
def Dev.linkState (d : Dev) (l : Nat) : Nat := d.fld (linkBase l) 19 16

/-- A link in service: UP at full or half width. -/
def Dev.linkUp (d : Dev) (l : Nat) : Bool := let s := d.linkState l; s == 2 || s == 3 || s == 4

/-- The neighbour entry of port l of the own rank in the loaded route image (R347). -/
def Dev.ownEntry (d : Dev) (l : Nat) : Nat := numAt d.hedge.route (512 + (24 * d.hedge.rank + l) * 4) 4

/-- The hold-vote fields of a flit header (R337): those of the own fold on a peer port, zero on a quarter (R419). -/
def Dev.voteBits (d : Dev) (l : Nat) : Nat :=
  if l < 24 then
    (d.ft.voteLen.toNat <<< 16) + ((d.ft.voteTherm.toNat % 4) <<< 14) + (if d.ft.voteReq then 2 ^ 13 else 0)
  else 0

/-- A flit as its 256 bytes: header with the hold vote, payload, link CRC (R337). -/
def Dev.flitBytes (d : Dev) (l typ seq : Nat) (payload : List Byte) : List Byte :=
  let b := leBytes 4 (d.voteBits l + ((seq % 512) <<< 4) + typ) ++ padTo 248 payload
  b ++ leBytes 4 (crc32c b).toNat

/-- The payloads of SCALAR, LINK and IDLE flits, to which the spec gives no layout: free values (log 102). -/
def scalarPayload (m : ScalarMsg) : List Byte :=
  (List.range 248).map (Config.scalarByte [m.dest.toNat, m.src.toNat, m.tag.toNat, m.step.toNat, m.first.toNat] m.values)
def linkPayload (m : LinkMsg) : List Byte :=
  (List.range 248).map (Config.linkByte (m.ack.map (·.val)) (m.nak.map (·.val)) (m.credit.map (·.toNat)))
def idlePayload : List Byte := (List.range 248).map Config.idleByte

/-- Put one numbered flit on the wire. -/
def Dev.wire (d : Dev) (l seq : Nat) (f : TxFlit) : Dev :=
  match f with
  | .data b => d.emit (.flit l (d.flitBytes l 1 seq b))
  | .scalar m => d.emit (.scalar l m (d.flitBytes l 3 seq (scalarPayload m)))

/-- Send a LINK flit (R340). -/
def Dev.sendLink (d : Dev) (l : Nat) (m : LinkMsg) : Dev := d.emit (.link l m (d.flitBytes l 2 0 (linkPayload m)))

/-- Send an IDLE flit on a port that may carry it and has nothing else to send: the hold vote rides in it (R338, R343). The model has
no flit clock, so one stands for all that leave while the vote is the same (log 103). -/
def Dev.sendIdle (d : Dev) (l : Nat) : Dev :=
  let x := d.link l
  if d.linkUp l && !x.retraining && x.txq.isEmpty && x.txq2.isEmpty then d.emit (.flit l (d.flitBytes l 0 0 idlePayload)) else d

/-- The vote as it stands goes out on every peer port. -/
def Dev.sendVote (d : Dev) : Dev := (List.range 24).foldl Dev.sendIdle d

/-- Whether the next flit slot goes to the second queue while both hold flits: a peer port gives TRANSIT of every 16 slots to what it
forwards (R350), a quarter all but one of 256 to memory packets (R422). Which slots of the 16 and of the 256 these are is the
model's choice (log 104). -/
def Dev.secondFirst (d : Dev) (l : Nat) : Bool :=
  if l < 24 then decide ((d.link l).slot % 16 < bitsOf (d.ownEntry l) 23 20) else (d.link l).slot % 256 != 255

/-- The flit that leaves next, and what then waits in the two queues: a SCALAR flit before any DATA flit (R339). -/
def Dev.nextFlit (d : Dev) (l : Nat) : Option (TxFlit × List TxFlit × List TxFlit) :=
  let x := d.link l
  match x.txq, x.txq2 with
  | [], [] => none
  | f :: a, [] => some (f, a, [])
  | [], g :: b => some (g, [], b)
  | .scalar m :: a, b => some (.scalar m, a, b)
  | .data p :: a, g :: b => if d.secondFirst l then some (g, .data p :: a, b) else some (.data p, a, g :: b)

/-- Send the next flit, if a buffer is advertised for it and fewer than 511 are unacknowledged (R339, R340). -/
def Dev.sendOne (d : Dev) (l : Nat) : Dev :=
  let x := d.link l
  if d.linkUp l && !x.retraining && decide (x.replay.length < min 511 x.credit) then
    match d.nextFlit l with
    | none => d
    | some (f, a, b) =>
      (d.wire l x.nextSeq f).onLink l (fun y => { y with
        txq := a, txq2 := b, slot := (y.slot + 1) % 256, replay := y.replay ++ [(y.nextSeq, f)], nextSeq := (y.nextSeq + 1) % 512 })
  else d

/-- Send what waits as far as the buffers allow. -/
def Dev.pump (d : Dev) (l : Nat) : Dev := iter (fun d => d.sendOne l) ((d.link l).txq.length + (d.link l).txq2.length) d

/-- Cut bytes into pieces of `n`, the last one shorter where needed; `fuel` bounds the pieces. -/
def cutBytes (n : Nat) : Nat → List Byte → List (List Byte)
  | 0, _ => []
  | fuel + 1, bs => if bs.isEmpty then [] else bs.take n :: cutBytes n fuel (bs.drop n)

/-- Add a packet to the stream of a queue (R338, R351): it begins behind the packet before it where the last flit that waits has room.
A flit that leaves with room behind its packet is padded with zeros (log 32). -/
def addStream (q : List TxFlit) (bs : List Byte) : List TxFlit :=
  let cut (b : List Byte) : List TxFlit := (cutBytes 248 (ceilDiv b.length 248) b).map TxFlit.data
  match q.getLast? with
  | some (.data b) => if b.length < 248 then q.dropLast ++ cut (b ++ bs) else q ++ cut bs
  | _ => q ++ cut bs

/-- Queue a packet for a link and send what may go: in its first queue, or in its second. -/
def Dev.sendPacket (d : Dev) (l : Nat) (second : Bool) (bytes : List Byte) : Dev :=
  (d.onLink l (fun x =>
    if second then { x with txq2 := addStream x.txq2 bytes } else { x with txq := addStream x.txq bytes })).pump l

/-- A packet of the host link as its bytes (R9, R424, R425): the header of commands and memory requests, or that of replies, events
and memory responses, its HEADER_CRC, and the payload blocks with their checks. -/
def Pkt.bytes (p : Pkt) : List Byte :=
  let fields := if p.typ = 1 ∨ p.typ = 4 then
      leBytes 4 p.p0.toNat ++ leBytes 4 p.p1.toNat ++ leBytes 4 p.p2.toNat ++ leBytes 4 p.p3.toNat
    else leBytes 2 p.status.toNat ++ leBytes 2 p.detail.toNat ++ leBytes 8 p.fret.toNat ++ leBytes 4 p.param.toNat
  let b := leBytes 1 p.typ ++ leBytes 1 1 ++ leBytes 2 p.opcode.toNat ++ leBytes 2 p.ctx.toNat ++ leBytes 2 p.tag.toNat ++
    leBytes 4 (512 * p.payload.length) ++ fields
  b ++ leBytes 4 (crc32c b).toNat ++ p.payload.flatMap (fun k => padTo 512 k.data ++ leBytes 4 k.chk.toNat)

/-- Hand a packet to the link layer of a quarter: memory packets in the second queue, control packets in the first (R422). -/
def Dev.sendHost (d : Dev) (q : Nat) (p : Pkt) : Dev := d.sendPacket (24 + q) (p.typ == 4 || p.typ == 5) p.bytes

/-- Queue an event; one that finds the queue full is lost (R438). -/
def Dev.event (d : Dev) (code : Nat) (status detail : W16) (ctx : Nat) (tag : W16) (payload : List Blk) : Dev :=
  let p : Pkt :=
    { typ := 3, opcode := BitVec.ofNat 16 code, ctx := BitVec.ofNat 16 ctx, tag := tag,
      status := status, detail := detail, fret := BitVec.ofNat 64 d.fretNum, param := 0, p0 := 0, p1 := 0, p2 := 0,
      p3 := 0, payload := payload }
  if 1024 ≤ d.hl.events.length then
    let d := { d with hl := { d.hl with lost := d.hl.lost + 1 } }
    let d := d.count HL_EVENTS_LOST 63 0 1
    let d := d.setBit HL_FAULT 0
    if d.hl.lost = 1 then d.log_ { entry 0x26 0xFF 0x18 with event := 0x814 } else d
  else { d with hl := { d.hl with events := d.hl.events ++ [p] } }

def World.event (w : World) (code : Nat) (status detail : W16) (ctx : Nat) (payload : List Blk) : World :=
  w.onDev (fun d => d.event code status detail ctx 0xFFFF payload)

/-- A reply leaves on QUARTER_0 of a port (R428). -/
def Dev.sendReply (d : Dev) (port : Nat) (p : Pkt) : Dev := (d.emit (.reply port p)).sendHost (4 * port) p

/-- A reply to a command, with FT_FRET_NUM of the cycle the status was decided (R425). -/
def Dev.replyPkt (d : Dev) (h : HostCmd) (op : Nat) (status detail : W16) (param : W32) (payload : List Blk) : Dev :=
  d.sendReply h.port.val
    { typ := 2, opcode := BitVec.ofNat 16 op, ctx := h.ctx, tag := h.tag, status := status, detail := detail,
      fret := BitVec.ofNat 64 d.fretNum, param := param, p0 := 0, p1 := 0, p2 := 0, p3 := 0, payload := payload }

/-- The first entry with a tag on a port taken out of the outstanding commands (R432). -/
def Dev.settle (d : Dev) (port : Nat) (tag : W16) : Dev :=
  { d with hl := { d.hl with outstanding := d.hl.outstanding.erase (port, tag) } }

/-- A final reply: the command is no longer outstanding. -/
def World.reply (w : World) (h : HostCmd) (op : Nat) (status detail : W16) (param : W32) (payload : List Blk) : World :=
  w.onDev (fun d => (d.replyPkt h op status detail param payload).settle h.port.val h.tag)

/-- Reply with a status and nothing else. -/
def World.answer (w : World) (h : HostCmd) (op : Nat) (status detail : W16) : World := w.reply h op status detail 0 []

/-- Reply ACCEPTED: the command stays outstanding, its work continues (R433). -/
def World.accept (w : World) (h : HostCmd) (op : Nat) : World :=
  w.onDev (fun d =>
    let d := d.replyPkt h op stAccepted 0 0 []
    { d with hl := { d.hl with jobs := d.hl.jobs ++ [{ h := h, opcode := op, result := none }] } })

/-- The work of an accepted command has ended with a status; COMMAND_DONE tells it (R433). -/
def Dev.jobEnded (d : Dev) (port : Fin 2) (tag : W16) (status detail : W16) : Dev :=
  { d with hl := { d.hl with jobs := d.hl.jobs.map (fun j =>
      if j.h.port = port ∧ j.h.tag = tag ∧ j.result = none then { j with result := some (status, detail) } else j) } }

/-- End the jobs of an opcode. -/
def Dev.opEnded (d : Dev) (op : Nat) (p : HostCmd → Bool) (status detail : W16) : Dev :=
  { d with hl := { d.hl with jobs := d.hl.jobs.map (fun j =>
      if j.opcode = op ∧ p j.h ∧ j.result = none then { j with result := some (status, detail) } else j) } }

/-- The 64-bit address in two parameters, the low word in the lower (R434). -/
def pair (lo hi : W32) : Nat := lo.toNat + 2 ^ 32 * hi.toNat

/-! ## Stopping a context (R93, R395, R299, R536) -/

/-- Whether a stop takes the place of one that already waits: a fault over a park, STACK_DEGRADED over PLAN_OVERRUN. -/
def stopWins (old : Option Stop) (new : Stop) : Bool :=
  match old with
  | none => true
  | some o =>
    if o.tgt = .faulted then false
    else if new.tgt = .faulted then true
    else if o.status = stOk then true
    else new.status == stStackDegraded

/-- The context stops at the next fret boundary. -/
def Dev.stopCtx (d : Dev) (i : Nat) (tgt : CtxSt) (status detail : W16) (param : W32) : Dev :=
  d.onCtx i (fun x =>
    if x.st = .runnable ∨ x.st = .resident then
      let n : Stop := { tgt := tgt, status := status, detail := detail, param := param }
      if stopWins x.stop n then { x with stop := some n } else x
    else x)

/-! ## A line a unit works on -/

/-- A launched line, with what its unit needs to know of it. -/
structure Job where
  course : Nat
  idx : Nat
  ln : Line
  set : Nat
  ctx : Nat
  pos : Nat
  prog : Nat
  /-- the drone word visible to the line (R66) -/
  word : W128

/-- The active set of a course, and whether it runs lines. -/
def Dev.activeSet (d : Dev) (c : Nat) : Nat := d.fld (CC_STATUS c) 5 4

/-- The value of scalar register k of set n: s0 reads zero (R142). -/
def Dev.sreg (d : Dev) (c n k : Nat) : W64 := if k = 0 then 0 else rget d.regs (CC_SREG c n k)

/-- Write scalar register k of set n: a write to s0 is discarded (R142). -/
def Dev.setSreg (d : Dev) (c n k : Nat) (v : W64) : Dev := if k = 0 then d else d.setReg (CC_SREG c n k) v

/-- An FP32 operand in a scalar register: bits [31:0] (R142). -/
def Dev.sreg32 (d : Dev) (c n k : Nat) : Nat := (d.sreg c n k).toNat % 2 ^ 32

def lineAt (x : Course) (i : Nat) : Option LineSt := x.lines[i]?

/-- Change one line of a course's line buffer. -/
def Dev.onLine (d : Dev) (c i : Nat) (f : LineSt → LineSt) : Dev :=
  d.onCourse c (fun x => { x with lines := x.lines.modify i f })

/-- A line that has been launched, or is held back under R96, and has not completed. -/
def LinePhase.running : LinePhase → Bool
  | .held | .launched | .worked => true
  | _ => false

/-- A line that another line's DEP need not wait for any more. -/
def LinePhase.ovr : LinePhase → Bool
  | .done | .skipped | .abandoned => true
  | _ => false

/-- The tab image of a context as course c's tower keeps it (R390). -/
def tabBytes (m : Memory) (x : Ctx) (c a n : Nat) : List Byte := readBytes m (nearAddr (c / 12) (x.tabOff + a)) n

/-- A receive-window entry (R79): position, due, blocks. -/
def windowEntry (m : Memory) (x : Ctx) (c k : Nat) : Nat × Nat × Nat :=
  let b := tabBytes m x c (1024 + 16 * k) 16
  (numAt b 0 4, numAt b 4 4, numAt b 8 4)

/-- Whether the window a line waits on has counted all its blocks (R95), in whatever position it is due. -/
def windowFull (m : Memory) (x : Ctx) (c k : Nat) : Bool :=
  k == 0xFFFF || decide ((windowEntry m x c k).2.2 ≤ tget 0 x.win k)

/-- The job of a line in the buffer. -/
def Dev.jobOf (d : Dev) (c i : Nat) : Option Job :=
  match lineAt (d.course c) i, (d.course c).runner with
  | some l, some ctx =>
    some { course := c, idx := i, ln := l.ln, set := d.activeSet c, ctx := ctx,
           pos := d.fld (CC_POS c (d.activeSet c)) 63 0, prog := l.prog, word := l.word }
  | _, _ => none

/-- Whether the DEP line of a line has completed (R95). -/
def Dev.depOver (d : Dev) (c : Nat) (ln : Line) : Bool :=
  ln.dep == 0xFF || match lineAt (d.course c) ln.dep with
    | some l => l.phase.ovr
    | none => true

/-- Whether a line fills its window instead of waiting on it: a mover copy whose source is in the far store (R79, log 60). -/
def fillsWindow (m : Memory) (ln : Line) : Bool :=
  let b := readBytes m ln.desc 16
  ln.unit == 4 && ln.window != 0xFFFF && (numAt b 0 1 == 1 || numAt b 0 1 == 2) && tierOf (numAt b 8 8) == 3

/-- Whether the window a line waits on holds it back no longer (R95). -/
def World.windowOver (w : World) (ctx c : Nat) (ln : Line) : Bool :=
  fillsWindow w.mem ln || windowFull w.mem (w.d.ctx ctx) c ln.window

/-- The launched line that a unit may work on now: it has launched, names this unit, its DEP line has completed and its
window is full (R95, R141); none otherwise. -/
def World.ready (w : World) (c i unit : Nat) : Option Job :=
  match lineAt (w.d.course c) i, w.d.jobOf c i with
  | some l, some j =>
    if l.phase = .launched ∧ l.ln.unit = unit ∧ w.d.depOver c l.ln ∧ w.windowOver j.ctx c l.ln
    then some j else none
  | _, _ => none

/-- The client numbers of memory requests: a tab line, and the others. -/
def whoHost (port : Nat) (tag : W16) : Nat := 0x10000 + 0x10000 * port + tag.toNat
def whoLadder : Nat := 0x40000
def whoPoison : Nat := 0x40001
def whoStream : Nat := 0x40002
def whoBoot : Nat := 0x40003
def whoLine (c i : Nat) : Nat := 256 * c + i

/-- The unit's work on a line has ended; LINE_COMPLETE concludes it (R97). -/
def World.finish (w : World) (j : Job) : World :=
  w.onDev (fun d =>
    let d := d.onLine j.course j.idx (fun l => { l with phase := .worked, idle := 0 })
    { d with waits := d.waits.filter (fun e => e.2 != whoLine j.course j.idx) })

/-- A step of a line that works over several commands. -/
def World.progress (w : World) (j : Job) (n : Nat) : World :=
  w.onDev (fun d => d.onLine j.course j.idx (fun l => { l with prog := n, idle := 0 }))

/-- The common low part of the FAULT_INFO registers of the MA, AB, VE and UE: position, context and resident set. -/
def faultInfo (j : Job) (mid : Nat) : W64 :=
  BitVec.ofNat 64 (((j.pos % 2 ^ 32) <<< 32) + ((mid % 2 ^ 16) <<< 16) + (j.set <<< 14) + j.ctx % 2 ^ 14)

/-- A unit refuses its work at the start for a cause of class 0x1B (R534): the line completes and the context enters FAULTED
at the next fret boundary. -/
def World.unitFault (w : World) (j : Job) (status : W16) : World :=
  let w := w.finish j
  let w := w.onDev (fun d => d.stopCtx j.ctx .faulted status 0 0)
  w.log { entry 0x1B (j.course / 12) j.ln.unit with
    status := status, ctx := j.ctx, pos := j.pos % 2 ^ 32, course := j.course, event := 0x803 }

/-- The path of a refused address (R299), after the unit has set its own ADDR_REFUSED: the line completes, the context enters
FAULTED with PLAN_MISMATCH, ABORT is raised and ADDR_REFUSED is sent. -/
def World.addrRefused (w : World) (j : Job) (addr : Nat) : World :=
  let w := w.finish j
  let w := w.onDev (fun d => d.stopCtx j.ctx .faulted stPlanMismatch 0 0)
  let w := w.raise flagAbort
  let w := w.event 0x807 stPlanMismatch (BitVec.ofNat 16 j.ln.unit) j.ctx
    [mkBlk (leBytes 8 addr ++ leBytes 1 j.course)]
  w.log { entry 0x1C (j.course / 12) j.ln.unit with
    status := stPlanMismatch, detail := BitVec.ofNat 16 j.ln.unit, ctx := j.ctx, addr := addr, pos := j.pos % 2 ^ 32,
    course := j.course, event := 0x807, flags := 1 }

/-- Poisoned blocks consumed in a tower (R284): POISON and NONFINITE are raised, the blocks counted, one entry logged. -/
def World.consumed (w : World) (t n unit ctx : Nat) : World :=
  if n = 0 then w
  else
    let w := (w.raise flagPoison).raise flagNonfinite
    let w := w.count (MEMR t + 0x30) 63 0 n
    w.log { entry 0x06 t unit with ctx := ctx }

/-- Poisoned blocks carried in a tower (R284): counted, no flag. -/
def World.carried (w : World) (t n : Nat) : World := w.count (MEMR t + 0x38) 63 0 n

/-! ## The check of a block at its consumer (R283, R287) -/

/-- The tower whose dies hold a block, or the tower of the course for a far block. -/
def holderTower (a c : Nat) : Nat := if tierOf a = 3 then c / 12 else towerOf a

/-- Whether a block fails its check at the consumer: a stored copy whose check fails, or a fault on the way; the poison form
is no failure. A block on the ladder stays failing until the ladder ends. -/
def World.failing (w : World) (bad : List Nat) (a : Nat) : Bool :=
  w.d.ladders.any (fun l => l.block == a && !l.after) ||
  (!w.poisoned a && (w.synOf a != 0 || bad.contains a))

/-- Whether the consumer of a block stands in the root die (R30, R272): the collective engine, the update engine, the host link, and
a mover line whose route stays on the DRAM vias (R294). -/
def rootConsumer (unit path : Nat) : Bool := unit == 5 || unit == 6 || unit == 7 || unit == 0xF || (unit == 4 && path == 2)

/-- One bundle of each bridge link between the root dies of two towers, of the bundles that carry data from the first to the
second (R279, R477). -/
def bridgeSegments (a b v : Nat) : List Nat :=
  (List.range (max a b - min a b)).map (fun i => bundleKey (min a b + i) 4 (v % 8 + (if a < b then 0 else 8)))

/-- The root die at which a block enters the bridge: of the tower that holds it, or of the quarter that carries a far block (R276). -/
def enterTower (a t : Nat) : Nat := if tierOf a = 3 then 4 * (t / 4) + bitsOf a 10 9 else towerOf a

/-- The bundles a block crosses between its store and a consumer in tower t, in its root die or not: the bond of its near-store
slice, the DRAM via of its deep-store bundle, an express via of each tower whose root die it passes on the way to or from an upper
die, and one bundle of each bridge link (R31, R272, R273, R276, R279). Which express via and which bridge bundle carry it is not
given: `v` is a free value (log 3). -/
def segments (a t : Nat) (root : Bool) (v : Nat) : List Nat :=
  let ht := enterTower a t
  let away := root || ht != t
  let out := match tierOf a with
    | 0 => if away then [bundleKey ht 3 (v % 32)] else []
    | 1 => if away then [bundleKey ht 3 (v % 32)] else [bundleKey ht 1 ((bitsOf a 30 9) % 448)]
    | 2 => [bundleKey ht 2 ((if bitsOf a 34 0 < 2 ^ 34 then 0 else 36) + (bitsOf a 34 9) % 36)]
    | _ => []
  let inn := if !root && (ht != t || decide (2 ≤ tierOf a)) then [bundleKey t 3 (v / 32 % 32)] else []
  out ++ bridgeSegments ht t (v / 1024) ++ inn

/-! ## Memory requests to the adapter (R276, R440, R441) -/

/-- The bound B of R277: values below 1,024 act as 1,024. -/
def Dev.farBound (d : Dev) : Nat := max 1024 (d.fld MEM_FAR_BUDGET 19 0)

/-- One request for one far block. -/
def farReq (half who ctx op : Nat) (reread medium : Bool) (e : Nat × Option Blk) : FarReq :=
  { quarter := 4 * half + (e.1 / 512) % 4, tag := 0, sent := false, opcode := op, off := e.1, count := 1, reread := reread,
    medium := medium, who := who, ctx := ctx, blocks := e.2.toList }

/-- Join a request to the last one of a list that it continues: same quarter, next offset, at most 32 blocks. -/
def joinReq (rs : List FarReq) (r : FarReq) : List FarReq :=
  match rs with
  | [] => [r]
  | q :: rest =>
    if q.quarter = r.quarter ∧ q.off + 2048 * q.count = r.off ∧ q.count < 32 then
      { q with count := q.count + 1, blocks := q.blocks ++ r.blocks } :: rest
    else r :: rs

/-- The requests for a list of far offsets, quarter by quarter, blocks of one request at a stride of 2,048 (R441). -/
def farReqs (half who ctx op : Nat) (reread medium : Bool) (bs : List (Nat × Option Blk)) : List FarReq :=
  (List.range 4).flatMap (fun k =>
    ((bs.filter (fun e => decide ((e.1 / 512) % 4 = k))).foldl
      (fun rs e => joinReq rs (farReq half who ctx op reread medium e)) []).reverse)

/-- A request as its packet (R424, R440). -/
def FarReq.pkt (r : FarReq) : Pkt :=
  { typ := 4, opcode := BitVec.ofNat 16 r.opcode, ctx := BitVec.ofNat 16 r.ctx, tag := BitVec.ofNat 16 r.tag, status := 0,
    detail := 0, fret := 0, param := 0, p0 := BitVec.ofNat 32 r.off, p1 := BitVec.ofNat 32 (r.off / 2 ^ 32),
    p2 := BitVec.ofNat 32 (r.count + (if r.reread then 256 else 0) + (if r.medium then 512 else 0)), p3 := 0,
    payload := r.blocks }

/-- Send the requests that wait, at most 64 outstanding on each quarter (R441). -/
def Dev.pumpFar (d : Dev) : Dev :=
  let step (s : Dev × List FarReq) (r : FarReq) : Dev × List FarReq :=
    let (d, done) := s
    let out := ((done ++ d.hl.far).filter (fun x => x.sent && x.quarter == r.quarter)).length
    if r.sent || 64 ≤ out || !d.linkUp (24 + r.quarter) then (d, done ++ [r])
    else
      let tag := tget 0 d.hl.nextTag r.quarter
      let r := { r with sent := true, tag := tag }
      let d := { d with hl := { d.hl with nextTag := tput d.hl.nextTag r.quarter ((tag + 1) % 2 ^ 16) } }
      ((d.emit (.memReq r.quarter r.pkt)).sendHost r.quarter r.pkt, done ++ [r])
  let all := d.hl.far
  let s := all.foldl step ({ d with hl := { d.hl with far := [] } }, [])
  { s.1 with hl := { s.1.hl with far := s.2 } }

/-- Ask the adapter for blocks, or give it blocks to write. -/
def Dev.farAsk (d : Dev) (half who ctx op : Nat) (reread medium : Bool) (bs : List (Nat × Option Blk)) : Dev :=
  ({ d with hl := { d.hl with far := d.hl.far ++ farReqs half who ctx op reread medium bs } }).pumpFar

/-- Whether a client has a request that has not been answered. -/
def Dev.farBusy (d : Dev) (who : Nat) : Bool := d.hl.far.any (fun r => r.who == who)

/-- The far block that has arrived for a client. -/
def Dev.farBlk (d : Dev) (who addr : Nat) : Option Blk :=
  (d.hl.farGot.find? (fun g => g.who == who && g.addr == farCanon addr)).map (·.blk)

/-- A client is done with its far blocks. -/
def Dev.farDrop (d : Dev) (who : Nat) : Dev :=
  { d with hl := { d.hl with farGot := d.hl.farGot.filter (fun g => g.who != who) } }

/-- A fresh free value (log 3). -/
def World.draw (w : World) : World × Nat :=
  (w.onDev (fun d => { d with free := d.free + 1 }), (Config.freeValue w.d.free).toNat % 2 ^ 32)

/-- Open a ladder for a failing block unless one is open, and count the failure (R287, R301). A far block is asked for again
at once (R442). -/
def World.climbFor (w : World) (clients : List Nat) (unit path c set ctx pos a : Nat) : World :=
  let t := if unit = 0xF then holderTower a c else c / 12
  let w := w.count (MEMR t + 0x10) 63 0 1
  if w.d.ladders.any (fun l => l.block == a && !l.after) then
    w.onDev (fun d => { d with ladders := d.ladders.map (fun l =>
      if l.block == a && !l.after then { l with clients := l.clients ++ clients } else l) })
  else
    let (w, v) := w.draw
    let w := w.onDev (fun d => { d with ladders := d.ladders ++
      [{ block := a, step := 1, tries := 0, unit := unit, course := c, set := set, ctx := ctx, pos := pos, store := none,
         segs := segments a t (rootConsumer unit path) v, pathFailed := false, after := false, clients := clients }] })
    if tierOf a = 3 then w.onDev (fun d => d.farAsk (c / 48) whoLadder 0xFFFF 1 true false [(bitsOf a 41 0, none)]) else w

def World.climb (w : World) (unit path c set ctx pos a : Nat) : World := w.climbFor [] unit path c set ctx pos a

/-- A tower whose stores no other tower reaches: through the fence of R493, and in a core reset that ends until its bundles have
retrained (R28, R32). -/
def Dev.halted (d : Dev) (t : Nat) : Bool :=
  let x := d.tower t
  x.step == .fenced || (!x.held && (x.step == .asserted || x.step == .retraining))

/-- Whether a block lies in the stores of such a tower. -/
def Dev.blockHalted (d : Dev) (a : Nat) : Bool := decide (tierOf a ≤ 2) && d.halted (towerOf a)

/-- A line waits for what a block on the ladder held (R301). -/
def Dev.addWait (d : Dev) (a who : Nat) : Dev := if d.waits.contains (a, who) then d else { d with waits := d.waits ++ [(a, who)] }

/-- Check the blocks a line reads: none if every one passes or is poisoned; otherwise the world in which each failing one
is on the ladder and the line waits. A line waits for the blocks of a tower in core reset too (R28). -/
def World.checkBlocks (w : World) (j : Job) (bad blocks : List Nat) : Option World :=
  let fails := blocks.filter (w.failing bad)
  if blocks.any w.d.blockHalted then some w
  else if fails.isEmpty then none
  else some (fails.foldl (fun w a =>
    let w := w.onDev (fun d => d.addWait a (whoLine j.course j.idx))
    if w.d.ladders.any (fun l => l.block == a && !l.after && l.course == j.course && l.unit == j.ln.unit) then w
    else w.climb j.ln.unit j.ln.path j.course j.set j.ctx j.pos a) w)

/-! ## The work of a unit on a line -/

/-- The blocks that the effects of a command since another world write. -/
def World.wrote (w' w : World) : List Nat :=
  ((w'.wr.take (w'.wr.length - w.wr.length)).flatMap (fun x => match x with
    | .data a bs => blocksOf a bs.length
    | _ => [])).eraseDups

/-- Whether a write of a block waits: its ladder runs, or another launched line waits for what it held (R301), or its tower is in
core reset (R28). -/
def Dev.writeWaits (d : Dev) (who a : Nat) : Bool :=
  d.blockHalted a || d.ladders.any (fun l => l.block == a && !l.after) ||
  d.waits.any (fun e => e.1 == a && e.2 != who &&
    match lineAt (d.course (e.2 / 256)) (e.2 % 256) with
    | some l => l.phase == .launched
    | none => false)

/-- A block sent toward a tower in core reset stays in the re-send queue of the express via it takes (R481, R493). -/
def World.keepSend (w : World) (a : Nat) : World :=
  if !w.d.blockHalted a || w.d.bundles.any (fun e => e.2.resend.contains a) then w
  else
    let (w, v) := w.draw
    w.onDev (fun d => d.onBundle (bundleKey (towerOf a) 3 (v % 32)) (fun b => { b with resend := b.resend ++ [a] }))

/-- Single-bit errors that the deep store corrected on a read (R274). -/
def World.deepCorrected (w : World) (words : List Nat) : World :=
  words.foldl (fun w a => if tierOf a = 2 then w.count (MEMR (towerOf a) + 0x40) 31 0 1 else w) w

/-- A unit's work on a line: it has its effect, or waits with none of its writes while one of them has to wait (R28, R301). -/
def World.work (w : World) (k : Work) (f : World → World) : World :=
  let w' := f w
  let held := (w'.wrote w).filter (w.d.writeWaits (whoLine k.course.val k.line))
  (if held.isEmpty then w' else held.foldl World.keepSend w).deepCorrected k.corrected

/-- Run the work of a unit, which the device does only outside reset. -/
def runWork (s : State) (k : Work) (f : World → World) : Host.Outcome State Fault Refusal :=
  runLive s (fun w => w.work k f)

/-- The poisoned blocks among those a line reads. -/
def World.poisonCount (w : World) (blocks : List Nat) : Nat := (blocks.filter w.poisoned).length

end Sys2Proof.Machine
end

