-- ==== Sys2Proof/Machine/Operands.lean ====
section
/-! DEFINITION. The operand forms: the tab image and its lines (R76 to R85), the mover descriptor (R292), and how a unit reads
its descriptor. -/

namespace Sys2Proof.Machine

/-- The header of a tab image (R77). -/
structure TabHdr where
  magic : Nat
  format : Nat
  headerLen : Nat
  imageLen : Nat
  period : Nat
  guard : Nat
  settle : Nat
  positions : Nat
  loopStart : Nat
  loopCount : Nat
  windows : Nat
  mask : Nat
  partition : Nat
  predInit : Nat
  arith : Nat
  size : Nat
  rank : Nat
  digest : List Byte
  crcOk : Bool
  reservedOk : Bool

/-- The header in the first 256 bytes of an image. -/
def tabHdr (b : List Byte) : TabHdr :=
  { magic := numAt b 0 4, format := numAt b 4 2, headerLen := numAt b 6 2, imageLen := numAt b 8 4,
    period := numAt b 12 4, guard := numAt b 16 4, settle := numAt b 20 4, positions := numAt b 24 4,
    loopStart := numAt b 28 4, loopCount := numAt b 32 4, windows := numAt b 36 4, mask := numAt b 40 12,
    partition := numAt b 52 1, predInit := numAt b 53 1, arith := numAt b 54 2, size := numAt b 56 2,
    rank := numAt b 58 2, digest := slice b 64 32, crcOk := numAt b 252 4 == (crc32c (b.take 252)).toNat,
    reservedOk := zeroAt b 60 64 && zeroAt b 96 252 }

/-- A tab line as its 32 bytes spell it (R81). -/
def lineOfBytes (b : List Byte) : Line :=
  { offset := numAt b 0 4, unit := numAt b 4 1, pred := numAt b 5 1, path := numAt b 6 1, dep := numAt b 7 1,
    wcCompute := numAt b 8 4, wcXfer := numAt b 12 4, desc := numAt b 16 8, window := numAt b 24 2 }

/-- Whether a tab line's bytes are a POSITION_END: UNIT 0x0 (R80). -/
def isEnd (ln : Line) : Bool := ln.unit == 0

/-- The lines of a position from a byte offset of the image on, and the offset after its POSITION_END; `fuel` bounds them. -/
def positionFrom (img : Nat → Nat → List Byte) : Nat → Nat → List Line × Nat
  | 0, p => ([], p)
  | fuel + 1, p =>
    let ln := lineOfBytes (img p 32)
    if isEnd ln then ([], p + 32)
    else
      let r := positionFrom img fuel (p + 32)
      (ln :: r.1, r.2)

/-- The offset of position `n` counted from the position at `p`. -/
def skipPositions (img : Nat → Nat → List Byte) : Nat → Nat → Nat
  | 0, p => p
  | n + 1, p => skipPositions img n (positionFrom img 255 p).2

/-- Entry c of the course table (R78): byte offset and line count. -/
def courseEntry (img : Nat → Nat → List Byte) (c : Nat) : Nat × Nat :=
  let b := img (256 + 8 * c) 8
  (numAt b 0 4, numAt b 4 4)

/-- The image of a context in course c's tower. -/
def ctxImg (m : Memory) (x : Ctx) (c : Nat) : Nat → Nat → List Byte := tabBytes m x c

/-- The header of a context's loaded image, in the tower of the lowest course of its mask. -/
def maskCourses (mask : Nat) : List Nat := (List.range 96).filter (bitOf mask)
def firstCourse (mask : Nat) : Nat := (maskCourses mask).headD 0

/-- The courses a context holds and runs on: those of its COURSE_MASK (R397, R401) whose tower is in service (DEDUCED, log 64). -/
def Dev.ctxCourses (d : Dev) (i : Nat) : List Nat :=
  (maskCourses (d.ctx i).mask.toNat).filter (fun c => !d.fenced (c / 12))
def ctxHdr (m : Memory) (x : Ctx) : TabHdr := tabHdr (tabBytes m x (firstCourse x.tabMask.toNat) 0 256)

/-- Whether a line that may carry a predicate launches under the predicate values in the low four bits of `a` (R83). -/
def launches (ln : Line) (a : Nat) : Bool :=
  if bitOf ln.pred 2 then bitOf a (ln.pred % 4) == !bitOf ln.pred 3 else true

/-- A SET_PRED line: UNIT 0x9. -/
def isSetPred (ln : Line) : Bool := ln.unit == 9

/-- A mover descriptor (R292). -/
structure MoverDesc where
  op : Nat
  run : Nat
  src : Nat
  dst : Nat
  rows : Nat
  srcStride : Nat
  dstStride : Nat
  pattern : Nat
  reservedOk : Bool

def moverDesc (b : List Byte) : MoverDesc :=
  { op := numAt b 0 1, run := numAt b 4 4, src := farCanon (numAt b 8 8), dst := farCanon (numAt b 16 8), rows := numAt b 24 4,
    srcStride := numAt b 32 8, dstStride := numAt b 40 8, pattern := numAt b 48 8,
    reservedOk := zeroAt b 1 4 && zeroAt b 28 32 && zeroAt b 56 64 }

/-- Whether a descriptor address is aligned and lies, with its `n` bytes, in the course store of course c. -/
def descOk (a n c : Nat) : Bool :=
  decide (a < 2 ^ 64) && tierOf a == 0 && decide (bitsOf a 56 53 < 12) && courseOf a == c && bitsOf a 52 23 == 0 && a % n == 0

/-- What a unit finds in the blocks of its descriptor: the block must be checked (R283) and may be poisoned. -/
inductive Fetch where
  /-- a block fails its check; the line waits -/
  | wait (w : World)
  /-- the descriptor's bytes; true when a block of it is poisoned -/
  | got (b : List Byte) (poison : Bool)

/-- The descriptors that the unit has already read for a line. -/
def World.readOf (w : World) (j : Job) : Tab (List Byte) := ((lineAt (w.d.course j.course) j.idx).map (·.read)).getD []

/-- The stores as a line's unit sees its descriptors: what it read when it started the work stands, whatever has been written since
(R189, R248, R297). -/
def World.descMem (w : World) (j : Job) : Memory := (w.readOf j).foldl (fun m e => applyWr m (.data e.1 e.2)) w.mem

/-- A unit whose work goes on in a later command keeps the descriptors it has read: runs of bytes by address and length. -/
def World.keepDesc (w : World) (j : Job) (runs : List (Nat × Nat)) : World :=
  let new := (runs.filter (fun e => (tfind (w.readOf j) e.1).isNone)).map (fun e => (e.1, readBytes w.mem e.1 e.2))
  w.onDev (fun d => d.onLine j.course j.idx (fun l => if l.phase = .launched then { l with read := l.read ++ new } else l))

/-- Read `n` bytes of a line's descriptor or parameters at an address, checking their blocks; bytes that the unit has read before are
not read again. -/
def World.fetch (w : World) (j : Job) (bad : List Nat) (a n : Nat) : Fetch :=
  match tfind (w.readOf j) a with
  | some b => .got b false
  | none =>
    let bl := blocksOf a n
    match w.checkBlocks j bad bl with
    | some w' => .wait w'
    | none => .got (readBytes w.mem a n) (bl.any w.poisoned)

end Sys2Proof.Machine
end

