-- ==== Sys2Proof/Machine/Flags.lean ====
section
/-! DEFINITION. The device's drone contribution: the causes for which it holds (R55), its level flags (R59), its MAX fields
(R60), and how a received word is folded in (R62, R63). -/

namespace Sys2Proof.Machine

/-- Whether a peer port appears in the loaded route image: its own-rank entry is valid (R346, R347). -/
def Dev.inRoute (d : Dev) (l : Nat) : Bool := decide (l < 24) && d.hedge.joined && bitOf (d.ownEntry l) 31

/-- A context of KIND 1 that is due to run and is not RESIDENT (R400). -/
def Dev.notResident (d : Dev) : Bool :=
  d.ctxs.any (fun e => e.2.kind == 1 && e.2.st == .runnable && decide (e.2.startFret ≤ d.fretNum))

/-- Whether a checkpoint holds its context's position back: the context stands before it (R413). -/
def Dev.ckptDue (d : Dev) (k : Ckpt) : Bool :=
  let x := d.ctx k.ctx
  decide (x.pos = k.pos) && !x.posOpen && (x.st == .runnable || x.st == .resident)

/-- Whether a checkpoint raises a hold with cause WARDEN (R413): its context runs and stands before the chosen position. -/
def Dev.ckptHolds (d : Dev) (k : Ckpt) : Bool := d.ckptDue k && decide ((d.ctx k.ctx).startFret ≤ d.fretNum)

/-- The lines of the device that still run and ran past the end of a fret (R56). -/
def Dev.lateLines (d : Dev) : List LineSt :=
  d.courses.flatMap (fun e => e.2.lines.filter (fun l => l.phase.running && (l.resend || l.farLate || l.overrun)))

/-- The causes of R55 that hold now, in the bit order of FT_HOLD_CAUSE [8:0]: RESEND, FAR_LATE, REPAIR, LINK_RETRAIN,
CORE_RESET, WARDEN, FW_ACTIVATE, HOST, LEADER. -/
def Dev.causes (d : Dev) : List Bool :=
  [ d.lateLines.any (·.resend), d.lateLines.any (·.farLate),
    d.bundles.any (fun e => e.2.remapping),
    d.links.any (fun e => decide (e.1 < 24) && e.2.retraining),
    d.towers.any (fun e => e.2.step == .waiting || e.2.step == .fenced || (e.2.step != .none && !e.2.held)),
    d.notResident || d.ckpts.any (fun k => d.ckptHolds k) ||
      decide (d.ft.wardenHold ≠ 0),
    d.fw.hold,
    decide (d.ft.hostHold ≠ 0),
    d.ft.leaderHold || d.fld FT_HOLD_STATUS 19 19 == 1 || d.fld FT_HOLD_STATUS 18 18 == 1 ]

/-- Bits as a number, the first the least significant. -/
def ofBits : List Bool → Nat
  | [] => 0
  | b :: bs => (if b then 1 else 0) + 2 * ofBits bs

/-- Whether the device asks for a hold (R55, R56). -/
def Dev.wantsHold (d : Dev) : Bool := d.causes.any id || d.lateLines.any (·.overrun)

/-- DEGRADED (R59): a degraded or fenced tower, a narrowed port or quarter, or one of the route that is lost (R346, R421). -/
def Dev.degraded (d : Dev) : Bool :=
  (List.range 8).any (fun t => d.fenced t || d.fld (STK t) 3 3 == 1) ||
  (List.range 32).any (fun l => let s := d.linkState l
    s == 3 || s == 4 || (s == 1 && (d.link l).retraining && (d.link l).wasNarrow) || (d.inRoute l && (s == 5 || s == 6 || s == 0)) || (decide (24 ≤ l) && (s == 5))) ||
  d.fld HL_FAULT 2 2 == 1

/-- The level flags (R59), bits 0 to 31. -/
def Dev.levelFlags (d : Dev) : Nat :=
  let c := d.causes
  let why := ofBits (c.take 8)
  ofBits [false, false, d.wantsHold, false, false,
    decide (3 ≤ d.fw.state),
    d.degraded,
    decide (d.fw.state = 3) && (d.fw.reverify || d.fw.flashBad || d.fld FT_HOLD_STATUS 15 14 == 2),
    d.fld FT_HOLD_STATUS 18 18 == 1,
    d.board.warnNow,
    (c.drop 8).headD false] + (why <<< 16)

/-- FT_DRONE_LOCAL: the flags pending for the next sample. -/
def Dev.localFlags (d : Dev) : W64 := d.ft.posFlags ||| BitVec.ofNat 64 d.levelFlags

/-- The custody epoch the device contributes (R473). -/
def Dev.custodyEpoch (d : Dev) : Nat := match d.custodyWarden with | some i => (d.warden i).epoch | none => 0

/-- The contribution a sample takes (R57, R58); HOLD_LEN is the greatest length asked for (R52, R60). -/
def Dev.contribution (d : Dev) : W128 :=
  let len := max d.ft.hostHold.toNat d.ft.wardenHold.toNat
  let therm := d.fld THM_DEVICE 5 4
  BitVec.ofNat 128 (d.localFlags.toNat + (len <<< 64) + (therm <<< 80) + ((d.custodyEpoch % 2 ^ 16) <<< 96) +
    (d.ft.tabMax.toNat <<< 112))

def wordLen (w : W128) : Nat := bitsOf w.toNat 79 64
def wordTherm (w : W128) : Nat := bitsOf w.toNat 95 80
def wordFlag (w : W128) (n : Nat) : Bool := bitOf w.toNat n

/-- Two words reduced: flags by OR, fields by MAX (R58 to R60). -/
def foldWord (a b : W128) : W128 :=
  let fl := (a.toNat % 2 ^ 64) ||| (b.toNat % 2 ^ 64)
  let mx (lo : Nat) := (max (bitsOf a.toNat (lo + 15) lo) (bitsOf b.toNat (lo + 15) lo)) <<< lo
  BitVec.ofNat 128 (fl + mx 64 + mx 80 + mx 96 + mx 112)

/-- A hold vote folded into the one of this fret, until the hold latch takes it (R63). -/
def Ft.vote (f : Ft) (req : Bool) (len therm : Nat) : Ft :=
  if f.latched then f
  else { f with
    voteReq := f.voteReq || req
    voteLen := BitVec.ofNat 16 (max f.voteLen.toNat len)
    voteTherm := BitVec.ofNat 16 (max f.voteTherm.toNat therm) }

end Sys2Proof.Machine
end

