-- ==== Sys2Proof/Machine/Tables.lean ====
section
/-! DEFINITION. The tables and constants of the transcendental functions (R249): each entry is the FP32 value nearest to the
real value the rule gives, ties to even. -/

namespace Sys2Proof.Machine

/-- E[k]: (ln 2)^k / k! -/
def tabE : List Nat := [0x3F800000, 0x3F317218, 0x3E75FDF0, 0x3D635847, 0x3C1D955B, 0x3AAEC3FF, 0x39218489, 0x377FE5FE]

/-- TR[i]: 1 / (1 + i / 128), entries 0 to 31. -/
def tabTR0 : List Nat := [
  0x3F800000, 0x3F7E03F8, 0x3F7C0FC1, 0x3F7A232D, 0x3F783E10, 0x3F76603E, 0x3F74898D, 0x3F72B9D6,
  0x3F70F0F1, 0x3F6F2EB7, 0x3F6D7304, 0x3F6BBDB3, 0x3F6A0EA1, 0x3F6865AC, 0x3F66C2B4, 0x3F652598,
  0x3F638E39, 0x3F61FC78, 0x3F607038, 0x3F5EE95C, 0x3F5D67C9, 0x3F5BEB62, 0x3F5A740E, 0x3F5901B2,
  0x3F579436, 0x3F562B81, 0x3F54C77B, 0x3F53680D, 0x3F520D21, 0x3F50B6A0, 0x3F4F6475, 0x3F4E168A]

/-- TR[i]: 1 / (1 + i / 128), entries 32 to 63. -/
def tabTR1 : List Nat := [
  0x3F4CCCCD, 0x3F4B8728, 0x3F4A4588, 0x3F4907DA, 0x3F47CE0C, 0x3F46980C, 0x3F4565C8, 0x3F443730,
  0x3F430C31, 0x3F41E4BC, 0x3F40C0C1, 0x3F3FA030, 0x3F3E82FA, 0x3F3D6910, 0x3F3C5264, 0x3F3B3EE7,
  0x3F3A2E8C, 0x3F392144, 0x3F381703, 0x3F370FBB, 0x3F360B61, 0x3F3509E7, 0x3F340B41, 0x3F330F63,
  0x3F321643, 0x3F311FD4, 0x3F302C0B, 0x3F2F3ADE, 0x3F2E4C41, 0x3F2D602B, 0x3F2C7692, 0x3F2B8F6A]

/-- TR[i]: 1 / (1 + i / 128), entries 64 to 95. -/
def tabTR2 : List Nat := [
  0x3F2AAAAB, 0x3F29C84A, 0x3F28E83F, 0x3F280A81, 0x3F272F05, 0x3F2655C4, 0x3F257EB5, 0x3F24A9CF,
  0x3F23D70A, 0x3F23065E, 0x3F2237C3, 0x3F216B31, 0x3F20A0A1, 0x3F1FD80A, 0x3F1F1166, 0x3F1E4CAD,
  0x3F1D89D9, 0x3F1CC8E1, 0x3F1C09C1, 0x3F1B4C70, 0x3F1A90E8, 0x3F19D723, 0x3F191F1A, 0x3F1868C8,
  0x3F17B426, 0x3F17012E, 0x3F164FDA, 0x3F15A025, 0x3F14F209, 0x3F144581, 0x3F139A86, 0x3F12F114]

/-- TR[i]: 1 / (1 + i / 128), entries 96 to 127. -/
def tabTR3 : List Nat := [
  0x3F124925, 0x3F11A2B4, 0x3F10FDBC, 0x3F105A38, 0x3F0FB824, 0x3F0F177A, 0x3F0E7835, 0x3F0DDA52,
  0x3F0D3DCB, 0x3F0CA29C, 0x3F0C08C1, 0x3F0B7034, 0x3F0AD8F3, 0x3F0A42F8, 0x3F09AE41, 0x3F091AC7,
  0x3F088889, 0x3F07F781, 0x3F0767AB, 0x3F06D905, 0x3F064B8A, 0x3F05BF37, 0x3F053408, 0x3F04A9FA,
  0x3F042108, 0x3F039930, 0x3F03126F, 0x3F028CC0, 0x3F020821, 0x3F01848E, 0x3F010204, 0x3F008081]

/-- TR[i]: 1 / (1 + i / 128). -/
def tabTR : List Nat := tabTR0 ++ tabTR1 ++ tabTR2 ++ tabTR3

/-- TL[i]: −log2 of TR[i], entries 0 to 31. -/
def tabTL0 : List Nat := [
  0x00000000, 0x3C37F28B, 0x3CB73CB3, 0x3D08E68D, 0x3D35D690, 0x3D626FCC, 0x3D8759C9, 0x3D9D5182,
  0x3DB31FB7, 0x3DC8C50D, 0x3DDE420E, 0x3DF3975C, 0x3E0462C4, 0x3E0EE690, 0x3E195751, 0x3E23B551,
  0x3E2E00D1, 0x3E383A17, 0x3E42615F, 0x3E4C76EA, 0x3E567AEF, 0x3E606DB6, 0x3E6A4F70, 0x3E74205F,
  0x3E7DE0B5, 0x3E83C856, 0x3E88983F, 0x3E8D602E, 0x3E92203D, 0x3E96D887, 0x3E9B8925, 0x3EA03234]

/-- TL[i]: −log2 of TR[i], entries 32 to 63. -/
def tabTL1 : List Nat := [
  0x3EA4D3C2, 0x3EA96DEF, 0x3EAE00D1, 0x3EB28C80, 0x3EB71110, 0x3EBB8E97, 0x3EC0052D, 0x3EC474E2,
  0x3EC8DDD3, 0x3ECD4011, 0x3ED19BAF, 0x3ED5F0C3, 0x3EDA3F60, 0x3EDE8798, 0x3EE2C97E, 0x3EE70525,
  0x3EEB3A9E, 0x3EEF69FF, 0x3EF39355, 0x3EF7B6B5, 0x3EFBD42A, 0x3EFFEBCB, 0x3F01FED4, 0x3F0404E8,
  0x3F060828, 0x3F08089D, 0x3F0A0650, 0x3F0C0146, 0x3F0DF98A, 0x3F0FEF1F, 0x3F11E20E, 0x3F13D260]

/-- TL[i]: −log2 of TR[i], entries 64 to 95. -/
def tabTL2 : List Nat := [
  0x3F15C01A, 0x3F17AB44, 0x3F1993E4, 0x3F1B79FF, 0x3F1D5DA0, 0x3F1F3ECA, 0x3F211D84, 0x3F22F9D5,
  0x3F24D3C3, 0x3F26AB53, 0x3F28808D, 0x3F2A5375, 0x3F2C2410, 0x3F2DF268, 0x3F2FBE7F, 0x3F31885D,
  0x3F335004, 0x3F35157E, 0x3F36D8CA, 0x3F3899F4, 0x3F3A58FE, 0x3F3C15EE, 0x3F3DD0C9, 0x3F3F8991,
  0x3F41404E, 0x3F42F506, 0x3F44A7BB, 0x3F465873, 0x3F480731, 0x3F49B3FA, 0x3F4B5ED6, 0x3F4D07C5]

/-- TL[i]: −log2 of TR[i], entries 96 to 127. -/
def tabTL3 : List Nat := [
  0x3F4EAECF, 0x3F5053F6, 0x3F51F740, 0x3F5398AF, 0x3F553847, 0x3F56D60F, 0x3F58720A, 0x3F5A0C3A,
  0x3F5BA4A5, 0x3F5D3B4E, 0x3F5ED038, 0x3F60636B, 0x3F61F4E5, 0x3F6384AF, 0x3F6512C6, 0x3F669F36,
  0x3F6829FA, 0x3F69B31C, 0x3F6B3AA0, 0x3F6CC084, 0x3F6E44CF, 0x3F6FC782, 0x3F7148A2, 0x3F72C831,
  0x3F744636, 0x3F75C2B1, 0x3F773DA2, 0x3F78B713, 0x3F7A2F03, 0x3F7BA577, 0x3F7D1A71, 0x3F7E8DF1]

/-- TL[i]: −log2 of TR[i]. -/
def tabTL : List Nat := tabTL0 ++ tabTL1 ++ tabTL2 ++ tabTL3

/-- L[k] for k from 1: (−1)^(k+1) / (k ln 2) -/
def tabL : List Nat := [0x3FB8AA3B, 0xBF38AA3B, 0x3EF6384F, 0xBEB8AA3B, 0x3E93BB63]

/-- TQ[i]: 1 / (1 + (i + 0.5) / 128), entries 0 to 31. -/
def tabTQ0 : List Nat := [
  0x3F7F00FF, 0x3F7D08E5, 0x3F7B1885, 0x3F792FB2, 0x3F774E40, 0x3F757404, 0x3F73A0D5, 0x3F71D48C,
  0x3F700F01, 0x3F6E500F, 0x3F6C9791, 0x3F6AE564, 0x3F693965, 0x3F679373, 0x3F65F36D, 0x3F645933,
  0x3F62C4A7, 0x3F6135AA, 0x3F5FAC1F, 0x3F5E27EB, 0x3F5CA8F1, 0x3F5B2F17, 0x3F59BA42, 0x3F584A5A,
  0x3F56DF44, 0x3F5578E9, 0x3F541733, 0x3F52BA08, 0x3F516154, 0x3F500D01, 0x3F4EBCF9, 0x3F4D7127]

/-- TQ[i]: 1 / (1 + (i + 0.5) / 128), entries 32 to 63. -/
def tabTQ1 : List Nat := [
  0x3F4C2978, 0x3F4AE5D8, 0x3F49A634, 0x3F486A79, 0x3F473294, 0x3F45FE74, 0x3F44CE08, 0x3F43A13E,
  0x3F427806, 0x3F415250, 0x3F40300C, 0x3F3F112B, 0x3F3DF59D, 0x3F3CDD53, 0x3F3BC841, 0x3F3AB656,
  0x3F39A786, 0x3F389BC3, 0x3F379301, 0x3F368D31, 0x3F358A48, 0x3F348A3A, 0x3F338CFA, 0x3F32927C,
  0x3F319AB6, 0x3F30A59B, 0x3F2FB322, 0x3F2EC33E, 0x3F2DD5E6, 0x3F2CEB10, 0x3F2C02B0, 0x3F2B1CBE]

/-- TQ[i]: 1 / (1 + (i + 0.5) / 128), entries 64 to 95. -/
def tabTQ2 : List Nat := [
  0x3F2A392F, 0x3F2957FB, 0x3F287917, 0x3F279C7B, 0x3F26C21E, 0x3F25E9F7, 0x3F2513FD, 0x3F244029,
  0x3F236E72, 0x3F229ECF, 0x3F21D13A, 0x3F2105A9, 0x3F203C17, 0x3F1F747A, 0x3F1EAECD, 0x3F1DEB07,
  0x3F1D2922, 0x3F1C6917, 0x3F1BAADF, 0x3F1AEE73, 0x3F1A33CD, 0x3F197AE7, 0x3F18C3BB, 0x3F180E41,
  0x3F175A75, 0x3F16A850, 0x3F15F7CC, 0x3F1548E5, 0x3F149B93, 0x3F13EFD2, 0x3F13459C, 0x3F129CEC]

/-- TQ[i]: 1 / (1 + (i + 0.5) / 128), entries 96 to 127. -/
def tabTQ3 : List Nat := [
  0x3F11F5BD, 0x3F115009, 0x3F10ABCC, 0x3F100901, 0x3F0F67A2, 0x3F0EC7AB, 0x3F0E2918, 0x3F0D8BE3,
  0x3F0CF009, 0x3F0C5584, 0x3F0BBC51, 0x3F0B246B, 0x3F0A8DCD, 0x3F09F874, 0x3F09645C, 0x3F08D181,
  0x3F083FDE, 0x3F07AF70, 0x3F072033, 0x3F069223, 0x3F06053C, 0x3F05797C, 0x3F04EEDD, 0x3F04655E,
  0x3F03DCF9, 0x3F0355AD, 0x3F02CF75, 0x3F024A4E, 0x3F01C636, 0x3F014328, 0x3F00C122, 0x3F004020]

/-- TQ[i]: 1 / (1 + (i + 0.5) / 128). -/
def tabTQ : List Nat := tabTQ0 ++ tabTQ1 ++ tabTQ2 ++ tabTQ3

/-- TS[j]: 1 / √((1 + (j mod 64 + 0.5) / 64) × 2^⌊j / 64⌋), entries 0 to 31. -/
def tabTS0 : List Nat := [
  0x3F7F017E, 0x3F7D0D3E, 0x3F7B2452, 0x3F79464E, 0x3F7772CB, 0x3F75A969, 0x3F73E9CB, 0x3F723399,
  0x3F708681, 0x3F6EE232, 0x3F6D4660, 0x3F6BB2C5, 0x3F6A271A, 0x3F68A31D, 0x3F672691, 0x3F65B139,
  0x3F6442DB, 0x3F62DB41, 0x3F617A36, 0x3F601F87, 0x3F5ECB04, 0x3F5D7C7F, 0x3F5C33CC, 0x3F5AF0BF,
  0x3F59B330, 0x3F587AF7, 0x3F5747EE, 0x3F5619F2, 0x3F54F0DF, 0x3F53CC93, 0x3F52ACEE, 0x3F5191D1]

/-- TS[j]: 1 / √((1 + (j mod 64 + 0.5) / 64) × 2^⌊j / 64⌋), entries 32 to 63. -/
def tabTS1 : List Nat := [
  0x3F507B1D, 0x3F4F68B6, 0x3F4E5A7F, 0x3F4D505E, 0x3F4C4A38, 0x3F4B47F4, 0x3F4A497A, 0x3F494EB3,
  0x3F485787, 0x3F4763E2, 0x3F4673AC, 0x3F4586D3, 0x3F449D42, 0x3F43B6E6, 0x3F42D3AD, 0x3F41F383,
  0x3F411659, 0x3F403C1C, 0x3F3F64BD, 0x3F3E902C, 0x3F3DBE58, 0x3F3CEF34, 0x3F3C22B1, 0x3F3B58C0,
  0x3F3A9154, 0x3F39CC60, 0x3F3909D6, 0x3F3849AA, 0x3F378BD0, 0x3F36D03D, 0x3F3616E4, 0x3F355FBA]

/-- TS[j]: 1 / √((1 + (j mod 64 + 0.5) / 64) × 2^⌊j / 64⌋), entries 64 to 95. -/
def tabTS2 : List Nat := [
  0x3F3450FC, 0x3F32EF41, 0x3F319589, 0x3F304387, 0x3F2EF8F2, 0x3F2DB587, 0x3F2C7904, 0x3F2B432A,
  0x3F2A13C0, 0x3F28EA8C, 0x3F27C759, 0x3F26A9F4, 0x3F25922C, 0x3F247FD3, 0x3F2372BD, 0x3F226ABE,
  0x3F2167AF, 0x3F206968, 0x3F1F6FC4, 0x3F1E7AA0, 0x3F1D89D9, 0x3F1C9D4E, 0x3F1BB4E1, 0x3F1AD073,
  0x3F19EFE6, 0x3F191320, 0x3F183A05, 0x3F17647C, 0x3F16926C, 0x3F15C3BC, 0x3F14F857, 0x3F143026]

/-- TS[j]: 1 / √((1 + (j mod 64 + 0.5) / 64) × 2^⌊j / 64⌋), entries 96 to 127. -/
def tabTS3 : List Nat := [
  0x3F136B13, 0x3F12A90B, 0x3F11E9F9, 0x3F112DCA, 0x3F10746D, 0x3F0FBDCE, 0x3F0F09DD, 0x3F0E5889,
  0x3F0DA9C2, 0x3F0CFD79, 0x3F0C539F, 0x3F0BAC25, 0x3F0B06FD, 0x3F0A641A, 0x3F09C36D, 0x3F0924EC,
  0x3F088889, 0x3F07EE37, 0x3F0755ED, 0x3F06BF9E, 0x3F062B40, 0x3F0598C7, 0x3F05082A, 0x3F04795F,
  0x3F03EC5C, 0x3F036117, 0x3F02D788, 0x3F024FA6, 0x3F01C967, 0x3F0144C4, 0x3F00C1B4, 0x3F004030]

/-- TS[j]: 1 / √((1 + (j mod 64 + 0.5) / 64) × 2^⌊j / 64⌋). -/
def tabTS : List Nat := tabTS0 ++ tabTS1 ++ tabTS2 ++ tabTS3

/-- T[k] for k from 1: −1/3, 2/15, −17/315, 62/2835, −1382/155925, 21844/6081075, −929569/638512875, 6404582/10854718875 -/
def tabT : List Nat := [0xBEAAAAAB, 0x3E088889, 0xBD5D0DD1, 0x3CB327A4, 0xBC11371B, 0x3B6B69E8, 0xBABED1B2, 0x3A1AAC12]

end Sys2Proof.Machine
end

