-- ==== Sys2Proof/Machine/Fp.lean ====
section
/-! DEFINITION. Number formats, rounding, FP32 arithmetic, the transcendental functions and the rounding noise
(R103 to R125, R217, R244, R249 to R254). A format's pattern is a number; a value is exact. -/

namespace Sys2Proof.Machine

/-! ## Exact values -/

/-- An exact value: NaN, an infinity, or (−1)^neg × m × 2^e. -/
inductive Val where
  | nan
  | inf (neg : Bool)
  | fin (neg : Bool) (m : Nat) (e : Int)
  deriving DecidableEq, Repr

/-- A float format (R104): mantissa and exponent bits, bias, whether it has infinities, canonical NaN, greatest finite code. -/
structure FloatFmt where
  mant : Nat
  exp : Nat
  bias : Nat
  hasInf : Bool
  nan : Nat
  maxFin : Nat

def fmtF32 : FloatFmt := { mant := 23, exp := 8, bias := 127, hasInf := true, nan := 0x7FC00000, maxFin := 0x7F7FFFFF }
def fmtBf16 : FloatFmt := { mant := 7, exp := 8, bias := 127, hasInf := true, nan := 0x7FC0, maxFin := 0x7F7F }
def fmtF16 : FloatFmt := { mant := 10, exp := 5, bias := 15, hasInf := true, nan := 0x7E00, maxFin := 0x7BFF }
def fmtE4m3 : FloatFmt := { mant := 3, exp := 4, bias := 7, hasInf := false, nan := 0x7F, maxFin := 0x7E }
def fmtE5m2 : FloatFmt := { mant := 2, exp := 5, bias := 15, hasInf := true, nan := 0x7E, maxFin := 0x7B }
def fmtE2m1 : FloatFmt := { mant := 1, exp := 2, bias := 1, hasInf := false, nan := 0x10, maxFin := 0x7 }

/-- The float format of the elements of an FMT code (R103); none for the integers. -/
def floatFmt (fmt : Nat) : Option FloatFmt :=
  match fmt with
  | 0x0 => some fmtF32
  | 0x1 => some fmtBf16
  | 0x2 => some fmtF16
  | 0x3 | 0x5 => some fmtE4m3
  | 0x4 | 0x6 => some fmtE5m2
  | 0x7 | 0x8 => some fmtE2m1
  | _ => none

/-- Bits of an element of an FMT code (R103). -/
def elemBits (fmt : Nat) : Nat :=
  match fmt with
  | 0x0 | 0xA => 32
  | 0x1 | 0x2 => 16
  | 0x7 | 0x8 => 4
  | 0xB => 1
  | _ => 8

/-- Bytes that `n` elements of an FMT code take. -/
def bytesFor (fmt n : Nat) : Nat := ceilDiv (n * elemBits fmt) 8

/-- Whether an FMT code is block-scaled, and the bytes of its scale. -/
def isBlockFmt (fmt : Nat) : Bool := decide (5 ≤ fmt) && decide (fmt ≤ 8)
def scaleBytes (fmt : Nat) : Nat := if fmt = 8 then 2 else if isBlockFmt fmt then 1 else 0

/-- The exponent of the last mantissa place of the smallest normals and of the subnormals. -/
def FloatFmt.qmin (f : FloatFmt) : Int := 1 - (f.bias : Int) - f.mant

def FloatFmt.signBit (f : FloatFmt) : Nat := f.mant + f.exp

/-- The value of a pattern (R104, R106). -/
def FloatFmt.decode (f : FloatFmt) (x : Nat) : Val :=
  let neg := bitOf x f.signBit
  let mag := x % 2 ^ f.signBit
  let e := mag >>> f.mant
  let m := mag % 2 ^ f.mant
  let top := 2 ^ f.exp - 1
  if f.hasInf && e == top then (if m = 0 then .inf neg else .nan)
  else if !f.hasInf && mag == f.nan then .nan
  else if e = 0 then .fin neg m f.qmin
  else .fin neg (m + 2 ^ f.mant) (f.qmin + (e - 1 : Nat))

/-- The two's-complement reading of a pattern as a value. -/
def intVal (bits x : Nat) : Val :=
  let i := signedOf bits (x % 2 ^ bits)
  .fin (decide (i < 0)) i.natAbs 0

/-- The value of an element of an FMT code, its block's scale left out (R104, R105). -/
def elemVal (fmt x : Nat) : Val :=
  match floatFmt fmt with
  | some f => f.decode x
  | none => if fmt = 0x9 then intVal 8 x else intVal 32 x

/-- The value of a scale of an FMT code: E8M0 (R107) or the BQ4 scale word (R108). -/
def scaleVal (fmt x : Nat) : Val :=
  if fmt = 8 then
    let e := bitsOf x 11 4
    if e = 255 ∨ x >>> 12 ≠ 0 then .nan else .fin false (16 + x % 16) ((e : Int) - 131)
  else if x = 255 then .nan else .fin false 1 ((x : Int) - 127)

/-! ## Exact arithmetic on values -/

def Val.neg : Val → Val
  | .nan => .nan
  | .inf s => .inf (!s)
  | .fin s m e => .fin (!s) m e

/-- The exact product; ∞ × 0 is NaN. -/
def Val.mul : Val → Val → Val
  | .nan, _ | _, .nan => .nan
  | .inf s, .inf t => .inf (s != t)
  | .inf s, .fin t m _ | .fin t m _, .inf s => if m = 0 then .nan else .inf (s != t)
  | .fin s m e, .fin t n f => .fin (s != t) (m * n) (e + f)

/-- The signed mantissa of a finite value at a smaller exponent. -/
def mantAt (s : Bool) (m : Nat) (e q : Int) : Int :=
  let x : Int := ((m <<< (e - q).toNat : Nat) : Int)
  if s then -x else x

/-- The exact sum; an exact zero sum of opposite signs is +0, −0 + −0 is −0 (R121), ∞ − ∞ is NaN. -/
def Val.add : Val → Val → Val
  | .nan, _ | _, .nan => .nan
  | .inf s, .inf t => if s = t then .inf s else .nan
  | .inf s, .fin _ _ _ | .fin _ _ _, .inf s => .inf s
  | .fin s m e, .fin t n f =>
    if m = 0 ∧ n = 0 then .fin (s && t) 0 0
    else
      let q := min e f
      let x := mantAt s m e q + mantAt t n f q
      .fin (decide (x < 0)) x.natAbs q

/-! ## Rounding -/

/-- The rounding modes (R122); stochastic rounding carries its noise. -/
inductive Rnd where
  | nearest | zero | noisy (n : Nat)
  deriving DecidableEq, Repr

/-- `n / d × 2^e` as a fraction. -/
def scaleFrac (n d : Nat) (e : Int) : Nat × Nat := if 0 ≤ e then (n <<< e.toNat, d) else (n, d <<< (-e).toNat)

/-- `n / d` rounded to an integer (R122, R123). -/
def roundFrac (r : Rnd) (n d : Nat) : Nat :=
  let lo := n / d
  let rem := n % d
  let up := match r with
    | .nearest => decide (d < 2 * rem) || (decide (2 * rem = d) && decide (lo % 2 = 1))
    | .zero => false
    | .noisy k => decide (rem ≠ 0) && decide (k < rem * 2 ^ 32 / d)
  if up then lo + 1 else lo

/-- `⌊log2 (n / d)⌋` of a positive fraction. -/
def topExp (n d : Nat) : Int :=
  let k : Int := (Nat.log2 n : Int) - (Nat.log2 d : Int)
  let f := scaleFrac d 1 k
  if f.1 ≤ n * f.2 then k else k - 1

/-- A positive fraction rounded to a format's grid, its exponent range unbounded above: the magnitude's code, which passes the
greatest finite code where the value overflows (R112, R114). -/
def FloatFmt.round (f : FloatFmt) (r : Rnd) (n d : Nat) : Nat :=
  if n = 0 then 0
  else
    let q := max (topExp n d - f.mant) f.qmin
    let x := scaleFrac n d (-q)
    ((q - f.qmin).toNat <<< f.mant) + roundFrac r x.1 x.2

/-- A sign and a magnitude as a pattern. -/
def FloatFmt.pack (f : FloatFmt) (neg : Bool) (mag : Nat) : Nat := (if neg then 2 ^ f.signBit else 0) + mag

/-- A value rounded to nearest even into FP32, with overflow to ±∞ (R121, R129). -/
def Val.f32 : Val → Nat
  | .nan => 0x7FC00000
  | .inf s => fmtF32.pack s 0x7F800000
  | .fin s m e =>
    let x := scaleFrac m 1 e
    fmtF32.pack s (min (fmtF32.round .nearest x.1 x.2) 0x7F800000)

def f32Val (x : Nat) : Val := fmtF32.decode x

/-! ## FP32 arithmetic (R244) -/

def f32Nan : Nat := 0x7FC00000
def f32Inf (neg : Bool) : Nat := fmtF32.pack neg 0x7F800000
def f32Neg (x : Nat) : Bool := bitOf x 31
def f32Mag (x : Nat) : Nat := x % 2 ^ 31
def f32IsNan (x : Nat) : Bool := decide (0x7F800000 < f32Mag x)
def f32IsZero (x : Nat) : Bool := f32Mag x == 0
def f32IsFinite (x : Nat) : Bool := decide (f32Mag x < 0x7F800000)

/-- Replace a subnormal by the zero of its sign (R120). -/
def ftz (x : Nat) : Nat := if f32Mag x < 2 ^ 23 then x - f32Mag x else x

def fadd (a b : Nat) : Nat := ((f32Val a).add (f32Val b)).f32
def fsub (a b : Nat) : Nat := ((f32Val a).add (f32Val b).neg).f32
def fmul (a b : Nat) : Nat := ((f32Val a).mul (f32Val b)).f32
def ffma (a b c : Nat) : Nat := (((f32Val a).mul (f32Val b)).add (f32Val c)).f32

/-- Change the sign; a NaN stays canonical. -/
def fneg (a : Nat) : Nat := if f32IsNan a then f32Nan else if f32Neg a then f32Mag a else 2 ^ 31 + f32Mag a
def fabs (a : Nat) : Nat := if f32IsNan a then f32Nan else f32Mag a
def fcopysign (y x : Nat) : Nat := fmtF32.pack (f32Neg x) (f32Mag y)

/-- Correctly rounded division. -/
def fdiv (a b : Nat) : Nat :=
  let s := f32Neg a != f32Neg b
  match f32Val a, f32Val b with
  | .nan, _ | _, .nan => f32Nan
  | .inf _, .inf _ => f32Nan
  | .inf _, .fin _ _ _ => f32Inf s
  | .fin _ _ _, .inf _ => fmtF32.pack s 0
  | .fin _ m e, .fin _ n f =>
    if n = 0 then (if m = 0 then f32Nan else f32Inf s)
    else
      let x := scaleFrac m n (e - f)
      fmtF32.pack s (min (fmtF32.round .nearest x.1 x.2) 0x7F800000)

/-- The integer square root, one bit at a time from bit `k - 1` down. -/
def isqrt (n : Nat) : Nat → Nat → Nat
  | 0, r => r
  | k + 1, r =>
    let c := r + 2 ^ k
    isqrt n k (if c * c ≤ n then c else r)

/-- Correctly rounded square root. -/
def fsqrt (a : Nat) : Nat :=
  match f32Val a with
  | .nan => f32Nan
  | .inf s => if s then f32Nan else f32Inf false
  | .fin s m e =>
    if m = 0 then a
    else if s then f32Nan
    else
      let (m, e) := if e % 2 = 0 then (m, e) else (2 * m, e - 1)
      let n := m <<< 64
      let r := isqrt n 46 0
      let sticky := if r * r = n then 0 else 1
      (Val.fin false (2 * r + sticky) (e / 2 - 33)).f32

/-- The place of a pattern among the values, −0 below +0. -/
def f32Ord (x : Nat) : Int := if f32Neg x then -(f32Mag x : Int) - 1 else (f32Mag x : Int)

/-- The place of a pattern among the values, both zeros equal. -/
def f32Key (x : Nat) : Int := if f32Neg x then -(f32Mag x : Int) else (f32Mag x : Int)

def fmin (a b : Nat) : Nat := if f32IsNan a || f32IsNan b then f32Nan else if f32Ord a ≤ f32Ord b then a else b
def fmax (a b : Nat) : Nat := if f32IsNan a || f32IsNan b then f32Nan else if f32Ord a ≤ f32Ord b then b else a

/-- Ordered compares: a NaN operand gives false (R149, R244). -/
def fp32Lt (a b : Nat) : Bool := !f32IsNan a && !f32IsNan b && decide (f32Key a < f32Key b)
def fp32Le (a b : Nat) : Bool := !f32IsNan a && !f32IsNan b && decide (f32Key a ≤ f32Key b)
def fp32Eq (a b : Nat) : Bool := !f32IsNan a && !f32IsNan b && decide (f32Key a = f32Key b)

/-- An integer as FP32, to nearest even (R116). -/
def f32OfInt (i : Int) : Nat := (Val.fin (decide (i < 0)) i.natAbs 0).f32
def f32OfI32 (x : Nat) : Nat := (intVal 32 x).f32

def f32One : Nat := 0x3F800000

/-! ## The helpers and functions of R249 to R254 -/

/-- The nearest integer to a finite value, ties to even. -/
def rintInt (x : Nat) : Int :=
  match f32Val x with
  | .fin s m e =>
    let f := scaleFrac m 1 e
    let n : Int := (roundFrac .nearest f.1 f.2 : Nat)
    if s then -n else n
  | _ => 0

/-- `x = m × 2^e` with `1 ≤ m < 2`, for finite positive x: the pattern of m, and e. -/
def frexp1 (x : Nat) : Nat × Int :=
  match f32Val x with
  | .fin _ m e =>
    let l := Nat.log2 m
    (0x3F800000 + ((m <<< (23 - l)) - 2 ^ 23), e + l)
  | _ => (f32One, 0)

def mant7 (m : Nat) : Nat := bitsOf m 22 16

/-- `y × 2^n`, rounded once. -/
def scale2 (y : Nat) (n : Int) : Nat := ((f32Val y).mul (.fin false 1 n)).f32

/-- Evaluate a polynomial in `x` from coefficients in descending order, each step one FMA. -/
def horner (x : Nat) : List Nat → Nat
  | [] => 0
  | c :: cs => cs.foldl (fun p k => ffma p x k) c

def vexp2 (x : Nat) : Nat :=
  if f32IsNan x then f32Nan
  else if fp32Le 0x43000000 x then f32Inf false
  else if fp32Lt x 0xC3170000 then 0
  else
    let n := rintInt x
    let f := fsub x (f32OfInt n)
    scale2 (horner f tabE.reverse) n

def vlog2 (x : Nat) : Nat :=
  if f32IsNan x || (f32Neg x && !f32IsZero x) then f32Nan
  else if f32IsZero x then f32Inf true
  else if x = 0x7F800000 then x
  else
    let (m, e) := frexp1 x
    let i := mant7 m
    let u := ffma m (tabTR.getD i 0) (fneg f32One)
    let p := fmul (horner u tabL.reverse) u
    fadd (fadd (f32OfInt e) (tabTL.getD i 0)) p

def vrecip (x : Nat) : Nat :=
  if f32IsNan x then f32Nan
  else if f32IsZero x then fcopysign (f32Inf false) x
  else if !f32IsFinite x then fcopysign 0 x
  else
    let (m, e) := frexp1 (f32Mag x)
    let y := iter (fun y => let d := ffma (fneg m) y f32One; ffma y d y) 2 (tabTQ.getD (mant7 m) 0)
    fcopysign (scale2 y (-e)) x

def vrsqrt (x : Nat) : Nat :=
  if f32IsNan x || (f32Neg x && !f32IsZero x) then f32Nan
  else if f32IsZero x then fcopysign (f32Inf false) x
  else if x = 0x7F800000 then 0
  else
    let (m, e) := frexp1 x
    let o := (e % 2).toNat
    let q := scale2 m o
    let h := fmul 0x3F000000 q
    let y := iter (fun y => fmul y (ffma (fneg h) (fmul y y) 0x3FC00000)) 2 (tabTS.getD (64 * o + mant7 m / 2) 0)
    scale2 y (-((e - o) / 2))

def vtanh (x : Nat) : Nat :=
  if f32IsNan x then f32Nan
  else
    let a := f32Mag x
    if fp32Lt a 0x39800000 then x
    else if fp32Le 0x41200000 a then fcopysign f32One x
    else if fp32Lt a 0x3F100000 then
      let z := fmul a a
      let p := fmul (horner z tabT.reverse) z
      fcopysign (ffma a p a) x
    else
      let d := fadd (vexp2 (fmul a 0x4038AA3B)) f32One
      fcopysign (ffma 0xC0000000 (vrecip d) f32One) x

/-! ## Activations (R217, R245): `z` is the flush of the unit that applies them -/

def actSilu (z : Nat → Nat) (u : Nat) : Nat :=
  let u := z u
  let m := fneg (z (fmul u 0x3FB8AA3B))
  let e := z (vexp2 m)
  let d := z (fadd f32One e)
  let r := z (vrecip d)
  z (fmul u r)

def actGelu (z : Nat → Nat) (u : Nat) : Nat :=
  let u := z u
  let q := z (fmul u u)
  let q := z (fmul q u)
  let q := z (fmul 0x3D372713 q)
  let w := z (fadd u q)
  let w := z (fmul 0x3F4C422A w)
  let t := z (vtanh w)
  let t := z (fadd f32One t)
  let h := z (fmul 0x3F000000 u)
  z (fmul h t)

def actRelu (u : Nat) : Nat := if f32IsNan u then f32Nan else if fp32Lt 0 u then u else 0

/-! ## Rounding noise (R124) -/

def mix (z : W64) : W64 :=
  let z := (z ^^^ (z >>> 30)) * 0xBF58476D1CE4E5B9
  let z := (z ^^^ (z >>> 27)) * 0x94D049BB133111EB
  z ^^^ (z >>> 31)

def noise (seed : W64) (tensor index : Nat) : Nat :=
  let g : W64 := 0x9E3779B97F4A7C15
  let key := mix (seed ^^^ (BitVec.ofNat 64 (tensor % 2 ^ 32) * g))
  (mix (key + BitVec.ofNat 64 index * g)).toNat >>> 32

/-! ## Narrowing conversions (R112 to R116) -/

/-- A converted element: its code, and whether it counts as an overflow or an underflow (R131). -/
structure Conv where
  code : Nat
  ovr : Bool
  under : Bool
  deriving DecidableEq, Repr

def rndOf (rnd n : Nat) : Rnd := if rnd = 1 then .zero else if rnd = 2 then .noisy n else .nearest

/-- The result of a finite overflow (R114, R115); `dflt` tells whether the default saturates. -/
def FloatFmt.overflow (f : FloatFmt) (r : Rnd) (dflt : Bool) (sat : Nat) (neg : Bool) : Nat :=
  if r = .zero ∨ sat = 1 ∨ (sat = 0 ∧ dflt) then f.pack neg f.maxFin
  else if f.hasInf then f.pack neg (f.maxFin + 1)
  else if f.mant = 3 then f.nan
  else f.pack neg f.maxFin

/-- Whether a magnitude `n / d` is above the greatest finite one of a format. -/
def FloatFmt.above (f : FloatFmt) (n d : Nat) : Bool :=
  match f.decode f.maxFin with
  | .fin _ m e => let x := scaleFrac m 1 e; decide (x.1 * d < n * x.2)
  | _ => false

/-- A magnitude `n / d` with a sign, converted to a float format. Toward zero a magnitude above the greatest finite one counts as
an overflow, whatever it rounds to (R114). -/
def FloatFmt.convFrac (f : FloatFmt) (r : Rnd) (dflt : Bool) (sat : Nat) (neg : Bool) (n d : Nat) : Conv :=
  let c := f.round r n d
  if f.maxFin < c ∨ (r = .zero ∧ f.above n d) then { code := f.overflow r dflt sat neg, ovr := true, under := false }
  else { code := f.pack neg c, ovr := false, under := decide (n ≠ 0) && decide (c = 0) }

/-- A value converted to a float format. -/
def FloatFmt.conv (f : FloatFmt) (r : Rnd) (dflt : Bool) (sat : Nat) (v : Val) : Conv :=
  match v with
  | .nan => { code := f.nan, ovr := false, under := false }
  | .inf s =>
    if f.hasInf then { code := f.pack s (f.maxFin + 1), ovr := false, under := false }
    else if sat = 2 then { code := f.nan, ovr := false, under := false }
    else { code := f.pack s f.maxFin, ovr := true, under := false }
  | .fin s m e => let x := scaleFrac m 1 e; f.convFrac r dflt sat s x.1 x.2

/-- A value converted to INT8 (R116). -/
def convInt8 (r : Rnd) (v : Val) : Conv :=
  match v with
  | .nan => { code := 0, ovr := true, under := false }
  | .inf s => { code := if s then 0x80 else 0x7F, ovr := true, under := false }
  | .fin s m e =>
    let x := scaleFrac m 1 e
    let n := roundFrac r x.1 x.2
    let lim := if s then 128 else 127
    let k := min n lim
    { code := (if s then 256 - k else k) % 256, ovr := decide (lim < n), under := decide (m ≠ 0) && decide (n = 0) }

/-- A value converted to an element of an FMT code from 0x0 to 0xA that has no block scale. An FP32 result is rounded to
nearest even; an INT32 result is the value itself, modulo 2^32. -/
def convElem (fmt rnd sat n : Nat) (v : Val) : Conv :=
  match fmt with
  | 0x0 => { code := v.f32, ovr := false, under := false }
  | 0x9 => convInt8 (rndOf rnd n) v
  | 0xA => match v with
    | .fin s m e =>
      let x := scaleFrac m 1 e
      let k := (x.1 / x.2) % 2 ^ 32
      { code := if s then (2 ^ 32 - k) % 2 ^ 32 else k, ovr := false, under := false }
    | _ => { code := 0, ovr := false, under := false }
  | _ => match floatFmt fmt with
    | some f => f.conv (rndOf rnd n) (decide (3 ≤ fmt)) sat v
    | none => { code := 0, ovr := false, under := false }

/-! ## Block quantisation (R117, R118) -/

/-- The greater of two magnitudes given as FP32 patterns. -/
def amaxOf (xs : List (Option Nat)) : Nat := xs.foldl (fun m x => match x with | some v => max m (f32Mag v) | none => m) 0

/-- The BQ4 scale word for a largest magnitude: the smallest scale s with 6 × s ≥ amax. -/
def bq4Scale (amax : Nat) : Nat :=
  match f32Val amax with
  | .fin _ m e =>
    if m = 0 then 0
    else
      let x := scaleFrac m 6 e
      let p := topExp x.1 x.2
      let y := scaleFrac x.1 x.2 (4 - p)
      let k := ceilDiv y.1 y.2
      let (p, f) := if k = 32 then (p + 1, 0) else (p, k - 16)
      let e := p + 127
      if e < 0 then 0 else e.toNat * 16 + f
  | _ => 0x0FF0

/-- The MX scale byte for a largest magnitude. -/
def mxScale (fmt amax : Nat) : Nat :=
  let emax : Int := if fmt = 5 then 8 else if fmt = 6 then 15 else 2
  match f32Val amax with
  | .fin _ m e => if m = 0 then 0 else (max ((Nat.log2 m : Int) + e - emax) (-127) + 127).toNat
  | _ => 255

/-- A block of up to 32 FP32 values, none for an absent one, quantised to an FMT code from 0x5 to 0x8: its scale and its
elements. The noise of element i is `ns i`. -/
def quantise (fmt rnd sat : Nat) (ns : Nat → Nat) (xs : List (Option Nat)) : Nat × List Conv :=
  let zero : Conv := { code := 0, ovr := false, under := false }
  let bad := xs.any (fun x => match x with | some v => !f32IsFinite v | none => false)
  if bad then (if fmt = 8 then 0x0FF0 else 255, xs.map (fun _ => zero))
  else
    let amax := amaxOf xs
    let sc := if fmt = 8 then bq4Scale amax else mxScale fmt amax
    let f := (floatFmt fmt).getD fmtE2m1
    let one (x : Option Nat × Nat) : Conv :=
      match x.1 with
      | none => zero
      | some v =>
        match f32Val v, scaleVal fmt sc with
        | .fin s m e, .fin _ k q =>
          let y := scaleFrac m k (e - q)
          f.convFrac (rndOf rnd (ns x.2)) true sat s y.1 y.2
        | _, _ => zero
    (sc, xs.zipIdx.map one)

/-- Flush the subnormal BF16 results of the epilogue (R120). -/
def flushBf16 (c : Conv) : Conv :=
  if c.code % 2 ^ 15 < 2 ^ 7 then
    { c with code := c.code - c.code % 2 ^ 15, under := c.under || decide (c.code % 2 ^ 15 ≠ 0) }
  else c

end Sys2Proof.Machine
end

