-- ==== Sys2Proof/Machine/EfDesc.lean ====
section
/-! DEFINITION. The route image (R347 to R350), the send and collective descriptors, their limits and their costs
(R356 to R372). -/

namespace Sys2Proof.Machine

/-! ## The route image -/

/-- The route image in force: none outside a hedge. -/
def Dev.routeImg (d : Dev) : List Byte := if d.hedge.joined then d.hedge.route else []

def routeN (img : List Byte) : Nat := numAt img 6 2
/-- Neighbour entry of port i of rank s, and its fields (R347). -/
def routeEntry (img : List Byte) (s i : Nat) : Nat := numAt img (512 + (24 * s + i) * 4) 4
def entryValid (e : Nat) : Bool := bitOf e 31
def entryTransit (e : Nat) : Nat := bitsOf e 23 20
def entryTrunk (e : Nat) : Nat := bitsOf e 19 15
def entryPort (e : Nat) : Nat := bitsOf e 14 10
def entryRank (e : Nat) : Nat := bitsOf e 9 0

/-- The ports of a trunk of rank s (R348), and the trunk toward rank d. -/
def trunkPorts (img : List Byte) (s tr : Nat) : List Nat :=
  (List.range 24).filter (fun i => let e := routeEntry img s i; entryValid e && entryTrunk e == tr)
def nextHop (img : List Byte) (s d : Nat) : Nat := let n := routeN img; numAt img (512 + 96 * n + s * n + d) 1
def portsTo (img : List Byte) (s d : Nat) : List Nat := if s = d then [] else trunkPorts img s (nextHop img s d)

/-- The rank that rank s hands a packet for rank d to. -/
def hopRank (img : List Byte) (s d : Nat) : Option Nat := ((portsTo img s d).head?).map (fun i => entryRank (routeEntry img s i))

/-- The next hops that lead from s to d: none where more than `fuel` would be needed (R348). -/
def hops (img : List Byte) : Nat → Nat → Nat → Option Nat
  | 0, s, d => if s = d then some 0 else none
  | fuel + 1, s, d =>
    if s = d then some 0
    else match hopRank img s d with
      | some q => (hops img fuel q d).map (· + 1)
      | none => none

def hopCount (img : List Byte) (s d : Nat) : Nat := (hops img 16 s d).getD 0

/-- The ports of the first-hop trunk toward a rank, and those of them that are not DOWN, FAILED or TOO_LONG (R352). -/
def Dev.trunkTo (d : Dev) (q : Nat) : List Nat := portsTo d.routeImg d.hedge.rank q
def Dev.livePort (d : Dev) (l : Nat) : Bool := let s := d.linkState l; s != 0 && s != 5 && s != 6
def Dev.liveTo (d : Dev) (q : Nat) : List Nat := (d.trunkTo q).filter d.livePort

/-- TRANSIT of an own port, and the greatest on the trunk toward a rank (R370). -/
def Dev.transit (d : Dev) (l : Nat) : Nat := entryTransit (routeEntry d.routeImg d.hedge.rank l)
def Dev.transitTo (d : Dev) (q : Nat) : Nat := (d.trunkTo q).foldl (fun m l => max m (d.transit l)) 0

def portMask (ls : List Nat) : Nat := ls.foldl (fun m l => m ||| 1 <<< l) 0

/-! ## Descriptors -/

/-- The send descriptor of R356. -/
structure SendDesc where
  dest : Nat
  ctx : Nat
  window : Nat
  blocks : Nat
  ports : Nat
  src : Nat
  dst : Nat
  reservedOk : Bool

def sendDesc (b : List Byte) : SendDesc :=
  { dest := numAt b 0 2, ctx := numAt b 2 2, window := numAt b 4 2, blocks := numAt b 8 4, ports := numAt b 12 4,
    src := numAt b 16 8, dst := numAt b 24 8, reservedOk := zeroAt b 6 8 && zeroAt b 32 64 }

/-- The collective descriptor of R366. -/
structure CollDesc where
  kind : Nat
  op : Nat
  fmtIn : Nat
  fmtOut : Nat
  flags : Nat
  conv : Nat
  comp : Nat
  slot : Nat
  g : Nat
  tag : Nat
  bucket : Nat
  group : Nat
  src : Nat
  dst : Nat
  table : Nat
  res : Nat
  tid : Nat
  ports : Nat
  window : Nat
  count : Nat
  work : Nat
  reservedOk : Bool

def collDesc (b : List Byte) : CollDesc :=
  { kind := numAt b 0 1, op := numAt b 1 1, fmtIn := numAt b 2 1, fmtOut := numAt b 3 1, flags := numAt b 4 1,
    conv := numAt b 5 1, comp := numAt b 6 1, slot := numAt b 7 1, g := numAt b 8 2, tag := numAt b 10 2,
    bucket := numAt b 12 4, group := numAt b 16 8, src := numAt b 24 8, dst := numAt b 32 8, table := numAt b 40 8,
    res := numAt b 48 8, tid := numAt b 56 4, ports := numAt b 60 4, window := numAt b 64 2, count := numAt b 66 2,
    work := numAt b 68 8, reservedOk := zeroAt b 76 128 }

def CollDesc.flush (x : CollDesc) : Bool := !bitOf x.flags 0
def CollDesc.watch (x : CollDesc) : Bool := bitOf x.flags 1
def CollDesc.norm (x : CollDesc) : Bool := bitOf x.flags 2
def CollDesc.exclude (x : CollDesc) : Bool := bitOf x.flags 3
def CollDesc.cls (x : CollDesc) : Nat := bitsOf x.flags 5 4
def CollDesc.rnd (x : CollDesc) : Nat := x.conv % 4
def CollDesc.sat (x : CollDesc) : Nat := bitsOf x.conv 3 2
def CollDesc.int (x : CollDesc) : Bool := x.fmtIn == 0xA
/-- The compressed exchange (R368): mode, entries kept per block of 4,096, bytes of an entry. -/
def CollDesc.mode (x : CollDesc) : Nat := x.comp % 4
def CollDesc.kept (x : CollDesc) : Nat := 4096 / 2 ^ (bitsOf x.comp 4 2 + 4)
def CollDesc.wireFp32 (x : CollDesc) : Bool := bitOf x.comp 5
def CollDesc.entryBytes (x : CollDesc) : Nat := if x.wireFp32 then 8 else 4

/-- Whether a kind is a reduction of R359 or R362. -/
def CollDesc.reduces (x : CollDesc) : Bool := x.kind == 1 || x.kind == 3

/-- The plain field limits of R361 and R367. -/
def CollDesc.fieldsOk (x : CollDesc) : Bool :=
  let red (f : Nat) : Bool := decide (f ≤ 2) || f == 0xA
  decide (1 ≤ x.kind) && decide (x.kind ≤ 6) && x.reservedOk &&
  (if x.reduces then x.op == 1 else if x.kind = 5 then decide (1 ≤ x.op) && decide (x.op ≤ 5) else x.op == 0) &&
  decide (x.fmtIn ≤ 0xB) && decide (x.fmtOut ≤ 0xB) &&
  (!x.reduces || (red x.fmtIn && red x.fmtOut && (x.fmtIn == 0xA) == (x.fmtOut == 0xA))) &&
  decide (x.flags < 64) && (!x.norm || (x.reduces && x.watch)) &&
  decide (x.conv < 16) && x.rnd != 3 && x.sat != 3 &&
  decide (x.comp < 64) && x.mode != 3 && decide (bitsOf x.comp 4 2 ≤ 4) &&
  (x.mode == 0 || (x.kind == 1 && (x.fmtIn == 1 || x.fmtIn == 2))) &&
  decide (x.slot ≤ 3) && decide (x.bucket ≤ 4095) && decide (x.ports < 2 ^ 24) &&
  (x.kind == 4 || x.window == 0xFFFF) &&
  (if x.kind = 5 then decide (1 ≤ x.count) && decide (x.count ≤ 256) else x.count == 0) &&
  (x.kind == 6 || (decide (1 ≤ x.g) && decide (x.g ≤ 1024) && (decide (3 < x.kind) || x.g == 2 ^ Nat.log2 x.g)))

/-! ## What a line does -/

/-- A step of the schedule of R370. -/
structure EfStep where
  q : Nat
  sent : Nat
  recv : Nat
  lat : Nat
  deriving DecidableEq, Repr

/-- An entry of an all-to-all table (R363). -/
structure A2A where
  sendAddr : Nat
  sendBlocks : Nat
  recvAddr : Nat
  recvBlocks : Nat
  deriving DecidableEq, Repr

def a2aOf (b : List Byte) : A2A :=
  { sendAddr := numAt b 0 8, sendBlocks := numAt b 8 4, recvAddr := numAt b 16 8, recvBlocks := numAt b 24 4 }

/-- The group of a collective: ranks by position, the own position, the levels of its tree, elements of each shard. -/
structure Group where
  ranks : List Nat
  p : Nat
  k : Nat
  shards : List Nat
  a2a : List A2A

def Group.size (g : Group) : Nat := g.ranks.length
def Group.rankOf (g : Group) (i : Nat) : Nat := g.ranks.getD i 0
def Group.shard (g : Group) (s : Nat) : Nat := g.shards.getD s 0
def Group.entry (g : Group) (i : Nat) : A2A := g.a2a.getD i { sendAddr := 0, sendBlocks := 0, recvAddr := 0, recvBlocks := 0 }

def natSum (xs : List Nat) : Nat := xs.foldl (· + ·) 0

/-- Elements before shard s in the bucket, and in the whole bucket. -/
def Group.offset (g : Group) (s : Nat) : Nat := natSum (g.shards.take s)
def Group.total (g : Group) : Nat := natSum g.shards

/-- `⌈log2 n⌉`. -/
def ceilLog2 (n : Nat) : Nat := if n ≤ 1 then 0 else Nat.log2 (n - 1) + 1

/-- The shards the own position still reduces after `l` steps, and those it gives away at step l (R359). -/
def Group.keep (g : Group) (l : Nat) : List Nat := (List.range g.size).filter (fun s => decide (s % 2 ^ l = g.p % 2 ^ l))
def Group.give (g : Group) (l : Nat) : List Nat := (g.keep l).filter (fun s => bitOf s l != bitOf g.p l)

/-- The aligned block of 2^l positions that holds position x (R362). -/
def alignedBlock (l x : Nat) : List Nat := (List.range (2 ^ l)).map (fun i => x / 2 ^ l * 2 ^ l + i)

/-- The partner of position x at step l of the scalar lane; none for a step that is passed through (R364). -/
def scalarPartner (g l x : Nat) : Option Nat :=
  let r := x ^^^ 2 ^ l
  let base := r / 2 ^ l * 2 ^ l
  if g ≤ base then none else if g ≤ r then some base else some r

/-- The positions that select the own one at a step. -/
def Group.selectors (g : Group) (l : Nat) : List Nat :=
  (List.range g.size).filter (fun x => x != g.p && scalarPartner g.size l x == some g.p)

/-- The 512-byte blocks of the packs that one position sends for a shard (R368): each shard's packs fill blocks of their own. -/
def CollDesc.packBlocks (x : CollDesc) (n : Nat) : Nat :=
  let b := n / 4096
  if x.mode = 1 then ceilDiv (b * x.kept * x.entryBytes) 512 else b + ceilDiv b 128

/-- Bytes of the nodes, or packs, of a list of shards at step l. -/
def CollDesc.nodeBytes (x : CollDesc) (g : Group) (l : Nat) (ss : List Nat) : Nat :=
  if x.mode = 0 then natSum (ss.map g.shard) * (if l = 0 then elemBits x.fmtIn else 32) / 8
  else 512 * 2 ^ l * natSum (ss.map (fun s => x.packBlocks (g.shard s)))

/-- What a line reads of its descriptor and tables. -/
structure EfPlan where
  p2p : Bool
  send : SendDesc
  coll : CollDesc
  g : Group
  steps : List EfStep
  /-- ranks the line sends blocks or values to -/
  sends : List Nat
  ports : Nat
  /-- the address that breaks R356 to R367: BAD_PARAM; none where the line keeps them -/
  bad : Option Nat
  /-- R371: check 0x16 -/
  mismatch : Bool

def efNear (t a n : Nat) : Bool := a % 512 == 0 && runOk 0 a n && tierOf a == 1 && towerOf a == t
def efDeep (t a n : Nat) : Bool := a % 512 == 0 && runOk 0 a n && tierOf a == 2 && towerOf a == t
def efOwn (c a n : Nat) : Bool := a % 512 == 0 && runOk 0 a n && tierOf a == 0 && courseOf a == c

/-- Steps of the reduce-scatter and of the all-gather, the all-to-all and the scalar lane (R370). -/
def CollDesc.schedule (x : CollDesc) (g : Group) (h : Nat → Nat) : List EfStep :=
  let q (l : Nat) : Nat := g.rankOf (g.p ^^^ 2 ^ l)
  let rs := (List.range g.k).map (fun l =>
    { q := q l, sent := x.nodeBytes g l (g.give l), recv := x.nodeBytes g l (g.keep (l + 1)), lat := 262 * h (q l) + 64 : EfStep })
  let held (l y : Nat) : Nat := natSum ((alignedBlock l y).map g.shard) * elemBits x.fmtOut / 8
  let ag := (List.range g.k).map (fun l =>
    { q := q l, sent := held l g.p, recv := held l (g.p ^^^ 2 ^ l), lat := 262 * h (q l) + 64 : EfStep })
  match x.kind with
  | 1 => rs
  | 2 => ag
  | 3 => rs ++ ag
  | 4 =>
    let n := g.size
    let js := (List.range (n - 1)).map (· + 1)
    let far := js.foldl (fun m j => max m (h (g.rankOf ((g.p + j) % n)))) 0
    js.map (fun j =>
      { q := g.rankOf ((g.p + j) % n), sent := 512 * (g.entry ((g.p + j) % n)).sendBlocks,
        recv := 512 * (g.entry ((g.p + n - j) % n)).recvBlocks, lat := if j = 1 then 64 + 262 * far else 0 })
  | _ => (List.range g.k).filterMap (fun l => (scalarPartner g.size l g.p).map (fun r =>
      { q := g.rankOf r, sent := 0, recv := 0, lat := 262 * h (g.rankOf r) + 32 + 4 * ceilDiv (max 1 x.count) 60 }))

/-- The ranks a collective sends to (R371): the partner of every step of a reduce-scatter, all-gather or all-reduce, whose steps
send whatever the shards' lengths (R359, R362; DEDUCED, log 67), and of an all-to-all the positions whose slots are not absent (R363). -/
def CollDesc.targets (x : CollDesc) (g : Group) (steps : List EfStep) : List Nat :=
  if x.kind ≤ 3 then (steps.map (·.q)).eraseDups
  else if x.kind = 4 then ((steps.filter (fun s => decide (0 < s.sent))).map (·.q)).eraseDups
  else (((List.range g.k).flatMap g.selectors).map g.rankOf).eraseDups

/-- The regions a collective names, with whether each keeps R359 to R367 (R38 included). -/
def CollDesc.regions (x : CollDesc) (g : Group) (c : Nat) : List (Nat × Bool) :=
  let t := c / 12
  let bytes (f n : Nat) := n * elemBits f / 8
  let e := g.total
  let own := g.shard g.p
  let srcLen := bytes x.fmtIn (if x.kind = 2 then own else e)
  let srcLen := if x.kind = 2 then bytes x.fmtOut own else srcLen
  let dstLen := bytes x.fmtOut (if x.kind = 1 then own else e)
  let work := 4 * natSum ((g.keep 1).map g.shard)
  let res := (x.res, if x.comp = 0 then x.res == 0 else efDeep t x.res (if x.mode = 0 then 0 else 8 * e))
  match x.kind with
  | 1 | 2 | 3 =>
    let unit := if x.mode = 0 then 256 else 4096
    let moves := x.kind != 2 && decide (0 < g.k) && x.mode == 0
    [(x.table, g.shards.all (fun n => n % unit == 0)), (x.src, efNear t x.src srcLen),
     (x.dst, efNear t x.dst dstLen && !overlaps x.dst dstLen x.src srcLen &&
       !(moves && overlaps x.dst dstLen x.work work)),
     (x.work, !moves || efNear t x.work work), res]
  | 4 => res :: (g.a2a.zipIdx.flatMap (fun e =>
      let a := e.1
      let n := if e.2 = g.p then max a.sendBlocks a.recvBlocks else a.recvBlocks
      [(a.sendAddr, a.sendBlocks == 0 || efNear t a.sendAddr (512 * a.sendBlocks)),
       (a.recvAddr, n == 0 || efNear t a.recvAddr (512 * n))]))
  | 5 => [res] ++
      [x.src, x.dst].map (fun a => (a, efNear t a (4 * x.count) || efOwn c a (4 * x.count)))
  | _ => [res, (x.group, x.group == 0)]

/-- The group and tables of a collective, read from the near store. -/
def CollDesc.groupOf (x : CollDesc) (m : Memory) (d : Dev) : Group :=
  let n := if x.kind = 6 then d.hedge.size else x.g
  let ranks := if x.kind = 6 then List.range n
    else let b := readBytes m x.group (2 * n); (List.range n).map (fun i => numAt b (2 * i) 2)
  let shards := if x.kind ≤ 3 then
      let b := readBytes m x.table (4 * n); (List.range n).map (fun i => numAt b (4 * i) 4) else []
  let a2a := if x.kind = 4 then
      let b := readBytes m x.table (32 * n)
      (List.range n).map (fun i => a2aOf (slice b (32 * i) 32))
    else []
  { ranks := ranks, p := ranks.idxOf d.hedge.rank % max 1 n, k := ceilLog2 n, shards := shards, a2a := a2a }

/-- Whether the group and shard or all-to-all tables lie where they may, and the zero fields of an all-to-all table. -/
def CollDesc.tablesBad (x : CollDesc) (m : Memory) (c : Nat) : Option Nat :=
  let t := c / 12
  if x.kind = 6 then none
  else if !efNear t x.group (2 * x.g) then some x.group
  else if x.kind ≤ 3 ∧ !efNear t x.table (4 * x.g) then some x.table
  else if x.kind = 4 ∧ !(efNear t x.table (32 * x.g) && (List.range x.g).all (fun i =>
      zeroAt (readBytes m (x.table + 32 * i) 32) 12 16 && zeroAt (readBytes m (x.table + 32 * i) 32) 28 32)) then some x.table
  else none

/-- The union of the first-hop trunks toward some ranks. -/
def Dev.trunksMask (d : Dev) (qs : List Nat) : Nat := portMask (qs.flatMap d.trunkTo)

def emptySend : SendDesc := sendDesc []
def emptyColl : CollDesc := collDesc []
def emptyGroup : Group := { ranks := [], p := 0, k := 0, shards := [], a2a := [] }

/-- A point-to-point line (R356, R370, R371). DEST_ADDR is an address on the receiver, which keeps R38 and names one of the stores
of a device; what it holds there is the receiver's to check (R354). -/
def sendPlan (d : Dev) (c desc : Nat) (b : List Byte) : EfPlan :=
  let s := sendDesc b
  let n := 512 * s.blocks
  let t := c / 12
  let fields := descOk desc 64 c && s.reservedOk && decide (1 ≤ s.blocks) && decide (s.blocks ≤ 2 ^ 20) &&
    decide (s.ports < 2 ^ 24) && d.hedge.joined && s.dest != d.hedge.rank && decide (s.dest < d.hedge.size)
  let bad := if !fields then some desc
    else if !(efOwn c s.src n || efNear t s.src n || efDeep t s.src n) then some s.src
    else if !(s.dst % 512 == 0 && decide (tierOf s.dst ≤ 2) && runOk 0 s.dst n) then some s.dst
    else none
  let one : EfStep := { q := s.dest, sent := n, recv := 0, lat := 0 }
  { p2p := true, send := s, coll := emptyColl, g := emptyGroup, steps := [one], sends := [s.dest], ports := s.ports,
    bad := bad, mismatch := d.trunksMask [s.dest] != s.ports }

/-- A collective line. `blocks` gives BLOCKS of a receive window of its context (R363). -/
def collPlan (m : Memory) (d : Dev) (c desc : Nat) (blocks : Nat → Option Nat) (b : List Byte) : EfPlan :=
  let x := collDesc b
  let refuse (a : Nat) : EfPlan :=
    { p2p := false, send := emptySend, coll := x, g := emptyGroup, steps := [], sends := [], ports := x.ports, bad := some a,
      mismatch := false }
  if !(descOk desc 128 c && x.fieldsOk) then refuse desc
  else match x.tablesBad m c with
    | some a => refuse a
    | none =>
      let g := x.groupOf m d
      let own := (g.ranks.filter (fun r => r == d.hedge.rank)).length
      let steps := x.schedule g (fun q => hopCount d.routeImg q d.hedge.rank)
      let sends := x.targets g steps
      let bad := if g.ranks.any (fun r => decide (d.hedge.size ≤ r)) then some x.group
        else ((x.regions g c).find? (fun e => !e.2)).map (·.1)
      let expected := natSum (g.a2a.zipIdx.map (fun e => if e.2 = g.p then 0 else e.1.recvBlocks))
      { p2p := false, send := emptySend, coll := x, g := g, steps := steps, sends := sends, ports := x.ports, bad := bad,
        mismatch := own != 1 || d.trunksMask sends != x.ports || decide (x.kind = 4 ∧ blocks x.window ≠ some expected) }

def efPlan (m : Memory) (d : Dev) (c : Nat) (ln : Line) (blocks : Nat → Option Nat) : EfPlan :=
  if ln.unit = 5 then sendPlan d c ln.desc (readBytes m ln.desc 64)
  else collPlan m d c ln.desc blocks (readBytes m ln.desc 128)

/-- The shared units of an EF line of tower t (R91, R140, R372): its own collective engine and those of the towers whose ports it
uses, and these ports. Engines are numbered 200 + t, ports 300 + p. -/
def efUnits (t ports : Nat) : List Nat :=
  let mine := (List.range 24).filter (bitOf ports)
  ((200 + t) :: mine.map (fun l => 200 + l / 3)).eraseDups ++ mine.map (300 + ·)

/-! ## Cost (R370) -/

/-- rate_term of R370; none when no port of the trunk is in service. -/
def Dev.rateTerm (d : Dev) (bytes q : Nat) : Option Nat :=
  if bytes = 0 then some 0
  else
    let n := (d.liveTo q).length
    let b := ceilDiv bytes 512
    if n = 0 then none else some (max (ceilDiv (b * 9 * 16) (2 * n * (16 - d.transitTo q))) (ceilDiv bytes 1024))

def EfPlan.lat (p : EfPlan) : Nat := 64 + natSum (p.steps.map (·.lat))
def EfPlan.xfer (p : EfPlan) (d : Dev) : Option Nat :=
  p.steps.foldl (fun s e => match s, d.rateTerm (max e.sent e.recv) e.q with
    | some a, some b => some (a + b)
    | _, _ => none) (some 0)

/-- Check 15. -/
def EfPlan.check15 (p : EfPlan) (d : Dev) (ln : Line) : Bool :=
  ln.path == 4 && decide (p.lat ≤ ln.wcCompute) &&
  match p.xfer d with
  | some x => decide (x ≤ ln.wcXfer)
  | none => false

/-- BLOCKS of a receive window of a context's loaded image (R79), seen from course c. -/
def ctxBlocks (m : Memory) (x : Ctx) (c k : Nat) : Option Nat :=
  if k < (tabHdr (tabBytes m x c 0 256)).windows then some (windowEntry m x c k).2.2 else none

/-- The shared units that a line of a context on course c occupies (R91): the update engine of its tower, or the collective engines
and peer ports of an EF line; none for a line of a unit of the course itself. -/
def Dev.lineUnits (d : Dev) (m : Memory) (ctx c : Nat) (ln : Line) : List Nat :=
  if ln.unit = 7 then [100 + c / 12]
  else if ln.unit = 5 ∨ ln.unit = 6 then efUnits (c / 12) (efPlan m d c ln (ctxBlocks m (d.ctx ctx) c)).ports
  else []

def World.sharedUnits (w : World) (ctx c : Nat) (ln : Line) : List Nat := w.d.lineUnits w.mem ctx c ln

/-- Whether a line holds the collective engine of tower t (R367, R374): an EF line of this tower, or of another whose blocks it
carries to or from its ports. -/
def Dev.holdsEngine (d : Dev) (m : Memory) (t c : Nat) (x : Course) (l : LineSt) : Bool :=
  (l.phase == .launched || l.phase == .worked) && (d.lineUnits m (x.runner.getD 0) c l.ln).contains (200 + t)

/-- Whether the collective engine of a tower has a line in work. -/
def Dev.engineBusy (d : Dev) (m : Memory) (t : Nat) : Bool :=
  d.courses.any (fun e => e.2.lines.any (d.holdsEngine m t e.1 e.2))

end Sys2Proof.Machine
end

