-- ==== Sys2Proof/Machine/Contexts.lean ====
section
/-! DEFINITION. Contexts: their descriptors, their resident sets and AB groups, how a position completes, how a context stops,
and the moves of register images (R157 to R160, R388 to R400, R565). -/

namespace Sys2Proof.Machine

def ctxStCode : CtxSt → Nat
  | .free => 0
  | .loaded => 1
  | .runnable => 2
  | .resident => 3
  | .parked => 4
  | .faulted => 5

/-- A context in a running state. -/
def Ctx.active (x : Ctx) : Bool := x.st == .runnable || x.st == .resident

/-- The 256 bytes of a context descriptor (R389). That of a FREE context reads as zeros (DEDUCED from the reset value of CTX_VIEW_n in
R417, log 116). -/
def descriptorBytes (i : Nat) (x : Ctx) : List Byte :=
  if x.st = .free then leBytes 256 0 else
  leBytes 2 i ++ leBytes 1 (ctxStCode x.st) ++ leBytes 1 x.kind ++ leBytes 1 x.partition ++ [x.filler] ++ [x.priority] ++
  leBytes 1 (if x.tabValid then 1 else 0) ++ leBytes 8 x.seed.toNat ++ leBytes 12 x.mask.toNat ++ leBytes 4 0 ++
  leBytes 8 x.tabOff ++ leBytes 4 x.tabSpace ++ leBytes 4 0 ++ leBytes 8 x.saveOff ++ leBytes 8 x.pos ++
  leBytes 8 x.passes ++ leBytes 8 x.runFrets ++ leBytes 8 x.startFret ++
  leBytes 8 (x.parkPos.getD (2 ^ 64 - 1)) ++ leBytes 2 x.lastStatus.toNat ++ leBytes 2 x.lastDetail.toNat ++
  leBytes 4 x.lastParam.toNat ++ padTo 32 x.tabDigest ++ leBytes 120 0

/-- The descriptor of a context as CTX_QUERY and CTX_VIEW show it. -/
def Dev.descriptor (d : Dev) (i : Nat) : List Byte := descriptorBytes i (d.ctx i)

/-! ## Resident sets and AB groups -/

def Dev.setCtxOf (d : Dev) (c n : Nat) : Option Nat :=
  if d.fld (CC_SET c n) 31 31 = 1 then some (d.fld (CC_SET c n) 13 0) else none

/-- The set that holds a context on a course (R397). -/
def Dev.setOf (d : Dev) (c i : Nat) : Option Nat := (List.range 4).find? (fun n => d.setCtxOf c n == some i)

def Dev.freeSet (d : Dev) (c : Nat) : Option Nat := (List.range 4).find? (fun n => d.setCtxOf c n == none)

/-- The context that owns group g of a course's AB (R198). -/
def Dev.groupCtx (d : Dev) (c g : Nat) : Option Nat :=
  let a := AB c + 0x10 + 8 * g
  if d.fld a 63 63 = 1 then some (d.fld a 45 32) else none

def Dev.groupOf (d : Dev) (c i : Nat) : Option Nat := (List.range 4).find? (fun g => d.groupCtx c g == some i)

/-- The partition that a context asks of a course. SVC_START gives a service none: it takes the one in force, or P1 where no group is
held (DESIGN CHOICE, log 22). -/
def Dev.partitionFor (d : Dev) (c i : Nat) : Nat :=
  let x := d.ctx i
  if x.kind ≠ 2 then x.partition
  else if (List.range 4).any (fun g => (d.groupCtx c g).isSome) then d.fld (AB c) 2 0
  else 1

/-- A group a context of partition p may take on a course: a free one of the partition in force, or group 0 of a course whose
groups are all free (R397). -/
def Dev.freeGroup (d : Dev) (c p : Nat) : Option Nat :=
  let owned := (List.range 4).filter (fun g => (d.groupCtx c g).isSome)
  if owned.isEmpty then some 0
  else if d.fld (AB c) 2 0 = p then (List.range p).find? (fun g => d.groupCtx c g == none) else none

/-- Assign a group to a context (R397). -/
def Dev.takeGroup (d : Dev) (c i p g : Nat) : Dev :=
  let d := d.setFld (AB c) 2 0 p
  d.setReg (AB c + 0x10 + 8 * g) (BitVec.ofNat 64 ((1 <<< 63) + ((i % 2 ^ 14) <<< 32)))

/-- The group holds no open accumulation and no held tile any more: AB_STATUS, AB_GROUP_g and AB_NEXT_g show none (R215, R229). -/
def Dev.closeAccum (d : Dev) (c g : Nat) : Dev :=
  let a := AB c + 0x10 + 8 * g
  let d := ((d.setFld a 62 62 0).setFld a 26 22 0).setFld a 16 0 0
  let d := d.setReg (AB c + 0x30 + 8 * g) 0
  let d := (d.setFld (AB c) (8 + g) (8 + g) 0).setFld (AB c) (12 + g) (12 + g) 0
  d.onCourse c (fun x => { x with groups := tdel x.groups g })

/-- Free the groups of a context on a course: what they hold is dropped. -/
def Dev.dropGroups (d : Dev) (c i : Nat) : Dev :=
  (List.range 4).foldl (fun d g =>
    if d.groupCtx c g = some i then (d.closeAccum c g).setReg (AB c + 0x10 + 8 * g) 0 else d) d

/-- Whether a context's group on a course holds an open accumulation or a held tile (R399, R509). -/
def Dev.groupBusy (d : Dev) (c i : Nat) : Bool :=
  (List.range 4).any (fun g => d.groupCtx c g == some i &&
    match tfind (d.course c).groups g with
    | some a => a.open_ || a.held
    | none => false)

/-- Empty a set: its registers are those of a set that holds nothing. -/
def Dev.clearSet (d : Dev) (c n : Nat) : Dev :=
  let lo := CC_SREG c n 0
  let d := { d with regs := d.regs.filter (fun e => decide (e.1 < lo) || decide (lo + 0x100 ≤ e.1)) }
  let d := (d.setReg (CC_SET c n) 0).setReg (CC_POS c n) 0
  d.onCourse c (fun x => { x with
    sets := tdel x.sets n
    vregs := x.vregs.filter (fun e => decide (e.1 / 32 ≠ n))
    mregs := x.mregs.filter (fun e => decide (e.1 / 8 ≠ n)) })

/-- Take a context off the units of a course: its lines leave the buffer. -/
def Dev.dropLines (d : Dev) (c i : Nat) : Dev :=
  if (d.course c).runner = some i then
    let d := d.setFld (CC_STATUS c) 0 0 0
    d.onCourse c (fun x => { x with
      lines := [], fetched := none, runner := none,
      routine := if (x.routine.map (·.ctx)) = some i then none else x.routine })
  else if (d.course c).fetched.any (fun e => e.1 == i) then d.onCourse c (fun x => { x with fetched := none })
  else d

/-- Free everything a context holds on the courses of its mask. -/
def Dev.dropResident (d : Dev) (i : Nat) : Dev :=
  (maskCourses (d.ctx i).mask.toNat).foldl (fun d c =>
    let d := d.dropLines c i
    let d := match d.setOf c i with | some n => d.clearSet c n | none => d
    d.dropGroups c i) d

/-- Start a set afresh for a context (R146, R398): zero registers, PRED_INIT, its position. A service has no tab in the spec: its sets
hold no line stream (log 22). -/
def World.zeroImage (w : World) (c n i : Nat) : World :=
  let x := w.d.ctx i
  let h := ctxHdr w.mem x
  let img := ctxImg w.mem x c
  let e := if x.kind = 2 then (0, 0) else courseEntry img c
  let preds := if x.kind = 2 then 0 else h.predInit % 16
  w.onDev (fun d =>
    let d := d.clearSet c n
    let d := d.setReg (CC_SET c n) (BitVec.ofNat 64 ((1 <<< 31) + (preds <<< 16) + i % 2 ^ 14))
    let d := d.setReg (CC_POS c n) (BitVec.ofNat 64 x.pos)
    d.onCourse c (fun y => { y with
      sets := tput y.sets n
        { lineCount := e.2, ptr := if e.2 = 0 then 0 else skipPositions img x.pos e.1, pass := x.passes } }))

/-! ## Register images (R160, R565) -/

/-- The address of a context's register image of a course. -/
def imageAddr (x : Ctx) (c : Nat) : Nat := deepAddr (c / 12) (x.saveOff + (c % 12) * 16896)

/-- The 16,896 bytes of the image of set n. -/
def Dev.imageBytes (d : Dev) (c n : Nat) : List Byte :=
  let y := d.course c
  let s := tget { lineCount := 0, ptr := 0, pass := 0 } y.sets n
  (List.range 32).flatMap (fun k => leBytes 8 (d.sreg c n k).toNat) ++
  (List.range 8).flatMap (fun k => leBytes 16 (tget 0 y.mregs (8 * n + k)).toNat) ++
  leBytes 1 (d.fld (CC_SET c n) 19 16) ++ leBytes 3 0 ++ leBytes 4 s.lineCount ++ leBytes 8 s.ptr ++
  leBytes 8 (d.fld (CC_POS c n) 63 0) ++ leBytes 8 s.pass ++ leBytes 96 0 ++
  (List.range 32).flatMap (fun k => leBytes 512 (tget 0 y.vregs (32 * n + k)).toNat)

/-- The mover of a course has carried a register image: 33 blocks (R160, R302). -/
def World.imageBlocks (w : World) (c : Nat) : World := w.count (MEMR (c / 12) + 0x100 + 8 * (c % 12)) 63 0 33

/-- Write the image of set n to its context's save area. -/
def World.saveImage (w : World) (c n i : Nat) : World :=
  let a := imageAddr (w.d.ctx i) c
  let b := w.d.imageBytes c n
  let w := (List.range 33).foldl (fun w k => w.putBlk (a + 512 * k) (slice b (512 * k) 512) 0) w
  (w.imageBlocks c).count (CTXR (c / 12) + 0x18) 63 0 1

/-- 128 lanes of the canonical FP32 NaN. -/
def nanVreg : Nat := leNat poisonData

/-- Load a context's saved image into set n, handling its poisoned blocks (R565). -/
def World.loadImage (w : World) (c n i : Nat) : World :=
  let x := w.d.ctx i
  let a := imageAddr x c
  let w := (w.imageBlocks c).count (CTXR (c / 12) + 0x18) 63 0 1
  if w.poisoned a then
    (w.consumed (c / 12) 1 4 i).onDev (fun d => d.stopCtx i .faulted stPoisoned 0 0)
  else
    let b := readBytes w.mem a 16896
    let bad := (List.range 32).filter (fun k => w.poisoned (a + 512 * (k + 1)))
    let w := w.consumed (c / 12) bad.length 4 i
    w.onDev (fun d =>
      let d := d.clearSet c n
      let d := d.setReg (CC_SET c n) (BitVec.ofNat 64 ((1 <<< 31) + ((numAt b 384 1 % 16) <<< 16) + i % 2 ^ 14))
      let d := d.setReg (CC_POS c n) (BitVec.ofNat 64 (numAt b 400 8))
      let d := (List.range 31).foldl (fun d k => d.setSreg c n (k + 1) (BitVec.ofNat 64 (numAt b (8 * (k + 1)) 8))) d
      d.onCourse c (fun y => { y with
        sets := tput y.sets n { lineCount := numAt b 388 4, ptr := numAt b 392 8, pass := numAt b 408 8 }
        mregs := (List.range 8).foldl (fun t k => tput t (8 * n + k) (BitVec.ofNat 128 (numAt b (256 + 16 * k) 16))) y.mregs
        vregs := (List.range 32).foldl (fun t k =>
          tput t (32 * n + k) (BitVec.ofNat 4096
            (if bad.contains k then nanVreg else numAt b (512 * (k + 1)) 512))) y.vregs }))

/-! ## Completion and stopping -/

/-- Whether a line of a context is running on any course (R56). -/
def Dev.linesRunning (d : Dev) (i : Nat) : Bool :=
  d.courses.any (fun e => e.2.runner == some i && e.2.lines.any (fun l => l.phase.running))

/-- Whether every enabled line of a context's position has completed (R97). -/
def Dev.positionDone (d : Dev) (i : Nat) : Bool :=
  d.courses.all (fun e => e.2.runner != some i ||
    e.2.lines.all (fun l => l.phase == .done || l.phase == .skipped))

/-- The position after one that completes, and the passes completed: none when the context completes (R97). -/
def nextPosition (h : TabHdr) (pos passes : Nat) : Option (Nat × Nat) :=
  if pos + 1 < h.positions then some (pos + 1, passes)
  else if h.loopCount ≠ 0 ∧ h.loopCount ≤ passes + 1 then none
  else some (h.loopStart, passes + 1)

/-- Set the position, stream pointer and pass count of a context in its set n of a course (R157). -/
def World.moveSet (w : World) (i pos passes c n : Nat) : World :=
  let x := w.d.ctx i
  let img := ctxImg w.mem x c
  w.onDev (fun d =>
    let d := d.setReg (CC_POS c n) (BitVec.ofNat 64 pos)
    d.onCourse c (fun y =>
      let s := tget { lineCount := 0, ptr := 0, pass := 0 } y.sets n
      let p := if s.lineCount = 0 then s.ptr
        else if pos = x.pos + 1 then (positionFrom img 255 s.ptr).2
        else skipPositions img pos (courseEntry img c).1
      { y with sets := tput y.sets n { s with ptr := p, pass := passes } }))

/-- The same in every set of a context. -/
def World.movePosition (w : World) (i pos passes : Nat) : World :=
  (w.d.ctxCourses i).foldl (fun w c =>
    match w.d.setOf c i with
    | none => w
    | some n => w.moveSet i pos passes c n) w

/-- The windows due in a position start counting again (R355). -/
def freshWindows (m : Memory) (x : Ctx) (pos : Nat) : Tab Nat :=
  x.win.filter (fun e => decide ((windowEntry m x (firstCourse x.tabMask.toNat) e.1).1 ≠ pos))

/-- A context leaves the units with its position neither open nor running. -/
def Dev.offUnits (d : Dev) (i : Nat) : Dev := (maskCourses (d.ctx i).mask.toNat).foldl (fun d c => d.dropLines c i) d

/-- The step slots of a context enter IDLE (R305): a step that was OPEN or NORMED ends without a decision. -/
def Dev.idleSlots (d : Dev) (i : Nat) : Dev :=
  (List.range 4).foldl (fun d n =>
    let a := UER 0 + 0x100 + n * 0x40
    if d.fld a 19 17 ≠ 0 ∧ d.fld a 13 0 = i then
      let d := (d.setFld a 19 17 1).setFld a 25 24 0
      let d := (d.setReg (a + 0x10) 0).setReg (a + 0x18) 0
      d.onSlot n (fun s => { s with normStack := [], normNext := 0, verdict := 0 })
    else d) d

/-- The park commands of a context that wait are concluded (R393): their tags leave the outstanding ones. -/
def Dev.endParks (d : Dev) (i : Nat) : Dev × W16 :=
  let mine := d.hl.jobs.filter (fun j => j.opcode == 0x104 && j.h.ctx.toNat == i)
  let d := mine.foldl (fun d j => d.settle j.h.port.val j.h.tag) d
  ({ d with hl := { d.hl with jobs := d.hl.jobs.filter (fun j => !(j.opcode == 0x104 && j.h.ctx.toNat == i)) } },
   match mine.getLast? with | some j => j.h.tag | none => 0xFFFF)

/-- A position of a context completes at the end of a fret (R396); the context may complete with it (R395). A park set for after this
position takes the context at this boundary, wherever its loop goes on (R393). A fault met in the last
position still stops the context, so its loop does not complete it (R152, R299, R322). -/
def World.completePosition (w : World) (i : Nat) : World :=
  let x := w.d.ctx i
  let h := ctxHdr w.mem x
  let win := freshWindows w.mem x x.pos
  let w := w.onDev (fun d => d.offUnits i)
  match nextPosition h x.pos x.passes with
  | some (p, q) =>
    let w := w.movePosition i p q
    w.onDev (fun d => d.onCtx i (fun x => { x with
      pos := p, passes := q, posOpen := false, win := win, parkPos := if x.parkPos = some (x.pos + 1) then some p else x.parkPos }))
  | none =>
    let w := w.onDev (fun d => d.onCtx i (fun x => { x with
      pos := h.positions, passes := x.passes + 1, posOpen := false, win := win }))
    if x.stop.any (fun s => s.tgt == .faulted) then w
    else
      let w := w.onDev (fun d => (d.endParks i).1.onCtx i (fun x => { x with
        st := .loaded, begun := false, stop := none, parkPos := none }))
      (w.onDev (fun d => d.idleSlots i)).event 0x801 stOk 0 i []

/-- A context stops (R395): it enters the state of its stop, the event is sent, and a context of KIND 1 that faults or is parked
under R93 raises ABORT (R536). -/
def World.enterStop (w : World) (i : Nat) (s : Stop) : World :=
  let x := w.d.ctx i
  let w := w.onDev (fun d => d.offUnits i)
  let w := w.onDev (fun d => d.onCtx i (fun x => { x with
    st := s.tgt, lastStatus := s.status, lastDetail := s.detail, lastParam := s.param, stop := none, parkPos := none,
    begun := false, posOpen := false }))
  let w := if x.kind = 1 ∧ (s.tgt = .faulted ∨ s.status ≠ stOk) then w.raise flagAbort else w
  let body := [mkBlk (leBytes 4 s.param.toNat ++ leBytes 4 0 ++ leBytes 8 x.pos)]
  w.onDev (fun d =>
    let (d, tag) := d.endParks i
    d.event (if s.tgt = .faulted then 0x803 else 0x802) s.status s.detail i tag body)

/-- A context is returned to FREE by CTX_DESTROY (R391): its sets, groups and step slots are freed. -/
def Dev.destroyCtx (d : Dev) (i : Nat) : Dev :=
  let x := d.ctx i
  let d := d.dropResident i
  let d := (List.range 4).foldl (fun d n =>
    let a := UER 0 + 0x100 + n * 0x40
    if d.fld a 19 17 ≠ 0 ∧ d.fld a 13 0 = i then
      let d := [0, 8, 0x10, 0x18, 0x20, 0x28].foldl (fun d o => d.setReg (a + o) 0) d
      { d with slots := tdel d.slots n }
    else d) d
  let d := if d.fld FH_CTRL 31 31 = 1 ∧ d.fld FH_CTRL 13 0 = i then { d with fh := [], fhPositions := 0 } else d
  let d := (d.endParks i).1
  let d := (d.ckpts.filter (fun k => k.ctx == i && !k.running)).foldl (fun d k => match k.job with
    | some (p, t) => d.jobEnded p t stNoContext 0
    | none => d) d
  let d : Dev := { d with
    ckpts := d.ckpts.filter (fun k => k.ctx != i || k.running), rx := d.rx.filter (fun r => r.ctx != i), sent := d.sent.filter (fun r => r.ctx != i), wants := d.wants.filter (fun r => r.ctx != i) }
  let d := { d with ctxs := tdel d.ctxs i }
  match x.destroy with
  | some (p, t) => d.jobEnded p t stOk 0
  | none => d

/-- What the end of a fret does to a running context: its position may complete, its pending stop or park may take it, it may be
destroyed (R391, R393, R395, R396). -/
def World.boundary (w : World) (ranNonHold : Bool) (i : Nat) : World :=
  let x := w.d.ctx i
  if !x.active then w
  else
    let w := if x.ran && ranNonHold then w.onDev (fun d => d.onCtx i (fun x => { x with runFrets := x.runFrets + 1 })) else w
    let w := w.onDev (fun d => d.onCtx i (fun x => { x with ran := false }))
    let w := if x.posOpen && w.d.positionDone i then w.completePosition i else w
    let x := w.d.ctx i
    if !x.active then
      match x.destroy with | some _ => w.onDev (fun d => d.destroyCtx i) | none => w
    else if w.d.linesRunning i then w
    else if x.destroy.isSome then w.onDev (fun d => d.destroyCtx i)
    else match x.stop with
      | some s => w.enterStop i s
      | none =>
        if (x.parkPos = some x.pos ∨ x.parkPos = some 0) ∧ !x.posOpen then
          w.enterStop i { tgt := .parked, status := stOk, detail := 0, param := 0 }
        else w

/-- A service ends: its queued batches are answered with a status, checkpoints it has not begun are dropped, its configuration
and its context are gone, and CTX_SVC shows it stopped (R404, log 61). -/
def World.endService (w : World) (i : Nat) (st : W16) : World :=
  let w := (w.d.svc i).queue.foldl (fun w h => w.answer h 0x502 st 0) w
  w.onDev (fun d =>
    let d := (d.onSvc i (fun _ => .init)).setFld (CTX_SVC i) 63 63 0
    let d := d.setFld (CTX_SVC i) 55 48 0
    if i = 1 then { d with ckpts := d.ckpts.filter (fun k => k.job.isSome || k.running) } else d)

/-! ## Residency (R397 to R399) -/

/-- The order in which contexts are placed (R399): KIND 1, then services with a share, then standalone by PRIORITY and ID. -/
def Dev.placeRank (d : Dev) (i : Nat) : Nat :=
  let x := d.ctx i
  if x.kind = 1 then i
  else if x.kind = 2 then 0x10000 + i
  else 0x20000 + (15 - x.priority.toNat) * 0x4000 + i

/-- Insertion into a list ordered by a rank. -/
def insertBy (f : Nat → Nat) (x : Nat) : List Nat → List Nat
  | [] => [x]
  | y :: ys => if f x ≤ f y then x :: y :: ys else y :: insertBy f x ys

def sortBy (f : Nat → Nat) (xs : List Nat) : List Nat := xs.foldr (insertBy f) []

/-- Whether the sets of a context may be evicted for the context `i` (R399). A context that is not running makes way for any. -/
def Dev.evictable (d : Dev) (i v : Nat) : Bool :=
  let y := d.ctx v
  !(maskCourses y.mask.toNat).any (fun c => d.groupBusy c v) && !d.linesRunning v &&
  (!y.active || (y.kind != 1 && decide (d.placeRank i < d.placeRank v)))

/-- Evict the context in set n of a course: its image goes to its save area if it is to be resumed, its set and groups are freed.
A service has no save area: its sets start afresh each time (DESIGN CHOICE, log 22).
The image names the set's next position (R565), which a position that ends with this fret makes the one after it. -/
def World.evict (w : World) (c n v : Nat) : World :=
  let y := w.d.ctx v
  let w := if y.posOpen then
      match nextPosition (ctxHdr w.mem y) y.pos y.passes with
      | some (pos, passes) => w.moveSet v pos passes c n
      | none => w
    else w
  let w := if y.kind = 2 ∨ y.fresh.getLsbD c then w else w.saveImage c n v
  w.onDev (fun d =>
    let d := d.clearSet c n
    let d := d.dropGroups c v
    d.onCtx v (fun y => if y.st = .resident then { y with st := .runnable } else y))

/-- The image moves left of a guard band: moves made per tower, courses with an image moved in, moved out. -/
structure Moves where
  tower : Tab Nat
  ins : List Nat
  outs : List Nat

def Moves.room (m : Moves) (t : Nat) : Bool := decide (tget 0 m.tower t < 8)
def Moves.used (m : Moves) (t : Nat) : Moves := { m with tower := tput m.tower t (tget 0 m.tower t + 1) }

/-- The context whose set on a course is evicted first for `i`: the last in the order of R399 among those that may be. -/
def Dev.victim (d : Dev) (c i : Nat) : Option (Nat × Nat) :=
  let cand := (List.range 4).filterMap (fun n =>
    match d.setCtxOf c n with
    | some v => if v ≠ i ∧ d.evictable i v then some (n, v) else none
    | none => none)
  cand.foldl (fun best x => match best with
    | none => some x
    | some b =>
      let r (v : Nat) := (if (d.ctx v).active then 0 else 0x100000) + d.placeRank v
      if r b.2 < r x.2 then some x else best) none

/-- Place a context on one course: evict if there is no set, then load its image (R160, R398). -/
def placeOn (i : Nat) (s : World × Moves) (c : Nat) : World × Moves :=
  let (w, m) := s
  let t := c / 12
  if (w.d.setOf c i).isSome then
    if (w.d.groupOf c i).isSome then (w, m)
    else match w.d.freeGroup c (w.d.partitionFor c i) with
      | some g => (w.onDev (fun d => d.takeGroup c i (d.partitionFor c i) g), m)
      | none => (w, m)
  else if m.ins.contains c || !m.room t then (w, m)
  else
    let (w, m) :=
      if (w.d.freeSet c).isSome && (w.d.freeGroup c (w.d.partitionFor c i)).isSome then (w, m)
      else match w.d.victim c i with
        | some (n, v) =>
          if m.outs.contains c then (w, m) else (w.evict c n v, { m.used t with outs := c :: m.outs })
        | none => (w, m)
    match w.d.freeSet c, w.d.freeGroup c (w.d.partitionFor c i) with
    | some n, some g =>
      if !m.room t then (w, m)
      else
        let x := w.d.ctx i
        let fresh := x.kind == 2 || x.fresh.getLsbD c
        let fails := if fresh then []
          else ((List.range 33).map (fun k => imageAddr x c + 512 * k)).filter (w.failing [])
        if !fails.isEmpty then (fails.foldl (fun w a => w.climb 4 3 c n i x.pos a) w, m)
        else
          let w := if fresh then (w.zeroImage c n i).count (CTXR t + 0x18) 63 0 1 else w.loadImage c n i
          let w := w.onDev (fun d => if (d.setOf c i).isSome then d.takeGroup c i (d.partitionFor c i) g else d)
          let w := w.onDev (fun d => d.onCtx i (fun x => { x with fresh := x.fresh &&& ~~~((1 : BitVec 96) <<< c) }))
          (w, { m.used t with ins := c :: m.ins })
    | _, _ => (w, m)

/-- A context is RESIDENT when it holds a set and a group on every course of its mask (R397). -/
def World.settleResident (w : World) (i : Nat) : World :=
  let x := w.d.ctx i
  if x.st = .runnable ∧ (w.d.ctxCourses i).all (fun c => (w.d.setOf c i).isSome && (w.d.groupOf c i).isSome) then
    w.onDev (fun d => d.onCtx i (fun x => { x with st := .resident }))
  else w

/-- The warden's image moves of a guard band (R398, R399, R508); none while a warden restarts (R466). -/
def World.regImages (w : World) : World :=
  if w.d.restarting then w else
  let start : World × Moves := (w, { tower := [], ins := [], outs := [] })
  let waiting := (List.range 8).filter (fun t => (w.d.tower t).step == .waiting)
  let evicts := waiting.flatMap (fun t => (List.range 12).map (fun k => 12 * t + k))
  let s := evicts.foldl (fun (s : World × Moves) c =>
    if s.2.room (c / 12) then
      match (List.range 4).find? (fun n => match s.1.d.setCtxOf c n with
          | some v => !(s.1.d.ctx v).active | none => false) with
      | some n => match s.1.d.setCtxOf c n with
        | some v => (s.1.evict c n v, { s.2.used (c / 12) with outs := c :: s.2.outs })
        | none => s
      | none => s
    else s) start
  let want := sortBy w.d.placeRank ((w.d.ctxs.filter (fun e => e.2.st == .runnable && (e.2.kind != 2 || decide (0 < (w.d.svc e.1).share)))).map (·.1))
  let s := want.foldl (fun s i => (s.1.d.ctxCourses i).foldl (placeOn i) s) s
  want.foldl World.settleResident s.1

end Sys2Proof.Machine
end

