-- ==== Sys2Proof/Machine/CcCode.lean ====
section
/-! DEFINITION. The code of CC routines: header, formats, opcodes, costs, and the rules a routine keeps (R147 to R151). -/

namespace Sys2Proof.Machine

/-- The four formats of R148. -/
inductive CcFmt where
  | t | i | b | l
  deriving DecidableEq, Repr

/-- An opcode of R149: its format, its cost, the fields it writes and reads as registers (bit 0 rd or the field in [25:21],
bit 1 ra or the field in [20:16], bit 2 rb), and the fields that must be zero, as a mask of the word. -/
structure CcOp where
  fmt : CcFmt
  cost : Nat
  writes : Bool
  reads : List Nat
  zero : Nat

/-- Field positions of an instruction word: [25:21], [20:16], [15:0], [31:26]. -/
def ccA (w : Nat) : Nat := bitsOf w 25 21
def ccB (w : Nat) : Nat := bitsOf w 20 16
def ccImm (w : Nat) : Nat := bitsOf w 15 0
def ccOpcode (w : Nat) : Nat := bitsOf w 31 26

/-- The opcode table of R149. -/
def ccOp (op : Nat) : Option CcOp :=
  if op = 0 then some { fmt := .t, cost := 1, writes := false, reads := [], zero := 0x3FFFFFF }
  else if op = 0x0B ∨ op = 0x0C then some { fmt := .t, cost := 3, writes := true, reads := [16, 11], zero := 0x7FF }
  else if op ≤ 0x0E ∨ (0x28 ≤ op ∧ op ≤ 0x2A) then
    some { fmt := .t, cost := 1, writes := true, reads := [16, 11], zero := 0x7FF }
  else if op = 0x17 then some { fmt := .i, cost := 1, writes := true, reads := [], zero := 0x1F0000 }
  else if 0x10 ≤ op ∧ op ≤ 0x18 then some { fmt := .i, cost := 1, writes := true, reads := [16], zero := 0 }
  else if op = 0x20 ∨ op = 0x21 then some { fmt := .i, cost := 4, writes := true, reads := [16], zero := 0 }
  else if op = 0x22 ∨ op = 0x23 then some { fmt := .i, cost := 6, writes := false, reads := [21, 16], zero := 0 }
  else if 0x30 ≤ op ∧ op ≤ 0x35 then some { fmt := .b, cost := 2, writes := false, reads := [21, 16], zero := 0 }
  else if op = 0x36 then some { fmt := .b, cost := 2, writes := false, reads := [], zero := 0x3FF0000 }
  else if op = 0x37 then some { fmt := .l, cost := 1, writes := false, reads := [], zero := 0 }
  else if op = 0x38 then some { fmt := .i, cost := 1, writes := false, reads := [], zero := 0x3FF0000 }
  else if op = 0x39 then some { fmt := .t, cost := 1, writes := false, reads := [16], zero := 0x7FF }
  else if op = 0x3A then some { fmt := .i, cost := 1, writes := true, reads := [], zero := 0 }
  else none

/-- The header of a routine (R147). -/
structure CcHdr where
  len : Nat
  wmask : Nat
  rmask : Nat
  reservedOk : Bool

def ccHdr (b : List Byte) : CcHdr :=
  { len := numAt b 0 2, wmask := numAt b 4 4, rmask := numAt b 8 4, reservedOk := zeroAt b 2 4 && zeroAt b 12 16 }

/-- `n` instruction words out of bytes. -/
def ccWords : Nat → List Byte → List W32
  | 0, _ => []
  | n + 1, b => BitVec.ofNat 32 (numAt b 0 4) :: ccWords n (b.drop 4)

/-- The word at an index of a routine's code. -/
def ccWord (code : List W32) (i : Nat) : Nat := ((code[i]?).map (·.toNat)).getD 0

/-- The body of a LOOP at index i: first index and index after it. -/
def ccBody (w i : Nat) : Nat × Nat := (i + 1, i + 1 + bitsOf w 13 0)

/-- The bodies of the loops of a code that enclose an index, innermost first. -/
def ccEnclosing (code : List W32) (k : Nat) : List (Nat × Nat) :=
  ((List.range k).filterMap (fun i =>
    let w := ccWord code i
    let b := ccBody w i
    if ccOpcode w = 0x37 ∧ k < b.2 then some b else none)).reverse

/-- The innermost body around an index; the whole code outside any loop. -/
def ccInner (code : List W32) (k : Nat) : Nat × Nat := (ccEnclosing code k).headD (0, code.length)

/-- Whether a register may be touched under a mask; s0 is exempt (R151). -/
def maskHas (mask k : Nat) : Bool := k == 0 || bitOf mask k

/-- Whether the instruction at index i keeps the rules of R151 that concern one instruction. -/
def ccInstrOk (code : List W32) (wmask rmask i : Nat) : Bool :=
  let w := ccWord code i
  decide (i < code.length) &&
  match ccOp (ccOpcode w) with
  | none => false
  | some o =>
    w &&& o.zero == 0 &&
    (!o.writes || maskHas wmask (ccA w)) &&
    o.reads.all (fun lo => maskHas rmask (bitsOf w (lo + 4) lo)) &&
    match o.fmt with
    | .b =>
      let t := i + ccImm w
      let inner := ccInner code i
      decide (1 ≤ ccImm w) && decide (t < code.length) &&
        (decide (t = inner.2) || (decide (t < inner.2) && decide (ccInner code t = inner)))
    | .l =>
      let b := ccBody w i
      decide (1 ≤ bitsOf w 13 0) && decide (b.2 ≤ (ccInner code i).2) && decide (b.2 ≤ code.length) &&
        decide ((ccEnclosing code i).length < 4)
    | _ => true

/-- The indices that a path from the first instruction can reach, read in ascending order: every step goes forward or back to
the start of a loop body already reached. -/
def ccReach (code : List W32) : List Nat :=
  (List.range code.length).foldl (fun r i =>
    if r.contains i then
      let w := ccWord code i
      let op := ccOpcode w
      let target := if 0x30 ≤ op ∧ op ≤ 0x36 then [i + ccImm w] else []
      let next := if op = 0 ∨ op = 0x36 then [] else [i + 1]
      r ++ (target ++ next).filter (fun k => !r.contains k)
    else r) [0]

/-- The greatest cost from each index to the end of its innermost body or a HALT, for indices i and after; built from the
last index back, so the list starts with index i. -/
def ccCosts (code : List W32) : Nat → List Nat → List Nat
  | 0, acc => acc
  | i + 1, acc =>
    let w := ccWord code i
    let op := ccOpcode w
    let stop := (ccInner code i).2
    let from_ (k : Nat) : Nat := if k = stop then 0 else acc.getD (k - (i + 1)) 0
    let cost := ((ccOp op).map (·.cost)).getD 0
    let v :=
      if op = 0 then 1
      else if op = 0x36 then cost + from_ (i + ccImm w)
      else if 0x30 ≤ op ∧ op ≤ 0x35 then cost + max (from_ (i + 1)) (from_ (i + ccImm w))
      else if op = 0x37 then
        1 + (bitsOf w 25 14 + 1) * (acc.getD 0 0 + 1) + from_ (ccBody w i).2
      else cost + from_ (i + 1)
    ccCosts code i (v :: acc)

/-- The bound of R151 for a routine's code. -/
def ccBound (code : List W32) : Nat := 8 + ceilDiv code.length 16 + (ccCosts code code.length []).headD 0

/-- Whether a routine keeps every rule of R147, R148 and R151. -/
def ccCodeOk (h : CcHdr) (code : List W32) : Bool :=
  h.reservedOk && decide (1 ≤ h.len) && decide (h.len ≤ 4096) &&
  (List.range code.length).all (ccInstrOk code h.wmask h.rmask) && !(ccReach code).contains code.length

/-- The routine at an address of a course store. -/
def ccRead (m : Memory) (a : Nat) : CcHdr × List W32 :=
  let h := ccHdr (readBytes m a 16)
  (h, ccWords h.len (readBytes m (a + 16) (4 * h.len)))

end Sys2Proof.Machine
end

