-- ==== Sys2Proof/Machine/MoverDesc.lean ====
section
/-! DEFINITION. The course mover's descriptor checks, routes and costs (R292 to R295). -/

namespace Sys2Proof.Machine

/-- Where an end of a mover route lies, seen from course c. -/
inductive MvEnd where
  | ownCourse | otherCourse | near | deep | otherStore (hops : Nat) | otherDeep (hops : Nat) | far
  deriving DecidableEq, Repr

def distance (a b : Nat) : Nat := max a b - min a b

/-- The end an address names. -/
def mvEnd (c a : Nat) : MvEnd :=
  let t := c / 12
  if tierOf a = 3 then .far
  else if towerOf a ≠ t then (if tierOf a = 2 then .otherDeep (distance t (towerOf a)) else .otherStore (distance t (towerOf a)))
  else match tierOf a with
    | 0 => if courseOf a = c then .ownCourse else .otherCourse
    | 1 => .near
    | _ => .deep

/-- A route: its PATH, its rate as a quotient in bytes per cycle, and its latency term (R294). -/
structure Route where
  path : Nat
  num : Nat
  den : Nat
  lat : Nat
  deriving DecidableEq, Repr

def isCourse (e : MvEnd) : Bool := e == .ownCourse || e == .otherCourse
def isStore (e : MvEnd) : Bool := isCourse e || e == .near

/-- The row of R294 for two ends, given B; none for a route that R293 refuses. -/
def mvRoute (b : Nat) (fill : Bool) (x y : MvEnd) : Option Route :=
  let other := x == .otherCourse || y == .otherCourse
  let cap (n : Nat) := if other then min n 512 else n
  if isCourse x && isCourse y then
    some { path := 0, num := cap (if fill then 2048 else 1024), den := 1, lat := 0 }
  else if (isCourse x && y == .near) || (isCourse y && x == .near) then some { path := 1, num := cap 1024, den := 1, lat := 0 }
  else if x == .near && y == .near then some { path := 0, num := 512, den := 1, lat := 0 }
  else match x, y with
    | .deep, .deep => some { path := 2, num := 512, den := 1, lat := 384 }
    | .far, .far => none
    | .far, e | e, .far =>
      if isStore e then some { path := 3, num := 1600, den := 7, lat := b }
      else if e = .deep then some { path := 2, num := 1600, den := 7, lat := b }
      else none
    | .deep, .otherStore h | .otherStore h, .deep | .deep, .otherDeep h | .otherDeep h, .deep =>
      some { path := 2, num := 256, den := 1, lat := 192 + 48 * h }
    | .otherStore h, e | e, .otherStore h =>
      if isStore e then some { path := 3, num := 256, den := 1, lat := 48 * h } else none
    | .otherDeep h, e | e, .otherDeep h =>
      if isStore e then some { path := 3, num := 256, den := 1, lat := 48 * h + 192 } else none
    | .deep, _ | _, .deep => some { path := 3, num := 256, den := 1, lat := 192 }
    | _, _ => none

/-- The two ends of a descriptor: an absent one counts as the own course store (R294). -/
def MoverDesc.ends (m : MoverDesc) (c : Nat) : MvEnd × MvEnd :=
  (if m.op = 3 then .ownCourse else mvEnd c m.src, if m.op = 4 then .ownCourse else mvEnd c m.dst)

def MoverDesc.route (m : MoverDesc) (b c : Nat) : Option Route :=
  let e := m.ends c
  mvRoute b (m.op == 3) e.1 e.2

/-- The first block address of row r at each end. -/
def MoverDesc.srcRow (m : MoverDesc) (r : Nat) : Nat := m.src + r * m.srcStride
def MoverDesc.dstRow (m : MoverDesc) (r : Nat) : Nat := m.dst + r * m.dstStride

/-- Bytes moved, and the cycles X of R295. -/
def MoverDesc.bytes (m : MoverDesc) : Nat := m.run * m.rows * 512
def MoverDesc.cycles (m : MoverDesc) (r : Route) : Nat := ceilDiv (m.bytes * r.den) r.num

/-- The rows of one end lie within one tier, tower and store (R38). -/
def rowsOk (far a stride rows run : Nat) : Bool :=
  runOk far a (512 * run) && runOk far (a + stride * (rows - 1)) (512 * run) &&
  decide (tierOf a = tierOf (a + stride * (rows - 1))) && decide (towerOf a = towerOf (a + stride * (rows - 1))) &&
  (tierOf a != 0 || decide (courseOf a = courseOf (a + stride * (rows - 1))))

/-- Whether a row of the source overlaps a row of the destination (R293). -/
def MoverDesc.overlap (m : MoverDesc) : Bool :=
  let n := 512 * m.run
  (List.range m.rows).any (fun i => (List.range m.rows).any (fun k => overlaps (m.srcRow i) n (m.dstRow k) n))

/-- Whether a descriptor of course c keeps R292, R293 and R38. -/
def MoverDesc.ok (m : MoverDesc) (far c : Nat) : Bool :=
  let src := m.op != 3
  let dst := m.op != 4
  let t := c / 12
  let own (a : Nat) : Bool := tierOf a != 3 && towerOf a == t
  decide (1 ≤ m.op) && decide (m.op ≤ 4) && m.reservedOk &&
  decide (1 ≤ m.run) && decide (m.run ≤ 1048576) &&
  (if m.op = 2 then decide (1 ≤ m.rows) && decide (m.rows ≤ 65535) && m.srcStride % 512 == 0 && m.dstStride % 512 == 0
   else m.rows == 1 && m.srcStride == 0 && m.dstStride == 0) &&
  (m.op == 3 || m.pattern == 0) &&
  (if src then m.src % 512 == 0 && rowsOk far m.src m.srcStride m.rows m.run && tierOf m.src != 0xC else m.src == 0) &&
  (if dst then m.dst % 512 == 0 && rowsOk far m.dst m.dstStride m.rows m.run && tierOf m.dst != 0xC else m.dst == 0) &&
  (if m.op = 3 then (mvEnd c m.dst == .ownCourse || mvEnd c m.dst == .near)
   else if m.op = 4 then true
   else (own m.src || own m.dst) && !m.overlap) &&
  (m.route 4096 c).isSome

/-- The source and destination block addresses, row by row in ascending order (R293). -/
def MoverDesc.pairs (m : MoverDesc) : List (Nat × Nat) :=
  (List.range m.rows).flatMap (fun r => (List.range m.run).map (fun i => (m.srcRow r + 512 * i, m.dstRow r + 512 * i)))

end Sys2Proof.Machine
end

