-- ==== Sys2Proof/Machine/MaDesc.lean ====
section
/-! DEFINITION. The product descriptor, the accumulation descriptor and the AB command: their checks and costs (R169 to R191,
R206 to R213). -/

namespace Sys2Proof.Machine

/-! ## The product descriptor (R184) -/

structure MaDesc where
  a : Nat
  b : Nat
  aScale : Nat
  bScale : Nat
  k : Nat
  m : Nat
  n : Nat
  aStride : Nat
  bStride : Nat
  fmts : Nat
  mode : Nat
  tieUse : Nat
  reserved : Nat
  leafBase : Nat
  abDesc : Nat

def maDesc (x : List Byte) : MaDesc :=
  { a := numAt x 0 8, b := numAt x 8 8, aScale := numAt x 16 8, bScale := numAt x 24 8, k := numAt x 32 4, m := numAt x 36 2,
    n := numAt x 38 2, aStride := numAt x 40 4, bStride := numAt x 44 4, fmts := numAt x 48 1, mode := numAt x 49 1,
    tieUse := numAt x 50 1, reserved := numAt x 51 1, leafBase := numAt x 52 4, abDesc := numAt x 56 8 }

def MaDesc.fmtA (p : MaDesc) : Nat := p.fmts % 16
def MaDesc.fmtB (p : MaDesc) : Nat := p.fmts / 16
def MaDesc.quad (p : MaDesc) : Bool := bitOf p.mode 2
def MaDesc.int8 (p : MaDesc) : Bool := p.fmtA == 9

/-- Whether an operand carries scales: a block format without NOSCALE. -/
def MaDesc.scaledA (p : MaDesc) : Bool := isBlockFmt p.fmtA && !bitOf p.mode 3
def MaDesc.scaledB (p : MaDesc) : Bool := isBlockFmt p.fmtB && !bitOf p.mode 4

/-- Whether an operand's contiguous axis is K. -/
def MaDesc.alongA (p : MaDesc) : Bool := !bitOf p.mode 0
def MaDesc.alongB (p : MaDesc) : Bool := bitOf p.mode 1

/-- Whether the stager re-blocks an operand (R181). -/
def MaDesc.reblockA (p : MaDesc) : Bool := isBlockFmt p.fmtA && !p.alongA
def MaDesc.reblockB (p : MaDesc) : Bool := isBlockFmt p.fmtB && !p.alongB

/-- Row length and number of rows of an operand as stored (R179). -/
def MaDesc.lenA (p : MaDesc) : Nat := if p.alongA then p.k else p.m
def MaDesc.rowsA (p : MaDesc) : Nat := if p.alongA then p.m else p.k
def MaDesc.lenB (p : MaDesc) : Nat := if p.alongB then p.k else p.n
def MaDesc.rowsB (p : MaDesc) : Nat := if p.alongB then p.n else p.k

/-- The K-group of an operand (R126), a re-blocked one as BF16. -/
def operandGroup (fmt : Nat) (scaled reblock : Bool) : Nat :=
  if reblock then 1
  else if scaled then 32
  else if fmt ≤ 2 then 1
  else if fmt = 7 ∨ fmt = 8 then 4
  else 2

/-- Four times the elements per issue cycle an operand allows (R169). -/
def operandRate (fmt : Nat) (reblock : Bool) : Nat :=
  if reblock then 4
  else match elemBits fmt with
    | 32 => 1
    | 16 => 4
    | 4 => 16
    | _ => 8

def MaDesc.group (p : MaDesc) : Nat :=
  max (operandGroup p.fmtA p.scaledA p.reblockA) (operandGroup p.fmtB p.scaledB p.reblockB)
def MaDesc.rate4 (p : MaDesc) : Nat := min (operandRate p.fmtA p.reblockA) (operandRate p.fmtB p.reblockB)

/-- K-blocks of the product, and the elements present in block b. -/
def MaDesc.blocks (p : MaDesc) : Nat := ceilDiv p.k 128

/-- Issue cycles of a K-block with `k` elements, without the floor (R173). -/
def MaDesc.issue (p : MaDesc) (k : Nat) : Nat := ceilDiv k p.group * (4 * p.group / p.rate4)

def MaDesc.tTile (p : MaDesc) : Nat :=
  (if p.k / 128 = 0 then 0 else (p.k / 128) * max 32 (p.issue 128)) + (if p.k % 128 = 0 then 0 else max 32 (p.issue (p.k % 128)))

def MaDesc.tilesM (p : MaDesc) : Nat := ceilDiv p.m 128
def MaDesc.tilesN (p : MaDesc) : Nat := ceilDiv p.n 128
def MaDesc.tiles (p : MaDesc) : Nat := if p.quad then 1 else p.tilesM * p.tilesN

/-- The least cost of a product (R190). -/
def MaDesc.cost (p : MaDesc) : Nat := p.tiles * p.tTile + 24

/-- Whether `n` bytes from an address lie in the own course store or the own near store (R178). -/
def maRegion (c a n : Nat) : Bool :=
  runOk 0 a n && ((tierOf a == 0 && courseOf a == c) || (tierOf a == 1 && towerOf a == c / 12))

def inNear (a : Nat) : Bool := tierOf a == 1

/-- One operand of a product: its address, stride and scales (R185). -/
def operandOk (c fmt a sa stride len rows : Nat) (scaled : Bool) : Bool :=
  let bytes := bytesFor fmt len
  let span := (rows - 1) * stride + bytes
  a % 64 == 0 && maRegion c a span && stride % 16 == 0 &&
  (if scaled then decide (stride = ceilDiv len 32 * 32 * elemBits fmt / 8) &&
      sa % 64 == 0 && maRegion c sa (rows * ceilDiv len 32 * scaleBytes fmt)
   else decide (bytes ≤ stride) && sa == 0)

/-- Whether a pair of formats may be multiplied (R169, R170). -/
def pairOk (x y : Nat) : Bool := (decide (x ≤ 8) && decide (y ≤ 8)) || (x == 9 && y == 9)

/-- The rules of R178, R184, R185 and R187 that a product descriptor's content decides, in course c. -/
def MaDesc.ok (p : MaDesc) (c : Nat) : Bool :=
  p.reserved == 0 && decide (1 ≤ p.k) && decide (p.k ≤ 8388608) && decide (1 ≤ p.m) && decide (1 ≤ p.n) &&
  decide (p.mode < 64) && pairOk p.fmtA p.fmtB &&
  (!bitOf p.mode 3 || p.fmtA == 7 || p.fmtA == 8) && (!bitOf p.mode 4 || p.fmtB == 7 || p.fmtB == 8) &&
  operandOk c p.fmtA p.a p.aScale p.aStride p.lenA p.rowsA p.scaledA &&
  operandOk c p.fmtB p.b p.bScale p.bStride p.lenB p.rowsB p.scaledB &&
  decide (p.leafBase + p.blocks ≤ 65536) && descOk p.abDesc 64 c &&
  (!p.quad || (decide (p.m ≤ 256) && decide (p.n ≤ 256) &&
    [p.a, p.b, p.aScale, p.bScale].all (fun x => !inNear x)))

/-- Bytes a product reads from the near store (R182, R191). -/
def MaDesc.nearBytes (p : MaDesc) : Nat :=
  let e := (p.k / 128) * (ceilDiv 128 p.group * p.group) + ceilDiv (p.k % 128) p.group * p.group
  let part (a sa fmt : Nat) (scaled : Bool) : Nat :=
    (if inNear a then 128 * e * elemBits fmt / 8 else 0) +
    (if scaled && inNear sa then 4 * e * scaleBytes fmt else 0)
  p.tiles * (part p.a p.aScale p.fmtA p.scaledA + part p.b p.bScale p.fmtB p.scaledB)

/-- Check 8 (R191): true when the line's budget and PATH pass. -/
def MaDesc.check8 (p : MaDesc) (ln : Line) : Bool :=
  let near := [p.a, p.b, p.aScale, p.bScale].any inNear
  decide (p.cost ≤ ln.wcCompute) && decide (ln.path ≤ 1) && (!near || ln.path == 1) &&
  (ln.path != 1 || decide (ceilDiv p.nearBytes 1024 - ceilDiv p.cost 2 ≤ ln.wcXfer))

/-- The address a refused product names: the first that R178 refuses, or the descriptor's own. -/
def MaDesc.refused (p : MaDesc) (c desc : Nat) : Nat :=
  (([p.a, p.b] ++ (if p.scaledA then [p.aScale] else []) ++ (if p.scaledB then [p.bScale] else [])).find?
    (fun a => !maRegion c a 1)).getD desc

/-! ## The accumulation descriptor (R206, R207) -/

structure AccDesc where
  dest : Nat
  destScale : Nat
  spill : Nat
  tie : Nat
  colscale : Nat
  bias : Nat
  root : Nat
  span : Nat
  ctrl : Nat
  epi : Nat
  conv : Nat
  scale : Nat
  stride : Nat
  tensor : Nat
  tieUses : Nat
  tieSpan : Nat
  outM : Nat
  outN : Nat
  amax : Nat
  reservedOk : Bool

def accDesc (x : List Byte) : AccDesc :=
  { dest := numAt x 0 8, destScale := numAt x 8 8, spill := numAt x 16 8, tie := numAt x 24 8, colscale := numAt x 32 8,
    bias := numAt x 40 8, root := numAt x 48 4, span := numAt x 52 1, ctrl := numAt x 53 1, epi := numAt x 54 1,
    conv := numAt x 55 1, scale := numAt x 56 4, stride := numAt x 60 4, tensor := numAt x 64 4, tieUses := numAt x 68 1,
    tieSpan := numAt x 69 1, outM := numAt x 72 2, outN := numAt x 74 2, amax := numAt x 80 8,
    reservedOk := zeroAt x 70 72 && zeroAt x 76 80 && zeroAt x 88 128 }

def AccDesc.finish (q : AccDesc) : Bool := bitOf q.ctrl 0
def AccDesc.tied (q : AccDesc) : Bool := bitOf q.ctrl 1
def AccDesc.watch (q : AccDesc) : Bool := bitOf q.ctrl 2
def AccDesc.cls (q : AccDesc) : Nat := bitsOf q.ctrl 4 3
def AccDesc.act (q : AccDesc) : Nat := q.epi % 4
def AccDesc.hasCol (q : AccDesc) : Bool := bitOf q.epi 2
def AccDesc.biasKind (q : AccDesc) : Nat := bitsOf q.epi 4 3
def AccDesc.outFmt (q : AccDesc) : Nat := q.conv % 16
def AccDesc.rnd (q : AccDesc) : Nat := bitsOf q.conv 5 4
def AccDesc.sat (q : AccDesc) : Nat := bitsOf q.conv 7 6

/-- The merge levels in the buffer under a partition (R198). -/
def bufLevels (partition : Nat) : Nat := if partition = 1 then 16 else if partition = 2 then 7 else 2

/-- Tiles of the output of a tied DRAIN. -/
def AccDesc.tieTiles (q : AccDesc) : Nat := ceilDiv q.outM 128 * ceilDiv q.outN 128

/-- The rules of R206, R207 and R209 that an accumulation descriptor's content decides, in course c under a partition, for an
accumulation of type INT32 or FP32. -/
def AccDesc.ok (q : AccDesc) (c partition : Nat) (int : Bool) : Bool :=
  let reg (a n : Nat) : Bool := maRegion c a n
  let spilled := q.span - bufLevels partition
  q.reservedOk && decide (q.span ≤ 16) && decide (q.ctrl < 32) && decide (q.epi < 32) && decide (q.biasKind ≠ 3) &&
  q.dest % 512 == 0 && reg q.dest 1 &&
  (if isBlockFmt q.outFmt then q.destScale % 512 == 0 && reg q.destScale 1 else q.destScale == 0) &&
  (if spilled = 0 then q.spill == 0
   else q.spill % 512 == 0 && tierOf q.spill == 0 && reg q.spill (65536 * spilled)) &&
  (if q.tied then q.tie % 512 == 0 && reg q.tie (512 + 8 * 65536 * q.tieTiles) else q.tie == 0) &&
  (if q.hasCol then q.colscale % 4 == 0 && reg q.colscale 4 else q.colscale == 0) &&
  (if q.biasKind = 0 then q.bias == 0
   else (let e := if q.biasKind = 1 then 2 else 4; q.bias % e == 0 && reg q.bias e)) &&
  q.root % 2 ^ q.span == 0 && decide (q.root + 2 ^ q.span ≤ 65536) &&
  (!q.tied || q.finish) &&
  decide (q.outFmt ≤ 10) && decide (q.rnd ≠ 3) && decide (q.sat ≠ 3) && q.stride % 512 == 0 &&
  (!q.tied || (decide (2 ≤ q.tieUses) && decide (q.tieUses ≤ 8) && decide (q.tieSpan + 3 = q.span))) &&
  (if q.tied then decide (1 ≤ q.tieTiles) && decide (q.tieTiles ≤ 512)
   else if q.finish then q.outM == 0 && q.outN == 0
   else (q.outM == 0 && q.outN == 0) ||
     (decide (1 ≤ q.outM) && decide (q.outM ≤ 128) && decide (1 ≤ q.outN) && decide (q.outN ≤ 128))) &&
  (q.amax == 0 || (q.amax % 4 == 0 && reg q.amax 4)) &&
  (q.outFmt != 10 || (int && q.epi == 0 && q.scale == 0x3F800000))

/-- The rules of R207 and R209 on a product under its accumulation descriptor. -/
def AccDesc.productOk (q : AccDesc) (p : MaDesc) : Bool :=
  let base := if q.tied then q.root + (p.tieUse - 1) * 2 ^ q.tieSpan else q.root
  let room := if q.tied then 2 ^ q.tieSpan else 2 ^ q.span
  decide (q.root ≤ p.leafBase) && decide (p.leafBase - base + p.blocks ≤ room) &&
  (if q.finish then p.leafBase == base else p.tiles == 1) &&
  (if q.tied then decide (1 ≤ p.tieUse) && decide (p.tieUse ≤ q.tieUses) else p.tieUse == 0)

/-- Whether the output region of a tile or product of `m` rows and `n` columns lies where R207 lets it. -/
def AccDesc.outOk (q : AccDesc) (c m n : Nat) : Bool :=
  let bytes := if isBlockFmt q.outFmt then bytesFor q.outFmt (ceilDiv n 32 * 32) else bytesFor q.outFmt n
  maRegion c q.dest ((m - 1) * q.stride + bytes) &&
  (!isBlockFmt q.outFmt || maRegion c q.destScale (m * ceilDiv n 32 * scaleBytes q.outFmt)) &&
  (!q.hasCol || maRegion c q.colscale (4 * n)) &&
  (q.biasKind == 0 || maRegion c q.bias ((if q.biasKind = 1 then 2 else 4) * n))

/-- Cycles of an MA line and its tail by check 9 (R212): the least WC_COMPUTE, and t_tail. -/
def AccDesc.check9 (q : AccDesc) (p : MaDesc) (partition : Nat) : Nat × Nat :=
  let d := bufLevels partition
  let s := q.span
  let sp := s - d
  let o0 := p.leafBase - q.root
  let o1 := o0 + p.blocks
  let nodes := ((List.range sp).map (fun i => o1 / 2 ^ (d + i) - o0 / 2 ^ (d + i))).foldl (· + ·) 0
  let spill := 128 * nodes + (if q.finish then 128 * sp + (if q.tied then 64 else 0) else 0)
  let t := p.tTile + spill
  let t := if q.finish && decide (2 ≤ p.tiles) then max t 128 else t
  (p.tiles * t + 24, 32 + 16 * s + 128 * sp)

/-! ## The AB command (R208) -/

structure AbCmd where
  op : Nat
  level : Nat
  tieU : Nat
  offset : Nat
  acc : Nat
  src : Nat
  reservedOk : Bool

def abCmd (x : List Byte) : AbCmd :=
  { op := numAt x 0 1, level := numAt x 1 1, tieU := numAt x 2 1, offset := numAt x 4 4, acc := numAt x 8 8,
    src := numAt x 16 8, reservedOk := zeroAt x 3 4 && zeroAt x 24 32 }

/-- The rules of R208 and R209 on an AB command under its accumulation descriptor. -/
def AbCmd.ok (k : AbCmd) (q : AccDesc) (c : Nat) : Bool :=
  k.reservedOk && (k.op == 1 || k.op == 2) && descOk k.acc 128 c &&
  (k.op == 1 ||
    (decide (k.level ≤ 16) && decide (k.tieU ≤ 8) && k.src % 512 == 0 && maRegion c k.src 65536 &&
      (k.tieU == 0 || (q.tied && decide (k.tieU ≤ q.tieUses) && decide (k.offset < q.tieTiles)))))

/-- The least WC_COMPUTE of an AB line by check 10 (R213). -/
def AbCmd.least (k : AbCmd) (q : AccDesc) (partition : Nat) : Nat :=
  let sp := q.span - bufLevels partition
  if k.op = 1 then
    if q.tied then 64 + q.tieTiles * (80 * q.tieUses + 128) else 192 + 16 * q.span + 128 * sp
  else if k.tieU = 0 then 72 + 16 * q.span + 128 * sp else 136

/-- Slots of a group under a partition, and the cycles of AB_SAVE and AB_RESTORE (R90, R198). -/
def groupSlots (partition : Nat) : Nat := if partition = 1 then 18 else if partition = 2 then 9 else 4
def saveCycles (partition : Nat) : Nat := 128 * groupSlots partition

end Sys2Proof.Machine
end

