-- ==== Sys2Proof/Machine/UeDesc.lean ====
section
/-! DEFINITION. The pass descriptor of the update engine and the step parameter block: their checks and costs
(R308, R309, R317 to R322, R325, R329, R330). -/

namespace Sys2Proof.Machine

structure UeDesc where
  kind : Nat
  slot : Nat
  recipe : Nat
  flags : Nat
  wwFmt : Nat
  conv : Nat
  farRate : Nat
  count : Nat
  tid : Nat
  grad : Nat
  m : Nat
  v : Nat
  masterIn : Nat
  masterOut : Nat
  ww : Nat
  wwScale : Nat
  aux : Nat
  base : Nat
  res : Nat
  reservedOk : Bool

def ueDesc (b : List Byte) : UeDesc :=
  { kind := numAt b 0 1, slot := numAt b 1 1, recipe := numAt b 2 1, flags := numAt b 3 1, wwFmt := numAt b 4 1,
    conv := numAt b 5 1, farRate := numAt b 6 2, count := numAt b 8 4, tid := numAt b 12 4, grad := numAt b 16 8,
    m := numAt b 24 8, v := numAt b 32 8, masterIn := farCanon (numAt b 40 8), masterOut := farCanon (numAt b 48 8), ww := numAt b 56 8,
    wwScale := numAt b 64 8, aux := numAt b 72 8, base := numAt b 80 8, res := numAt b 88 8, reservedOk := zeroAt b 96 128 }

def UeDesc.far (d : UeDesc) : Bool := bitOf d.flags 0
def UeDesc.momBf16 (d : UeDesc) : Bool := bitOf d.flags 1
def UeDesc.momSr (d : UeDesc) : Bool := bitOf d.flags 2
def UeDesc.root (d : UeDesc) : Bool := bitOf d.flags 3

/-- Whether a recipe has the second moment (R323, R325). -/
def UeDesc.hasV (d : UeDesc) : Bool := d.kind != 2 || (d.recipe != 1 && d.recipe != 2)

/-- Bytes of a moment; bits of a working weight. -/
def UeDesc.momBytes (d : UeDesc) : Nat := if d.momBf16 then 2 else 4
def UeDesc.wwBits (d : UeDesc) : Nat := elemBits d.wwFmt
def UeDesc.wwBlock (d : UeDesc) : Bool := isBlockFmt d.wwFmt

/-- Bytes of the working weights as written: a block-scaled run fills its last block. -/
def UeDesc.wwBytes (d : UeDesc) : Nat := bytesFor d.wwFmt (if d.wwBlock then ceilDiv d.count 32 * 32 else d.count)
def UeDesc.scaleLen (d : UeDesc) : Nat := ceilDiv d.count 32 * scaleBytes d.wwFmt

/-- `n` bytes in the own tower's near store, deep store, or the far store. -/
def ueNear (t a n : Nat) : Bool := runOk 0 a n && tierOf a == 1 && towerOf a == t
def ueDeep (t a n : Nat) : Bool := runOk 0 a n && tierOf a == 2 && towerOf a == t

/-- The digest tree of a run (R330): its leaves, and the sizes of the levels above them down to the root. -/
def digestLeaf : Nat := 65536
def UeDesc.firstLeaf (d : UeDesc) : Nat := d.base / digestLeaf
def UeDesc.leaves (d : UeDesc) : Nat := ceilDiv d.count digestLeaf
def treeLevels : Nat → Nat → List Nat
  | 0, _ => []
  | fuel + 1, n => if n ≤ 1 then [] else ceilDiv n 64 :: treeLevels fuel (ceilDiv n 64)
def UeDesc.levels (d : UeDesc) : List Nat := if d.root then treeLevels 12 (d.firstLeaf + d.leaves) else []

/-- The offsets of the levels in the tree area: the leaves at 512, each level after the one below, 64-byte aligned. -/
def levelOffsets : Nat → Nat → List Nat → List Nat
  | off, n, l :: ls => let o := ceilDiv (off + 32 * n) 64 * 64; o :: levelOffsets o l ls
  | _, _, [] => []
def UeDesc.treeBytes (d : UeDesc) : Nat :=
  let n := d.firstLeaf + d.leaves
  let offs := levelOffsets 512 n d.levels
  max (512 + 32 * n) ((offs.zip d.levels).foldl (fun s e => max s (e.1 + 32 * e.2)) 0)

/-- An entry of a steering table (R329). -/
structure SteerEntry where
  fmt : Nat
  hist : Nat
  margin : Nat
  head : Nat
  contrib : Nat
  addr : Nat
  scale : Nat
  amax : List Nat

def steerEntry (b : List Byte) : SteerEntry :=
  { fmt := numAt b 0 1, hist := numAt b 1 1, margin := numAt b 2 1, head := numAt b 3 1, contrib := numAt b 4 4,
    addr := numAt b 8 8, scale := numAt b 16 4, amax := (List.range 16).map (fun i => numAt b (64 + 4 * i) 4) }

/-- The limits R329 sets, for a UE of tower t. -/
def SteerEntry.ok (e : SteerEntry) (t : Nat) : Bool :=
  (e.fmt == 3 || e.fmt == 4) && decide (1 ≤ e.hist) && decide (e.hist ≤ 16) && decide (e.margin ≤ 15) &&
  e.addr % 4 == 0 && (e.contrib == 0 || ueNear t e.addr (4 * e.contrib) ||
    (runOk 0 e.addr (4 * e.contrib) && tierOf e.addr == 0 && towerOf e.addr == t))

def UeDesc.steerAt (d : UeDesc) (m : Memory) (i : Nat) : SteerEntry := steerEntry (readBytes m (d.aux + 128 * i) 128)

/-- Contributor words of a STEER pass. -/
def UeDesc.steerWords (d : UeDesc) (m : Memory) : Nat :=
  (List.range d.count).foldl (fun s i => s + (d.steerAt m i).contrib) 0

/-- The fields of R318 and R329 that a pass of course c breaks; the limits of COUNT, WW_FMT and INDEX_BASE hold for every KIND, as their
rows name none (log 100): the address it refuses, none where it keeps them. -/
def UeDesc.bad (d : UeDesc) (m : Memory) (far c at_ : Nat) : Option Nat :=
  let t := c / 12
  let n := d.count
  let mb := d.momBytes
  let fields := descOk at_ 128 c && d.reservedOk && decide (1 ≤ d.kind) && decide (d.kind ≤ 6) && decide (d.slot ≤ 3) &&
    decide (d.flags < 16) && decide (d.conv < 16) && decide (d.conv % 4 ≠ 3) && decide (d.conv / 4 ≠ 3) &&
    (if d.far then decide (1 ≤ d.farRate) && decide (d.farRate ≤ 400) else d.farRate == 0) &&
    (if d.kind = 2 then [1, 2, 3, 4, 15].contains d.recipe else d.recipe == 0) &&
    decide (1 ≤ n) && decide (n ≤ 2 ^ 26) && decide (1 ≤ d.wwFmt) && decide (d.wwFmt ≤ 8) && (!d.wwBlock || d.base % 32 == 0)
  let moments : List (Nat × Bool) :=
    (d.m, d.m % mb == 0 && ueDeep t d.m (n * mb)) ::
    (if d.hasV then [(d.v, d.v % mb == 0 && ueDeep t d.v (n * mb))] else [])
  let gradient := (d.grad, d.grad % 2 == 0 && ueNear t d.grad (2 * n))
  let masterIn := (d.masterIn, d.masterIn % 4 == 0 && ueDeep t d.masterIn (4 * n))
  let masterOut := (d.masterOut, d.masterOut % 4 == 0 &&
    (if d.far then runOk far d.masterOut (4 * n) && tierOf d.masterOut == 3 else ueDeep t d.masterOut (4 * n)))
  let weights : List (Nat × Bool) :=
    [(d.ww, d.ww % max 1 (d.wwBits / 8) == 0 && ueNear t d.ww d.wwBytes),
     (d.wwScale, !d.wwBlock || (d.wwScale % scaleBytes d.wwFmt == 0 && ueNear t d.wwScale d.scaleLen))]
  let streams : List (Nat × Bool) := match d.kind with
    | 1 => [(d.aux, d.aux % 512 == 0 && ueNear t d.aux 256)]
    | 2 => gradient :: moments ++ [masterIn, masterOut] ++ weights
    | 3 => gradient :: moments ++ [masterIn, (d.aux, ueNear t d.aux 16 || ueDeep t d.aux 16)]
    | 4 => moments ++ [masterIn, masterOut] ++ weights ++ [(d.aux, ueNear t d.aux 16 || ueDeep t d.aux 16)]
    | 5 => [(d.ww, n % 512 == 0 && ueNear t d.ww n), (d.aux, d.aux % 512 == 0 && ueNear t d.aux d.treeBytes)]
    | _ => (d.aux, ueNear t d.aux (128 * n)) ::
        (if ueNear t d.aux (128 * n) then (List.range n).map (fun i =>
          let e := d.steerAt m i
          (e.addr, e.ok t || (blocksOf (d.aux + 128 * i) 128).any (fun b => tget 0 m.syn b == poisonMark))) else [])
  if !fields then some at_ else (streams.find? (fun e => !e.2)).map (·.1)

/-- The least WC_COMPUTE and WC_XFER and the PATH of check 14 (R320). -/
def UeDesc.least (d : UeDesc) (m : Memory) : Nat × Nat × Nat :=
  match d.kind with
  | 1 => (64, 0, 0)
  | 5 => (256 + 64 * d.levels.length, ceilDiv d.count 64, 3)
  | 6 => (64 + 16 * d.count, ceilDiv (d.steerWords m) 16, 3)
  | _ => (256, if d.far then ceilDiv (d.count * 7) d.farRate else ceilDiv d.count 64, 2)

def UeDesc.check14 (d : UeDesc) (m : Memory) (ln : Line) : Bool :=
  let l := d.least m
  decide (l.1 ≤ ln.wcCompute) && decide (l.2.1 ≤ ln.wcXfer) && ln.path == l.2.2

/-- The charges of check 13 (R320), each as 224 times bytes per cycle: DRAM vias, express vias, far route. -/
def UeDesc.charge (d : UeDesc) : Nat × Nat × Nat :=
  let rho := if d.far then 32 * d.farRate else 64 * 224
  let mom := 2 * d.momBytes * (if d.hasV then 2 else 1)
  let ww8 := d.wwBits * 4 + scaleBytes d.wwFmt   -- bytes × 32 per parameter
  let far := if d.far then 4 * 32 * d.farRate else 0
  let out := if d.far then 0 else 4
  match d.kind with
  | 2 => (rho * (mom + 4 + out), rho * (64 + ww8) / 32, far)
  | 3 => (rho * (mom + 4), rho * 2, far)
  | 4 => (rho * (mom / 2 + 4 + out), rho * ww8 / 32, far)
  | 5 => (0, 64 * 224, 0)
  | 6 => (0, 64 * 224, 0)
  | _ => (0, 0, 0)

/-! ## The step parameter block (R308, R309) -/

def parF32 (b : List Byte) (a : Nat) : Nat := numAt b a 4
def parLR (b : List Byte) : Nat := parF32 b 0
def parBeta1 (b : List Byte) : Nat := parF32 b 4
def parBeta2 (b : List Byte) : Nat := parF32 b 8
def parEps (b : List Byte) : Nat := parF32 b 12
def parWd (b : List Byte) : Nat := parF32 b 16
def parMu (b : List Byte) : Nat := parF32 b 20
def parClip (b : List Byte) : Nat := parF32 b 24
def parLsMode (b : List Byte) : Nat := numAt b 52 1
def parLsInit (b : List Byte) : Nat := numAt b 53 1
def parLsMin (b : List Byte) : Nat := numAt b 54 1
def parLsMax (b : List Byte) : Nat := numAt b 55 1
def parLsInterval (b : List Byte) : Nat := numAt b 56 2
def parMaxSkips (b : List Byte) : Nat := numAt b 58 2
def parDigestEvery (b : List Byte) : Nat := numAt b 60 2
def parInit (b : List Byte) : Nat := numAt b 62 1
def parRecord (b : List Byte) : Nat := numAt b 80 8
def parStep (b : List Byte) (i : Nat) : Nat := numAt b (88 + 4 * i) 4

/-- The steps of PROGRAM up to the first END (R325). -/
def programSteps (b : List Byte) : List Nat := ((List.range 16).map (parStep b)).takeWhile (fun s => decide (s >>> 26 ≠ 0))

def progDst (s : Nat) : Nat := bitsOf s 25 21
def progStepOk (s : Nat) : Bool :=
  decide (s >>> 26 ≤ 0x0C) && ([1, 2, 3].contains (progDst s) || decide (24 ≤ progDst s)) && s % 64 == 0

/-- 0.5 ≤ β < 1. -/
def betaOk (x : Nat) : Bool := fp32Le 0x3F000000 x && fp32Lt x f32One

/-- Whether R309 and R325 accept a parameter block; `fresh` tells that the slot is not bound yet. -/
def paramOk (b : List Byte) (fresh : Bool) : Bool :=
  betaOk (parBeta1 b) && betaOk (parBeta2 b) && decide (parLsMin b ≤ parLsInit b) && decide (parLsInit b ≤ parLsMax b) &&
  decide (parLsMax b ≤ 31) && zeroAt b 63 64 && zeroAt b 152 256 && (!fresh || decide (parInit b ≠ 0)) &&
  (programSteps b).all progStepOk

end Sys2Proof.Machine
end

