-- ==== Sys2Proof/Machine/VeDesc.lean ====
section
/-! DEFINITION. The tensor descriptor and the operation descriptor of the vector engine: their checks and costs
(R233 to R248). -/

namespace Sys2Proof.Machine

/-! ## Tensor descriptors (R233 to R237) -/

/-- A tensor descriptor. `stride` holds STRIDE_1 to STRIDE_4. -/
structure Tens where
  addr : Nat
  scale : Nat
  ext : List Nat
  stride : List Nat
  fmt : Nat
  ndim : Nat
  tid : Nat
  flags : Nat
  reservedOk : Bool

def tens (b : List Byte) : Tens :=
  { addr := numAt b 0 8, scale := numAt b 8 8, ext := (List.range 5).map (fun d => numAt b (16 + 4 * d) 4),
    stride := (List.range 4).map (fun d => numAt b (36 + 4 * d) 4), fmt := numAt b 52 1 % 16, ndim := numAt b 53 1,
    tid := numAt b 56 4, flags := numAt b 60 1, reservedOk := numAt b 52 1 / 16 == 0 && zeroAt b 54 56 && zeroAt b 61 64 }

/-- EXT_0, the number of rows, and the vectors that a walk over extents takes (R235). -/
def extAt (e : List Nat) (d : Nat) : Nat := e.getD d 1
def extRows (e : List Nat) : Nat := extAt e 1 * extAt e 2 * extAt e 3 * extAt e 4
def extVecs (e : List Nat) : Nat := ceilDiv (extAt e 0) 128 * extRows e

/-- The indices i1 to i4 of row number `rn`, i1 fastest (R235). -/
def rowIx (e : List Nat) (rn : Nat) : List Nat :=
  let a := extAt e 1
  let b := a * extAt e 2
  let c := b * extAt e 3
  [rn % a, (rn / a) % extAt e 2, (rn / b) % extAt e 3, (rn / c) % extAt e 4]

def Tens.strideAt (t : Tens) (d : Nat) : Nat := t.stride.getD (d - 1) 0

/-- The address of the row at indices i1 to i4; a dimension of extent 1 repeats (R242). -/
def Tens.rowAddr (t : Tens) (ix : List Nat) : Nat :=
  t.addr + ((List.range 4).map (fun d => if extAt t.ext (d + 1) = 1 then 0 else ix.getD d 0 * t.strideAt (d + 1))).foldl (· + ·) 0

/-- The row number of a row in the tensor's own extents, for its scales (R236). -/
def Tens.rowNum (t : Tens) (ix : List Nat) : Nat :=
  let i (d : Nat) : Nat := if extAt t.ext d = 1 then 0 else ix.getD (d - 1) 0
  i 1 + extAt t.ext 1 * (i 2 + extAt t.ext 2 * (i 3 + extAt t.ext 3 * i 4))

def Tens.isBlock (t : Tens) : Bool := isBlockFmt t.fmt

/-- Bytes of a row, and of its scales. -/
def Tens.rowBytes (t : Tens) : Nat :=
  if t.isBlock then bytesFor t.fmt (ceilDiv (extAt t.ext 0) 32 * 32) else bytesFor t.fmt (extAt t.ext 0)
def Tens.rowScales (t : Tens) : Nat := ceilDiv (extAt t.ext 0) 32 * scaleBytes t.fmt
def Tens.scaleAt (t : Tens) (ix : List Nat) : Nat := t.scale + t.rowNum ix * t.rowScales

/-- Bytes from ADDR to the end of the last row. -/
def Tens.span (t : Tens) : Nat :=
  ((List.range 4).map (fun d => (extAt t.ext (d + 1) - 1) * t.strideAt (d + 1))).foldl (· + ·) 0 + t.rowBytes

/-- Whether `n` bytes from an address lie in the course store of course c. -/
def inCourse (c a n : Nat) : Bool := runOk 0 a n && tierOf a == 0 && courseOf a == c

/-- The strides of a block-scaled tensor (R236). -/
def Tens.dense (t : Tens) : Bool :=
  t.ndim == 1 || (t.strideAt 1 == t.rowBytes &&
    (List.range (t.ndim - 2)).all (fun k => t.strideAt (k + 2) == t.strideAt (k + 1) * extAt t.ext (k + 1)))

/-- The rules of R233 to R237 on one descriptor at `at_` in course c. -/
def Tens.ok (t : Tens) (c at_ : Nat) (dst : Bool) : Bool :=
  descOk at_ 64 c && t.reservedOk && decide (t.fmt ≤ 10) && decide (1 ≤ t.ndim) && decide (t.ndim ≤ 5) && decide (t.flags < 8) &&
  t.ext.all (fun e => decide (1 ≤ e) && decide (e ≤ 16777215)) &&
  (List.range 5).all (fun d => decide (d < t.ndim) || extAt t.ext d == 1) &&
  t.stride.all (fun s => s % 4 == 0) &&
  (List.range 4).all (fun d =>
    if d + 1 < t.ndim then !dst || decide (t.strideAt (d + 1) ≠ 0) else t.strideAt (d + 1) == 0) &&
  t.addr % max 1 (elemBits t.fmt / 8) == 0 && inCourse c t.addr t.span &&
  (if t.isBlock then t.dense && t.scale % scaleBytes t.fmt == 0 && inCourse c t.scale (extRows t.ext * t.rowScales)
   else t.scale == 0)

/-- Whether each stride spans the dimensions below it, so that no two elements share a byte. -/
def Tens.nested (t : Tens) : Bool :=
  ((List.range 4).foldl (fun (s : Bool × Nat) d =>
    let e := extAt t.ext (d + 1)
    let st := t.strideAt (d + 1)
    (s.1 && (e == 1 || decide (s.2 ≤ st)), s.2 + (e - 1) * st)) (true, t.rowBytes)).1

/-- The byte ranges of a tensor, rows and scale plane: start and end. -/
def Tens.ranges (t : Tens) : List (Nat × Nat) :=
  (List.range (extRows t.ext)).map (fun r => let a := t.rowAddr (rowIx t.ext r); (a, a + t.rowBytes))
def Tens.planes (t : Tens) : List (Nat × Nat) :=
  t.ranges ++ (if t.isBlock then [(t.scale, t.scale + extRows t.ext * t.rowScales)] else [])

/-- Ranges in rising order of their starts. -/
def sortRanges (xs : List (Nat × Nat × Bool)) : List (Nat × Nat × Bool) := xs.mergeSort (fun a b => decide (a.1 ≤ b.1))

/-- Whether a range of one kind meets an earlier one of the other kind, in sorted ranges; `ends` holds how far each kind reaches. -/
def sweep : List (Nat × Nat × Bool) → Nat → Nat → Bool
  | [], _, _ => false
  | (a, e, k) :: t, x, y => if k then decide (a < y) || sweep t (max x e) y else decide (a < x) || sweep t x (max y e)

def rangesMeet (xs ys : List (Nat × Nat)) : Bool :=
  sweep (sortRanges (xs.map (fun r => (r.1, r.2, true)) ++ ys.map (fun r => (r.1, r.2, false)))) 0 0

def sweepSelf : List (Nat × Nat × Bool) → Nat → Bool
  | [], _ => false
  | (a, e, _) :: t, x => decide (a < x) || sweepSelf t (max x e)

/-- Whether two elements of a destination share a byte (R237). -/
def Tens.shares (t : Tens) : Bool := !t.nested && sweepSelf (sortRanges (t.ranges.map (fun r => (r.1, r.2, true)))) 0

/-- The hull of a tensor's bytes. -/
def Tens.hulls (t : Tens) : List (Nat × Nat) :=
  (t.addr, t.addr + t.span) :: (if t.isBlock then [(t.scale, t.scale + extRows t.ext * t.rowScales)] else [])

/-- Whether bytes of two tensors overlap. -/
def Tens.meets (t u : Tens) : Bool :=
  t.hulls.any (fun x => u.hulls.any (fun y => decide (x.1 < y.2) && decide (y.1 < x.2))) && rangesMeet t.planes u.planes

/-- Whether two descriptors coincide exactly (R237). -/
def Tens.same (t u : Tens) : Bool :=
  t.addr == u.addr && t.scale == u.scale && t.ext == u.ext && t.stride == u.stride && t.fmt == u.fmt

/-- Whether a source has the extents of a walk, or repeats along a dimension (R242). -/
def Tens.fits (t : Tens) (e : List Nat) : Bool :=
  (extAt t.ext 0 == 1 || extAt t.ext 0 == extAt e 0) &&
  (List.range 4).all (fun d => extAt t.ext (d + 1) == extAt e (d + 1) || (extAt t.ext (d + 1) == 1 && t.strideAt (d + 1) == 0))

/-! ## Operation descriptors (R238, R239) -/

structure VeOp where
  op : Nat
  kind : Nat
  mask : Nat
  axis : Nat
  sumb : Nat
  conv : Nat
  mode : Nat
  src : List Nat
  dst : Nat
  dst2 : Nat
  imm : Nat
  kTop : Nat
  reservedOk : Bool

def veOp (b : List Byte) : VeOp :=
  { op := numAt b 0 2, kind := numAt b 2 1, mask := numAt b 3 1, axis := numAt b 4 1, sumb := numAt b 5 1, conv := numAt b 6 1,
    mode := numAt b 7 1, src := [numAt b 8 8, numAt b 16 8, numAt b 24 8], dst := numAt b 32 8, dst2 := numAt b 40 8,
    imm := numAt b 48 4, kTop := numAt b 52 2, reservedOk := zeroAt b 54 64 }

/-- Sources, sixteenths of a step per vector, and cycles per row of an operation (R245); none for a code that is not listed. -/
def veInfo (op kTop : Nat) : Option (Nat × Nat × Nat) :=
  match op with
  | 0x01 => some (1, 16, 0) | 0x02 => some (1, 16, 0)
  | 0x10 => some (2, 16, 0) | 0x11 => some (2, 16, 0) | 0x12 => some (2, 16, 0) | 0x13 => some (3, 16, 0)
  | 0x14 => some (2, 16, 0) | 0x15 => some (2, 16, 0) | 0x16 => some (1, 16, 0) | 0x17 => some (1, 16, 0)
  | 0x18 => some (2, 128, 0) | 0x19 => some (1, 128, 0)
  | 0x20 => some (1, 32, 0) | 0x21 => some (1, 32, 0) | 0x22 => some (1, 32, 0) | 0x23 => some (1, 32, 0)
  | 0x24 => some (1, 64, 0) | 0x25 => some (1, 48, 0) | 0x26 => some (1, 112, 0) | 0x27 => some (1, 160, 0)
  | 0x30 => some (2, 16, 0) | 0x31 => some (2, 16, 0)
  | 0x38 => some (2, 16, 0) | 0x39 => some (2, 16, 0) | 0x3A => some (2, 16, 0)
  | 0x40 => some (2, 1, 0)
  | 0x50 => some (1, 16, 4) | 0x51 => some (1, 16, 4) | 0x52 => some (1, 16, 4) | 0x53 => some (1, 16, 4)
  | 0x54 => some (1, 16, 4) | 0x55 => some (1, 16, 4) | 0x56 => some (1, 16, 4) | 0x57 => some (1, 96, 8)
  | 0x60 => some (1, 32, 8) | 0x61 => some (1, 48, 8) | 0x62 => some (3, 48, 0)
  | 0x68 => some (1, 80, 8) | 0x69 => some (2, 80, 4) | 0x6A => some (2, 128, 0)
  | 0x70 => some (1, 16 * (1 + ceilDiv kTop 128), 16 + ceilDiv kTop 4)
  | 0x78 => some (2, 16, 2) | 0x79 => some (2, 16, 2)
  | _ => none

def veReduces (op : Nat) : Bool := decide (0x50 ≤ op) && decide (op ≤ 0x57)
def veStats (op : Nat) : Bool := op == 0x60 || op == 0x61 || op == 0x68
def veInteger (op : Nat) : Bool := decide (0x38 ≤ op) && decide (op ≤ 0x3A)

/-- Whether an operation's results are INT32 values: the integer operations, the indices, and the mask. -/
def veIntResult (op : Nat) : Bool := veInteger op || op == 0x55 || op == 0x56 || op == 0x40

/-- Whether the walk takes the extents of SRC0 (R246). -/
def veWalksSrc0 (op : Nat) : Bool :=
  veReduces op || veStats op || op == 0x62 || op == 0x69 || op == 0x6A || op == 0x70 || op == 0x78 || op == 0x79

/-- A source as its kind gives it (R239). -/
inductive VSrc where
  | tensor (t : Tens) | vreg (n : Nat) | sreg (n : Nat) | imm

/-- An operation with its tensors read. -/
structure VePlan where
  desc : Nat
  o : VeOp
  srcs : List VSrc
  mask : Option Tens
  dst : Option Tens
  dst2 : Option Tens

def VeOp.kindOf (o : VeOp) (i : Nat) : Nat := (o.kind / 4 ^ i) % 4
def VeOp.maskSel (o : VeOp) : Nat := o.mask % 16
def VeOp.arity (o : VeOp) : Nat := match veInfo o.op o.kTop with | some x => x.1 | none => 0

def vePlan (m : Memory) (desc : Nat) : VePlan :=
  let o := veOp (readBytes m desc 64)
  let t (a : Nat) : Tens := tens (readBytes m a 64)
  let src (i : Nat) : VSrc :=
    let r := o.src.getD i 0
    match o.kindOf i with
    | 0 => .tensor (t r) | 1 => .vreg r | 2 => .sreg r | _ => .imm
  { desc := desc, o := o, srcs := (List.range o.arity).map src,
    mask := if o.maskSel = 9 ∧ o.arity < 3 then some (t (o.src.getD 2 0)) else none,
    dst := if o.kindOf 3 = 0 then some (t o.dst) else none,
    dst2 := if o.op = 0x70 then some (t o.dst2) else none }

/-- The addresses of the tensor descriptors of an operation. -/
def VePlan.refs (p : VePlan) : List Nat :=
  (List.range p.o.arity).filterMap (fun i => if p.o.kindOf i = 0 then some (p.o.src.getD i 0) else none) ++
    (if p.mask.isSome then [p.o.src.getD 2 0] else []) ++ (if p.dst.isSome then [p.o.dst] else []) ++
    (if p.dst2.isSome then [p.o.dst2] else [])

/-- The tensor sources. -/
def VePlan.tensors (p : VePlan) : List Tens := p.srcs.filterMap (fun s => match s with | .tensor t => some t | _ => none)

def VePlan.src0 (p : VePlan) : Option Tens := match p.srcs.head? with | some (.tensor t) => some t | _ => none

/-- The extents of the walk (R246). -/
def VePlan.inp (p : VePlan) : List Nat :=
  if veWalksSrc0 p.o.op then (match p.src0 with | some t => t.ext | none => [128, 1, 1, 1, 1])
  else match p.dst with
    | some t => t.ext
    | none => match p.tensors ++ p.mask.toList with
      | t :: _ => t.ext
      | [] => [128, 1, 1, 1, 1]

/-- The extents of the destination. -/
def VePlan.out (p : VePlan) : List Nat :=
  let e := p.inp
  if veReduces p.o.op then e.set p.o.axis 1
  else if veStats p.o.op then e.set 0 2
  else if p.o.op = 0x70 then e.set 0 p.o.kTop
  else if p.o.op = 0x78 ∨ p.o.op = 0x79 then (match p.dst with | some t => t.ext | none => e.set 1 1)
  else e

/-- Index entries of a GATHER or a SCATTER (R264). -/
def VePlan.entries (p : VePlan) : Nat := if p.o.op = 0x78 then extAt p.out 1 else extAt p.inp 1

/-- Rows reduced or selected (R246). -/
def VePlan.rows (p : VePlan) : Nat :=
  if veReduces p.o.op ∧ p.o.axis ≠ 0 then extVecs p.out
  else if p.o.op = 0x78 ∨ p.o.op = 0x79 then p.entries
  else extRows p.inp

/-- Walk cycles, row terms included, and C_ve (R246). -/
def VePlan.walk (p : VePlan) : Nat :=
  match veInfo p.o.op p.o.kTop with
  | some (_, c, t) => ceilDiv (extVecs p.inp * c) 16 + p.rows * t
  | none => 0
def VePlan.cost (p : VePlan) : Nat :=
  24 + p.walk + (if p.o.sumb = 0 then 0 else 24) +
  (match p.dst with | some t => if t.isBlock then extVecs t.ext else 0 | none => 0)

/-- How a plan fails: SHAPE, or ADDR_REFUSED naming a descriptor. -/
inductive VeBad where
  | addr (a : Nat) | shape
  deriving DecidableEq, Repr

/-- The rules of R238, R239 and R240 on the operation descriptor's own fields. -/
def VePlan.fieldsOk (p : VePlan) (c : Nat) : Bool :=
  let o := p.o
  let top := o.op == 0x70
  descOk p.desc 64 c && (veInfo o.op o.kTop).isSome && o.reservedOk && decide (o.mask < 32) && decide (o.maskSel ≤ 9) &&
  (o.maskSel != 9 || decide (o.arity < 3)) && (if veReduces o.op then decide (o.axis ≤ 4) else o.axis == 0) &&
  o.sumb % 4 == 0 && decide (o.sumb ≤ 28) && decide (o.conv < 16) && decide (o.conv % 4 ≠ 3) && decide (o.conv / 4 ≠ 3) &&
  decide (o.mode < 16) && decide (o.mode % 8 < 6) &&
  (if top then decide (1 ≤ o.kTop) && decide (o.kTop ≤ 1024) else o.kTop == 0 && o.dst2 == 0) &&
  (o.op != 2 || o.kindOf 0 == 2 || o.kindOf 0 == 3) && decide (o.kindOf 3 ≠ 3) &&
  (o.kindOf 3 != 1 || (decide (o.dst < 32) && o.op != 0x79)) &&
  (o.kindOf 3 != 2 || (decide (o.dst < 8) && o.op == 0x30)) &&
  (List.range 3).all (fun i =>
    let r := o.src.getD i 0
    if i < o.arity then (match o.kindOf i with | 0 => true | 3 => r == 0 | _ => decide (r < 32))
    else r == 0 || (i == 2 && o.maskSel == 9))

/-- The first tensor descriptor that breaks R233 to R237, by its address. -/
def VePlan.badTensor (p : VePlan) (c : Nat) : Option Nat :=
  let srcs := (List.range p.o.arity).filterMap (fun i =>
    match p.srcs[i]? with
    | some (VSrc.tensor t) => if t.ok c (p.o.src.getD i 0) false then none else some (p.o.src.getD i 0)
    | _ => none)
  let mask := match p.mask with | some t => if t.ok c (p.o.src.getD 2 0) false then [] else [p.o.src.getD 2 0] | none => []
  let dst (t : Option Tens) (a : Nat) : List Nat := match t with | some t => if t.ok c a true && !t.shares then [] else [a] | none => []
  (srcs ++ mask ++ dst p.dst p.o.dst ++ dst p.dst2 p.o.dst2).head?

/-- The formats (R241, R244, R262 to R264): mask INT8, integer sources, INT32 destinations, segment and row indices. -/
def VePlan.fmtsOk (p : VePlan) : Bool :=
  let op := p.o.op
  let int32 (i : Nat) : Bool := match p.srcs[i]? with | some (.tensor t) => t.fmt == 10 | _ => true
  (match p.mask with | some t => t.fmt == 9 | none => true) &&
  (!veInteger op || p.tensors.all (fun t => t.fmt == 9 || t.fmt == 10)) &&
  (match p.dst with | some t => t.fmt != 10 || (veIntResult op && op != 0x40) | none => true) &&
  (op != 0x40 || (int32 0 && int32 1 && (match p.dst with | some t => t.fmt == 9 | none => true))) &&
  ((op != 0x78 && op != 0x79) || int32 1) &&
  (match p.dst2 with | some t => t.fmt == 10 | none => true)

/-- The shapes (R242, R260 to R264). -/
def VePlan.shapesOk (p : VePlan) : Bool :=
  let op := p.o.op
  let e := p.inp
  let fit (i : Nat) (x : List Nat) : Bool := match p.srcs[i]? with | some (.tensor t) => t.fits x | _ => true
  let isTensor (i : Nat) : Bool := match p.srcs[i]? with | some (.tensor _) => true | _ => false
  let flat (i : Nat) : Bool := match p.srcs[i]? with | some (.tensor t) => t.stride.all (· == 0) | _ => true
  let dstIs (x : List Nat) : Bool := match p.dst with | some t => t.ext == x | none => true
  let pair (i : Nat) : Bool := match p.srcs[i]? with | some (.tensor t) => t.fits (e.set 0 2) && extAt t.ext 0 == 2 | _ => true
  let list (i n : Nat) : Bool :=
    match p.srcs[i]? with | some (.tensor t) => t.ext == [n, 1, 1, 1, 1] || t.ext == [1, n, 1, 1, 1] | _ => true
  let rest (x : List Nat) : Bool := x.set 1 1 == e.set 1 1
  (match p.mask with | some t => t.fits (if op = 0x78 then p.out else e) | none => true) &&
  (p.o.kindOf 3 == 0 || (extVecs e == 1 && extVecs p.out == 1)) &&
  (if veWalksSrc0 op then
    isTensor 0 &&
    (match op with
     | 0x62 => pair 1 && fit 2 e && flat 2 && dstIs e
     | 0x69 => pair 1 && dstIs e
     | 0x6A => extAt e 0 == 2 && pair 1 && dstIs e
     | 0x70 => dstIs p.out && (match p.dst2 with | some t => t.ext == p.out | none => true)
     | 0x78 | 0x79 => list 1 p.entries && rest p.out
     | _ => dstIs p.out)
   else if op = 0x40 then
    fit 0 e && fit 1 e && flat 1 &&
    (match p.srcs.head? with | some (.tensor t) => extAt t.ext 0 == 1 | _ => true)
   else (List.range 3).all (fun i => fit i e))

/-- Whether destinations overlap sources, or one another, other than in place (R237). -/
def VePlan.overlapOk (p : VePlan) : Bool :=
  let sources := p.tensors ++ p.mask.toList
  (p.dst.toList ++ p.dst2.toList).all (fun d => sources.all (fun s => s.same d || !s.meets d)) &&
  (match p.dst, p.dst2 with | some a, some b => !a.meets b | _, _ => true)

/-- The first check of R233 to R245 that an operation of course c breaks. -/
def VePlan.bad (p : VePlan) (c : Nat) : Option VeBad :=
  if !p.fieldsOk c then some (.addr p.desc)
  else match p.badTensor c with
    | some a => some (.addr a)
    | none =>
      if !p.fmtsOk then some (.addr p.desc)
      else if !p.shapesOk then some .shape
      else if !p.overlapOk then some (.addr p.desc)
      else none

/-- Check 11 (R247). -/
def VePlan.check11 (p : VePlan) (ln : Line) : Bool := ln.path == 0 && decide (p.cost ≤ ln.wcCompute)

/-- The scalar registers an operation reads, and those its summary writes, as bit masks (R144, R145). -/
def VeOp.reads (o : VeOp) : Nat :=
  (List.range o.arity).foldl (fun m i => if o.kindOf i = 2 then m ||| (1 <<< (o.src.getD i 0 % 32)) else m) 0
def VeOp.writes (o : VeOp) : Nat := if o.sumb = 0 then 0 else (15 <<< o.sumb) % 2 ^ 32

end Sys2Proof.Machine
end

