-- ==== Sys2Proof/Machine/TabCheck.lean ====
section
/-! DEFINITION. What validation reads of a tab image: its structure (R76 to R88), and for each line what its unit's own checks say
of it, what it costs, and what it shares (R90, R91, R145, R155, R191, R209 to R213, R294 to R296, R320, R371, R372). -/

namespace Sys2Proof.Machine

/-- An image as bytes: offset and length. -/
abbrev Img := Nat → Nat → List Byte

/-- A line of an image, where it lies. -/
structure ImgLine where
  at_ : Nat
  raw : List Byte
  ln : Line

/-- The stream of one course, cut into positions. -/
structure Stream where
  c : Nat
  entry : Nat
  positions : List (List ImgLine)
  ends : List ImgLine
  rest : List ImgLine
  count : Nat

def imgLine (img : Img) (a : Nat) : ImgLine := let b := img a 32; { at_ := a, raw := b, ln := lineOfBytes b }

/-- Cut lines at their POSITION_END lines: positions, the ends, and what stands after the last end. -/
def cutPositions : List ImgLine → List ImgLine → List (List ImgLine) × List ImgLine × List ImgLine
  | [], cur => ([], [], cur)
  | l :: ls, cur =>
    if isEnd l.ln then
      let r := cutPositions ls []
      (cur :: r.1, l :: r.2.1, r.2.2)
    else cutPositions ls (cur ++ [l])

/-- The stream of a course of the mask; none where it does not lie within IMAGE_LEN (R78), or where it begins before the end of the
receive-window table, against the order of R76: R88 lists no such image, and that the model refuses it is DESIGN CHOICE (log 98). -/
def streamOf (img : Img) (h : TabHdr) (c : Nat) : Option Stream :=
  let e := courseEntry img c
  if e.1 < 1024 + 16 * h.windows ∨ h.imageLen < e.1 + 32 * e.2 then none
  else
    let r := cutPositions ((List.range e.2).map (fun i => imgLine img (e.1 + 32 * i))) []
    some { c := c, entry := 256 + 8 * c, positions := r.1, ends := r.2.1, rest := r.2.2, count := e.2 }

def Stream.at (s : Stream) (p : Nat) : List ImgLine := s.positions.getD p []

/-! ## The rules of R88 that need no descriptor: each answers the offset of the first offending byte -/

/-- The first nonzero byte of [a, b) of some bytes that lie at `base`. -/
def firstNonzero (b : List Byte) (base a z : Nat) : Option Nat :=
  ((List.range (z - a)).find? (fun i => b.getD (a + i) 0 != 0)).map (fun i => base + a + i)

def orElse_ {α : Type} (a b : Option α) : Option α := match a with | some x => some x | none => b
def firstSome {α β : Type} (f : α → Option β) : List α → Option β
  | [] => none
  | x :: xs => match f x with
    | some y => some y
    | none => firstSome f xs

def when_ (c : Bool) (n : Nat) : Option Nat := if c then some n else none

/-- The header (R77, R88), its first three fields and CRC checked before. R88 names neither an IMAGE_LEN that ends before the
receive-window table (R76) nor a nonzero PRED_INIT [7:4] (R77): that the model refuses both is DESIGN CHOICE (log 98). -/
def hdrBad (img : Img) (h : TabHdr) : Option Nat :=
  let b := img 0 256
  firstSome id
    [when_ (decide (h.imageLen < 1024 + 16 * h.windows)) 8,
     when_ (decide (h.positions < 1) || decide (2 ^ 24 < h.positions)) 24, when_ (decide (h.positions ≤ h.loopStart)) 28,
     when_ (decide (65535 < h.windows)) 36, when_ (decide (15 < h.predInit)) 53, firstNonzero b 0 60 64, firstNonzero b 0 96 252]

/-- The course table (R78). -/
def tableBad (img : Img) (h : TabHdr) : Option Nat :=
  firstSome (fun c =>
    let e := courseEntry img c
    if bitOf h.mask c then when_ (streamOf img h c).isNone (256 + 8 * c)
    else if e.1 ≠ 0 then some (256 + 8 * c) else when_ (decide (e.2 ≠ 0)) (260 + 8 * c)) (List.range 96)

/-- The receive windows (R79). -/
def windowsBad (img : Img) (h : TabHdr) : Option Nat :=
  firstSome (fun k => firstNonzero (img (1024 + 16 * k) 16) (1024 + 16 * k) 12 16) (List.range h.windows)

/-- A SET_PRED condition that breaks R84 or R155. -/
def condBad (desc : Nat) : Bool :=
  match desc % 256 with
  | 0 => decide (desc >>> 15 ≠ 0)
  | 1 => decide (bitsOf desc 31 22 ≠ 0) || (if bitOf desc 16 then decide (desc >>> 32 ≠ 0) else decide (bitsOf desc 21 17 ≠ 0))
  | _ => true

/-- A line's own fields: index in its position, OFFSET of the line before, WINDOWS, the far capacity. -/
def lineBad (far windows i prev : Nat) (x : ImgLine) : Option Nat :=
  let l := x.ln
  firstSome id
    [when_ (decide (2 ^ 20 ≤ l.offset) || decide (l.offset < prev) || decide (254 ≤ i)) x.at_,
     when_ (decide (0xB < l.unit)) (x.at_ + 4), when_ (decide (15 < l.pred)) (x.at_ + 5), when_ (decide (4 < l.path)) (x.at_ + 6),
     when_ (l.dep != 0xFF && decide (i ≤ l.dep)) (x.at_ + 7),
     when_ (if l.unit = 9 then condBad l.desc else !addrOk far l.desc) (x.at_ + 16),
     when_ (l.window != 0xFFFF && decide (windows ≤ l.window)) (x.at_ + 24), firstNonzero x.raw x.at_ 26 32]

/-- A POSITION_END line with another nonzero field. -/
def endBad (x : ImgLine) : Option Nat := firstNonzero x.raw x.at_ 0 32

/-- A stream whose ends do not match POSITIONS, or that goes on after the last one. -/
def Stream.bad (s : Stream) (positions : Nat) : Option Nat :=
  when_ (decide (s.ends.length ≠ positions) || !s.rest.isEmpty || decide (s.count = 0)) (s.entry + 4)

/-! ## The shared paths (R278), in the order of R296: 2t express vias, 2t + 1 DRAM vias, 16 + t bonds, 24 + 2i bridge link i
upward and the next downward, 38 + 2p host port reads and the next writes. Rates and capacities are in units of 1/2016 B/cyc. -/

def keyExpress (t : Nat) : Nat := 2 * t
def keyDram (t : Nat) : Nat := 2 * t + 1
def keyBonds (t : Nat) : Nat := 16 + t
def keyBridge (i : Nat) (down : Bool) : Nat := 24 + 2 * i + (if down then 1 else 0)
def keyHost (p : Nat) (write : Bool) : Nat := 38 + 2 * p + (if write then 1 else 0)
def pathCount : Nat := 42
def rateUnit : Nat := 2016

/-- A direction of a bridge link with a narrowed or failed bundle (R491). -/
def Dev.bridgeNarrow (d : Dev) (i : Nat) (down : Bool) : Bool :=
  (List.range 8).any (fun k => d.narrowed (bundleKey i 4 (if down then 8 + k else k)))

/-- A host port with a narrowed quarter (R421). -/
def Dev.portNarrow (d : Dev) (p : Nat) : Bool := (List.range 4).any (fun q => let s := d.linkState (24 + 4 * p + q); s == 3 || s == 4)

/-- Whether a path is narrowed. -/
def Dev.keyNarrow (d : Dev) (k : Nat) : Bool :=
  if k < 16 then d.clsNarrowed (k / 2) (if k % 2 = 0 then 3 else 2)
  else if k < 24 then d.clsNarrowed (k - 16) 1
  else if k < 38 then d.bridgeNarrow ((k - 24) / 2) (k % 2 == 1)
  else d.portNarrow ((k - 38) / 2)

def Dev.capacity (d : Dev) (k : Nat) : Nat :=
  if k < 16 then (if k % 2 = 0 then 2000 else 2285) * rateUnit
  else if k < 24 then 13700 * rateUnit
  else if k < 38 then (if d.keyNarrow k then 571 else 1142) * rateUnit
  else (if d.keyNarrow k then 800 else 1600) * rateUnit / 7

/-- The bridge links a transfer from tower a to tower b crosses, in its direction (R279). -/
def linksFromTo (a b : Nat) : List Nat := (List.range (distance a b)).map (fun i => keyBridge (min a b + i) (decide (b < a)))

/-- The bridge links between tower t and the quarters of its half, toward t for a read, away from it for a write. -/
def linksOfHalf (t : Nat) (write : Bool) : List Nat :=
  (List.range 3).map (fun k => let i := t / 4 * 4 + k; keyBridge i (decide (t ≤ i) != write))

/-- The vias or bonds of a tower that a PATH names. -/
def keyOfPath (t path : Nat) : List Nat :=
  match path with | 1 => [keyBonds t] | 2 => [keyDram t] | 3 => [keyExpress t] | _ => []

/-- Towers of the two ends of a mover route, an absent one in the own course store. -/
def MoverDesc.endTowers (m : MoverDesc) (c : Nat) : Nat × Nat :=
  (if m.op = 3 then c / 12 else towerOf m.src, if m.op = 4 then c / 12 else towerOf m.dst)

/-- The paths a mover route uses (R294, R296). -/
def MoverDesc.keys (m : MoverDesc) (c : Nat) : List Nat :=
  let t := c / 12
  let e := m.ends c
  let tw := m.endTowers c
  let path := (m.route 1024 c).map (·.path) |>.getD 0
  let via (a : Nat) : Nat := if tierOf a = 2 then keyDram (towerOf a) else keyExpress (towerOf a)
  if e.1 = .far ∨ e.2 = .far then keyHost (t / 4) (e.2 == .far) :: (keyOfPath t path ++ linksOfHalf t (e.2 == .far))
  else if tw.1 ≠ tw.2 then
    (if m.op = 3 then keyExpress t else via m.src) :: (if m.op = 4 then keyExpress t else via m.dst) :: linksFromTo tw.1 tw.2
  else match e.1, e.2 with
    | .deep, .deep => [keyDram t]
    | .deep, _ | _, .deep => [keyExpress t, keyDram t]
    | _, _ => keyOfPath t path

/-! ## A line as validation sees it -/

structure VLine where
  ln : Line
  at_ : Nat
  /-- a descriptor check of step 6 fails -/
  bad : Bool
  /-- check 0x16 -/
  mismatch : Bool
  /-- the first of checks 7 to 15 that fails whatever the line's completion -/
  ovr : Option Nat
  cost : Nat
  /-- t_tail of an MA line (R212) -/
  tail : Option Nat
  rd : Nat
  wr : Nat
  load : List (Nat × Nat)
  shared : List Nat
  latched : Bool
  /-- the slot of an UPDATE, TRUST, DIGEST or STEER pass, and of a NORM collective -/
  pass : Option Nat
  norm : Option Nat
  /-- the accumulation descriptor named: product, FINISH set, DRAIN -/
  acc : Option Nat
  product : Bool
  finish : Bool
  drain : Bool
  /-- the addresses the line names on this device -/
  regions : List Nat
  hedge : Bool

/-- The addresses of a VE operation's tensors. -/
def VePlan.addrs (p : VePlan) : List Nat :=
  (p.tensors ++ p.mask.toList ++ p.dst.toList ++ p.dst2.toList).flatMap (fun t => [t.addr, t.scale])

def lineBase (x : ImgLine) : VLine :=
  { ln := x.ln, at_ := x.at_, bad := false, mismatch := false, ovr := none, cost := x.ln.wcCompute + x.ln.wcXfer, tail := none,
    rd := 0, wr := 0, load := [], shared := [], latched := false, pass := none, norm := none, acc := none, product := false,
    finish := false, drain := false, regions := [], hedge := false }

/-- k of R90: a narrowed bundle of class PATH in the tower, or another narrowed path that the line crosses. -/
def Dev.factor (d : Dev) (t path : Nat) (others : List Nat) : Nat :=
  if (keyOfPath t path).any d.keyNarrow || others.any d.keyNarrow then 2 else 1

/-- SET_PRED, MA and AB lines. -/
def vSetPred (v : VLine) : VLine :=
  let e := v.ln.desc
  let one := e % 256 == 1
  { v with
    latched := e % 256 == 0
    rd := if one then (1 <<< bitsOf e 12 8) ||| (if bitOf e 16 then 1 <<< bitsOf e 21 17 else 0) else 0 }

def vProduct (m : Memory) (partition c : Nat) (v : VLine) : VLine :=
  let p := maDesc (readBytes m v.ln.desc 64)
  let q := accDesc (readBytes m p.abDesc 128)
  let ok := descOk v.ln.desc 64 c && p.ok c && descOk p.abDesc 128 c && q.ok c partition p.int8 && q.productOk p &&
    (if q.tied then q.outOk c q.outM q.outN
     else if q.finish then q.outOk c p.m p.n
     else q.outM == 0 || q.outOk c q.outM q.outN)
  let k9 := q.check9 p partition
  { v with
    bad := !ok
    ovr := if !p.check8 v.ln then some 8 else when_ (decide (v.ln.wcCompute < k9.1)) 9
    tail := some k9.2, acc := some p.abDesc, product := true, finish := q.finish
    regions := [p.a, p.b, p.aScale, p.bScale, p.abDesc, q.dest, q.destScale, q.spill, q.tie, q.colscale, q.bias, q.amax] }

def vAb (m : Memory) (partition c : Nat) (v : VLine) : VLine :=
  let k := abCmd (readBytes m v.ln.desc 32)
  let q := accDesc (readBytes m k.acc 128)
  let ok := descOk v.ln.desc 32 c && k.ok q c && q.ok c partition true
  let untied := if k.op = 1 then !q.tied else k.tieU == 0
  { v with
    bad := !ok
    ovr := when_ (decide (v.ln.wcCompute < k.least q partition)) 10
    cost := v.cost + (if untied then 128 * (q.span - bufLevels partition) else 0)
    acc := some k.acc, drain := k.op == 1
    regions := [k.acc, k.src, q.dest, q.destScale, q.spill, q.tie, q.colscale, q.bias, q.amax] }

def vSave (partition c k : Nat) (v : VLine) : VLine :=
  let a := v.ln.desc
  { v with
    bad := a % 512 != 0 || !maRegion c a (512 + 65536 * groupSlots partition)
    ovr := when_ (decide (v.ln.wcCompute < saveCycles partition)) 10
    cost := saveCycles partition + v.ln.wcXfer * k }

def vVector (m : Memory) (c : Nat) (v : VLine) : VLine :=
  let p := vePlan m v.ln.desc
  { v with
    bad := (p.bad c).isSome, ovr := when_ (!p.check11 v.ln) 11, rd := p.o.reads, wr := p.o.writes
    regions := p.addrs }

def vMover (m : Memory) (d : Dev) (c : Nat) (v : VLine) : VLine :=
  let x := moverDesc (readBytes m v.ln.desc 64)
  let keys := x.keys c
  let k := if keys.any d.keyNarrow then 2 else 1
  let v := { v with
    regions := (if x.op = 3 then [] else [x.src, x.srcRow (x.rows - 1) + 512 * x.run - 1]) ++
      (if x.op = 4 then [] else [x.dst, x.dstRow (x.rows - 1) + 512 * x.run - 1]) }
  match x.route d.farBound c with
  | none => { v with bad := true }
  | some r =>
    { v with
      bad := !descOk v.ln.desc 64 c || !x.ok (farBytes d) c
      ovr := when_ (v.ln.path != r.path || decide (v.ln.wcCompute < 64 + r.lat) || decide (v.ln.wcXfer < x.cycles r)) 12
      cost := v.ln.wcCompute + v.ln.wcXfer * k
      load := keys.map (fun q => (q, rateUnit * r.num / r.den)) }

/-- The loads of an EF line (R372): each port's rate on the bridge links to it and the vias. -/
def efLoad (d : Dev) (c ports comp : Nat) : List (Nat × Nat) :=
  let t := c / 12
  let mine := (List.range 24).filter (bitOf ports)
  let rate (l : Nat) : Nat := 64 * (16 - d.transit l) * 224
  mine.flatMap (fun l => (linksFromTo t (l / 3) ++ linksFromTo (l / 3) t).map (fun q => (q, rate l)) ++ [(keyExpress t, 3 * rate l)]) ++
  (if comp = 0 then [] else [(keyDram t, 4 * natSum (mine.map rate))])

def vFabric (m : Memory) (d : Dev) (blocks : Nat → Option Nat) (c : Nat) (v : VLine) : VLine :=
  let p := efPlan m d c v.ln blocks
  let mine := (List.range 24).filter (bitOf p.ports)
  let load := efLoad d c p.ports (if p.p2p then 0 else p.coll.comp)
  let narrow := mine.any (fun l => let s := d.linkState l; s == 3 || s == 4)
  let k := if narrow || (load.map (·.1)).any (fun q => decide (24 ≤ q) && d.keyNarrow q) then 2 else 1
  { v with
    bad := p.bad.isSome, mismatch := p.mismatch, ovr := when_ (!p.check15 d v.ln) 15
    cost := v.ln.wcCompute + v.ln.wcXfer * k, load := load
    shared := efUnits (c / 12) p.ports
    norm := if !p.p2p && p.coll.kind == 6 then some p.coll.slot else none
    regions := if p.p2p then [p.send.src]
      else [p.coll.group, p.coll.src, p.coll.dst, p.coll.table, p.coll.res, p.coll.work] ++
        p.g.a2a.flatMap (fun e => [e.sendAddr, e.recvAddr])
    hedge := true }

def vUpdate (m : Memory) (d : Dev) (c : Nat) (v : VLine) : VLine :=
  let x := ueDesc (readBytes m v.ln.desc 128)
  let t := c / 12
  let ch := x.charge
  let far := if x.far then keyHost (t / 4) true :: linksOfHalf t true else []
  { v with
    bad := (x.bad m (farBytes d) c v.ln.desc).isSome
    ovr := when_ (!x.check14 m v.ln) 14
    cost := v.ln.wcCompute + v.ln.wcXfer * d.factor t v.ln.path far
    load := [(keyDram t, 9 * ch.1), (keyExpress t, 9 * ch.2.1)] ++ far.map (fun q => (q, 9 * ch.2.2))
    shared := [100 + t]
    pass := if x.kind = 1 then none else some x.slot
    regions := [x.grad, x.m, x.v, x.masterIn, x.masterOut, x.ww, x.wwScale, x.aux, x.res] }

def vRoutine (m : Memory) (c : Nat) (v : VLine) : VLine :=
  let r := ccRead m v.ln.desc
  let ok := inCourse c v.ln.desc (16 + 4 * r.1.len) && ccCodeOk r.1 r.2
  { v with
    bad := !ok, ovr := when_ (decide (v.ln.wcCompute < ccBound r.2)) 7, rd := r.1.rmask, wr := r.1.wmask }

/-- A line of course c under a context's partition. -/
def vLine (m : Memory) (d : Dev) (blocks : Nat → Option Nat) (partition c : Nat) (x : ImgLine) : VLine :=
  let b := lineBase x
  let k := d.factor (c / 12) x.ln.path []
  let b := { b with cost := x.ln.wcCompute + x.ln.wcXfer * k }
  let v := match x.ln.unit with
    | 1 => vProduct m partition c b
    | 2 => vVector m c b
    | 3 => vAb m partition c b
    | 4 => vMover m d c b
    | 5 | 6 => vFabric m d blocks c b
    | 7 => vUpdate m d c b
    | 8 => vRoutine m c b
    | 9 => vSetPred b
    | 10 | 11 => vSave partition c k b
    | _ => b
  if x.ln.unit = 9 then v else { v with regions := x.ln.desc :: v.regions.filter (fun a => decide (a ≠ 0)) }

/-! ## The rules over a position of a course (R145, R209): each answers the index of the line that breaks it -/

/-- The lines that line i reaches through DEP links. -/
def depChain (ls : List VLine) : Nat → Nat → List Nat
  | 0, _ => []
  | fuel + 1, i => match ls[i]? with
    | some v => if v.ln.dep = 0xFF then [] else v.ln.dep :: depChain ls fuel v.ln.dep
    | none => []

def dropS0 (m : Nat) : Nat := m - m % 2

/-- Line i touches a scalar register unordered with an earlier line. -/
def scalarClash (ls : List VLine) (i : Nat) (v : VLine) : Bool :=
  let reach := depChain ls ls.length i
  (List.range i).any (fun j => match ls[j]? with
    | some u => !reach.contains j && dropS0 ((u.wr &&& (v.rd ||| v.wr)) ||| (v.wr &&& u.rd)) != 0
    | none => false)

/-- Line i is a DRAIN that does not reach an earlier product of its descriptor. -/
def drainLoose (ls : List VLine) (i : Nat) (v : VLine) : Bool :=
  v.drain && (let reach := depChain ls ls.length i
    (List.range i).any (fun j => match ls[j]? with
      | some u => u.product && u.acc == v.acc && !reach.contains j
      | none => false))

/-- A line that names a descriptor while another accumulation is open. -/
def accClash : List VLine → Nat → Option Nat → Option Nat
  | [], _, _ => none
  | v :: vs, i, cur =>
    match v.acc with
    | none => accClash vs (i + 1) cur
    | some a =>
      if cur.isSome ∧ cur ≠ some a then some i
      else accClash vs (i + 1) (if v.product ∧ !v.finish then some a else if v.drain then none else cur)

/-- What line i of a position breaks of R145 and R209: the offset of its DEP, or of its DESC. -/
def orderBad (ls : List VLine) (i : Nat) (v : VLine) : Option Nat :=
  firstSome id
    [when_ (scalarClash ls i v || drainLoose ls i v) (v.at_ + 7), when_ (accClash ls 0 none == some i) (v.at_ + 16)]

end Sys2Proof.Machine
end

