-- ==== Sys2Proof/Machine/Validate.lean ====
section
/-! DEFINITION. Validation of a tab image: the order of R564, the comparisons of R87, the fit of R89 to R92 and R212, R214, the load
of the shared paths (R296, R403), and what a change of the hardware does to loaded contexts (R93). -/

namespace Sys2Proof.Machine

/-- A refusal: status, detail, parameter. -/
structure Refuse where
  status : W16
  detail : W16
  param : W32
  deriving DecidableEq, Repr

/-- BAD_PARAM naming a byte of the image (R436). -/
def badAt (o : Nat) : Refuse := { status := stBadParam, detail := sat16 (32 + o), param := 0 }
/-- A check code with a course and a position (R87, R89). -/
def checkAt (st : W16) (n c p : Nat) : Refuse :=
  { status := st, detail := BitVec.ofNat 16 (n * 256 + c), param := BitVec.ofNat 32 p }

/-! ## R87 -/

/-- The digest of the loaded route image (R349). -/
def Dev.routeDigest (d : Dev) : List Byte := (List.range 4).flatMap (fun n => leBytes 8 (rget d.regs (EF_ROUTE_DIGEST n)).toNat)

/-- The hedge comparison (check 0x12). A tab of a hedge of one device may run on any device (R381): it needs RANK 0, and the digest
of the route image where the device has joined a hedge of one with an image loaded (log 73). -/
def Dev.hedgeFits (d : Dev) (h : TabHdr) : Bool :=
  if h.size = 1 then
    h.rank == 0 && (!d.hedge.joined || d.hedge.size != 1 || d.hedge.route.isEmpty || h.digest == d.routeDigest)
  else d.hedge.joined && h.size == d.hedge.size && h.rank == d.hedge.rank && h.digest == d.routeDigest

def Dev.period (d : Dev) : Nat := d.fld FT_FRET_PERIOD 31 0
def Dev.guardLen (d : Dev) : Nat := d.fld FT_GUARD 31 0
def Dev.settleLen (d : Dev) : Nat := d.fld FT_DRONE_SETTLE 31 0
def Dev.deadline (d : Dev) : Nat := d.period - d.guardLen

/-- Checks 0x10 to 0x14. -/
def Dev.comparisons (d : Dev) (x : Ctx) (h : TabHdr) : Option Refuse :=
  let courses := (maskCourses h.mask).filter (fun c => d.fenced (c / 12) || !x.mask.getLsbD c)
  if h.period ≠ d.period ∨ h.guard ≠ d.guardLen ∨ h.settle ≠ d.settleLen then some (checkAt stPlanMismatch 0x10 0 0)
  else if h.arith ≠ d.fld IDENT_BUILD 31 16 then some (checkAt stPlanMismatch 0x11 0 0)
  else if !d.hedgeFits h then some (checkAt stPlanMismatch 0x12 0 0)
  else match courses with
    | c :: _ => some (checkAt stPlanMismatch 0x13 c 0)
    | [] => if h.partition ≠ x.partition then some (checkAt stPlanMismatch 0x14 0 0) else none

/-! ## The tab as validation reads it -/

/-- The lines of one position of a course. -/
structure VPos where
  c : Nat
  p : Nat
  src : List ImgLine
  lines : List VLine

/-- The streams of an image, by course. -/
def streams (img : Img) (h : TabHdr) : List Stream := (maskCourses h.mask).filterMap (streamOf img h)

def imgBlocks (img : Img) (h : TabHdr) (k : Nat) : Option Nat :=
  if k < h.windows then some (numAt (img (1024 + 16 * k) 16) 8 4) else none

/-- Every position of every course, courses and positions rising. -/
def vPositions (m : Memory) (d : Dev) (partition : Nat) (img : Img) (h : TabHdr) : List VPos :=
  (streams img h).flatMap (fun s => s.positions.zipIdx.map (fun e =>
    { c := s.c, p := e.2, src := e.1, lines := e.1.map (vLine m d (imgBlocks img h) partition s.c) }))

/-- An address in the stores of a fenced tower. -/
def Dev.inFenced (d : Dev) (a : Nat) : Bool := decide (tierOf a ≤ 2) && d.fenced (towerOf a)

/-- Check 0x15: the lowest course concerned and its first line. -/
def Dev.fencedRegions (d : Dev) (vs : List VPos) : Option Refuse :=
  (vs.find? (fun v => v.lines.any (fun l => l.regions.any d.inFenced))).map (fun v => checkAt stPlanMismatch 0x15 v.c v.p)

/-! ## Step 6 -/

/-- The lines of a position in stream order: each line's own fields, its descriptor, and what it breaks of the rules over the
position. -/
def linesBad (far windows : Nat) (all : List VLine) : Nat → Nat → List ImgLine → List VLine → Option Nat
  | i, prev, x :: xs, v :: vs =>
    match firstSome id [lineBad far windows i prev x, when_ v.bad (x.at_ + 16), orderBad all i v] with
    | some o => some o
    | none => linesBad far windows all (i + 1) x.ln.offset xs vs
  | _, _, _, _ => none

/-- A stream, position by position, each with its POSITION_END; then what stands against POSITIONS (R78, R88). -/
def streamBad (far : Nat) (h : TabHdr) (vs : List VPos) (s : Stream) : Option Nat :=
  orElse_ (firstSome (fun p =>
      orElse_ (firstSome (fun v => linesBad far h.windows v.lines 0 0 v.src v.lines)
        (vs.filter (fun v => decide (v.c = s.c) && decide (v.p = p))))
        (match s.ends[p]? with
         | some e => endBad e
         | none => none)) (List.range (min h.positions s.ends.length)))
    (s.bad h.positions)

/-- Every refusal with BAD_PARAM, in the order of R564. -/
def step6 (far : Nat) (img : Img) (h : TabHdr) (vs : List VPos) : Option Nat :=
  firstSome id
    [hdrBad img h, tableBad img h, windowsBad img h,
     firstSome (streamBad far h vs) (streams img h)]

/-! ## The fit (R89) -/

/-- The unit of a course that a UNIT code occupies: the AB lines share one, and so do routines and SET_PRED (R82, R141). -/
def unitKey (u : Nat) : Nat := if u = 10 ∨ u = 11 then 3 else if u = 9 then 8 else u

/-- What the procedure keeps while it walks a position. -/
structure Fit where
  busy : Tab Nat
  done : List Nat
  ran : List Bool
  fail : Option Nat

/-- One line under one assignment: `due` gives the DUE of a window of this position, `late` whether the line must launch after S. -/
def fitLine (deadline settle : Nat) (due : Nat → Nat) (a : Nat) (ls : List VLine) (f : Fit) (v : VLine × Bool) : Fit :=
  match f.fail with
  | some _ => f
  | none =>
    let ln := v.1.ln
    if !launches ln a then { f with done := f.done ++ [ln.offset], ran := f.ran ++ [false] }
    else
      let u := unitKey ln.unit
      let ready := max ln.offset (if ln.dep = 0xFF then 0 else f.done.getD ln.dep 0)
      let ready := max ready (due ln.window)
      let tails := (List.range f.done.length).foldl (fun m k => match ls[k]? with
        | some w => (match w.tail with
          | some t => if f.ran.getD k false then max m (f.done.getD k 0 + t) else m
          | none => m)
        | none => m) 0
      let ready := if ln.unit = 10 ∨ ln.unit = 11 then max ready tails else ready
      let e := ready + v.1.cost
      let fail :=
        if ln.offset < 256 ∨ deadline ≤ ln.offset then some 1
        else if v.2 && decide (ln.offset < settle) then some 2
        else if ln.offset < tget 256 f.busy u then some 3
        else if deadline < e then some 4
        else none
      { busy := tput f.busy u e, done := f.done ++ [e], ran := f.ran ++ [true], fail := fail }

def fitRun (deadline settle : Nat) (due : Nat → Nat) (ls : List VLine) (late : List Bool) (a : Nat) : Fit :=
  (ls.zip late).foldl (fitLine deadline settle due a ls) { busy := [], done := [], ran := [], fail := none }

/-- A position after its fit: the first failing check, and the greatest completion of each line that launches. -/
structure Fitted where
  v : VPos
  fail : Option Nat
  tail : Bool
  dmax : List (Option Nat)

/-- The slots whose NORM collective lies in the position before p (R320). -/
def normsBefore (h : TabHdr) (vs : List VPos) (p : Nat) : List Nat :=
  let prev := (if 0 < p then [p - 1] else []) ++ (if p = h.loopStart ∧ h.loopCount ≠ 1 then [h.positions - 1] else [])
  (vs.filter (fun v => prev.contains v.p)).flatMap (fun v => v.lines.filterMap (·.norm))

def windowDue (img : Img) (h : TabHdr) (p k : Nat) : Nat :=
  if k = 0xFFFF ∨ h.windows ≤ k then 0
  else let b := img (1024 + 16 * k) 16; if numAt b 0 4 = p then numAt b 4 4 else 0

def fitPos (d : Dev) (img : Img) (h : TabHdr) (vs : List VPos) (v : VPos) : Fitted :=
  let norms := normsBefore h vs v.p
  let late := v.lines.map (fun l => l.latched || (match l.pass with | some n => norms.contains n | none => false))
  let runs := (List.range 16).map (fitRun d.deadline d.settleLen (windowDue img h v.p) v.lines late)
  let fail := firstSome (·.fail) runs
  let dmax := (List.range v.lines.length).map (fun i =>
    runs.foldl (fun (m : Option Nat) f =>
      if f.ran.getD i false then some (max (m.getD 0) (f.done.getD i 0)) else m) none)
  let tail := (v.lines.zip dmax).any (fun e => match e.1.tail, e.2 with
    | some t, some x => decide (d.deadline < x + t)
    | _, _ => false)
  { v := v, fail := fail, tail := tail, dmax := dmax }

/-- The lines of a position that launch, of every course: course, place in the stream, line, greatest completion. -/
def activeLines (fs : List Fitted) (p : Nat) : List (Nat × Nat × VLine × Nat) :=
  (fs.filter (fun f => decide (f.v.p = p))).flatMap (fun f =>
    (f.v.lines.zip f.dmax).zipIdx.filterMap (fun e => e.1.2.map (fun x => (f.v.c, e.2, e.1.1, x))))

/-! ## Check 5 (R91) -/

/-- Lines of one shared unit in the order of their offsets: the courses of those that launch too early. R91 does not say which of
two clashing lines the detail names: that it is the later one, of two at one offset that of the higher course, is DESIGN CHOICE
(log 98). -/
def sharedClash : List (Nat × Nat × Nat) → List Nat
  | a :: b :: rest => if b.1 = a.1 ∨ b.1 < a.2.1 then b.2.2 :: sharedClash (b :: rest) else sharedClash (b :: rest)
  | _ => []

/-- The courses whose lines of a position fail check 5. -/
def check5 (ls : List (Nat × Nat × VLine × Nat)) : List Nat :=
  ((ls.flatMap (fun e => e.2.2.1.shared)).eraseDups).flatMap (fun k =>
    sharedClash (((ls.filter (fun e => e.2.2.1.shared.contains k)).map (fun e => (e.2.2.1.ln.offset, e.2.2.2, e.1))).mergeSort
      (fun a b => decide (a.1 ≤ b.1))))

/-! ## Check 13 (R296) and the load summary (R403) -/

/-- The load on a path in a cycle. -/
def loadAt (ls : List (Nat × Nat × VLine × Nat)) (x k : Nat) : Nat :=
  natSum (ls.map (fun e => if e.2.2.1.ln.offset ≤ x ∧ x < e.2.2.2 then
    natSum ((e.2.2.1.load.filter (fun q => decide (q.1 = k))).map (·.2)) else 0))

/-- The cycles at which a load can rise: where a line starts. -/
def startsOf (ls : List (Nat × Nat × VLine × Nat)) (deadline : Nat) : List Nat :=
  (((ls.map (fun e => max 256 e.2.2.1.ln.offset)).filter (fun x => decide (x < deadline))).eraseDups).mergeSort (fun a b => decide (a ≤ b))

/-- Of the lines counted on a path in a cycle, the course of the first that exceeds: latest OFFSET, lowest course, earliest. -/
def exceeding (ls : List (Nat × Nat × VLine × Nat)) (x k : Nat) : Nat :=
  let mine := ls.filter (fun e => decide (e.2.2.1.ln.offset ≤ x) && decide (x < e.2.2.2) && e.2.2.1.load.any (fun q => q.1 == k && q.2 != 0))
  let best := mine.foldl (fun (b : Option (Nat × Nat)) e =>
    let o := e.2.2.1.ln.offset
    match b with
    | none => some (o, e.1)
    | some (o', c') => if o' < o ∨ (o = o' ∧ e.1 < c') then some (o, e.1) else some (o', c')) none
  (best.map (·.2)).getD 0

def check13 (d : Dev) (ls : List (Nat × Nat × VLine × Nat)) : Option Nat :=
  firstSome (fun x =>
    ((List.range pathCount).find? (fun k => decide (d.capacity k < loadAt ls x k))).map (exceeding ls x)) (startsOf ls d.deadline)

/-- The greatest load on a path in segment j of the work window (R403). -/
def segmentLoad (d : Dev) (ls : List (Nat × Nat × VLine × Nat)) (k j : Nat) : Nat :=
  let lo := 256 + 1024 * j
  let hi := min (lo + 1024) d.deadline
  (lo :: (startsOf ls d.deadline).filter (fun x => decide (lo < x) && decide (x < hi))).foldl (fun m x => max m (loadAt ls x k)) 0

/-! ## The whole of it -/

/-- Step 8: the checks that refuse with PLAN_OVERRUN, each over courses, then positions, in rising order. A window belongs to no
course: that check 6 names course 0 in its detail is DESIGN CHOICE (log 98). -/
def step8 (d : Dev) (img : Img) (h : TabHdr) (vs : List VPos) : Option Refuse :=
  let fs := vs.map (fitPos d img h vs)
  let ovr (n c p : Nat) : Refuse := checkAt stPlanOverrun n c p
  let ps := List.range h.positions
  let clash := ps.flatMap (fun p => (check5 (activeLines fs p)).map (fun c => (c, p)))
  let line (n : Nat) : Option Refuse :=
    (vs.find? (fun v => v.lines.any (fun l => l.ovr == some n))).map (fun v => ovr n v.c v.p)
  let window := (List.range h.windows).find? (fun k => decide (d.deadline ≤ numAt (img (1024 + 16 * k) 16) 4 4))
  firstSome id
    [firstSome (fun f => f.fail.map (fun n => ovr n f.v.c f.v.p)) fs,
     firstSome (fun c => (clash.find? (fun e => e.1 == c)).map (fun e => ovr 5 c e.2)) (List.range 96),
     window.map (fun k => ovr 6 0 (numAt (img (1024 + 16 * k) 16) 0 4)),
     line 7, line 8,
     firstSome (fun f => if f.tail || f.v.lines.any (fun l => l.ovr == some 9) then some (ovr 9 f.v.c f.v.p) else none) fs,
     line 10, line 11, line 12,
     firstSome (fun p => (check13 d (activeLines fs p)).map (fun c => ovr 13 c p)) ps,
     line 14, line 15]

/-- Steps 5 to 8 of R564. -/
def World.validate (w : World) (x : Ctx) (img : Img) : Option Refuse :=
  let h := tabHdr (img 0 256)
  let vs := vPositions w.mem w.d x.partition img h
  let far := farBytes w.d
  match w.d.comparisons x h with
  | some r => some r
  | none =>
    match w.d.fencedRegions vs with
    | some r => some r
    | none =>
      match step6 far img h vs with
      | some o => some (badAt o)
      | none =>
        match vs.find? (fun v => v.lines.any (·.mismatch)) with
        | some v => some (checkAt stPlanMismatch 0x16 v.c v.p)
        | none => step8 w.d img h vs

/-- The loaded image of a context. -/
def World.loadedImg (w : World) (x : Ctx) : Img := ctxImg w.mem x (firstCourse x.tabMask.toNat)

def World.validateLoaded (w : World) (x : Ctx) : Option Refuse := w.validate x (w.loadedImg x)

/-- A change of the hardware: every loaded context is validated again (R86, R93). -/
def World.revalidate (w : World) (cause : W16) : World :=
  w.d.ctxs.foldl (fun w e =>
    let i := e.1
    let x := w.d.ctx i
    if !x.tabValid || x.st == .free || x.kind == 2 then w
    else match w.validateLoaded x with
      | none => w.onDev (fun d => d.onCtx i (fun x => { x with hwStatus := 0 }))
      | some r =>
        if x.active then
          let w := w.onDev (fun d => d.stopCtx i .parked cause r.detail r.param)
          w.log { entry 0x1D 0xFF 0x16 with
            status := cause, detail := r.detail, ctx := i, pos := x.pos % 2 ^ 32, param := r.param.toNat, event := 0x802 }
        else
          let old := x.hwStatus
          w.onDev (fun d => d.onCtx i (fun x => { x with
            hwStatus := if old = stStackDegraded then old else cause }))) w

/-! ## Combinations of contexts (R381, R403) -/

/-- The lines that a context launches in its current position, as check 13 counts them. -/
def World.currentLines (w : World) (i : Nat) : List (Nat × Nat × VLine × Nat) :=
  let x := w.d.ctx i
  let img := w.loadedImg x
  let h := tabHdr (img 0 256)
  let vs := (streams img h).map (fun s =>
    let ls := s.at x.pos
    ({ c := s.c, p := x.pos, src := ls, lines := ls.map (vLine w.mem w.d (imgBlocks img h) x.partition s.c) } : VPos))
  activeLines (vs.map (fitPos w.d img h vs)) x.pos

/-- Whether the contexts of a list may run in one fret: their load summaries stay within every path's capacity, and no shared
unit is taken twice (R381, R403). -/
def World.admits (w : World) (is : List Nat) : Bool :=
  let all := is.map w.currentLines
  let segs := ceilDiv (w.d.deadline - 256) 1024
  (List.range pathCount).all (fun k => (List.range segs).all (fun j =>
    decide (natSum (all.map (fun ls => segmentLoad w.d ls k j)) ≤ w.d.capacity k))) &&
  (check5 all.flatten).isEmpty

/-- Whether a context may fill the empty courses of a hedge context (R381): a tab for one device compiled for the P, G and S in force, no
windows, no line on the peer fabric. -/
def World.fillerTab (w : World) (i : Nat) : Bool :=
  let x := w.d.ctx i
  let img := w.loadedImg x
  let h := tabHdr (img 0 256)
  h.size == 1 && h.windows == 0 && h.period == w.d.period && h.guard == w.d.guardLen && h.settle == w.d.settleLen &&
  (streams img h).all (fun s => s.positions.all (fun ls => ls.all (fun l => l.ln.unit != 5 && l.ln.unit != 6)))

end Sys2Proof.Machine
end

