-- ==== Sys2Proof/Machine/Stack.lean ====
section
/-! DEFINITION. Stack integrity (R476 to R501): bundle flits and their replay, tests and verdicts, spares and narrowing, wear,
fencing and restoring a tower, and the re-read ladder's step 2 (R287, R567). -/

namespace Sys2Proof.Machine

/-- Data lanes and spares of a CLASS (R476). -/
def dataLanes (cls : Nat) : Nat := if cls = 1 then 256 else 128
def spareLanes (cls : Nat) : Nat := if cls = 1 then 8 else 4

/-- The STACK event (R500) and its log entry. -/
def World.stackEvent (w : World) (t cls idx state free kind layer : Nat) (status : W16) (logCls : Nat) : World :=
  let w := w.event 0x810 status (BitVec.ofNat 16 t) 0xFFFF
    [mkBlk ([BitVec.ofNat 8 t, BitVec.ofNat 8 cls] ++ leBytes 2 idx ++
      [BitVec.ofNat 8 state, BitVec.ofNat 8 free, BitVec.ofNat 8 kind, BitVec.ofNat 8 layer] ++ leBytes 8 w.d.fretNum)]
  if logCls = 0 then w
  else w.log { entry logCls t 0x10 with status := status, index := if cls = 0 then 0xFFFF else idx, event := 0x810,
                                        detail := BitVec.ofNat 16 t }

/-- Spares of a bundle that cover no lane and have not failed, in rising order. -/
def freeSpares (cls : Nat) (b : Bundle) : List Nat :=
  (List.range (spareLanes cls)).map (· + dataLanes cls) |>.filter
    (fun l => !b.failed.contains l && !b.spares.any (fun e => e.2 == l))

/-- Whether a data lane lies in the half a narrowed bundle keeps; every lane of a full bundle does. -/
def laneKept (cls state l : Nat) : Bool :=
  let n := dataLanes cls
  if l ≥ n then true
  else if state = 2 then decide (l < n / 2)
  else if state = 3 then decide (n / 2 ≤ l)
  else true

/-- Narrow a bundle (R490): keep the half with fewer failed data lanes, the low one on a tie; release the other half's spares and
cover the kept half's failed lanes with them. State 4 when they do not suffice (R491). -/
def narrow (cls : Nat) (b : Bundle) : Bundle :=
  let n := dataLanes cls
  let lowBad := (b.failed.filter (fun l => decide (l < n / 2))).length
  let highBad := (b.failed.filter (fun l => decide (n / 2 ≤ l) && decide (l < n))).length
  let st := if lowBad ≤ highBad then 2 else 3
  let b := { b with spares := b.spares.filter (fun e => laneKept cls st e.1) }
  let need := sortBy id (b.failed.filter (fun l => decide (l < n) && laneKept cls st l && (tfind b.spares l).isNone))
  need.foldl (fun b l =>
    match freeSpares cls b with
    | sp :: _ => { b with spares := tput b.spares l sp }
    | [] => { b with next := 4 }) { b with next := st }

/-- One lane found failing (R488 to R491): the bundle with its new assignment and the state it will enter; the number is the
verdict, 1 spared, 2 narrowed, 3 failed, none when the lane is not in use. -/
def laneFails (cls : Nat) (s : Bundle × Option Nat) (lane : Nat) : Bundle × Option Nat :=
  let (b, v) := s
  let n := dataLanes cls
  let isSpare := decide (n ≤ lane) && decide (lane < n + spareLanes cls)
  let covers := (b.spares.find? (fun e => e.2 == lane)).map (·.1)
  let known := b.failed.contains lane
  let b := if known then b else { b with failed := b.failed ++ [lane] }
  let hurt : Option Nat :=
    if isSpare then covers
    else if !laneKept cls b.next lane then none
    else if known && (tfind b.spares lane).isSome then none
    else some lane
  match hurt with
  | none => (b, v)
  | some l =>
    let b := { b with spares := tdel b.spares l }
    match freeSpares cls b with
    | sp :: _ => ({ b with spares := tput b.spares l sp, next := if b.next = 0 then 1 else b.next }, some (max 1 (v.getD 0)))
    | [] =>
      if l < n ∧ b.next < 2 then
        let b := narrow cls b
        (b, some (max (if b.next = 4 then 3 else 2) (v.getD 0)))
      else ({ b with next := 4 }, some 3)

/-- Recompute the activity bits of STK_STATUS: TEST_ACTIVE, REPAIR_ACTIVE, DEGRADED. -/
def Dev.stkStatus (d : Dev) (t : Nat) : Dev :=
  let mine := d.bundles.filter (fun e => decide (keyTower e.1 = t))
  let b2n (b : Bool) := if b then 1 else 0
  let d := d.setFld (STK t) 0 0 (b2n (mine.any (fun e => e.2.remapping)))
  let d := d.setFld (STK t) 1 1 (b2n (mine.any (fun e => e.2.underTest != 0)))
  d.setFld (STK t) 3 3 (b2n (mine.any (fun e => decide (2 ≤ e.2.state) && decide (e.2.state ≤ 4))))

/-- Enter a bundle for a targeted test (R482, R486); it waits once, and a failure while it is under test joins the same entry
(R501). -/
def Dev.enterTest (d : Dev) (k : Nat) : Dev :=
  d.onTower (keyTower k) (fun t =>
    if t.queue.contains k || (d.bundle k).underTest != 0 then t else { t with queue := t.queue ++ [k] })

/-- Stop the running services with a course in a tower (R416, R507). -/
def World.stopServices (w : World) (t : Nat) : World :=
  let hit := w.d.ctxs.filter (fun e => e.2.kind == 2 && (w.d.svc e.1).active &&
    (maskCourses e.2.mask.toNat).any (fun c => c / 12 == t))
  hit.foldl (fun w e =>
    let w := w.endService e.1 stStackDegraded
    let w := w.onDev (fun d => (d.dropResident e.1).onCtx e.1 (fun _ => .init))
    w.event 0x80E stStackDegraded (BitVec.ofNat 16 e.1) e.1 []) w

/-- Raise CORE_RESET for a tower and wait for its lines (R508). `why`: 0 RESET, 1 escalation, 2 fence. -/
def World.askCoreReset (w : World) (t why : Nat) (held : Bool) : World :=
  if (w.d.tower t).step != .none then
    w.onDev (fun d => d.onTower t (fun x => { x with held := x.held || held, why := if held then why else x.why }))
  else
    (w.onDev (fun d => d.onTower t (fun x => { x with step := .waiting, why := why, waited := 0, held := held })
      |>.setBit FT_HOLD_CAUSE 4)).setFld (RST t + 8) 1 1 1

/-- Fence a tower (R498), by command or by the device itself. A fenced tower is left as it is. -/
def World.fenceTower (w : World) (t : Nat) : World :=
  if w.d.fenced t then w
  else
    let w := w.setFld IDENT_DEVICE (8 + t) (8 + t) 1
    let w := w.setBit (STK t) 4
    let w := w.stopServices t
    let w := w.revalidate stStackDegraded
    let w := w.stackEvent t 0 0 5 0 6 0 stStackDegraded 0x33
    w.askCoreReset t 2 true

/-- The bundles of bridge link i in one direction that still work (R491). -/
def Dev.bridgeWorking (d : Dev) (i : Nat) (up : Bool) : Nat :=
  ((List.range 8).filter (fun k => (d.bundle (bundleKey i 4 (if up then k else 8 + k))).state != 4)).length

/-- The towers fenced when a direction of bridge link i is lost (R491). -/
def Dev.lostSide (d : Dev) (i : Nat) : List Nat :=
  let low := List.range (i + 1)
  let high := (List.range (7 - i)).map (· + i + 1)
  if low.length < high.length then low
  else if high.length < low.length then high
  else if d.custodyTower ≤ i then high else low

/-- What a verdict of class 3 (FAILED) leads to (R491). -/
def World.bundleLost (w : World) (k : Nat) : World :=
  let t := keyTower k
  if keyCls k < 4 then w.fenceTower t
  else if w.d.bridgeWorking t (keyIndex k < 8) < 4 then (w.d.lostSide t).foldl World.fenceTower w
  else w

/-- The key and timing points of every bundle a field pass of tower t tests (R494). -/
def fieldPass (t : Nat) : List Nat :=
  (List.range 5).flatMap (fun cls => (List.range (bundleCount t cls)).flatMap (fun i =>
    (List.range 3).map (fun p => 4 * bundleKey t cls i + p)))

/-- The lane a fault report names: the last one found failing. -/
def lastLane (failed : List Nat) : Nat := failed.getLastD 0x1FF

/-- Write STK_FAULT_INFO and set a bit of STK_FAULT. -/
def World.stkFault (w : World) (k bit verdict lane : Nat) : World :=
  let t := keyTower k
  let w := w.setBit (STK t + 0x50) bit
  w.setReg (STK t + 0x58)
    (BitVec.ofNat 64 ((lane <<< 32) + (verdict <<< 24) + (keyCls k <<< 16) + keyIndex k))

/-- Take a bundle off the ladders that wait for its test. -/
def Dev.segTested (d : Dev) (k : Nat) (bad : Bool) : Dev :=
  { d with ladders := d.ladders.map (fun l =>
      if l.segs.contains k then { l with segs := l.segs.erase k, pathFailed := l.pathFailed || bad } else l) }

/-- A tower's tests have all ended: a field pass that ended is recorded, the job that waits for them concluded (R494, R497). -/
def Dev.testsEnded (d : Dev) (t : Nat) : Dev :=
  let x := d.tower t
  if x.queue.isEmpty && x.field.isEmpty && x.bist && !d.bundles.any (fun e => decide (keyTower e.1 = t) && e.2.underTest != 0) then
    d.onTower t (fun x => { x with bist := false })
  else d

/-- Conclude the BIST_RUN jobs whose towers have no test left (R497). -/
def Dev.bistJobs (d : Dev) : Dev :=
  let done (mask : Nat) := (List.range 8).all (fun t => !bitOf mask t || !(d.tower t).bist)
  let sum (mask : Nat) (f : Tower → Nat) := ((List.range 8).filter (bitOf mask)).foldl (fun n t => n + f (d.tower t)) 0
  { d with hl := { d.hl with jobs := d.hl.jobs.map (fun j =>
      let m := j.h.p0.toNat
      if j.opcode = 0x601 ∧ j.result = none ∧ done m then
        let det := BitVec.ofNat 16 ((min (sum m (·.lasting)) 255 <<< 8) + min (sum m (·.narrowings)) 255)
        { j with result := some (if sum m (·.narrowings) = 0 then stOk else stStackDegraded, det) }
      else j) } }

/-- The stores of a tower whose contents become undefined (R499, R504). -/
def World.wipeTower (w : World) (t : Nat) : World :=
  let w := (List.range 12).foldl (fun w k => w.put (.wipe (courseAddr (12 * t + k) 0) (2 ^ 23))) w
  (w.put (.wipe (nearAddr t 0) (2 ^ 31))).put (.wipe (deepAddr t 0) (2 ^ 35))

/-- The field pass of a restored tower has ended (R499): it is unfenced if it is healthy, and stays fenced otherwise. -/
def World.restoreEnds (w : World) (t : Nat) : World :=
  let x := w.d.tower t
  if x.restore && !x.bist && x.step == .none then
    let sites := (List.range 4).all (fun l => w.d.fld (STK t + 0x48) (4 * l + 3) (4 * l) != 0)
    let ok := sites && !w.d.bundles.any (fun e =>
      decide (keyTower e.1 = t) && decide (keyCls e.1 < 4) && e.2.state == 4)
    let w := w.onDev (fun d => d.onTower t (fun x => { x with restore := false }))
    if ok then
      let w := (w.setFld IDENT_DEVICE (8 + t) (8 + t) 0).setFld (STK t) 4 4 0
      let w := w.wipeTower t
      let w := w.stackEvent t 0 0 0 0 7 0 stOk 0
      w.onDev (fun d => d.opEnded 0x603 (fun h => h.p0.toNat == t) stOk 0)
    else
      let w := w.askCoreReset t 2 true
      w.onDev (fun d => d.opEnded 0x603 (fun h => h.p0.toNat == t) stStackDegraded 0)
  else w

/-- The end of a bundle's test (R486 to R491). -/
def doBundleTestDone (b : BundleId) (failed : List Nat) (w : World) : World :=
  let k := (bundleIdKey b)
  let t := b.tower.val
  let cls := b.cls.val
  let x := w.d.bundle k
  let test := x.underTest
  if test = 0 then w
  else
    let x := { x with underTest := 0, next := x.state }
    let w := w.onDev (fun d => d.segTested k (!failed.isEmpty))
    let r := failed.foldl (laneFails cls) (x, none)
    let w :=
      if 3 ≤ test ∧ r.2.isSome then
        -- early and late points: marginal (R488)
        let free := (freeSpares cls x).length
        let w := w.count (STK t + 0x20) 63 32 1
        let w := w.stkFault k 1 4 (lastLane failed)
        if 3 ≤ free then
          w.onDev (fun d => (d.onBundle k (fun _ => { r.1 with lasting := x.lasting + 1, remapping := true })).setBit FT_HOLD_CAUSE 2)
        else w.onDev (fun d => d.onBundle k (fun _ => { x with lasting := x.lasting + 1 }))
      else match r.2 with
        | none =>
          let w := w.count (STK t + 0x20) 31 0 1
          let w := w.stkFault k 0 0 (lastLane failed)
          let n := x.transients + 1
          let w := w.onDev (fun d => d.onBundle k (fun _ => { r.1 with transients := n }))
          let limit := max 1 (w.d.fld (STK t + 0x28) 25 16)
          if n = limit + 1 then
            let w := w.onDev (fun d => d.onTower t (fun y => { y with
              field := y.field ++ (List.range 3).map (fun p => 4 * k + p) }))
            w.stackEvent t cls b.index.val x.state (freeSpares cls x).length 0 0 stOk 0x30
          else w
        | some v =>
          let w := w.count (STK t + 0x20) 63 32 1
          let w := w.stkFault k 1 v (lastLane failed)
          let w := if v = 2 then w.setBit (STK t + 0x50) 2 else if v = 3 then w.setBit (STK t + 0x50) 3 else w
          let w := w.onDev (fun d => d.onTower t (fun y => { y with
            lasting := y.lasting + 1, narrowings := y.narrowings + (if v = 2 ∨ v = 3 then 1 else 0) }))
          let y := { r.1 with lasting := x.lasting + 1, remapping := decide (v ≠ 3) }
          let y := if v = 3 then { y with state := 4, remapping := false } else y
          let w := w.onDev (fun d => d.onBundle k (fun _ => y))
          let w := if y.remapping then w.setBit FT_HOLD_CAUSE 2 else w
          if v = 1 then w.stackEvent t cls b.index.val 1 (freeSpares cls y).length 1 0 stOk 0x31
          else if v = 3 then
            let w := w.stackEvent t cls b.index.val 4 0 3 0 stStackDegraded 0x33
            w.bundleLost k
          else w
    let w := w.onDev (fun d => d.stkStatus t)
    let w := if test ≥ 2 ∧ (w.d.tower t).field.isEmpty then w.setReg (STK t + 0x30) (BitVec.ofNat 64 w.d.fretNum) else w
    (w.onDev (fun d => (d.testsEnded t).bistJobs)).restoreEnds t

/-- A remap, narrowing or retraining of a bundle completes (R489, R490). -/
def doBundleRemapDone (b : BundleId) (w : World) : World :=
  let k := (bundleIdKey b)
  let t := b.tower.val
  let x := w.d.bundle k
  if !x.remapping then w
  else
    let narrowed := decide (x.state < 2) && (x.next == 2 || x.next == 3)
    let w := w.onDev (fun d => (d.onBundle k (fun y => { y with remapping := false, state := y.next })).stkStatus t)
    if narrowed then
      let w := w.stackEvent t b.cls.val b.index.val x.next (freeSpares b.cls.val x).length 2 0 stStackDegraded 0x32
      w.revalidate stStackDegraded
    else w

/-- Choose the bundles a tower tests in a guard band: at most one of each CLASS, targeted tests first (R487). -/
def pickTests (s : Dev × List Nat) (e : Nat × Bool) : Dev × List Nat :=
  let (d, used) := s
  let k := if e.2 then e.1 else e.1 / 4
  let cls := keyCls k
  if used.contains cls || (d.bundle k).underTest != 0 || (d.bundle k).remapping then (d, used)
  else
    let t := keyTower k
    let d := d.onBundle k (fun b => { b with underTest := if e.2 then 1 else 2 + e.1 % 4 })
    let d := d.onTower t (fun y => if e.2 then { y with queue := y.queue.erase e.1 } else { y with field := y.field.erase e.1 })
    (d, cls :: used)

/-- The bundle tests of a guard band (R486, R487, R494). -/
def Dev.startTests (d : Dev) : Dev :=
  (List.range 8).foldl (fun d t =>
    let x := d.tower t
    if x.step != .none then d
    else
      let busy := ((List.range 5).filter (fun cls => d.bundles.any (fun e =>
        decide (keyTower e.1 = t) && decide (keyCls e.1 = cls) && e.2.underTest != 0)))
      let d := (x.queue.foldl (fun s k => pickTests s (k, true)) (d, busy))
      let d := (x.field.foldl (fun s k => pickTests s (k, false)) d).1
      d.stkStatus t) d

/-- A word that SEC-DED cannot correct: its block is delivered with its check XORed with all ones, and stays so until it is
written (R274). -/
def World.deepUncorrected (w : World) (t a : Nat) : World :=
  let a := blockOf a
  if tierOf a = 2 ∧ towerOf a = t ∧ addrOk 0 a then
    let w := w.count (MEMR t + 0x40) 63 32 1
    let w := w.setBit (MEMR t + 0x58) 4
    let w := w.log { entry 0x08 t 0xFF with addr := a }
    if w.synOf a = 0 ∨ w.poisoned a then w.put (.syn a (w.synOf a ^^^ 0xFFFFFFFF)) else w
  else w

/-- Step 2 of the ladder begins in a guard band (R287, R288, R567): the store check, or the MEDIUM read of a far block, and the
segments entered for test. A block in flight between devices has no store cells here (its number lies above every address). `damaged` are the blocks whose stored copy the store check finds damaged; in the deep store that is an
uncorrectable word (R274, R567). -/
def World.storeChecks (w : World) (damaged : List Nat) : World :=
  let go (w : World) (l : Ladder) : World :=
    if (l.step = 2 ∧ l.store = none) ∨ (l.after ∧ l.step = 1) then
      if tierOf l.block = 3 then
        let off := bitsOf l.block 41 0
        if w.d.hl.far.any (fun r => r.medium && r.off == off) then w
        else w.onDev (fun d =>
          let d := l.segs.foldl (fun d k => d.enterTest k) d
          let d := d.farAsk (l.course / 48) whoLadder 0xFFFF 1 false true [(off, none)]
          { d with ladders := d.ladders.map (fun (m : Ladder) => if m.block = l.block then { m with step := 2 } else m) })
      else if 2 ^ 64 ≤ l.block then
        w.onDev (fun d =>
          let d := l.segs.foldl (fun d k => d.enterTest k) d
          { d with ladders := d.ladders.map (fun (m : Ladder) => if m.block = l.block then { m with step := 2, store := some true } else m) })
      else
        let w := if tierOf l.block = 2 ∧ damaged.contains l.block ∧ w.synOf l.block = 0 then
            w.deepUncorrected (towerOf l.block) l.block
          else w
        w.onDev (fun d =>
          let d := l.segs.foldl (fun d k => d.enterTest k) d
          { d with ladders := d.ladders.map (fun (m : Ladder) => if m.block = l.block then
              { m with step := 2, store := some (w.synOf m.block == 0 && !damaged.contains m.block) } else m) })
    else w
  w.d.ladders.foldl go w

/-- The tower whose registers record a ladder: the consumer's, or the holder's for the host link. -/
def Ladder.tower (l : Ladder) : Nat := if l.unit = 0xF then holderTower l.block l.course else l.course / 12

/-- Recompute LADDER_BUSY of every tower: a block of its dies is at step 2 or 3. -/
def Dev.ladderBusy (d : Dev) : Dev :=
  (List.range 8).foldl (fun d t =>
    d.setFld (MEMR t) 0 0 (if d.ladders.any (fun l => !l.after && decide (2 ≤ l.step) &&
      decide (l.block < 2 ^ 64) && decide (tierOf l.block ≠ 3) && decide (towerOf l.block = t)) then 1 else 0)) d

/-- MEM_FAULT_ADDR and MEM_FAULT_INFO of a tower (R290, R299). -/
def World.memFault (w : World) (t addr verdict unit course set ctx pos : Nat) : World :=
  let w := w.setReg (MEMR t + 0x60) (BitVec.ofNat 64 addr)
  w.setReg (MEMR t + 0x68) (BitVec.ofNat 64
    (((pos % 2 ^ 32) <<< 32) + (unit <<< 28) + (verdict <<< 26) + (course <<< 16) + (set <<< 14) + ctx % 2 ^ 14))

/-- A ladder that reached step 2 ends with a verdict: recorded, logged and sent (R290). -/
def World.verdict (w : World) (l : Ladder) (v : Nat) : World :=
  let t := l.tower
  let w := w.memFault t l.block v l.unit l.course l.set l.ctx l.pos
  let st := if v = 2 then stPoisoned else stBlockCrc
  let info := rget w.d.regs (MEMR t + 0x68)
  let w := w.event 0x806 st 0 l.ctx [mkBlk (leBytes 8 l.block ++ leBytes 8 info.toNat)]
  let w := w.log { entry 0x05 t (if l.unit = 0xF then 0x18 else l.unit) with
    status := st, ctx := l.ctx, addr := l.block % 2 ^ 64, pos := l.pos % 2 ^ 32, param := v, event := 0x806,
    course := if l.unit = 0xF then 0xFF else l.course }
  w.onDev (fun d => ({ d with ladders := d.ladders.filter (fun m => m.block != l.block) }).ladderBusy)

/-- Hand a far block to the clients of its ladder. -/
def Dev.farDeliver (d : Dev) (clients : List Nat) (a : Nat) (b : Blk) : Dev :=
  { d with hl := { d.hl with farGot := d.hl.farGot ++ clients.map (fun c => { who := c, addr := a, blk := b }) } }

/-- A block in poison form as it travels (R284). -/
def poisonBlk : Blk := { data := poisonData, chk := crc32c poisonData ^^^ poisonMark }

/-- Step 3b: the holder rewrites its copy in poison form (R284, R287); a far block is written back through the adapter (R442). -/
def World.poisonEnd (w : World) (l : Ladder) : World :=
  let w := if tierOf l.block = 3 then
      w.onDev (fun d =>
        let d := d.farAsk (l.course / 48) whoPoison 0xFFFF 2 false false [(bitsOf l.block 41 0, some poisonBlk)]
        d.farDeliver l.clients l.block poisonBlk)
    else w.putPoison l.block
  let ht := holderTower l.block l.course
  let w := w.count (MEMR ht + 0x28) 63 0 1
  let w := w.setBit (MEMR l.tower + 0x58) 3
  w.verdict l 2

/-- A step-1 attempt fails: the next one, or step 2 after three (R287). -/
def World.attemptFails (w : World) (l : Ladder) : World :=
  let w := w.count (MEMR l.tower + 0x10) 63 0 1
  let w := w.onDev (fun d =>
    let d : Dev := { d with ladders := d.ladders.map (fun m =>
      if m.block = l.block ∧ !m.after then { m with tries := m.tries + 1, step := if m.tries + 1 = 3 then 2 else 1 } else m) }
    d.ladderBusy)
  if tierOf l.block = 3 ∧ l.tries + 1 < 3 then
    w.onDev (fun d => d.farAsk (l.course / 48) whoLadder 0xFFFF 1 true false [(bitsOf l.block 41 0, none)])
  else w

/-- A step-1 attempt passes: the block is used, and its path still tested (R287, R288). -/
def World.attemptPasses (w : World) (l : Ladder) : World :=
  let w := w.count (MEMR l.tower + 0x18) 63 0 1
  w.onDev (fun d => { d with ladders := d.ladders.map (fun m => if m.block = l.block then { m with after := true } else m) })

/-- A step-1 attempt of a ladder inside the device returns (R287); one of a far block returns as READ_DATA. CC_LD_RETRY counts those of
the loads and stores of a routine in work, not those of its code, which is read before it runs (R167). -/
def doBlockRereadDone (block : Nat) (ok : Bool) (w : World) : World :=
  match w.d.ladders.find? (fun l => l.block == block && l.step == 1 && !l.after && tierOf l.block != 3) with
  | none => w
  | some l =>
    let w := if l.unit = 8 ∧ (w.d.course l.course).routine.isSome then w.count (CC_LD_RETRY l.course) 31 0 1 else w
    if ok && (w.synOf block == 0 || w.poisoned block) then w.attemptPasses l else w.attemptFails l

/-- Step 3a ends with a passing re-read: the verdict path repaired (R287). -/
def World.pathRepaired (w : World) (l : Ladder) : World :=
  let w := w.count (MEMR l.tower + 0x20) 63 0 1
  let w := w.setBit (MEMR l.tower + 0x58) 2
  w.verdict l 1

/-- The ladder whose step-2 tests have all ended. -/
def Dev.ladderReady (d : Dev) (block : Nat) : Option Ladder :=
  d.ladders.find? (fun l => l.block == block && l.step == 2 && l.store.isSome && l.segs.isEmpty)

/-- The ladder of a block of the device's own stores, or of the far store, takes its verdict (R287, R288, R567). A far block is read
again through the adapter after a repair: that read returns as READ_DATA. -/
def World.storeVerdict (w : World) (l : Ladder) (rereadOk : Bool) : World :=
  if l.after then w.onDev (fun d => { d with ladders := d.ladders.filter (fun m => m.block != l.block) })
  else if l.store = some true ∧ l.pathFailed then
    if tierOf l.block = 3 then
      w.onDev (fun d =>
        let d : Dev := { d with ladders := d.ladders.map (fun m => if m.block = l.block then { m with step := 3 } else m) }
        d.farAsk (l.course / 48) whoLadder 0xFFFF 1 true false [(bitsOf l.block 41 0, none)])
    else if rereadOk then w.pathRepaired l else w.poisonEnd l
  else w.poisonEnd l

/-- Whether a tower's bundles are quiet under the fence (R493): it discards every flit. -/
def Dev.quiet (d : Dev) (t : Nat) : Bool := let s := (d.tower t).step; s == .asserted

/-- The CRC-16 a bundle flit must carry (R478). -/
def flitCrc16 (flit : List Byte) (framing : W64) : Nat :=
  crc16 (padTo 64 flit ++ leBytes 4 (bitsOf framing.toNat 63 32) ++ leBytes 4 (bitsOf framing.toNat 15 0))

/-- Whether a flit turns a bundle: bonds and vias serve both directions, bridge bundles do not turn (R479). -/
def Bundle.turns (x : Bundle) (cls : Nat) (dir : Bool) : Bool := decide (cls < 4) && x.dir != dir

/-- Whether a bundle holds its direction against a flit of the other one: fewer than 128 flits have gone in it and blocks sent in it
still wait in the re-send queue (R479, R481). -/
def Bundle.holdsDir (x : Bundle) : Bool := decide (x.run < 128) && !x.resend.isEmpty

/-- A bundle after a turnaround: the acknowledgement that was pending has gone, and the SEQ state is the other direction's. -/
def Bundle.turned (x : Bundle) (dir : Bool) : Bundle :=
  { x with dir := dir, run := 0, expectSeq := x.back.1, nakSeq := x.back.2.1, nakRun := x.back.2.2,
           back := (x.expectSeq, x.nakSeq, x.nakRun), pend := none, heard := 0 }

/-- A good flit turns its bundle if it comes in the other direction; the acknowledgement pending is sent before it (R479). -/
def World.turnBundle (w : World) (b : BundleId) (dir : Bool) : World :=
  let x := w.d.bundle (bundleIdKey b)
  let y := if x.turns b.cls.val dir then x.turned dir else x
  let w := match x.turns b.cls.val dir, x.pend with
    | true, some p => w.emit (.bundleAck b p)
    | _, _ => w
  w.onDev (fun d => d.onBundle (bundleIdKey b) (fun _ => { y with run := min 128 (y.run + 1) }))

/-- A numbered flit has arrived in order: it is acknowledged at every eighth at the latest (R480). -/
def World.bundleInOrder (w : World) (b : BundleId) (seq : Nat) : World :=
  let k := bundleIdKey b
  let due := decide (7 ≤ (w.d.bundle k).heard)
  let w := w.onDev (fun d => d.onBundle k (fun y => { y with
    expectSeq := (y.expectSeq + 1) % 32, nakRun := 0,
    pend := if due then none else some seq, heard := if due then 0 else y.heard + 1 }))
  if due then w.emit (.bundleAck b seq) else w

/-- A flit arrives on a bundle (R478 to R482). -/
def doBundleFlitRx (b : BundleId) (flit : List Byte) (framing : W64) (w : World) : World :=
  let k := (bundleIdKey b)
  let t := b.tower.val
  let x := w.d.bundle k
  let typ := bitsOf framing.toNat 5 4
  let seq := bitsOf framing.toNat 10 6
  let dir := bitOf framing.toNat 2
  if w.d.quiet t && b.cls.val != 4 then w
  else if flitCrc16 flit framing ≠ bitsOf framing.toNat 31 16 then
    let run := if x.nakSeq = x.expectSeq then x.nakRun + 1 else 1
    let w := w.onDev (fun d => (d.onBundle k (fun y => { y with
      nakSeq := y.expectSeq, nakRun := run, replays := y.replays + 1 })).enterTest k)
    let w := if b.cls.val = 4 then w.count (MEMR t + 0x50) 63 0 1 else w
    let w := w.emit (.bundleNak b x.expectSeq)
    if run = 4 then
      let w := w.onDev (fun d => (d.onBundle k (fun y => { y with remapping := true, next := y.state, nakRun := 0,
                                                                  underTest := 1 })).onTower t (fun y =>
        { y with queue := y.queue.erase k }))
      let w := w.onDev (fun d => (d.stkStatus t).setBit FT_HOLD_CAUSE 2)
      w.log { entry 0x03 t 0x10 with index := b.index.val, flags := 2 }
    else w
  else if x.turns b.cls.val dir && x.holdsDir then w
  else
    let w := w.turnBundle b dir
    let y := w.d.bundle k
    if typ ≠ 1 then w
    else if seq = y.expectSeq then w.bundleInOrder b seq
    else w.emit (.bundleNak b y.expectSeq)

/-- A block acknowledgement arrives (R481). -/
def doBlockAckRx (b : BundleId) (block : Nat) (w : World) : World :=
  w.onDev (fun d => d.onBundle (bundleIdKey b) (fun y => { y with resend := y.resend.erase block }))

/-- The field self-test interval expires (R494). -/
def doFieldTestPassStart (t : Fin 8) (w : World) : World :=
  if w.d.fld (STK t.val + 0x28) 31 31 = 1 ∧ (w.d.tower t.val).field.isEmpty then
    w.onDev (fun d => d.onTower t.val (fun x => { x with field := fieldPass t.val }))
  else w

/-! ## Wear (R495, R496) -/

/-- One round of a tower's half-cycle count: the wear temperature in 1/16 °C (R495). -/
def Tower.wear (x : Tower) (temp : Int) : Tower :=
  if !x.seenPeak then { x with seenPeak := true, peak := temp }
  else if x.rising then
    if x.peak < temp then { x with peak := temp }
    else if 400 ≤ x.peak - temp then { x with halfCycles := x.halfCycles + 1, rising := false, peak := temp }
    else x
  else if temp < x.peak then { x with peak := temp }
  else if 400 ≤ temp - x.peak then { x with halfCycles := x.halfCycles + 1, rising := true, peak := temp }
  else x

/-- A tower's wear count W (R496). -/
def Dev.wearCount (d : Dev) (t : Nat) : Nat := (d.tower t).halfCycles / 2 + d.fw.powerCycles

/-- STK_WEAR and the wear status bits of a tower; the warning is sent once (R496). -/
def World.wearStatus (w : World) (t : Nat) : World :=
  let n := w.d.wearCount t
  let w := w.setReg (STK t + 0x38) (BitVec.ofNat 64 ((satAdd 32 0 (w.d.tower t).halfCycles <<< 32) + satAdd 32 0 w.d.fw.powerCycles))
  let w := w.setFld (STK t) 6 6 (if 20000 < n ∧ 6 < w.d.fld (STK t + 0x28) 9 0 then 1 else 0)
  if 50000 ≤ n ∧ !(w.d.tower t).warned then
    let w := w.setFld (STK t) 7 7 1
    let w := w.onDev (fun d => d.onTower t (fun x => { x with warned := true }))
    w.stackEvent t 0 0 0 0 5 0 stOk 0x34
  else w

/-- The wear record is written to flash (R496). -/
def Dev.writeWear (d : Dev) : Dev :=
  { d with fw := { d.fw with
      wearLog := (List.range 8).map (fun t => (d.tower t).halfCycles) ++ [d.fw.powerCycles]
      wearSeq := d.fw.wearSeq + 1 } }

/-- The queues of the root dies go to flash (R540). The flash holds the last 65,536 entries. -/
def Dev.drainLog (d : Dev) : Dev :=
  let q := (List.range 8).flatMap (fun t => tget [] d.log.queues t)
  let ins (l : List LogEntry) (e : LogEntry) : List LogEntry :=
    l.filter (fun x => decide (x.seq < e.seq)) ++ e :: l.filter (fun x => decide (e.seq < x.seq))
  let all := q.foldl ins d.log.flash
  { d with log := { d.log with flash := all.drop (all.length - 65536), queues := [] } }

def doFlush (_t : Fin 8) (w : World) : World := w.onDev (fun d => d.writeWear)
def doWearRecordWrite (w : World) : World := w.onDev (fun d => d.writeWear.drainLog)

/-! ## The commands -/

/-- FLUSH (R496). -/
def execFlush (t : Fin 8) (s : State) : Host.Outcome State Fault Refusal :=
  runLive s (doFlush t)

/-- BUNDLE_FLIT_RX (R480). -/
def execBundleFlitRx (b : BundleId) (flit : List Byte) (framing : W64) (s : State) : Host.Outcome State Fault Refusal :=
  runLive s (doBundleFlitRx b flit framing)

/-- BLOCK_ACK_RX (R481). -/
def execBlockAckRx (b : BundleId) (block : Nat) (s : State) : Host.Outcome State Fault Refusal :=
  runLive s (doBlockAckRx b block)

/-- BUNDLE_TEST_DONE (R488). -/
def execBundleTestDone (b : BundleId) (failed : List Nat) (s : State) : Host.Outcome State Fault Refusal :=
  runLive s (doBundleTestDone b failed)

/-- BUNDLE_REMAP_DONE (R489). -/
def execBundleRemapDone (b : BundleId) (s : State) : Host.Outcome State Fault Refusal :=
  runLive s (doBundleRemapDone b)

/-- FIELD_TEST_PASS_START (R494). -/
def execFieldTestPassStart (t : Fin 8) (s : State) : Host.Outcome State Fault Refusal :=
  runLive s (doFieldTestPassStart t)

/-- WEAR_RECORD_WRITE (R496). -/
def execWearRecordWrite (s : State) : Host.Outcome State Fault Refusal :=
  runLive s doWearRecordWrite

end Sys2Proof.Machine
end

