-- ==== Sys2Proof/Machine/Link.lean ====
section
/-! DEFINITION. The link layer of the peer ports and host quarters (R334 to R346, R418 to R421): flits, replay and credits,
training, lane failures, narrowing and loss. -/

namespace Sys2Proof.Machine

/-! ## Registers of a link -/

/-- The registers of a link: flits resent, flits failing the link CRC, FEC counts, retrainings, control. -/
def linkReplays (l : Nat) : Nat := if l < 24 then linkBase l + 0x20 else linkBase l + 0x08
def linkCrcs (l : Nat) : Nat := if l < 24 then linkBase l + 0x28 else linkBase l + 0x10
def linkFec (l : Nat) : Nat := if l < 24 then linkBase l + 0x30 else linkBase l + 0x18
def linkRetrains (l : Nat) : Nat := if l < 24 then linkBase l + 0x3C else linkBase l + 0x20
def linkCtrl (l : Nat) : Nat := if l < 24 then linkBase l + 0x08 else linkBase l + 0x24
def portTx (l : Nat) : Nat := linkBase l + 0x10
def portRx (l : Nat) : Nat := linkBase l + 0x18
def portDrop (l : Nat) : Nat := linkBase l + 0x38

/-- Lanes of a link (R334, R418), and the low bit of LANES_FAILED in its status register. -/
def laneCount (l : Nat) : Nat := if l < 24 then 8 else 4
def lanesLo (l : Nat) : Nat := if l < 24 then 24 else 32

def Dev.lanesFailed (d : Dev) (l : Nat) : Nat := d.fld (linkBase l) (lanesLo l + laneCount l - 1) (lanesLo l)
def Dev.setLanes (d : Dev) (l v : Nat) : Dev := d.setFld (linkBase l) (lanesLo l + laneCount l - 1) (lanesLo l) v

def Dev.linkDisabled (d : Dev) (l : Nat) : Bool := d.fld (linkCtrl l) 1 1 == 1

/-- Whether QUARTER_0 of a host port is in service. -/
def Dev.quarter0 (d : Dev) (p : Nat) : Bool := d.linkUp (24 + 4 * p)

/-- The port that carries events (R437): EVENT_PORT, or the other one while its QUARTER_0 is not in service; none while
neither is. -/
def Dev.eventPort (d : Dev) : Option Nat :=
  let p := d.fld HL_CTRL 0 0
  if d.quarter0 p then some p else if d.quarter0 (1 - p) then some (1 - p) else none

/-- QUARTERS_UP and EVENT_PORT_ACTIVE of HL_STATUS follow the quarters. -/
def Dev.hlStatus (d : Dev) : Dev :=
  let up := ofBits ((List.range 8).map (fun q => d.linkUp (24 + q)))
  let d := d.setFld HL_STATUS 7 0 up
  match d.eventPort with
  | some p => d.setFld HL_STATUS 8 8 p
  | none => d

/-- Set the STATE of a link (R343, R420). -/
def Dev.setLinkState (d : Dev) (l s : Nat) : Dev :=
  let d := d.setFld (linkBase l) 19 16 s
  if 24 ≤ l then d.hlStatus else d

/-! ## Narrowing and loss -/

/-- EF_FAULT_INFO of tower t, for a fault that belongs to a port and no line. -/
def World.efInfo (w : World) (t port src ctx set pos : Nat) : World :=
  w.setReg (EFR t + 0x18) (BitVec.ofNat 64
    (((pos % 2 ^ 32) <<< 32) + ((src % 1024) <<< 22) + ((port % 64) <<< 16) + (set <<< 14) + ctx % 2 ^ 14))

/-- A link enters FAILED, TOO_LONG or DOWN (R346, R421). -/
def World.linkLost (w : World) (l s : Nat) : World :=
  let was := w.d.linkState l
  let w := w.onDev (fun d => d.setLinkState l s)
  if l < 24 then
    if w.d.inRoute l && was != s then
      let w := w.raise flagAbort
      let w := w.setBit (EFR (l / 3) + 0x10) 5
      let w := w.efInfo (l / 3) l 0 0 0 (w.d.fld FT_POS 31 0)
      let w := w.event 0x80B stOk (BitVec.ofNat 16 l) 0xFFFF []
      w.log { entry 0x21 (l / 3) 0x12 with index := l, detail := BitVec.ofNat 16 l, event := 0x80B, flags := 5 }
    else w
  else if was ≠ s then
    let q := l - 24
    let w := w.setBit HL_FAULT 2
    let w := w.raise flagAbort
    let det := BitVec.ofNat 16 (q + s * 256)
    let w := w.event 0x813 stOk det 0xFFFF []
    w.log { entry 0x24 q 0x13 with index := q, detail := det, event := 0x813, flags := 5 }
  else w

/-- A link has become narrowed (R345, R421). -/
def World.linkNarrowed (w : World) (l s : Nat) : World :=
  if l < 24 then
    let det := BitVec.ofNat 16 (l + w.d.lanesFailed l * 256)
    let w := w.event 0x80A stOk det 0xFFFF []
    let w := w.log { entry 0x20 (l / 3) 0x12 with index := l, detail := det, event := 0x80A, flags := 4 }
    w.revalidate stPlanOverrun
  else
    let q := l - 24
    let det := BitVec.ofNat 16 (q + s * 256)
    let w := w.event 0x813 stOk det 0xFFFF []
    let w := w.log { entry 0x23 q 0x13 with index := q, detail := det, event := 0x813, flags := 4 }
    w.revalidate stPlanOverrun

/-- The STATE a link comes up in, from its failed lanes (R343, R344, R420). -/
def widthState (l failed : Nat) : Nat :=
  let h := laneCount l / 2
  if failed = 0 then 2
  else if failed % 2 ^ h = 0 then 3
  else if failed / 2 ^ h = 0 then 4
  else 5

/-- Begin a retraining (R344, R345). -/
def World.retrain (w : World) (l : Nat) (full : Bool) : World :=
  let s := w.d.linkState l
  let narrow := if (w.d.link l).retraining then (w.d.link l).wasNarrow else s == 3 || s == 4
  w.onDev (fun d =>
    let d := d.onLink l (fun x => { x with retraining := true, full := full, wasNarrow := narrow, nakRun := 0 })
    let d := if l < 24 then d.setBit FT_HOLD_CAUSE 3 else d
    (d.setLinkState l 1).count (linkRetrains l) 31 0 1)

/-- Lanes of a link fail (R344): it retrains on the half that holds no failed lane, or enters FAILED. -/
def World.lanesFail (w : World) (l lanes : Nat) : World :=
  let new := w.d.lanesFailed l ||| (lanes % 2 ^ laneCount l)
  if new = w.d.lanesFailed l then w
  else if !(w.d.linkUp l || (w.d.link l).retraining) then w
  else
    let w := w.onDev (fun d => d.setLanes l new)
    if widthState l new = 5 then
      let w := w.onDev (fun d => d.onLink l (fun x => { x with retraining := false, full := false }))
      w.linkLost l 5
    else w.retrain l (w.d.link l).full

def doLaneLossOfLock (l : Fin 32) (lane : Fin 8) (w : World) : World := w.lanesFail l.val (2 ^ lane.val)

/-! ## Sending numbered flits (R337 to R340) -/

/-- Queue a SCALAR flit: it goes before any DATA flit (R339). -/
def Dev.sendScalar (d : Dev) (l : Nat) (m : ScalarMsg) : Dev :=
  let isScalar : TxFlit → Bool := fun f => match f with
    | .scalar _ => true
    | .data _ => false
  (d.onLink l (fun x => { x with
    txq := x.txq.filter isScalar ++ TxFlit.scalar m :: x.txq.filter (fun f => !isScalar f) })).pump l

/-- Send again every numbered flit from a SEQ on, counting them (R340). -/
def Dev.resendFrom (d : Dev) (l seq : Nat) : Dev :=
  let x := d.link l
  let again := x.replay.dropWhile (fun e => decide (e.1 ≠ seq % 512))
  let d := again.foldl (fun d e => d.wire l e.1 e.2) d
  d.count (linkReplays l) 63 0 again.length

/-! ## Receiving flits -/

/-- The link CRC of a flit holds (R337, R10). -/
def flitOk (flit : List Byte) : Bool :=
  flit.length == 256 && numAt flit 252 4 == (crc32c (flit.take 252)).toNat

/-- The header word of a flit. -/
def flitHdr (flit : List Byte) : Nat := numAt flit 0 4

/-- A flit fails the link CRC: it is counted and the next SEQ expected is NAKed (R340), but for a port in training, which carries
TRAIN flits only (R343). -/
def World.badFlit (w : World) (l : Nat) : World :=
  let w := w.count (linkCrcs l) 63 0 1
  if w.d.linkUp l && !(w.d.link l).retraining then
    w.onDev (fun d => d.sendLink l { ack := none, nak := some (Fin.ofNat 512 (d.link l).expect), credit := none })
  else w

/-- Fold the hold vote of a good flit of a peer port (R63, R338); a vote that it changes goes out on every port. -/
def World.flitVote (w : World) (l h : Nat) : World :=
  if l < 24 then
    w.onDev (fun d =>
      let f := d.ft.vote (bitOf h 13) (bitsOf h 31 16) (bitsOf h 15 14)
      if f = d.ft then d else ({ d with ft := f }).sendVote)
  else w

/-- Whether a link takes flits: trained, and TRAIN flits alone before. -/
def Dev.takesFlits (d : Dev) (l typ : Nat) : Bool :=
  if typ = 4 then d.linkState l == 1 || d.linkUp l else d.linkUp l && !(d.link l).retraining

/-- A flit without a number arrives: it is checked and its hold vote folded. A flit of another TYPE than the row names is none of its
flits and has no effect. -/
def World.plainFlit (w : World) (l typ : Nat) (flit : List Byte) : World × Bool :=
  if !w.d.takesFlits l typ then (w, false)
  else if !flitOk flit then (w.badFlit l, false)
  else if bitsOf (flitHdr flit) 3 0 ≠ typ then (w, false)
  else (w.flitVote l (flitHdr flit), true)

/-- A numbered flit arrives (R340): true when it is the next one in order. The receiver sends a LINK flit after every 128. -/
def World.numberedFlit (w : World) (l typ : Nat) (flit : List Byte) : World × Bool :=
  let (w, good) := w.plainFlit l typ flit
  if !good then (w, false)
  else
    let x := w.d.link l
    let seq := bitsOf (flitHdr flit) 12 4
    if seq ≠ x.expect then (w, false)
    else
      let due := decide (127 ≤ x.unsaid)
      let w := w.onDev (fun d => d.onLink l (fun y => { y with
        expect := (y.expect + 1) % 512, unsaid := if due then 0 else y.unsaid + 1 }))
      let w := if due then
          w.onDev (fun d => d.sendLink l { ack := some (Fin.ofNat 512 seq), nak := none, credit := some 128 })
        else w
      (w, true)

/-- A LINK flit arrives (R340): acknowledged flits leave the replay buffer, a NAK resends, 8 NAKs of one SEQ retrain. -/
def doFlitLinkRx (lk : Fin 32) (flit : List Byte) (m : LinkMsg) (w : World) : World :=
  let l := lk.val
  let (w, good) := w.plainFlit l 2 flit
  if !good then w
  else
    let w := match m.ack with
      | some a => w.onDev (fun d => d.onLink l (fun x =>
          let rest := (x.replay.dropWhile (fun (e : Nat × TxFlit) => decide (e.1 ≠ a.val))).drop 1
          if x.replay.any (fun (e : Nat × TxFlit) => e.1 == a.val) then { x with replay := rest, nakRun := 0 }
          else x))
      | none => w
    let w := match m.credit with
      | some c => w.onDev (fun d => d.onLink l (fun x => { x with credit := c.toNat }))
      | none => w
    let w := match m.nak with
      | none => w
      | some n =>
        let x := w.d.link l
        let run := if x.nakSeq = n.val then x.nakRun + 1 else 1
        let w := w.onDev (fun d => d.onLink l (fun x => { x with nakSeq := n.val, nakRun := run }))
        if 8 ≤ run then
          let w := w.log { entry 0x02 (if l < 24 then l / 3 else l - 24) (if l < 24 then 0x12 else 0x13) with
            index := if l < 24 then l else l - 24, flags := if l < 24 then 2 else 0 }
          w.retrain l false
        else w.onDev (fun d => d.resendFrom l n.val)
    w.onDev (fun d => d.pump l)

def doFlitTrainRx (lk : Fin 32) (flit : List Byte) (w : World) : World := (w.plainFlit lk.val 4 flit).1

def doFlitIdleRx (lk : Fin 32) (flit : List Byte) (w : World) : World := (w.plainFlit lk.val 0 flit).1

/-- A flit of an unlisted TYPE is discarded and counted as a link CRC failure (R338, R419); one whose link CRC fails is NAKed as
every such flit (R340). -/
def doUnlistedFlitType (lk : Fin 32) (flit : List Byte) (w : World) : World :=
  let l := lk.val
  let typ := bitsOf (flitHdr flit) 3 0
  let listed := decide (typ ≤ 4) && !(decide (24 ≤ l) && typ == 3)
  if listed || !w.d.linkUp l || (w.d.link l).retraining then w
  else if !flitOk flit then w.badFlit l
  else w.count (linkCrcs l) 63 0 1

/-! ## Training (R336, R343 to R345, R420, R421) -/

/-- A fresh link state for a link that has trained: SEQ and credits start over. -/
def Link.trained (x : Link) (nbr : Option (Nat × Nat)) (r : TrainResult) : Link :=
  { Link.init with cable := x.cable, nbr := nbr, txq := x.txq, txq2 := x.txq2,
                   reversed := r.order == [7, 6, 5, 4, 3, 2, 1, 0], inverted := r.invert.toNat }

/-- Whether a link takes the order in which its lanes arrive (R552): that of R551, or on a peer port its reverse. A port whose lanes
arrive in an order of neither kind stays in TRAINING as a quarter does (DEDUCED, log 105). -/
def trainOrderOk (r : TrainResult) (l : Nat) : Bool :=
  r.order.isEmpty || r.order == List.range (laneCount l) || (decide (l < 24) && r.order == [7, 6, 5, 4, 3, 2, 1, 0])

/-- Training from DOWN, from a reset or a cable, ends. A lane that failed before stays failed: only RETRAIN_FULL and a reset of the
device bring a narrowed link back (R345, R421). -/
def doPortTrainDone (lk : Fin 32) (r : TrainResult) (w : World) : World :=
  let l := lk.val
  if w.d.linkState l ≠ 1 || (w.d.link l).retraining || !trainOrderOk r l then w
  else
    let failed := w.d.lanesFailed l ||| r.failed.toNat % 2 ^ laneCount l
    let tooLong := decide (l < 24) && decide (8 < r.flight.toNat)
    let s := if tooLong then 6 else widthState l failed
    let w := if l < 24 then w.setFld (linkBase l) 39 32 r.flight.toNat else w
    let w := w.onDev (fun d => (d.setLanes l failed).onLink l (fun x =>
      x.trained (if l < 24 ∧ s ≤ 4 then some (r.nbrRank.toNat, r.nbrPort.toNat) else none) r))
    if 5 ≤ s then w.linkLost l s
    else
      let w := w.onDev (fun d => d.setLinkState l s)
      let w := if s = 3 ∨ s = 4 then w.linkNarrowed l s else w
      w.onDev (fun d => d.pump l)

/-- A retraining ends: the hold clears and unacknowledged flits are resent (R344, R345, R421). `failed` are the lanes that
failed the lane-by-lane test. -/
def doPortRetrainDone (lk : Fin 32) (failed : BitVec 8) (w : World) : World :=
  let l := lk.val
  let x := w.d.link l
  if !x.retraining then w
  else
    let bad := failed.toNat % 2 ^ laneCount l
    let lanes := if x.full then bad else w.d.lanesFailed l ||| bad
    let s := widthState l lanes
    let w := w.onDev (fun d => (d.setLanes l lanes).onLink l (fun x => { x with
      retraining := false, full := false, nakRun := 0 }))
    if s = 5 then w.linkLost l 5
    else
      let w := w.onDev (fun d => d.setLinkState l s)
      let w := match (w.d.link l).replay with
        | e :: _ => w.onDev (fun d => d.resendFrom l e.1)
        | [] => w
      let w := if (s = 3 ∨ s = 4) && !x.wasNarrow then w.linkNarrowed l s else w
      w.onDev (fun d => d.pump l)

/-- A cable is connected: training begins (R550). In reset the release does it. -/
def doCableConnect (lk : Fin 32) (w : World) : World :=
  let l := lk.val
  let w := w.onDev (fun d => d.onLink l (fun x => { x with cable := true }))
  if w.d.level = .run ∧ w.d.linkState l = 0 ∧ !w.d.linkDisabled l then w.onDev (fun d => d.setLinkState l 1) else w

/-- A link goes DOWN. -/
def World.linkDown (w : World) (l : Nat) : World :=
  let w := w.onDev (fun d => d.onLink l (fun x => { Link.init with cable := x.cable }))
  if w.d.linkState l = 0 then w else w.linkLost l 0

/-- A cable is removed: its port or quarter goes DOWN (R550, R343, R420). -/
def doCableDisconnect (lk : Fin 32) (w : World) : World :=
  let w := w.onDev (fun d => d.onLink lk.val (fun x => { x with cable := false }))
  if w.d.level = .run then w.linkDown lk.val else w

/-- A write of DISABLE (R343, R420). -/
def World.setDisable (w : World) (l : Nat) (on : Bool) : World :=
  let w := w.setFld (linkCtrl l) 1 1 (if on then 1 else 0)
  if on then w.linkDown l
  else if w.d.linkState l = 0 ∧ (w.d.link l).cable then w.onDev (fun d => d.setLinkState l 1)
  else w

/-- A write of RETRAIN_FULL: a narrowed link retrains and every lane is tested again (R345, R421). -/
def World.setRetrainFull (w : World) (l : Nat) : World :=
  let s := w.d.linkState l
  if (s = 3 ∨ s = 4) ∧ !(w.d.link l).retraining then w.retrain l true else w

def doRetrainFull (port : Fin 24) (w : World) : World := w.setRetrainFull port.val
def doPortDisable (port : Fin 24) (on : Bool) (w : World) : World := w.setDisable port.val on
def doQuarterRetrainFull (q : Fin 8) (w : World) : World := w.setRetrainFull (24 + q.val)
def doQuarterDisable (q : Fin 8) (on : Bool) (w : World) : World := w.setDisable (24 + q.val) on

/-! ## The commands -/

/-- RETRAIN_FULL (R345). -/
def execRetrainFull (port : Fin 24) (s : State) : Host.Outcome State Fault Refusal :=
  runLive s (doRetrainFull port)

/-- PORT_DISABLE (R343). -/
def execPortDisable (port : Fin 24) (on : Bool) (s : State) : Host.Outcome State Fault Refusal :=
  runLive s (doPortDisable port on)

/-- QUARTER_RETRAIN_FULL (R421). -/
def execQuarterRetrainFull (q : Fin 8) (s : State) : Host.Outcome State Fault Refusal :=
  runLive s (doQuarterRetrainFull q)

/-- QUARTER_DISABLE (R420). -/
def execQuarterDisable (q : Fin 8) (on : Bool) (s : State) : Host.Outcome State Fault Refusal :=
  runLive s (doQuarterDisable q on)

/-- FLIT_LINK_RX (R340). -/
def execFlitLinkRx (link : Fin 32) (flit : List Byte) (m : LinkMsg) (s : State) : Host.Outcome State Fault Refusal :=
  runLive s (doFlitLinkRx link flit m)

/-- FLIT_TRAIN_RX (R336). -/
def execFlitTrainRx (link : Fin 32) (flit : List Byte) (s : State) : Host.Outcome State Fault Refusal :=
  runLive s (doFlitTrainRx link flit)

/-- FLIT_IDLE_RX (R63). -/
def execFlitIdleRx (link : Fin 32) (flit : List Byte) (s : State) : Host.Outcome State Fault Refusal :=
  runLive s (doFlitIdleRx link flit)

/-- PORT_TRAIN_DONE (R343). -/
def execPortTrainDone (link : Fin 32) (r : TrainResult) (s : State) : Host.Outcome State Fault Refusal :=
  runLive s (doPortTrainDone link r)

/-- PORT_RETRAIN_DONE (R344). -/
def execPortRetrainDone (link : Fin 32) (failed : BitVec 8) (s : State) : Host.Outcome State Fault Refusal :=
  runLive s (doPortRetrainDone link failed)

/-- LANE_LOSS_OF_LOCK (R344). -/
def execLaneLossOfLock (link : Fin 32) (lane : Fin 8) (s : State) : Host.Outcome State Fault Refusal :=
  runLive s (doLaneLossOfLock link lane)

/-- CABLE_CONNECT (R550). -/
def execCableConnect (link : Fin 32) (s : State) : Host.Outcome State Fault Refusal :=
  run s (doCableConnect link)

/-- CABLE_DISCONNECT (R550). -/
def execCableDisconnect (link : Fin 32) (s : State) : Host.Outcome State Fault Refusal :=
  run s (doCableDisconnect link)

/-- UNLISTED_FLIT_TYPE (R338). -/
def execUnlistedFlitType (link : Fin 32) (flit : List Byte) (s : State) : Host.Outcome State Fault Refusal :=
  runLive s (doUnlistedFlitType link flit)

end Sys2Proof.Machine
end

