-- ==== Sys2Proof/Machine/Reset.lean ====
section
/-! DEFINITION. The reset levels (R503 to R515): what each reaches, entry to and exit from core reset, power-on and system reset
and their release. -/

namespace Sys2Proof.Machine

/-- The registers with those of an address range back at reset, apart from those kept. -/
def Dev.clearRange (d : Dev) (lo hi : Nat) (keep : Nat → Bool) : Dev :=
  { d with regs := d.regs.filter (fun e => decide (e.1 < lo) || decide (hi ≤ e.1) || keep e.1) }

/-- A bit of the OTP array as it stands (R450): as manufactured, or burnt since. -/
def Dev.otpBit (d : Dev) (n : Nat) : Bool :=
  (Config.otpByte (n / 8)).getLsbD (n % 8) || d.fw.burnt.contains n

/-- CONFIG in the OTP array: PRIMARY, DEBUG_LOCK, TEST_LOCK (R450). -/
def Dev.otpPrimary (d : Dev) : Bool := d.otpBit (129 * 8)
def Dev.otpDebugLock (d : Dev) : Bool := d.otpBit (129 * 8 + 1)
def Dev.otpTestLock (d : Dev) : Bool := d.otpBit (129 * 8 + 2)

/-- What the flash and the OTP array keep through every reset (R540, R450, R496); everything else of field update starts anew. -/
def Fw.afterReset (f : Fw) : Fw :=
  { Fw.init with
      images := f.images, active := f.active, recordSeq := f.recordSeq, pendingFloors := f.pendingFloors,
      burnt := f.burnt, powerCycles := f.powerCycles, wearLog := f.wearLog, wearSeq := f.wearSeq, signs := f.signs }

/-- The whole address range of the stores. -/
def wipeAll : Wr := .wipe 0 (2 ^ 64)

/-- Enter power-on reset (R503, R504, R512): RST_CAUSE holds POWER_ON and the given further bit. -/
def World.powerOn (w : World) (bit : Option Nat) : World :=
  let d := w.d
  let fresh : Dev := { Dev.reset with
    fw := d.fw.afterReset
    log := { Log.init with flash := d.log.flash, next := d.log.next }
    links := d.links.map (fun e => (e.1, { Link.init with cable := e.2.cable }))
    board := { Board.init with leak := d.board.leak, cells := d.board.cells }
    out := d.out, free := d.free }
  let fresh := match bit with
    | some b => (List.range 8).foldl (fun d t => d.setBit (RST t) b) fresh
    | none => fresh
  (w.put wipeAll).onDev (fun _ => fresh)

/-- Enter system reset (R503, R504): what it spares stays, RST_CAUSE gains a bit and RST_SYS_COUNT one. A trip loses the queued
log entries (R540). FH_SNAP_SEQ goes with the other FH registers, though R135 counts it since power-on reset: R13 and R504 spare none of
them (DESIGN CHOICE, log 99). -/
def World.systemReset (w : World) (bit : Nat) (trip : Bool) : World :=
  let d := w.d
  let keep (a : Nat) : Bool := (decide (a < 0x08000000) && decide ((a >>> 16) % 256 = 1) && (a % 65536 == 0 || a % 65536 == 0x18))
  let fencedBits := d.fld IDENT_DEVICE 15 8
  let fresh : Dev := { Dev.reset with
    level := if trip then .tripHold else .system
    regs := d.regs.filter (fun e => keep e.1)
    fw := d.fw.afterReset
    log := if trip then { d.log with queues := [], dropped := [] } else d.log
    links := d.links.map (fun e => (e.1, { Link.init with cable := e.2.cable }))
    towers := ((List.range 8).filter (bitOf fencedBits)).map (fun t => (t, { Tower.init with step := .asserted, why := 2, held := true }))
    board := { Board.init with
      leak := d.board.leak, cells := d.board.cells, alertN := d.board.alertN, tripN := if trip then false else d.board.tripN,
      bootSrc := d.board.bootSrc, clkMode := d.board.clkMode }
    out := d.out, free := d.free }
  let fresh := (fresh.setFld IDENT_DEVICE 15 8 fencedBits)
  let fresh := (List.range 8).foldl (fun d t => (d.setBit (RST t) bit).count (RST t + 0x18) 31 0 1) fresh
  (w.put wipeAll).onDev (fun _ => fresh)

/-- The STATE a link trains from at a release: TRAINING with a cable, else DOWN (R343, R420, R550). -/
def Dev.trainLinks (d : Dev) : Dev :=
  (List.range 32).foldl (fun d l => if (d.link l).cable then d.setFld (linkBase l) 19 16 1 else d) d

/-- The code of a RST_CAUSE word by priority: power-on, then system, then core (R512). -/
def causeCode (c : Nat) : Nat :=
  if bitOf c 0 then (if bitOf c 1 then 0x0003 else if bitOf c 2 then 0x0002 else 0x0001)
  else if bitOf c 3 then 0x0004
  else if bitOf c 4 then 0x0005
  else if bitOf c 5 then 0x0006
  else if bitOf c 6 then 0x0007
  else if bitOf c 7 then 0x0010
  else if bitOf c 8 then 0x0011
  else if bitOf c 9 then 0x0012
  else 0

/-- The OR of every root die's RST_CAUSE. -/
def Dev.allCauses (d : Dev) : Nat := (List.range 8).foldl (fun n t => n ||| (rget d.regs (RST t)).toNat) 0

/-- The bundles with the assignments their training finds (R492), and the degraded bits that follow. -/
def World.trainBundles (w : World) (lanes : List (BundleId × List Nat)) (only : Nat → Bool) : World :=
  lanes.foldl (fun w e =>
    let k := bundleIdKey e.1
    if !only (keyTower k) then w
    else
      let r := e.2.foldl (laneFails (keyCls k)) (Bundle.init, none)
      w.onDev (fun d => (d.onBundle k (fun _ => { r.1 with state := r.1.next })).stkStatus (keyTower k))) w

/-- The release of power-on and of system reset (R511, R513): straps, clocks, bundles, wear, ports, the wardens' start. -/
def World.release (w : World) (r : ReleaseInput) : World :=
  let lock := w.d.otpTestLock
  let refused := lock && r.clkMode == 3
  let clk : BitVec 2 := if refused then 0 else r.clkMode
  let w := w.onDev (fun d => { d with
    level := .run
    board := { d.board with bootSrc := r.bootSrc, clkMode := clk, tripN := true } })
  let w := (List.range 8).foldl (fun w t =>
    let w := w.setReg (RST t + 0xC) (BitVec.ofNat 64 ((if refused then 16 else 0) + clk.toNat * 4 + r.bootSrc.toNat))
    let src := if clk = 1 then 1 else if clk = 3 then 3 else 0
    w.setReg (RST t + 0x20) (BitVec.ofNat 64 (src * 4 + 3))) w
  let w := w.trainBundles r.lanes (fun _ => true)
  let w := (List.range 8).foldl (fun w t =>
    let s := (List.range 4).foldl (fun n l => n + ((r.sites.getD (4 * t + l) 0xF).toNat <<< (4 * l))) 0
    w.setReg (STK t + 0x48) (BitVec.ofNat 64 s)) w
  let w := w.onDev (fun d => { d with fw := { d.fw with powerCycles := d.fw.powerCycles + 1 } })
  let w := (List.range 8).foldl (fun w t =>
    let w := w.onDev (fun d => d.onTower t (fun x => { x with halfCycles := d.fw.wearLog.getD t 0 }))
    w.wearStatus t) w
  let w := w.onDev (fun d => d.writeWear.trainLinks)
  w.onDev (fun d =>
    let prim := if d.otpPrimary then 1 else 0
    let start (i : Nat) : Warden := { Warden.init with custody := decide (i = prim), epoch := if i = prim then 1 else 0 }
    let d := (d.onWarden 0 (fun _ => start 0)).onWarden 1 (fun _ => start 1)
    let d := { d with fw := { d.fw with arbEpoch := 1 } }
    (List.range 2).foldl (fun d i =>
      d.setReg (WD (wardenTower i) + 8) (BitVec.ofNat 64 (if i = prim then (1 <<< 16) + 0x101 else 0))) d)

def doPowerOnReset (w : World) : World := w.powerOn none
def doUndervoltage (w : World) : World := w.powerOn (some 2)
def doRegulatorShutdown (w : World) : World := w.powerOn (some 2)
def doClockLoss (w : World) : World := w.powerOn (some 1)

/-- SYS_RST_N held low: ignored while power-on reset holds the device (R514). -/
def doSysRstPin (w : World) : World := if w.d.level = .powerOn then w else w.systemReset 3 false

def doPowerOnResetRelease (r : ReleaseInput) (w : World) : World := if w.d.level = .powerOn then w.release r else w
def doSystemResetRelease (r : ReleaseInput) (w : World) : World := if w.d.level = .system then w.release r else w

/-- The trip-held reset ends once every zone that counts has stayed 15 °C below its trip limit for 1 s, 1,000 rounds (R529). -/
def doTripHoldRelease (w : World) : World :=
  if w.d.level = .tripHold ∧ 1000 ≤ w.d.board.coolRounds then
    w.onDev (fun d => { d with level := .system, board := { d.board with tripN := true } })
  else w

/-! ## Core reset (R507 to R510) -/

/-- The courses of a tower. -/
def towerCourses (t : Nat) : List Nat := (List.range 12).map (fun k => 12 * t + k)

/-- Whether a line of the courses of a tower is running. -/
def Dev.towerRunning (d : Dev) (t : Nat) : Bool :=
  (towerCourses t).any (fun c => (d.course c).lines.any (fun l => l.phase.running))

/-- Whether the warden still has sets to evict from a tower (R508). -/
def Dev.towerToEvict (d : Dev) (t : Nat) : Bool :=
  (towerCourses t).any (fun c => (List.range 4).any (fun n => match d.setCtxOf c n with
    | some v => !(d.ctx v).active | none => false))

/-- The contexts with a course in a tower. -/
def Dev.towerCtxs (d : Dev) (t : Nat) : List Nat :=
  (d.ctxs.filter (fun e => (maskCourses e.2.mask.toNat).any (fun c => c / 12 == t))).map (·.1)

/-- The contexts a core reset under escalation or fence faults at its entry (R509). -/
def World.faultTower (w : World) (t : Nat) : World :=
  let stop : Stop := { tgt := .faulted, status := stStackDegraded, detail := 0, param := 0 }
  (w.d.towerCtxs t).foldl (fun w i =>
    let x := w.d.ctx i
    if x.kind = 2 then w
    else if x.active then (w.enterStop i stop).raise flagAbort
    else if x.st = .parked ∧ (towerCourses t).any (fun c => w.d.groupBusy c i) then w.enterStop i stop
    else w) w

/-- The root die fences its tower once nothing of it runs and its collective engine is idle (R374, R493, R508). -/
def doFenceStart (t : Fin 8) (w : World) : World :=
  let x := w.d.tower t.val
  if x.step = .waiting ∧ !w.d.towerRunning t.val ∧ !w.d.engineBusy w.mem t.val ∧ !w.d.towerToEvict t.val then
    let w := if x.why = 0 then w else w.faultTower t.val
    let w := w.onDev (fun d => d.onTower t.val (fun x => { x with step := .fenced }))
    w.setFld (STK t.val) 2 2 1
  else w

/-- What core reset clears in a tower (R504): the courses and their registers, the UE, MEM and EF registers not spared. Of
EF_ROUTE_INFO only LOADED is spared (R376). -/
def Dev.coreClear (d : Dev) (t : Nat) : Dev :=
  let d := (towerCourses t).foldl (fun d c => d.setCourse c .init) d
  let d := d.clearRange (ccBase (12 * t)) (ccBase (12 * t + 12)) (fun _ => false)
  let d := d.clearRange (UER t) (UER t + 0x10000) (fun a => decide (0x100 ≤ a % 65536))
  let d := d.clearRange (MEMR t) (MEMR t + 0x10000) (fun a => a % 65536 == 8 || a % 65536 == 0x48)
  let d := d.clearRange (EFR t) (EFR t + 0x10000) (fun a => decide (0x100 ≤ a % 65536) || a % 65536 == 8)
  let d := if t = 0 then (d.setFld EF_ROUTE_INFO 20 16 0).setFld EF_ROUTE_INFO 10 0 0 else d
  { d with ladders := d.ladders.map (fun l =>
      if towerOf l.block = t ∧ tierOf l.block ≠ 3 then { l with step := 1, tries := 0, store := none } else l) }

/-- The cause code of a core reset (R512). -/
def coreCode (why : Nat) : Nat := if why = 0 then 0x10 else if why = 1 then 0x11 else 0x12

/-- Core reset asserts (R510). -/
def doCoreResetAssert (t : Fin 8) (w : World) : World :=
  let x := w.d.tower t.val
  if x.step = .fenced then
    let w := w.onDev (fun d => (d.coreClear t.val).onTower t.val (fun x => { x with step := .asserted }))
    let w := w.setFld (RST t.val + 8) 1 0 1
    let w := w.setBit (RST t.val) (7 + x.why)
    let w := w.count (RST t.val + 0x10) 63 0 1
    let w := (List.range 2).foldl (fun w i => w.setReg (WD (wardenTower i) + 0x18) (BitVec.ofNat 64 (coreCode x.why))) w
    if x.held then w.onDev (fun d => d.opEnded 0x602 (fun h => h.p0.toNat == t.val) stOk 0) else w
  else w

/-- Core reset releases and the bundles retrain (R510); a fenced tower is held (R498). -/
def doCoreResetRelease (t : Fin 8) (w : World) : World :=
  let x := w.d.tower t.val
  if x.step = .asserted ∧ !x.held then
    (w.onDev (fun d => d.onTower t.val (fun x => { x with step := .retraining }))).setFld (RST t.val + 8) 0 0 0
  else w

/-- The masked towers of a RESET that have all left reset (R507). -/
def Dev.resetJobs (d : Dev) : Dev :=
  d.opEnded 0x004 (fun h => (List.range 8).all (fun t =>
    !bitOf h.p1.toNat t || (d.tower t).step == .none || d.fenced t)) stOk 0

/-- Bundles have retrained: unacknowledged blocks are resent and the hold clears (R481, R493); a repair of the tower ends too. -/
def doBundleRetrainDone (t : Fin 8) (w : World) : World :=
  let x := w.d.tower t.val
  if x.step = .retraining then
    let w := w.onDev (fun d =>
      let d := d.onTower t.val (fun x => { x with step := .none, waited := 0 })
      let d : Dev := { d with bundles := d.bundles.map (fun (e : Nat × Bundle) =>
        if keyTower e.1 = t.val then (e.1, { e.2 with resend := [] }) else e) }
      d.setFld (STK t.val) 2 2 0)
    let w := if x.restore then w.onDev (fun d =>
        let d := { d with bundles := d.bundles.filter (fun e => decide (keyTower e.1 ≠ t.val)) }
        (d.onTower t.val (fun x => { x with field := fieldPass t.val, bist := true })).stkStatus t.val) else w
    w.onDev (fun d => d.resetJobs)
  else w

/-- Abandon the lines of a course that a test picks: their context faults at the next fret boundary and ABORT is raised. -/
def World.abandon (w : World) (c : Nat) (p : LineSt → Bool) : World :=
  let y := w.d.course c
  if y.lines.any p then
    let w := w.onDev (fun d => d.onCourse c (fun y => { y with
      lines := y.lines.map (fun l => if p l then { l with phase := .abandoned } else l),
      routine := if y.routine.any (fun r => y.lines[r.line]?.any p) then none else y.routine }))
    let w := match y.runner with
      | some i => w.onDev (fun d => d.stopCtx i .faulted stStackDegraded 0 0)
      | none => w
    w.raise flagAbort
  else w

/-- The lines that entry to core reset still waits for after 64 frets are abandoned (R508): those of the tower, and EF lines of
other towers in work on its collective engine. -/
def doCoreResetWaitTimeout (t : Fin 8) (w : World) : World :=
  let x := w.d.tower t.val
  if x.step = .waiting ∧ 64 ≤ x.waited then
    let d := w.d
    let m := w.mem
    (List.range 96).foldl (fun w c =>
      w.abandon c (fun l => if c / 12 = t.val then l.phase.running else d.holdsEngine m t.val c (d.course c) l)) w
  else w

/-- A tower escalates to core reset (R505). -/
def World.escalate (w : World) (t unit : Nat) : World :=
  let w := w.setFld (RST t + 8) 11 8 unit
  let w := w.log { entry 0x1A t unit with flags := 1 }
  w.askCoreReset t 1 false

def doCoreEscalation (t : Fin 8) (unit : BitVec 4) (w : World) : World := w.escalate t.val unit.toNat

/-- A launched line has made no progress for 1,024 frets while nothing it waits for is missing (R505). -/
def doProgressTimeout (c : Fin 96) (line : Nat) (w : World) : World :=
  match lineAt (w.d.course c.val) line, w.d.jobOf c.val line with
  | some l, some j =>
    if l.phase = .launched ∧ 1024 ≤ l.idle ∧ w.d.depOver c.val l.ln ∧
        w.windowOver j.ctx c.val l.ln then
      w.escalate (c.val / 12) l.ln.unit
    else w
  | _, _ => w

/-! ## The commands -/

/-- FENCE_START (R493). -/
def execFenceStart (t : Fin 8) (s : State) : Host.Outcome State Fault Refusal :=
  runLive s (doFenceStart t)

/-- CORE_RESET_ASSERT (R510). -/
def execCoreResetAssert (t : Fin 8) (s : State) : Host.Outcome State Fault Refusal :=
  runLive s (doCoreResetAssert t)

/-- CORE_RESET_RELEASE (R510). -/
def execCoreResetRelease (t : Fin 8) (s : State) : Host.Outcome State Fault Refusal :=
  runLive s (doCoreResetRelease t)

/-- CORE_RESET_WAIT_TIMEOUT (R508). -/
def execCoreResetWaitTimeout (t : Fin 8) (s : State) : Host.Outcome State Fault Refusal :=
  runLive s (doCoreResetWaitTimeout t)

/-- CORE_ESCALATION (R505). -/
def execCoreEscalation (t : Fin 8) (unit : BitVec 4) (s : State) : Host.Outcome State Fault Refusal :=
  runLive s (doCoreEscalation t unit)

/-- PROGRESS_TIMEOUT (R505). -/
def execProgressTimeout (c : Fin 96) (line : Nat) (s : State) : Host.Outcome State Fault Refusal :=
  runLive s (doProgressTimeout c line)

/-- POWER_ON_RESET (R503). -/
def execPowerOnReset (s : State) : Host.Outcome State Fault Refusal :=
  run s doPowerOnReset

/-- UNDERVOLTAGE (R503). -/
def execUndervoltage (s : State) : Host.Outcome State Fault Refusal :=
  run s doUndervoltage

/-- REGULATOR_SHUTDOWN (R548). -/
def execRegulatorShutdown (s : State) : Host.Outcome State Fault Refusal :=
  run s doRegulatorShutdown

/-- CLOCK_LOSS (R503). -/
def execClockLoss (s : State) : Host.Outcome State Fault Refusal :=
  run s doClockLoss

/-- POWER_ON_RESET_RELEASE (R511). -/
def execPowerOnResetRelease (r : ReleaseInput) (s : State) : Host.Outcome State Fault Refusal :=
  run s (doPowerOnResetRelease r)

/-- SYS_RST_PIN (R503). -/
def execSysRstPin (s : State) : Host.Outcome State Fault Refusal :=
  run s doSysRstPin

/-- SYSTEM_RESET_RELEASE (R511). -/
def execSystemResetRelease (r : ReleaseInput) (s : State) : Host.Outcome State Fault Refusal :=
  run s (doSystemResetRelease r)

/-- TRIP_HOLD_RELEASE (R529). -/
def execTripHoldRelease (s : State) : Host.Outcome State Fault Refusal :=
  run s doTripHoldRelease

end Sys2Proof.Machine
end

