-- ==== Sys2Proof/Machine/Thermal.lean ====
section
/-! DEFINITION. The housekeeping round (R516 to R530, R485, R495): rails, sensors, levels, trips, clock sites, wear, lane counts;
and what follows DRAM temperature and scrubbing (R274, R275). -/

namespace Sys2Proof.Machine

/-! ## Sensors (R519 to R523) -/

/-- The die of a local sensor: 0 compute, 1 near store, 2 and 3 deep-store dies A and B, 4 root (R519). -/
def sensorDie (k : Nat) : Nat := if k < 24 then 0 else if k < 30 then 1 else if k < 34 then 2 else if k < 38 then 3 else 4

/-- The limits of a die in 1/16 °C: throttle level 1, throttle level 2, trip (R524). -/
def dieLimits (die : Nat) : Int × Int × Int :=
  if die < 2 then (1600, 1696, 1792) else if die = 4 then (1600, 1696, 1760) else (1440, 1536, 1600)

/-- The neighbours of a sensor (R521). -/
def sensorNeighbours (k : Nat) : List Nat :=
  (List.range 46).filter (fun j => j != k &&
    if k < 24 then decide (j < 24) && decide (j / 6 ≤ k / 6 + 1) && decide (k / 6 ≤ j / 6 + 1) &&
      decide (j % 6 ≤ k % 6 + 1) && decide (k % 6 ≤ j % 6 + 1)
    else sensorDie j == sensorDie k)

/-- Insertion into a rising list of integers. -/
def insertInt (x : Int) : List Int → List Int
  | [] => [x]
  | y :: ys => if x ≤ y then x :: y :: ys else y :: insertInt x ys

/-- The median of n values: the ⌈n / 2⌉-th smallest (R521). -/
def median (xs : List Int) : Int := (xs.foldr insertInt []).getD (ceilDiv xs.length 2 - 1) 0

/-- A number as a signed 16-bit field. -/
def field16 (x : Int) : Nat := (x % 65536).toNat

/-- What a round finds of one sensor. -/
structure SensorRound where
  k : Nat
  reading : Option Int
  implausible : Bool
  suspect : Bool
  newly : Bool
  zone : Int
  substituted : Bool
  forced : Bool

/-- Whether a zone counts towards a trip (R528). -/
def SensorRound.counts (s : SensorRound) : Bool := !s.suspect && !s.implausible

def THM_SENSOR (t k : Nat) : Nat := THM t + 0x100 + k * 8

/-- The readings of the sensors of a tower in a round. -/
def sensorReading (r : RoundInput) (t k : Nat) : Option Int :=
  match r.sensors.getD (46 * t + k) none with
  | some v => some v.toInt
  | none => none

/-- A reading that makes a sensor suspect at once: out of range or timed out (R522). -/
def hardFault (v : Option Int) : Bool :=
  match v with
  | none => true
  | some x => decide (x < -640) || decide (2400 < x)

/-- The median test of R522, among the neighbours in `ok`. -/
def medianFails (reading : Nat → Option Int) (ok : Nat → Bool) (k : Nat) : Bool :=
  let ns := ((sensorNeighbours k).filter ok).filterMap reading
  match reading k with
  | none => false
  | some v => decide (3 ≤ ns.length) && (decide (192 < v - median ns) || decide (192 < median ns - v))

/-- The sensors of tower t in a round: suspicion (R522) and zone values (R523). -/
def Dev.sensorRounds (d : Dev) (t : Nat) (r : RoundInput) : List SensorRound :=
  let reading := sensorReading r t
  let was (k : Nat) : Bool := d.fld (THM_SENSOR t k) 0 0 == 1
  let hard (k : Nat) : Bool := hardFault (reading k)
  let ok1 (k : Nat) : Bool := !was k && !hard k
  let soft (k : Nat) : Bool := !hard k && medianFails reading ok1 k
  let sus (k : Nat) : Bool :=
    let g := 46 * t + k
    if hard k then true
    else if was k then !(!soft k && decide (100 ≤ tget 0 d.board.goodRun g + 1))
    else soft k && decide (3 ≤ tget 0 d.board.badRun g + 1)
  (List.range 46).map (fun k =>
    let s := sus k
    let imp := hard k || soft k
    let near := ((sensorNeighbours k).filter (fun j => !sus j)).filterMap reading
    let own := !s && !imp
    let forced := !own && decide (near.length < 2)
    { k := k, reading := reading k, implausible := imp, suspect := s, newly := s && !was k,
      zone := if own then (reading k).getD 0
        else if forced then (dieLimits (sensorDie k)).1
        else near.foldl max (near.headD 0) + 80,
      substituted := !own && !forced, forced := forced })

/-- The rise of a zone over 10 rounds, when it is computed (R525). -/
def Dev.rise (d : Dev) (t : Nat) (s : SensorRound) : Option Int :=
  if s.substituted || s.forced then none
  else match (tget [] d.board.zoneHist (46 * t + s.k)).getD 9 none with
    | some old => some (s.zone - old)
    | none => none

/-- The level a zone calls for (R526). -/
def zoneLevel (s : SensorRound) (rise : Option Int) : Nat :=
  let lim := dieLimits (sensorDie s.k)
  let up := rise.getD 0
  if lim.2.1 ≤ s.zone ∨ 240 < up then 2
  else if lim.1 ≤ s.zone ∨ 128 < up ∨ s.forced then 1
  else 0

/-- Record one sensor of a round: its register, its history and its runs. -/
def Dev.recordSensor (d : Dev) (t : Nat) (s : SensorRound) : Dev :=
  let g := 46 * t + s.k
  let rise := (d.rise t s).getD 0
  let b2n (b : Bool) := if b then 1 else 0
  let word := (field16 s.zone <<< 48) + (field16 (s.reading.getD 0) <<< 32) + (field16 rise <<< 16) +
    8 * b2n s.reading.isNone + 4 * b2n s.forced + 2 * b2n s.substituted + b2n s.suspect
  let soft := s.implausible && !hardFault s.reading
  let hot := s.counts && decide ((dieLimits (sensorDie s.k)).2.2 ≤ s.zone)
  let d := d.setReg (THM_SENSOR t s.k) (BitVec.ofNat 64 word)
  { d with board := { d.board with
      zoneHist := tput d.board.zoneHist g
        (((if s.substituted || s.forced then none else some s.zone) :: tget [] d.board.zoneHist g).take 10)
      badRun := tput d.board.badRun g (if soft then tget 0 d.board.badRun g + 1 else 0)
      goodRun := tput d.board.goodRun g (if s.implausible then 0 else tget 0 d.board.goodRun g + 1)
      tripRun := tput d.board.tripRun g (if hot then tget 0 d.board.tripRun g + 1 else 0) } }

/-- The zone with the highest value among those that count, the lowest index first. -/
def hottest (rs : List SensorRound) : Option Nat :=
  ((rs.filter (·.counts)).foldl (fun (b : Option SensorRound) s => match b with
    | none => some s
    | some h => if h.zone < s.zone then some s else some h) none).map (·.k)

/-- The temperature part of a round in tower t: the level it calls for, and whether a rise is a warning. -/
def World.towerTemps (w : World) (t : Nat) (r : RoundInput) : World × Nat × Bool :=
  let rs := w.d.sensorRounds t r
  let rises := rs.map (fun s => (s, w.d.rise t s))
  let level := rises.foldl (fun n e => max n (zoneLevel e.1 e.2)) 0
  let warn := rises.any (fun e => decide (64 < e.2.getD 0))
  let oldLevel := w.d.fld (THM t) 1 0
  let oldWarn := w.d.fld (THM t) 2 2 == 1
  let wasForced (k : Nat) : Bool := w.d.fld (THM_SENSOR t k) 2 2 == 1
  let newForced := rs.filter (fun s => s.forced && !wasForced s.k)
  let newSus := rs.filter (·.newly)
  let hot := (hottest rs).getD (w.d.fld (THM t) 15 8)
  let w := w.onDev (fun d => rs.foldl (fun d s => d.recordSensor t s) d)
  let b2n (b : Bool) := if b then 1 else 0
  let w := w.setReg (THM t) (BitVec.ofNat 64
    (((rs.filter (·.suspect)).length <<< 24) + ((rs.filter (·.forced)).length <<< 16) + (hot <<< 8) + 4 * b2n warn + level))
  let w := if level ≠ oldLevel then w.count (THM t + 0x10) 31 0 1 else w
  let w := if warn && !oldWarn then w.count (THM t + 0x10) 63 32 1 else w
  let w := if 1 ≤ level then w.setBit (THM t + 0x18) 0 else w
  let w := if warn then w.setBit (THM t + 0x18) 1 else w
  let w := if newSus.isEmpty then w else w.setBit (THM t + 0x18) 2
  let w := if newForced.isEmpty then w else w.setBit (THM t + 0x18) 3
  let w := rs.foldl (fun w s =>
    if s.newly || (s.forced && !wasForced s.k) then
      w.log { entry 0x43 t 0x14 with index := 46 * t + s.k }
    else w) w
  (w, level, warn)

/-! ## Rails and input power (R516 to R518, R548) -/

/-- Nominal voltage in mV and window in percent of rail n (R516). -/
def railSpec (n : Nat) : Nat × Nat :=
  match n with
  | 2 => (1100, 3)
  | 4 => (900, 2)
  | 5 => (1800, 5)
  | _ => (750, 3)

/-- Whether a rail's voltage lies outside its window. -/
def railOut (n mv : Nat) : Bool :=
  let (nom, pct) := railSpec n
  decide (nom * pct < (mv - nom) * 100) || decide (nom * pct < (nom - mv) * 100)

/-- Record one rail of a round (R517). -/
def World.railRound (w : World) (i mv cur : Nat) : World :=
  let t := i / 6
  let n := i % 6
  let a := THM t + 0x40 + 8 * n
  let out := railOut n mv
  let run := if out then tget 0 w.d.board.railRun i + 1 else 0
  let was := w.d.fld a 0 0 == 1
  let w := w.onDev (fun d => { d with board := { d.board with railRun := tput d.board.railRun i run } })
  let w := w.setFld a 47 32 mv
  let w := w.setFld a 31 16 cur
  let w := if out then w.setBit a 1 else w
  let w := w.setFld a 0 0 (if 3 ≤ run then 1 else 0)
  if 3 ≤ run ∧ !was then w.log { entry 0x44 t 0x15 with index := i } else w

/-- The key of the input among the rail runs. -/
def inputKey : Nat := 48

/-- Whether the input or a rail is out of its window (R517, R548). -/
def Dev.railAlert (d : Dev) : Bool :=
  decide (3 ≤ tget 0 d.board.railRun inputKey) ||
  (List.range 48).any (fun i => d.fld (THM (i / 6) + 0x40 + 8 * (i % 6)) 0 0 == 1)

/-- ALERT_N: low while any source enabled in THM_DEVICE is active (R514, R533). -/
def Dev.alert (d : Dev) : Dev :=
  let mask := d.fld THM_DEVICE 31 24
  let faults := (List.range 8).foldl (fun n t => n ||| d.fld (THM t + 0x18) 3 0) 0
  let src := faults + (if d.railAlert then 16 else 0) + (if d.board.leak then 32 else 0)
  { d with board := { d.board with alertN := (src &&& mask) % 64 == 0 } }

/-- PWR_LIMIT in W (R533). -/
def Dev.powerLimit (d : Dev) : Nat := min 2800 (max 1000 (d.fld PWR_LIMIT 11 0))

/-- THERMAL_LEVEL contributed: the greater of the power level and the thermal level (R518). -/
def Dev.contrib (d : Dev) : Dev := d.setFld THM_DEVICE 5 4 (max (d.fld THM_DEVICE 3 2) (d.fld THM_DEVICE 1 0))

/-- A level of the device has changed: THERMAL is sent, and an entry logged at level 1 or 2 (R527, R518, R534). -/
def World.levelChanged (w : World) (level source : Nat) : World :=
  let st := if level = 0 then stOk else stThermal
  let w := if w.d.level = .run then w.event 0x80F st (BitVec.ofNat 16 level) 0xFFFF [] else w
  if level = 0 then w
  else w.log { entry 0x41 0xFF source with status := st, detail := BitVec.ofNat 16 level, param := level, event := 0x80F,
                                           flags := 2 }

/-- The power level after a round (R518). -/
def World.powerRound (w : World) (pin : Nat) : World :=
  let lim := w.d.powerLimit
  let lv := w.d.fld THM_DEVICE 3 2
  let ovr := if lim < pin then w.d.board.overRun + 1 else 0
  let under := if pin * 100 < lim * 95 then w.d.board.underRun + 1 else 0
  let up := decide (3 ≤ ovr) && decide (lv < 2)
  let down := decide (10 ≤ under) && decide (0 < lv)
  let new := if up then lv + 1 else if down then lv - 1 else lv
  let w := w.onDev (fun d =>
    let d : Dev := { d with board := { d.board with
      overRun := if up then 0 else ovr
      underRun := if down then 0 else under } }
    d.setFld THM_DEVICE 3 2 new)
  if new ≠ lv then w.levelChanged new 0x15 else w

/-- The thermal level after a round that calls for a level (R527). -/
def World.thermalRound (w : World) (called : Nat) : World :=
  let lv := w.d.fld THM_DEVICE 1 0
  let run := if called < lv then w.d.board.levelRun + 1 else 0
  let new := if lv < called then called else if 100 ≤ run then lv - 1 else lv
  let w := w.onDev (fun d =>
    let d : Dev := { d with board := { d.board with levelRun := if new ≠ lv then 0 else run } }
    d.setFld THM_DEVICE 1 0 new)
  if new ≠ lv then w.levelChanged new 0x14 else w

/-! ## Clock sites (R485) -/

/-- The good clock sites of one layer of a tower in a round. -/
def World.clockRound (w : World) (t l good : Nat) : World :=
  let lo := 4 * l
  let old := w.d.fld (STK t + 0x48) (lo + 3) lo
  let n (x : Nat) : Nat := ((List.range 4).filter (bitOf x)).length
  let w := w.setFld (STK t + 0x48) (lo + 3) lo good
  if n good = 1 ∧ n old ≠ 1 then w.stackEvent t 0 0 0 0 4 (l + 1) stOk 0x34
  else if n good = 0 ∧ n old ≠ 0 then
    let w := w.setBit (STK t + 0x50) 4
    let w := w.stackEvent t 0 0 4 0 4 (l + 1) stStackDegraded 0x33
    w.fenceTower t
  else w

/-- CLOCK_WARN: a layer of the tower has one good site. -/
def Dev.clockWarn (d : Dev) (t : Nat) : Dev :=
  let one := (List.range 4).any (fun l =>
    ((List.range 4).filter (bitOf (d.fld (STK t + 0x48) (4 * l + 3) (4 * l)))).length == 1)
  d.setFld (STK t) 5 5 (if one then 1 else 0)

/-! ## The round (R520) -/

/-- REFRESH_2X: the hottest of a DRAM die's sensors reads above 85 °C (R275). -/
def Dev.refreshRate (d : Dev) (t : Nat) (r : RoundInput) : Dev :=
  let hot := (List.range 8).any (fun k => match sensorReading r t (30 + k) with
    | some v => decide (1360 < v)
    | none => false)
  d.setFld (MEMR t) 2 2 (if hot then 1 else 0)

/-- The wear temperature of a tower: the highest reading among its healthy compute sensors (R495). -/
def Dev.wearTemp (d : Dev) (t : Nat) (r : RoundInput) : Option Int :=
  let rs := ((List.range 24).filter (fun k => d.fld (THM_SENSOR t k) 0 0 == 0)).filterMap (sensorReading r t)
  match rs with
  | [] => none
  | x :: xs => some (xs.foldl max x)

/-- The lane counters of a round: corrected symbols are counted, and a lane above its limit fails (R344, R420). -/
def World.laneRound (w : World) (e : Fin 32 × Fin 8 × Nat) : World :=
  let l := e.1.val
  if laneCount l ≤ e.2.1.val then w
  else
    let w := w.count (linkFec l) 31 0 e.2.2
    let lim := if l < 24 then w.d.fld (EFR (l / 3) + 8) 23 0 else w.d.fld HL_LANE_LIMIT 23 0
    if lim < e.2.2 then w.lanesFail l (2 ^ e.2.1.val) else w

/-- Every zone that counts stands at least 15 °C below its trip limit (R529). -/
def Dev.cooled (d : Dev) : Bool :=
  (List.range 8).all (fun t => (List.range 46).all (fun k =>
    let a := THM_SENSOR t k
    d.fld a 3 0 != 0 ||
      decide (signedOf 16 (d.fld a 63 48) ≤ (dieLimits (sensorDie k)).2.2 - 240)))

/-- The sensors, rails and levels of a round: what the housekeeping sequencer does in every reset level but power-on. -/
def World.measure (w : World) (r : RoundInput) : World :=
  let w := (List.range 48).foldl (fun w i => w.railRound i (r.railMv.getD i 0).toNat (r.railCur.getD i 0).toNat) w
  let vin := r.vin.toNat
  let w := w.onDev (fun d =>
    let run := if vin < 4000 ∨ 6000 < vin then tget 0 d.board.railRun inputKey + 1 else 0
    { d with board := { d.board with railRun := tput d.board.railRun inputKey run } })
  let w := w.setReg PWR_INPUT (BitVec.ofNat 64 ((vin <<< 32) + (r.iin.toNat <<< 16) + r.pin.toNat))
  let s := (List.range 8).foldl (fun (s : World × Nat × Bool) t =>
    let x := s.1.towerTemps t r
    (x.1, max s.2.1 x.2.1, s.2.2 || x.2.2)) (w, 0, false)
  let w := s.1
  let onset := s.2.2 && !w.d.board.warnNow
  let w := w.onDev (fun d => { d with board := { d.board with warnNow := s.2.2, rounds := d.board.rounds + 1 } })
  let w := if onset then
      let st := if w.d.fld THM_DEVICE 1 0 = 0 then stOk else stThermal
      let w := if w.d.level = .run then w.event 0x80F st 3 0xFFFF [] else w
      w.log { entry 0x40 0xFF 0x14 with status := st, detail := 3, event := 0x80F }
    else w
  let w := (w.thermalRound s.2.1).powerRound r.pin.toNat
  let w := w.onDev (fun d => { d.contrib with board := { d.board with
    coolRounds := if d.cooled then d.board.coolRounds + 1 else 0 } })
  w.onDev (fun d => d.alert)

/-- Whether a zone that counts has stood at its trip limit for 2 rounds (R529). -/
def Dev.tripped (d : Dev) : Bool := d.board.tripRun.any (fun e => decide (2 ≤ e.2))

/-- A housekeeping round (R520). -/
def doHousekeepingRound (r : RoundInput) (w : World) : World :=
  if w.d.level = .powerOn then w
  else
    let w := w.measure r
    if w.d.level ≠ .run then w
    else if w.d.tripped then w.systemReset 6 true
    else
      let w := (List.range 8).foldl (fun w t =>
        let w := (List.range 4).foldl (fun w l => w.clockRound t l (r.sites.getD (4 * t + l) 0xF).toNat) w
        let w := w.onDev (fun d => (d.clockWarn t).refreshRate t r)
        match w.d.wearTemp t r with
        | some v => (w.onDev (fun d => d.onTower t (fun x => x.wear v))).wearStatus t
        | none => w) w
      let w := r.lanes.foldl World.laneRound w
      let w := r.uncorrected.foldl (fun (w : World) e => w.count (linkFec e.1.val) 63 32 e.2) w
      let w := w.onDev (fun d => { d with wardens := d.wardens.map (fun (e : Nat × Warden) =>
        (e.1, { e.2 with dog := e.2.dog.map (· + 1) })) })
      if w.d.fld HL_STATUS 9 9 = 1 ∧ w.d.custodyWarden.isSome ∧ !w.d.restarting then w.onDev (fun d => d.drainLog) else w

/-! ## The deep store (R274, R275) -/

/-- A DRAM refresh changes no value and no budget (R275). -/
def doDramRefresh (_t : Fin 8) (_die : Fin 2) (w : World) : World := w

/-- Patrol scrub of a tower (R274): corrected words are counted; a word it cannot correct leaves its block's check inverted. SCRUB_ACTIVE
stays set from then on until ENABLE is cleared: no row tells that the pass over the store is at its end (DESIGN CHOICE, log 110). -/
def doPatrolScrub (t : Fin 8) (corrected : Nat) (bad : List Nat) (w : World) : World :=
  if w.d.fld (MEMR t.val + 0x48) 31 31 = 1 then
    let w := (w.setBit (MEMR t.val) 1).count (MEMR t.val + 0x40) 31 0 corrected
    bad.foldl (fun w a => w.deepUncorrected t.val a) w
  else w

/-! ## The commands -/

/-- HOUSEKEEPING_ROUND (R520). -/
def execHousekeepingRound (r : RoundInput) (s : State) : Host.Outcome State Fault Refusal :=
  run s (doHousekeepingRound r)

/-- DRAM_REFRESH (R275). -/
def execDramRefresh (t : Fin 8) (die : Fin 2) (s : State) : Host.Outcome State Fault Refusal :=
  runLive s (doDramRefresh t die)

/-- PATROL_SCRUB (R274). -/
def execPatrolScrub (t : Fin 8) (corrected : Nat) (bad : List Nat) (s : State) : Host.Outcome State Fault Refusal :=
  runLive s (doPatrolScrub t corrected bad)

end Sys2Proof.Machine
end

