-- ==== Sys2Proof/Machine/RegIO.lean ====
section
/-! DEFINITION. Reading and writing a register (R12 to R19): the registers whose value follows other state as it stands, and the
writes that do more than set a field. -/

namespace Sys2Proof.Machine

/-- The number of contexts of tower t's table in given states (R417). -/
def Dev.ctxCount (d : Dev) (t : Nat) (p : CtxSt → Bool) : Nat :=
  (d.ctxs.filter (fun e => decide (e.1 / 1280 = t) && p e.2.st)).length

/-- CTX_COUNTS of tower t. -/
def Dev.ctxCounts (d : Dev) (t : Nat) : Nat :=
  (d.ctxCount t (· == .faulted) <<< 48) + (d.ctxCount t (· == .parked) <<< 32) +
  (d.ctxCount t (fun s => s == .runnable || s == .resident) <<< 16) + d.ctxCount t (· == .loaded)

/-- CTX_VIEW_n of tower t: descriptor bytes 8n to 8n + 7 of the selected entry. -/
def Dev.ctxView (d : Dev) (t n : Nat) : Nat :=
  let e := d.fld (CTXR t + 8) 10 0
  if 1280 ≤ e then 0 else numAt (d.descriptor (1280 * t + e)) (8 * n) 8

/-- STK_VIEW of tower t: the bundle that STK_SEL selects. -/
def Dev.stkView (d : Dev) (t : Nat) : Nat :=
  let cls := d.fld (STK t + 8) 18 16
  let i := d.fld (STK t + 8) 8 0
  if bundleCount t cls ≤ i then 0
  else
    let b := d.bundle (bundleKey t cls i)
    (min b.replays (2 ^ 32 - 1) <<< 32) + (min b.transients 255 <<< 24) + (min b.lasting 255 <<< 16) +
    (min b.failed.length 255 <<< 8) + (min (freeSpares cls b).length 15 <<< 4) +
      (if d.fenced t && cls != 4 then 5 else b.state)

/-- STK_COUNTS of tower t. -/
def Dev.stkCounts (d : Dev) (t : Nat) : Nat :=
  let mine := d.bundles.filter (fun e => decide (keyTower e.1 = t))
  let n (p : Nat → Bool) := (mine.filter (fun e => p e.2.state)).length
  let total := (List.range 5).foldl (fun s c => s + bundleCount t c) 0
  let failed := n (· == 4)
  let half := n (fun s => s == 2 || s == 3)
  let spared := n (· == 1)
  (failed <<< 48) + (half <<< 32) + (spared <<< 16) + (total - failed - half - spared)

/-- CC_STATUS of course c: SET_VALID, ROUTINE_BUSY and LINES_PENDING follow the sets, the engine and the line buffer. -/
def Dev.ccStatus (d : Dev) (c : Nat) : Nat :=
  let x := d.course c
  let v := rget d.regs (CC_STATUS c)
  let valid := ofBits ((List.range 4).map (fun n => (d.setCtxOf c n).isSome))
  (valid <<< 8) + (fieldOf v 5 4 <<< 4) + (if x.routine.isSome then 8 else 0) +
  (if x.lines.any (fun l => l.phase.running) then 4 else 0) + fieldOf v 0 0

/-- NBR_RANK, NBR_PORT, TRUNK and TRANSIT of a peer port: the own rank's entry of the route image, zero outside a hedge
(R347, R350). -/
def Dev.portEntry (d : Dev) (l : Nat) : Nat :=
  let e := routeEntry d.hedge.route d.hedge.rank l
  if d.hedge.joined && !d.hedge.route.isEmpty && entryValid e then
    (entryRank e <<< 14) + (entryPort e <<< 9) + (entryTrunk e <<< 4) + entryTransit e
  else 0

/-- The word that a listed register holds at this moment. The bundles of a tower are counted once a release has trained them
(R492): until then STK_VIEW and STK_COUNTS hold their reset values (R13). -/
def Dev.liveWord (d : Dev) (a : Nat) : W64 :=
  let off := a % 0x10000
  let t := a / 0x1000000
  let blk := (a / 0x10000) % 256
  if 0x10000000 ≤ a then
    let c := (a - 0x10000000) / 0x10000
    if off = 0 then BitVec.ofNat 64 (d.ccStatus c)
    else if 0x100 ≤ off ∧ off < 0x500 then d.sreg c ((off - 0x100) / 0x100) ((off % 0x100) / 8)
    else rget d.regs a
  else if a = THM_DEVICE then withField (rget d.regs a) 8 8 (if d.board.leak then 1 else 0)
  else if a = FT_DRONE_LOCAL then d.localFlags
  else if blk = 8 ∧ off = 0 then BitVec.ofNat 64 (d.ctxCounts t)
  else if blk = 8 ∧ 0x100 ≤ off then BitVec.ofNat 64 (d.ctxView t ((off - 0x100) / 8))
  else if blk = 9 ∧ (off = 0x10 ∨ off = 0x18) then
    if d.level = .run then BitVec.ofNat 64 (if off = 0x10 then d.stkView t else d.stkCounts t) else 0
  else if 0x40100 ≤ a ∧ a < 0x40300 ∧ (a - 0x40100) % 0x40 = 0 then
    let q := (a - 0x40100) / 0x40
    withField (rget d.regs a) 6 0 (d.hl.far.filter (fun r => r.sent && r.quarter == q)).length
  else if blk = 5 ∧ 0x100 ≤ off ∧ off < 0x280 ∧ (off - 0x100) % 0x80 = 0 then
    withField (rget d.regs a) 63 40 (d.portEntry (3 * t + (off - 0x100) / 0x80))
  else if blk = 0xA ∧ off = 0 then withField (rget d.regs a) 3 1 d.fw.state
  else rget d.regs (regHome a)

/-- What a read of a register returns: none for an address that no register map lists (R14, R17). -/
def Dev.readReg (d : Dev) (a : Nat) : Option W64 :=
  match regRow a with
  | some r => some (rowRead r (d.liveWord a))
  | none => none

/-- A write of FH_CTRL or FH_WINDOW starts the window over (R134). -/
def World.writeFh (w : World) (a : Nat) (v : W64) : World :=
  match regRow a with
  | some r => w.onDev (fun d => { d.setReg a (rowWrite r (rget d.regs a) v) with fhRestart := true })
  | none => w

/-- A write of MEM_FAR_BUDGET sets the bound B and revalidates every loaded context (R277). -/
def World.writeFarBudget (w : World) (v : W64) : World :=
  (w.setFld MEM_FAR_BUDGET 19 0 (v.toNat % 2 ^ 20)).revalidate stPlanOverrun

/-- The link a control register belongs to: EF_PORT_k_CTRL or HL_QUARTER_n_CTRL. -/
def ctrlLink (a : Nat) : Option Nat := (List.range 32).find? (fun l => linkCtrl l == a)

/-- Write a listed register under its access codes, with the action of a WO field or of a register with a row of its own
(R12); none for an address that no register map lists (R17). -/
def World.writeReg (w : World) (a : Nat) (v : W64) : Option World :=
  match regRow a with
  | none => none
  | some r =>
    some (
      if a = FH_CTRL ∨ a = FH_WINDOW then w.writeFh a v
      else if a = MEM_FAR_BUDGET then w.writeFarBudget v
      else match ctrlLink a with
        | some l =>
          let on := fieldOf v 1 1 == 1
          let w := if on != w.d.linkDisabled l then w.setDisable l on else w
          if fieldOf v 0 0 = 1 then w.setRetrainFull l else w
        | none =>
          if a % 0x1000000 = 0x90040 ∧ a < 0x08000000 then (if fieldOf v 0 0 = 1 then w.onDev (fun d => d.writeWear) else w)
          else
            let a := regHome a
            let w := w.onDev (fun d => d.setReg a (rowWrite r (rget d.regs a) v))
            if a = HL_CTRL then w.onDev (fun d => d.hlStatus)
            else if a % 0x1000000 = 0x60048 ∧ a < 0x08000000 ∧ fieldOf v 31 31 = 0 then w.setFld (a - 0x48) 1 1 0
            else if (a / 0x10000) % 256 = 2 ∧ a < 0x08000000 then w.onDev (fun d => d.alert)
            else w)

def doMemFarBudgetWrite (v : W32) (w : World) : World := w.writeFarBudget (v.zeroExtend 64)
def doFhCtrlWrite (v : W32) (w : World) : World := w.writeFh FH_CTRL (v.zeroExtend 64)
def doFhWindowWrite (v : W32) (w : World) : World := w.writeFh FH_WINDOW (v.zeroExtend 64)

/-! ## The commands -/

/-- MEM_FAR_BUDGET_WRITE (R277). -/
def execMemFarBudgetWrite (v : W32) (s : State) : Host.Outcome State Fault Refusal :=
  runLive s (doMemFarBudgetWrite v)

/-- FH_CTRL_WRITE (R134). -/
def execFhCtrlWrite (v : W32) (s : State) : Host.Outcome State Fault Refusal :=
  runLive s (doFhCtrlWrite v)

/-- FH_WINDOW_WRITE (R134). -/
def execFhWindowWrite (v : W32) (s : State) : Host.Outcome State Fault Refusal :=
  runLive s (doFhWindowWrite v)

end Sys2Proof.Machine
end

