-- ==== Sys2Proof/Machine/Shake.lean ====
section
/-! DEFINITION. SHAKE256 (R448): the FIPS 202 extendable-output function over bytes, rate 136, domain suffix 0x1F. -/

namespace Sys2Proof.Machine

/-- The round constants of Keccak-f[1600]. -/
def keccakConsts : List W64 := [
  0x0000000000000001, 0x0000000000008082, 0x800000000000808A, 0x8000000080008000, 0x000000000000808B, 0x0000000080000001,
  0x8000000080008081, 0x8000000000008009, 0x000000000000008A, 0x0000000000000088, 0x0000000080008009, 0x000000008000000A] ++ [
  0x000000008000808B, 0x800000000000008B, 0x8000000000008089, 0x8000000000008003, 0x8000000000008002, 0x8000000000000080,
  0x000000000000800A, 0x800000008000000A, 0x8000000080008081, 0x8000000000008080, 0x0000000080000001, 0x8000000080008008]

/-- The rotation of lane x + 5y. -/
def keccakRot : List Nat :=
  [0, 1, 62, 28, 27, 36, 44, 6, 55, 20, 3, 10, 43, 25, 39, 41, 45, 15, 21, 8, 18, 2, 61, 56, 14]

/-- One round of Keccak-f[1600] over 25 lanes. -/
def keccakRound (a : List W64) (rc : W64) : List W64 :=
  let g (l : List W64) (i : Nat) : W64 := l.getD i 0
  let c := (List.range 5).map (fun x => g a x ^^^ g a (x + 5) ^^^ g a (x + 10) ^^^ g a (x + 15) ^^^ g a (x + 20))
  let e := (List.range 5).map (fun x => g c ((x + 4) % 5) ^^^ (g c ((x + 1) % 5)).rotateLeft 1)
  let t := (List.range 25).map (fun i => g a i ^^^ g e (i % 5))
  let b := (List.range 25).map (fun i =>
    let src := (i % 5 + 3 * (i / 5)) % 5 + 5 * (i % 5)
    (g t src).rotateLeft (keccakRot.getD src 0))
  let r := (List.range 25).map (fun i =>
    let y := 5 * (i / 5)
    g b i ^^^ (~~~ (g b (y + (i + 1) % 5)) &&& g b (y + (i + 2) % 5)))
  match r with
  | [] => []
  | x :: xs => (x ^^^ rc) :: xs

def keccakF (a : List W64) : List W64 := keccakConsts.foldl keccakRound a

/-- Absorb one block of 136 bytes. -/
def absorb (a : List W64) (blk : List Byte) : List W64 :=
  keccakF ((List.range 25).map (fun i =>
    a.getD i 0 ^^^ (if i < 17 then BitVec.ofNat 64 (numAt blk (8 * i) 8) else 0)))

/-- A message padded for the rate of 136 bytes. -/
def shakePad (m : List Byte) : List Byte :=
  let q := 136 - m.length % 136
  if q = 1 then m ++ [0x9F#8] else m ++ [0x1F#8] ++ List.replicate (q - 2) 0#8 ++ [0x80#8]

/-- The output bytes of `n` squeezed blocks. -/
def squeeze : Nat → List W64 → List Byte
  | 0, _ => []
  | n + 1, a => (a.take 17).flatMap (fun l => leBytes 8 l.toNat) ++ squeeze n (keccakF a)

/-- The first `n` bytes of the SHAKE256 output over a message. -/
def shake256 (n : Nat) (m : List Byte) : List Byte :=
  let p := shakePad m
  let a := (chunks 136 (p.length / 136) p).foldl absorb (List.replicate 25 0)
  (squeeze (ceilDiv n 136) a).take n

end Sys2Proof.Machine
end

