-- ==== Sys2Proof/Machine/Warden.lean ====
section
/-! DEFINITION. The wardens (R448 to R474): the OTP array, manifests and their verification, boot, attestation, field update and
activation, heartbeats and custody. -/

namespace Sys2Proof.Machine

/-! ## The OTP array (R450, R451) -/

/-- Byte i of the OTP array as it stands. -/
def Dev.otp (d : Dev) (i : Nat) : Byte := BitVec.ofNat 8 (ofBits ((List.range 8).map (fun k => d.otpBit (8 * i + k))))

def Dev.otpBytes (d : Dev) (a n : Nat) : List Byte := (List.range n).map (fun i => d.otp (a + i))

def Dev.serial (d : Dev) : List Byte := d.otpBytes 144 16

/-- The floor of target t: consecutive 1 bits from bit 0 up (R451). -/
def Dev.floor (d : Dev) (t : Nat) : Nat :=
  (firstBelow (fun i => !d.otpBit ((160 + 8 * (t - 1)) * 8 + i)) 64 0).getD 64

/-- The floors of targets 1 to 8, one byte each. -/
def Dev.floors (d : Dev) : List Byte := (List.range 8).map (fun i => BitVec.ofNat 8 (d.floor (i + 1)))

/-- Raise a floor to v by burning bits in ascending order (R451). -/
def Dev.raiseFloor (d : Dev) (t v : Nat) : Dev :=
  let f := d.floor t
  { d with fw := { d.fw with
      burnt := d.fw.burnt ++ (List.range (v - f)).map (fun i => (160 + 8 * (t - 1)) * 8 + f + i) } }

/-! ## Manifests and images (R452 to R454) -/

/-- A component image of a slot: as written since, or as shipped. Component 0 is the manifest. -/
def Dev.image (d : Dev) (slot comp : Nat) : List Byte :=
  match tfind d.fw.images (16 * slot + comp) with
  | some b => b
  | none => (List.range (Config.flashLen slot comp)).map (Config.flashByte slot comp)

/-- The manifest entry of target t (R453). -/
structure Entry where
  target : Nat
  svn : Nat
  flags : Nat
  release : Nat
  length : Nat
  digest : List Byte
  zerosOk : Bool

def manEntry (m : List Byte) (t : Nat) : Entry :=
  let b := slice m (64 + 96 * (t - 1)) 96
  { target := numAt b 0 1, svn := numAt b 1 1, flags := numAt b 2 1, release := numAt b 4 2, length := numAt b 8 4,
    digest := slice b 16 64,
    zerosOk := zeroAt b 3 4 && zeroAt b 6 8 && zeroAt b 12 16 && zeroAt b 80 96 }

def Entry.carry (e : Entry) : Bool := e.flags == 1

/-- Check 0x01 (R453, R454): the component it fails at, if any. -/
def manFormat (m : List Byte) : Option Nat :=
  if !(numAt m 0 4 == 0x54464D4C && numAt m 4 2 == 1 && numAt m 6 1 == 7 && decide (numAt m 7 1 ≤ 1) &&
      numAt m 8 4 == 0x740 && zeroAt m 16 64 && zeroAt m 2529 2536 && zeroAt m 3816 4096) then some 0
  else (List.range 7).map (· + 1) |>.find? (fun t =>
    let e := manEntry m t
    !(e.target == t && decide (e.svn ≤ 63) && decide (e.flags ≤ 1) && e.length % 512 == 0 && e.zerosOk))

/-- Check 0x02: the root key (R454). -/
def Dev.rootOk (d : Dev) (m : List Byte) : Bool :=
  let n := numAt m 7 1
  !(d.otpBit (128 * 8 + n)) && shake256 64 (slice m 736 1793) == d.otpBytes (64 * n) 64

/-- Check 0x03: the signature over the manifest (R453, R454). -/
def sigOk (m : List Byte) : Bool :=
  Config.falconVerify (slice m 736 1793) (shake256 64 (slice m 0 2536)) (slice m 2536 1280)

/-- Check code and component as FW_VERIFY's DETAIL holds them (R454). -/
def checkDetail (code comp : Nat) : W16 := BitVec.ofNat 16 (code * 256 + comp)

/-- Records of a delta (R460): the output so far, or none when one is malformed. -/
def deltaRecords (base recs : List Byte) : Nat → Nat → List Byte → Option (List Byte)
  | 0, _, _ => none
  | fuel + 1, p, out =>
    if recs.length < p + 4 then none
    else
      let word := numAt recs p 4
      let kind := bitsOf word 31 30
      let len := bitsOf word 29 0
      let src := numAt recs (p + 4) 4
      match kind with
      | 0 => if recs.length < p + 8 || base.length < src + len then none
        else deltaRecords base recs fuel (p + 8) (out ++ slice base src len)
      | 1 => if recs.length < p + 4 + len then none
        else deltaRecords base recs fuel (p + 4 + 4 * ceilDiv len 4) (out ++ slice recs (p + 4) len)
      | 2 => if recs.length < p + 8 + len || base.length < src + len then none
        else
          let x := (List.range len).map (fun i => base.getD (src + i) 0 ^^^ recs.getD (p + 8 + i) 0)
          deltaRecords base recs fuel (p + 8 + 4 * ceilDiv len 4) (out ++ x)
      | _ => if len = 0 then some out else none

/-- A delta applied to the active image: the output, or the check it fails, 0x05 or 0x06 (R454, R460). -/
def applyDelta (comp : Nat) (base delta : List Byte) : List Byte × Nat :=
  let bad := numAt delta 0 4 ≠ 0x544C4544 || numAt delta 4 1 ≠ comp || !zeroAt delta 5 8 || !zeroAt delta 80 128
  if slice delta 16 64 ≠ shake256 64 base then ([], 5)
  else if bad then ([], 6)
  else
    let recs := slice delta 128 (numAt delta 12 4)
    match deltaRecords base recs (recs.length / 4 + 1) 0 [] with
    | some out => if out.length = numAt delta 8 4 then (out, 0) else ([], 6)
    | none => ([], 6)

/-- The first component from 1 to 7 that a test fails. -/
def firstComp (p : Nat → Bool) : Option Nat := (List.range 7).map (· + 1) |>.find? p

/-- Verify a manifest and its images (R454), stopping at the first failure. `staged` says whether a component has been staged in
full, `deltas` gives the check its delta failed, or 0. -/
def Dev.verifyImages (d : Dev) (img : Nat → List Byte) (staged : Nat → Bool) (deltas : Nat → Nat) : Option (W16 × W16) :=
  let m := img 0
  match manFormat m with
  | some t => some (stAuthFail, checkDetail 1 t)
  | none =>
    if !d.rootOk m then some (stAuthFail, checkDetail 2 0)
    else if !sigOk m then some (stAuthFail, checkDetail 3 0)
    else match firstComp (fun t => !(manEntry m t).carry && !staged t) with
    | some t => some (stManifestIncomplete, checkDetail 4 t)
    | none => match firstComp (fun t => deltas t == 5) with
    | some t => some (stAuthFail, checkDetail 5 t)
    | none => match firstComp (fun t => deltas t == 6) with
    | some t => some (stAuthFail, checkDetail 6 t)
    | none => match firstComp (fun t => shake256 64 (img t) != (manEntry m t).digest) with
    | some t => some (stAuthFail, checkDetail 7 t)
    | none => match firstComp (fun t => decide ((manEntry m t).svn < d.floor t)) with
    | some t => some (stRollback, checkDetail 8 t)
    | none => none

/-! ## The WD registers (R475) -/

/-- WD_CUSTODY of warden i follows what it holds. -/
def Dev.wdView (d : Dev) (i : Nat) : Dev :=
  let x := d.warden i
  let prim := decide ((if d.otpPrimary then 1 else 0) = i)
  d.setReg (WD (wardenTower i) + 8) (BitVec.ofNat 64
    (((x.epoch % 2 ^ 48) <<< 16) + (if x.custody then 256 else 0) + (if prim then 1 else 0)))

/-- Both wardens' views of the committed activation and the floors. -/
def Dev.wdShared (d : Dev) : Dev :=
  (List.range 2).foldl (fun d i =>
    let a := WD (wardenTower i)
    let d := d.setReg (a + 0x20) (BitVec.ofNat 64 d.fw.commit)
    d.setReg (a + 0x28) (BitVec.ofNat 64 (leNat d.floors))) d

/-- Whether the custody warden admits a command of this opcode (R430). -/
def wardenAdmits (op : Nat) : Bool :=
  op == 0x004 || op == 0x005 || op == 0x501 || op / 256 == 3 || op / 256 == 4 || op / 256 == 6

/-- The accepted commands a warden had admitted complete with CUSTODY_LOST, but for a committed activation, which the arbiter
holds; those that had not started are answered so (R430, R471, R473). -/
def Dev.custodyLostJobs (d : Dev) : Dev :=
  let d := (d.hl.held.filter (fun j => wardenAdmits j.opcode)).foldl (fun d j =>
    (d.replyPkt j.h j.opcode stCustodyLost 0 0 []).settle j.h.port.val j.h.tag) d
  let d := { d with hl := { d.hl with held := d.hl.held.filter (fun j => !wardenAdmits j.opcode) } }
  { d with hl := { d.hl with jobs := d.hl.jobs.map (fun j =>
      if wardenAdmits j.opcode && j.opcode != 0x403 && j.result.isNone then { j with result := some (stCustodyLost, 0) } else j) } }

/-- A warden-domain reset of warden i with a cause code (R503, R504, R475). -/
def World.wardenReset (w : World) (i code : Nat) : World :=
  let t := wardenTower i
  let had := (w.d.warden i).custody
  let w := w.setBit (RST t) 10
  let w := w.setReg (WD t + 0x18) (BitVec.ofNat 64 code)
  let w := w.setReg (WD t) 0
  let w := w.setFld (WD t + 0x10) 31 0 0
  let w := w.setReg (WD t + 0x20) 0
  let w := w.setReg (WD t + 0x28) 0
  let w := w.onDev (fun d =>
    let d := d.onWarden i (fun x => { Warden.init with
      epoch := max x.epoch d.fw.arbEpoch, everReady := x.everReady, lostOnce := true, dog := x.dog })
    d.wdView i)
  if had then w.onDev (fun d => d.custodyLostJobs) else w

/-- A warden's watchdog expires (R506). -/
def doWatchdogExpiry (i : Fin 2) (w : World) : World :=
  let o := w.d.warden (1 - i.val)
  let ost := rget w.d.regs (WD (wardenTower (1 - i.val)))
  let bothDogs := match o.dog with | some n => decide (n ≤ 1000) | none => false
  let t := wardenTower i.val
  if bothDogs || bitOf ost.toNat 7 || bitOf ost.toNat 6 || !o.everReady then
    let w := w.log { entry 0x52 t 0x16 with param := 0x0006 }
    w.systemReset 5 false
  else
    let w := w.log { entry 0x52 t 0x16 with param := 0x0015 }
    let w := w.wardenReset i.val 0x0015
    w.onDev (fun d => d.onWarden i.val (fun x => { x with dog := some 0 }))

/-! ## Boot (R455, R456) -/

/-- The length of a pushed boot image, from its manifest (R455). -/
def bootLength (m : List Byte) : Nat := 4096 + ((List.range 7).map (fun i => (manEntry m (i + 1)).length)).foldl (· + ·) 0

/-- The components of a pushed boot image. -/
def bootComponent (b : List Byte) (comp : Nat) : List Byte :=
  if comp = 0 then slice b 0 4096
  else
    let off := 4096 + ((List.range (comp - 1)).map (fun i => (manEntry b (i + 1)).length)).foldl (· + ·) 0
    slice b off (manEntry b comp).length

/-- Whether the boot image may come from the host link: BOOT_SRC 0b01 or 0b10. -/
def Dev.hostBoot (d : Dev) : Bool := d.board.bootSrc == 1 || d.board.bootSrc == 2

/-- A BOOT_READ request on QUARTER_0 of host port 0 (R455). -/
def Dev.bootRead (d : Dev) (off count : Nat) : Dev :=
  let r : FarReq :=
    { quarter := 0, tag := 0, sent := false, opcode := 0x10, off := off, count := count, reread := false, medium := false,
      who := whoBoot, ctx := 0xFFFF, blocks := [] }
  ({ d with hl := { d.hl with far := d.hl.far ++ [r] } }).pumpFar

/-- The ROM asks for the boot image from its start (R455). -/
def doBootRetry (w : World) : World :=
  if w.d.hostBoot && w.d.fld HL_STATUS 9 9 == 0 then
    w.onDev (fun d =>
      let d : Dev := { d with
        fw := { d.fw with bootImg := [] }
        hl := { d.hl with far := d.hl.far.filter (fun r => r.who != whoBoot) } }
      d.bootRead 0 8)
  else w

/-- Blocks of the boot image arrive; the next are asked for until it is whole. -/
def Dev.bootBlocks (d : Dev) (blocks : List Blk) : Dev :=
  let d := { d with fw := { d.fw with bootImg := d.fw.bootImg ++ payloadBytes blocks } }
  let have_ := d.fw.bootImg.length
  let want := bootLength d.fw.bootImg
  if have_ < want then d.bootRead have_ (min 32 ((want - have_) / 512)) else d

/-- The choice of step 3 (R456): the slot to boot, 2 for an image from the host link, 3 for the manufacturing test image. -/
def Dev.bootChoice (d : Dev) : Option Nat :=
  let passes (s : Nat) : Bool := (d.verifyImages (d.image s) (fun _ => true) (fun _ => 0)).isNone
  let flash := if passes d.fw.active then some d.fw.active
    else if passes (1 - d.fw.active) then some (1 - d.fw.active) else none
  let b := d.fw.bootImg
  let host : Option Nat :=
    if 4096 ≤ b.length && bootLength b ≤ b.length &&
        (d.verifyImages (bootComponent b) (fun t => !(manEntry b t).carry) (fun _ => 0)).isNone &&
        (firstComp (fun t => (manEntry b t).carry)).isNone then some 2 else none
  if d.board.bootSrc = 0 then flash
  else if d.board.bootSrc = 1 then host
  else if d.board.bootSrc = 2 then (match flash with | some s => some s | none => host)
  else if d.otpTestLock then none else some 3

/-- The images of a boot choice. -/
def Dev.bootImage (d : Dev) (choice comp : Nat) : List Byte :=
  if choice = 2 then bootComponent d.fw.bootImg comp else d.image choice comp

/-- Measure every loaded image (R459): component t at key t of the measurements, slot at key 0. -/
def Dev.measureAll (d : Dev) (choice : Nat) : Dev :=
  { d with fw := { d.fw with
      measure := (0, [BitVec.ofNat 8 choice]) ::
        (List.range 7).map (fun i => (i + 1, shake256 64 (d.bootImage choice (i + 1)))) } }

/-- IDENT_BUILD from the releases of a manifest and a slot. -/
def Dev.setBuild (d : Dev) (m : List Byte) (slot : Nat) : Dev :=
  let r (t : Nat) := (manEntry m t).release
  d.setReg IDENT_BUILD (BitVec.ofNat 64 ((r 1 <<< 48) + (r 4 <<< 32) + (r 5 <<< 16) + (slot <<< 8)))

/-- A boot that finds no image (R455): BOOT_FAIL, the cause, and a log entry. -/
def World.bootFail (w : World) (i code : Nat) : World :=
  let t := wardenTower i
  let w := w.setBit (WD t) 6
  let w := w.setReg (WD t + 0x18) (BitVec.ofNat 64 code)
  w.log { entry 0x56 t 0x16 with param := code }

/-- Boot of warden i finishes (R456): the steps from the choice of the slot to WARDEN_READY, or BOOT_FAIL.
ACTIVE_SLOT names slots A and B only; after a boot from the host link it is 0x00 (DESIGN CHOICE, log 119). -/
def doWardenReady (wd : Fin 2) (w : World) : World :=
  let i := wd.val
  let t := wardenTower i
  let x := w.d.warden i
  if x.ready then w
  else match w.d.bootChoice with
  | none => w.bootFail i (if w.d.board.bootSrc = 3 then 0x0021 else 0x0020)
  | some c =>
    let m := w.d.bootImage c 0
    let cause := causeCode w.d.allCauses
    let w := if x.everReady then w else w.setReg (WD t + 0x18) (BitVec.ofNat 64 cause)
    let w := if c < 2 && c != w.d.fw.active && !x.everReady then w.log { entry 0x53 t 0x16 with index := w.d.fw.active } else w
    let w := w.onDev (fun d =>
      let d := d.onWarden i (fun y => { y with ready := true, everReady := true })
      let d := d.measureAll c
      let d := if x.custody then
          let d := if c < 2 then { d with fw := { d.fw with active := c } } else d
          let d := if c = 3 then
              ({ d with free := d.free + 1 }).setReg IDENT_BUILD (Config.freeValue d.free &&& 0xFFFFFFFFFFFFFF00)
            else d.setBuild m (c % 2)
          let d := (List.range d.fw.pendingFloors.length).foldl (fun d k =>
            d.raiseFloor (k + 1) (d.fw.pendingFloors.getD k 0)) d
          let d := { d with fw := { d.fw with pendingFloors := [] } }
          d.setFld HL_STATUS 9 9 1
        else d
      let d := d.setFld (WD t) 0 0 1
      let d := d.setFld (WD t) 5 5 (if (manEntry m 2).length = 0 then 0 else 1)
      (d.wdView i).wdShared)
    if x.custody && !x.everReady then
      w.log { entry 0x57 t 0x16 with
        detail := BitVec.ofNat 16 cause, param := w.d.allCauses }
    else w

/-! ## Attestation (R457 to R459) -/

/-- The identity certificate, 3,584 bytes (R457). -/
def certificate : List Byte := (List.range 3584).map Config.certByte

/-- One measurement entry of an attestation report (R458). -/
def measureEntry (kind target svn slot release ctx : Nat) (digest : List Byte) : List Byte :=
  [BitVec.ofNat 8 kind, BitVec.ofNat 8 target, BitVec.ofNat 8 svn, BitVec.ofNat 8 slot] ++ leBytes 2 release ++
  leBytes 2 ctx ++ leBytes 8 0 ++ padTo 64 digest ++ leBytes 48 0

/-- The slot the running images were loaded from: 0 A, 1 B, 2 host. -/
def Dev.bootSlot (d : Dev) : Nat := ((tget [] d.fw.measure 0).headD 0).toNat

/-- The attestation report (R458): its bytes, the signature area included. -/
def Dev.report (d : Dev) (tabs : Bool) (nonce : List Byte) : List Byte :=
  let slot := d.bootSlot
  let m := d.bootImage slot 0
  let comps := (List.range 7).map (fun k =>
    let e := manEntry m (k + 1)
    measureEntry 1 (k + 1) e.svn slot e.release 0 (tget [] d.fw.measure (k + 1)))
  let tabsE := if tabs then
      (d.ctxs.filter (fun e => e.2.tabValid)).map (fun e => measureEntry 2 0 0 0 0 e.1 (padTo 32 e.2.tabDigest))
    else []
  let entries := comps ++ tabsE
  let body := padTo (512 * ceilDiv (128 * entries.length) 512) entries.flatten
  let len := 512 + body.length + 3584 + 1536
  let b2n (b : Bool) := if b then 1 else 0
  let revoked := d.otp 128 != 0
  let epoch := match d.custodyWarden with | some i => (d.warden i).epoch | none => 0
  let head := leBytes 4 0x54525441 ++ leBytes 2 1 ++ leBytes 2 entries.length ++ leBytes 4 len ++ leBytes 4 0 ++ d.serial ++
    leBytes 8 (rget d.regs IDENT_DEVICE).toNat ++ leBytes 8 (rget d.regs IDENT_BUILD).toNat ++ leBytes 8 d.fretNum ++
    leBytes 1 d.custodyTower ++ leBytes 1 d.board.bootSrc.toNat ++ leBytes 1 d.board.clkMode.toNat ++
    leBytes 1 (b2n d.otpDebugLock + 2 * b2n revoked) ++ leBytes 4 0 ++ leBytes 8 epoch ++ d.floors ++ slice nonce 0 32
  let pre := padTo 512 head ++ body ++ certificate
  let sig := (List.range 1280).map (Config.falconSign (shake256 64 pre) d.fw.signs)
  pre ++ padTo 1536 sig

/-! ## Field update (R460 to R468) -/

def Dev.inactive (d : Dev) : Nat := 1 - d.fw.active

/-- Whether a list of block numbers holds every one below n. -/
def allBlocks (got : List Nat) (n : Nat) : Bool := (List.range n).all got.contains

/-- Write bytes into a list at an offset, zero-filling a gap. -/
def patch (bs : List Byte) (off : Nat) (new : List Byte) : List Byte :=
  padTo off bs ++ new ++ bs.drop (off + new.length)

/-- The blocks of a component staged so far. -/
def Dev.stagedOf (d : Dev) (comp : Nat) : List Nat := tget [] d.fw.staged comp

/-- The blocks of a delta file staged so far, and whether they are the whole file by its header (R460). -/
def Dev.deltaOf (d : Dev) (comp : Nat) : List Nat := tget [] d.fw.staged (16 + comp)

def Dev.deltaWhole (d : Dev) (comp : Nat) : Bool :=
  let b := tget [] d.fw.deltas comp
  (d.deltaOf comp).contains 0 && allBlocks (d.deltaOf comp) (ceilDiv (128 + numAt b 12 4) 512)

/-- Write payload blocks of a component into the inactive slot (R460). A delta begun stands for its component until the image itself is
staged (log 43). -/
def Dev.stage (d : Dev) (comp : Nat) (delta : Bool) (off : Nat) (data : List Byte) : Dev :=
  let fresh := comp == 0 && off == 0
  let f := if fresh then { d.fw with staged := [], deltas := [] } else d.fw
  let nums := (List.range (data.length / 512)).map (· + off)
  let key := 16 * d.inactive + comp
  let add (k : Nat) (st : Tab (List Nat)) : Tab (List Nat) := tput st k (tget [] st k ++ nums.filter (fun n => !(tget [] st k).contains n))
  let f := if delta then
      { f with deltas := tput f.deltas comp (patch (tget [] f.deltas comp) (512 * off) data), staged := add (16 + comp) f.staged }
    else
      let old := if comp = 0 then [] else tget [] f.images key
      let old := if comp = 0 && !fresh then tget [] f.images key else old
      { f with
          images := tput f.images key (patch old (512 * off) data)
          deltas := f.deltas.filter (fun e => e.1 != comp)
          staged := add comp (f.staged.filter (fun e => e.1 != 16 + comp)) }
  { d with fw := { f with state := 1 } }

/-- FW_VERIFY's work (R461): deltas and CARRY images are put into the inactive slot, then R454 runs over it. -/
def World.fwVerify (w : World) : World × W16 × W16 :=
  let d := w.d
  let ina := d.inactive
  let m := d.image ina 0
  let out (t : Nat) : List Byte × Nat :=
    if (manEntry m t).carry then (d.image d.fw.active t, 0)
    else match tfind d.fw.deltas t with
      | some b => applyDelta t (d.image d.fw.active t) b
      | none => (slice (d.image ina t) 0 (manEntry m t).length, 0)
  let outs := (List.range 8).map (fun t => if t = 0 then (slice m 0 4096, 0) else out t)
  let staged (t : Nat) : Bool := if (tfind d.fw.deltas t).isSome then d.deltaWhole t else allBlocks (d.stagedOf t) ((manEntry m t).length / 512)
  let whole := allBlocks (d.stagedOf 0) 8
  let verdict := if !whole then some (stManifestIncomplete, checkDetail 4 0)
    else d.verifyImages (fun t => (outs.getD t ([], 0)).1) staged (fun t => (outs.getD t ([], 0)).2)
  match verdict with
  | some (st, det) =>
    let w := w.onDev (fun d => { d with fw := { d.fw with
      lastStatus := st, lastDetail := det, state := if d.fw.state < 3 then 1 else d.fw.state } })
    (w.log { entry 0x53 w.d.custodyTower 0x16 with status := st, detail := det, event := 0x804 }, st, det)
  | none =>
    let images := (List.range 7).foldl (fun im k => tput im (16 * ina + k + 1) (outs.getD (k + 1) ([], 0)).1) d.fw.images
    (w.onDev (fun d => { d with fw := { d.fw with
      images := images, lastStatus := stOk, lastDetail := 0, state := if d.fw.state < 3 then 2 else d.fw.state } }), stOk, 0)

/-- The targets an activation replaces: the components of the staged manifest without CARRY (R464, R465). -/
def Dev.replaces (d : Dev) (t : Nat) : Bool := !(manEntry (d.image d.inactive 0) t).carry

/-- FW_STATUS's block (R468). -/
def Dev.fwStatusBytes (d : Dev) : List Byte :=
  let ma := d.image d.fw.active 0
  let ms := d.image d.inactive 0
  let has := allBlocks (d.stagedOf 0) 8
  [BitVec.ofNat 8 d.fw.state, BitVec.ofNat 8 d.fw.active] ++ leBytes 2 d.fw.lastStatus.toNat ++
  leBytes 2 d.fw.lastDetail.toNat ++ leBytes 2 0 ++ leBytes 8 d.fw.commit ++ d.floors ++ leBytes 8 0 ++
  (List.range 7).flatMap (fun k =>
    let a := manEntry ma (k + 1)
    let s := manEntry ms (k + 1)
    leBytes 1 a.svn ++ leBytes 1 (if has then s.svn else 0) ++ leBytes 2 a.release ++
    leBytes 2 (if has then s.release else 0) ++ leBytes 2 (min (if (tfind d.fw.deltas (k + 1)).isSome then d.deltaOf (k + 1) else d.stagedOf (k + 1)).length 0xFFFF))

/-- The commit ends: nothing is committed any more. -/
def Dev.uncommit (d : Dev) (state : Nat) : Dev :=
  ({ d with fw := { d.fw with
      state := state, commit := 0, reverify := false, flashBad := false, loaded := false,
      restarted := [] } }).wdShared

/-- The go decision at cycle S of fret A − 1 (R463): `unready` is FW_UNREADY of the latched word. -/
def World.fwDecide (w : World) (unready : Bool) : World :=
  if w.d.fw.state = 3 ∧ w.d.fretNum + 1 = w.d.fw.commit then
    if unready then
      let det := checkDetail 9 0
      let w := w.onDev (fun d =>
        let d := d.opEnded 0x403 (fun _ => true) stManifestIncomplete det
        let d := d.uncommit 2
        { d with fw := { d.fw with lastStatus := stManifestIncomplete, lastDetail := det } })
      w.log { entry 0x54 w.d.custodyTower 0x16 with status := stManifestIncomplete, detail := det, event := 0x804 }
    else w.onDev (fun d => { d with fw := { d.fw with state := 4, hold := true } })
  else w

/-- The start of fret A (R464, R465): every running context is told to park by new course or arithmetic microcode, services stop with new
SERVICE_IMAGES. -/
def World.fwParks (w : World) : World :=
  if w.d.fw.state = 4 ∧ w.d.fretNum = w.d.fw.commit then
    let w := if w.d.replaces 4 || w.d.replaces 5 then
        w.onDev (fun d => d.ctxs.foldl (fun (d : Dev) (e : Nat × Ctx) =>
          d.stopCtx e.1 .parked stOk 0 0) d)
      else w
    if w.d.replaces 7 then (List.range 8).foldl World.stopServices w else w
  else w

/-- The new microcode and images are loaded into their units (R464). -/
def doFwUnitLoad (w : World) : World :=
  let f := w.d.fw
  let busy := (w.d.replaces 4 || w.d.replaces 5) && w.d.ctxs.any (fun e => e.2.active)
  if f.state = 4 ∧ !f.loaded ∧ f.commit ≤ w.d.fretNum ∧ !busy then
    let m := w.d.image w.d.inactive 0
    let w := w.onDev (fun d =>
      let d := d.setFld IDENT_BUILD 47 32 (manEntry m 4).release
      let d := d.setFld IDENT_BUILD 31 16 (manEntry m 5).release
      { d with fw := { d.fw with loaded := true, hold := false } })
    let sb := match w.d.custodyWarden with | some i => 1 - i | none => 1
    w.setFld (WD (wardenTower sb)) 4 4 1
  else w

/-- A warden has restarted into the new firmware: the standby first, then the custody warden (R464). -/
def doWardenRestartDone (wd : Fin 2) (w : World) : World :=
  let i := wd.val
  let f := w.d.fw
  let cust := w.d.custodyWarden == some i
  if f.state = 4 && f.loaded && !f.restarted.contains i && (!cust || f.restarted.contains (1 - i)) then
    let t := wardenTower i
    let m := w.d.image w.d.inactive 0
    let w := w.setBit (RST t) 10
    let w := w.setReg (WD t + 0x18) 0x0014
    let w := w.setFld (WD t) 4 4 0
    let w := w.setFld (WD t) 5 5 (if (manEntry m 2).length = 0 then 0 else 1)
    let w := if cust then w else w.setFld (WD (wardenTower (1 - i))) 4 4 1
    w.onDev (fun d => { d with fw := { d.fw with
      restarted := i :: d.fw.restarted, state := if cust then 5 else 4 } })
  else w

/-- The self-check ends (R464): the commit of the new slot, or the return to the old images. -/
def doFwSelfCheckDone (ok : Bool) (w : World) : World :=
  if w.d.fw.state ≠ 5 then w
  else
    let new := w.d.inactive
    let m := w.d.image new 0
    let old := w.d.image w.d.fw.active 0
    let cw := WD w.d.custodyTower + 0x30
    if ok then
      let w := w.onDev (fun d =>
        let d := { d with fw := { d.fw with active := new, recordSeq := d.fw.recordSeq + 1, staged := [], deltas := [],
                                            lastStatus := stOk, lastDetail := 0 } }
        let d := (List.range 7).foldl (fun d k => d.raiseFloor (k + 1) (manEntry m (k + 1)).svn) d
        let d := (d.setFld IDENT_BUILD 63 48 (manEntry m 1).release).setFld IDENT_BUILD 15 8 new
        let d := (d.measureAll new).uncommit 0
        (d.opEnded 0x403 (fun _ => true) stOk 0).count cw 15 0 1)
      w.event 0x812 stOk 0 0xFFFF []
    else
      let w := w.onDev (fun d =>
        let d := (d.setFld IDENT_BUILD 47 32 (manEntry old 4).release).setFld IDENT_BUILD 31 16 (manEntry old 5).release
        let d := d.uncommit 2
        let d := { d with fw := { d.fw with hold := true, lastStatus := stAuthFail, lastDetail := 0x0A00 } }
        (d.opEnded 0x403 (fun _ => true) stAuthFail 0x0A00).count cw 31 16 1)
      let w := [0, 1].foldl (fun (w : World) i =>
        let t := wardenTower i
        ((w.setBit (RST t) 10).setReg (WD t + 0x18) 0x0014).setFld (WD t) 5 5 (if (manEntry old 2).length = 0 then 0 else 1)) w
      let w := w.event 0x812 stAuthFail 0x0A00 0xFFFF []
      w.log { entry 0x55 w.d.custodyTower 0x16 with status := stAuthFail, detail := 0x0A00, event := 0x812, flags := 2 }

/-- The staged slot of a committed activation has been verified again (R473, R462). -/
def doStagedSlotReverified (wd : Fin 2) (w : World) : World :=
  if w.d.custodyWarden = some wd.val then w.onDev (fun d => { d with fw := { d.fw with reverify := false } }) else w

/-! ## Heartbeats and custody (R469 to R473) -/

/-- CRC-8 of R341: polynomial 0x07, initial value 0. -/
def crc8 (bs : List Byte) : Nat := crcLeft 8 0x07 0 bs

/-- The bytes of a heartbeat its CRC-8 covers. -/
def beatBytes (epoch : W64) (seq : W16) (restarting : Bool) : List Byte :=
  leBytes 8 epoch.toNat ++ leBytes 2 seq.toNat ++ leBytes 1 (if restarting then 1 else 0)

def doHeartbeatSend (wd : Fin 2) (w : World) : World :=
  let x := w.d.warden wd.val
  if x.ready then
    let t := wardenTower wd.val
    let rs := w.d.fld (WD t) 4 4 == 1
    let seq := (x.seq + 1) % 2 ^ 16
    (w.onDev (fun d => d.onWarden wd.val (fun y => { y with seq := seq }))).emit
      (.heartbeat t (BitVec.ofNat 64 x.epoch) (BitVec.ofNat 16 seq) rs)
  else w

/-- A heartbeat from the other warden counts as missed (R469, R470). -/
def World.beatMissed (w : World) (i : Nat) : World :=
  let a := WD (wardenTower i) + 0x10
  let w := w.count a 63 32 1
  let w := w.count a 3 0 1
  w.onDev (fun d => d.onWarden i (fun x => { x with run := x.run + 1, grace := x.grace - 1 }))

/-- A heartbeat arrives at warden `wd` (R469, R470). -/
def doHeartbeatRx (wd : Fin 2) (epoch : W64) (seq : W16) (restarting : Bool) (crc : Byte) (w : World) : World :=
  let i := wd.val
  if crc8 (beatBytes epoch seq restarting) ≠ crc.toNat then w.beatMissed i
  else
    let a := WD (wardenTower i) + 0x10
    let w := (w.setFld a 31 16 seq.toNat).setFld a 3 0 0
    w.onDev (fun d =>
      let d := d.onWarden i (fun x => { x with
        run := 0, gotBeat := true
        grace := if restarting then 64 else x.grace - 1
        epoch := if x.custody then x.epoch else epoch.toNat })
      d.wdView i)

def doHeartbeatMissed (wd : Fin 2) (w : World) : World := w.beatMissed wd.val

/-- The misses a standby counts before it claims (R470). -/
def Warden.limit (x : Warden) : Nat := if 0 < x.grace then 64 else 8

/-- The standby claims custody with the next epoch (R470, R472, R473). -/
def doCustodyClaim (wd : Fin 2) (w : World) : World :=
  let i := wd.val
  let x := w.d.warden i
  if x.ready && !x.custody && decide (x.limit ≤ x.run) && (!x.lostOnce || x.gotBeat) then
    let e := x.epoch + 1
    let t := wardenTower i
    let w := w.onDev (fun d =>
      let d := d.onWarden i (fun y => { y with custody := true, epoch := e })
      let d := { d with fw := { d.fw with
        arbEpoch := max d.fw.arbEpoch e, reverify := d.fw.reverify || d.fw.state == 3 } }
      (List.range 2).foldl (fun d k => d.count (WD (wardenTower k) + 0x38) 31 0 1) (d.wdView i))
    let w := w.event 0x811 stOk (BitVec.ofNat 16 t) 0xFFFF []
    w.log { entry 0x50 t 0x16 with detail := BitVec.ofNat 16 t, param := e % 2 ^ 32, event := 0x811 }
  else w

/-- A management transaction reaches the custody arbiter (R471): granted, its register write takes effect; refused, the loser is
reset and rejoins as standby. -/
def doManagementTransaction (wd : Fin 2) (epoch : W64) (addr : W32) (value : W64) (w : World) : World :=
  let i := wd.val
  let e := epoch.toNat
  let arb := w.d.fw.arbEpoch
  let rival := w.d.warden (1 - i)
  let grant := decide (arb < e) || (e == arb && (i == 0 || !(rival.custody && rival.epoch == e)))
  if grant then
    let w := w.onDev (fun d => { d with fw := { d.fw with arbEpoch := e } })
    (w.writeReg addr.toNat value).getD w
  else w.wardenReset i 0x0013

/-- A rejoined warden has heard no good heartbeat within 1 s (R472). -/
def doSoundpostTimeout (wd : Fin 2) (w : World) : World :=
  let x := w.d.warden wd.val
  if x.lostOnce && !x.gotBeat && !x.custody then
    let t := wardenTower wd.val
    let w := w.setBit (WD t) 7
    let det := BitVec.ofNat 16 w.d.custodyTower
    let w := w.event 0x811 stStackDegraded det 0xFFFF []
    w.log { entry 0x51 t 0x16 with status := stStackDegraded, detail := det, event := 0x811 }
  else w

/-! ## The commands -/

/-- WATCHDOG_EXPIRY (R506). -/
def execWatchdogExpiry (wd : Fin 2) (s : State) : Host.Outcome State Fault Refusal :=
  runLive s (doWatchdogExpiry wd)

/-- WARDEN_READY (R456). -/
def execWardenReady (wd : Fin 2) (s : State) : Host.Outcome State Fault Refusal :=
  runLive s (doWardenReady wd)

/-- BOOT_RETRY (R455). -/
def execBootRetry (s : State) : Host.Outcome State Fault Refusal :=
  runLive s doBootRetry

/-- HEARTBEAT_SEND (R469). -/
def execHeartbeatSend (wd : Fin 2) (s : State) : Host.Outcome State Fault Refusal :=
  runLive s (doHeartbeatSend wd)

/-- HEARTBEAT_RX (R469). -/
def execHeartbeatRx (wd : Fin 2) (epoch : W64) (seq : W16) (restarting : Bool) (crc : Byte) (s : State) : Host.Outcome State Fault Refusal :=
  runLive s (doHeartbeatRx wd epoch seq restarting crc)

/-- CUSTODY_CLAIM (R470). -/
def execCustodyClaim (wd : Fin 2) (s : State) : Host.Outcome State Fault Refusal :=
  runLive s (doCustodyClaim wd)

/-- MANAGEMENT_TRANSACTION (R471). -/
def execManagementTransaction (wd : Fin 2) (epoch : W64) (addr : W32) (value : W64) (s : State) : Host.Outcome State Fault Refusal :=
  runLive s (doManagementTransaction wd epoch addr value)

/-- SOUNDPOST_TIMEOUT (R472). -/
def execSoundpostTimeout (wd : Fin 2) (s : State) : Host.Outcome State Fault Refusal :=
  runLive s (doSoundpostTimeout wd)

/-- FW_UNIT_LOAD (R464). -/
def execFwUnitLoad (s : State) : Host.Outcome State Fault Refusal :=
  runLive s doFwUnitLoad

/-- WARDEN_RESTART_DONE (R464). -/
def execWardenRestartDone (wd : Fin 2) (s : State) : Host.Outcome State Fault Refusal :=
  runLive s (doWardenRestartDone wd)

/-- FW_SELF_CHECK_DONE (R464). -/
def execFwSelfCheckDone (ok : Bool) (s : State) : Host.Outcome State Fault Refusal :=
  runLive s (doFwSelfCheckDone ok)

/-- HEARTBEAT_MISSED (R469). -/
def execHeartbeatMissed (wd : Fin 2) (s : State) : Host.Outcome State Fault Refusal :=
  runLive s (doHeartbeatMissed wd)

/-- STAGED_SLOT_REVERIFIED (R473). -/
def execStagedSlotReverified (wd : Fin 2) (s : State) : Host.Outcome State Fault Refusal :=
  runLive s (doStagedSlotReverified wd)

end Sys2Proof.Machine
end

