-- ==== Sys2Proof/Machine/Far.lean ====
section
/-! DEFINITION. The far store: the responses of the adapter (R440 to R443) and what waits for them. -/

namespace Sys2Proof.Machine

/-- The half of the device and the ladder fields of a client (R276, R290): unit, PATH, course, set, context, position. -/
def Dev.clientInfo (d : Dev) (who : Nat) : Nat × Nat × Nat × Nat × Nat × Nat :=
  if who < 0x10000 then
    match d.jobOf (who / 256) (who % 256) with
    | some j => (j.ln.unit, j.ln.path, j.course, j.set, j.ctx, j.pos)
    | none => (0xF, 0, who / 256, 0, 0x3FFF, 0)
  else (0xF, 0, if who < 0x20000 then 0 else 48, 0, 0x3FFF, 0)

/-- The device address of block i of a request. -/
def FarReq.addr (r : FarReq) (i : Nat) : Nat := farAddr (r.off + 2048 * i)

/-- The outstanding request a response answers (R441). -/
def Dev.farMatch (d : Dev) (r : FarResp) (ops : List Nat) : Option FarReq :=
  d.hl.far.find? (fun q => q.sent && q.quarter == r.quarter.val && q.tag == r.tag.toNat && ops.contains q.opcode)

/-- The request is answered: it is no longer outstanding. -/
def Dev.farDone (d : Dev) (q : FarReq) : Dev :=
  ({ d with hl := { d.hl with far := d.hl.far.erase q } }).pumpFar

/-- The latency counters of a response (R443, R447). -/
def World.farLatency (w : World) (lat : Nat) : World :=
  let w := if w.d.farBound < lat then w.count HL_FAR_LATE 63 0 1 else w
  w.setFld HL_FAR_MAX_LAT 19 0 (max (w.d.fld HL_FAR_MAX_LAT 19 0) (min lat 0xFFFFF))

/-- A response out of range or to an unknown TAG (R442): it is discarded, ABORT raised, and reported. -/
def World.stray (w : World) (r : FarResp) (addr : Nat) (st : W16) : World :=
  let w := w.setBit HL_FAULT 1
  let w := w.raise flagAbort
  let q := r.quarter.val
  let w := w.event 0x806 st 0xFFFF 0xFFFF [mkBlk (leBytes 8 addr ++ leBytes 2 r.tag.toNat ++ leBytes 1 q ++ leBytes 1 (r.status.toNat % 256))]
  w.log { entry 0x0A q 0x13 with status := st, detail := 0xFFFF, index := q, addr := addr, event := 0x806, flags := 1 }

/-- A far block that fails its check goes on the ladder for its client. -/
def World.climbClient (w : World) (who addr : Nat) : World :=
  let (unit, path, c, set, ctx, pos) := w.d.clientInfo who
  w.climbFor [who] unit path c set ctx pos addr

/-- A block of a FAR_READ arrives for a client (R283, R442). -/
def World.farBlock (w : World) (who addr : Nat) (b : Option Blk) : World :=
  match b with
  | some b =>
    if blkSyn b = 0 ∨ blkSyn b = poisonMark then w.onDev (fun d => d.farDeliver [who] addr b)
    else w.climbClient who addr
  | none => w.climbClient who addr

/-- A step-1 attempt of a far ladder, or the re-read after the repair of its path, returns (R287, R442). -/
def World.farAttempt (w : World) (addr : Nat) (b : Option Blk) : World :=
  match w.d.ladders.find? (fun l => l.block == addr && (l.step == 1 || l.step == 3) && !l.after) with
  | none => w
  | some l =>
    let fails := if l.step = 3 then w.poisonEnd l else w.attemptFails l
    match b with
    | some b =>
      if blkSyn b = 0 ∨ blkSyn b = poisonMark then
        (if l.step = 3 then w.pathRepaired l else w.attemptPasses l).onDev (fun d => d.farDeliver l.clients addr b)
      else fails
    | none => fails

/-- The MEDIUM read of a far ladder returns: its step-2 test has ended (R442, R567). -/
def World.farMedium (w : World) (addr : Nat) (bad : Bool) : World :=
  let w := if bad then
      w.log { entry 0x09 ((w.d.ladders.find? (fun l => l.block == addr)).map (fun l => l.course / 12) |>.getD 0) 0x13 with
        status := stPoisoned, addr := addr, event := 0x806 }
    else w
  w.onDev (fun d => { d with ladders := d.ladders.map (fun l =>
    if l.block = addr ∧ l.step = 2 then { l with store := some (!bad) } else l) })

/-- An OUT_OF_RANGE far read: every block goes to its consumer in poison form (R442). -/
def World.farOutOfRange (w : World) (q : FarReq) : World :=
  (List.range q.count).foldl (fun w i =>
    let a := q.addr i
    if q.who = whoLadder then
      w.onDev (fun d =>
        let waiting := (d.ladders.filter (fun l => l.block == a)).flatMap (·.clients)
        let d := { d with ladders := d.ladders.filter (fun l => l.block != a) }
        d.farDeliver waiting a poisonBlk)
    else w.onDev (fun d => d.farDeliver [q.who] a poisonBlk)) w

/-- A read response arrives (R442, R455). -/
def doReadDataCore (r : FarResp) (w : World) : World :=
  match w.d.farMatch r [0x01, 0x10] with
  | none => w.stray r 0 stBlockCrc
  | some q =>
    let w := w.onDev (fun d => d.farDone q)
    if q.who = whoBoot then
      let good := r.status == 0 && r.payload.length == q.count && r.payload.all (fun b => blkSyn b == 0)
      if good then w.onDev (fun d => d.bootBlocks r.payload) else w
    else
      let w := w.farLatency r.latency
      if r.status = 2 then (w.stray r (q.addr 0) stPoisoned).farOutOfRange q
      else
        let w := w.count HL_FAR_READS 63 0 q.count
        if q.who = whoLadder then
          if q.medium then w.farMedium (q.addr 0) (r.status == 1)
          else w.farAttempt (q.addr 0) (if r.status = 1 then none else r.payload.head?)
        else (List.range q.count).foldl (fun w i => w.farBlock q.who (q.addr i) r.payload[i]?) w

/-- A write acknowledgement arrives (R442, R443). -/
def doWriteAckCore (r : FarResp) (w : World) : World :=
  match w.d.farMatch r [0x02] with
  | none => w.stray r 0 stBlockCrc
  | some q =>
    let w := (w.onDev (fun d => d.farDone q)).farLatency r.latency
    if r.status = 2 then w.stray r (q.addr 0) stPoisoned
    else w.count HL_FAR_WRITES 63 0 q.count

end Sys2Proof.Machine
end

