-- ==== Sys2Proof/Machine/Mover.lean ====
section
/-! DEFINITION. The course mover at work (R164, R165, R297): COPY, COPY2D, FILL and SCRUB. -/

namespace Sys2Proof.Machine

/-- The unit of a mover line. -/
def unitMover : Nat := 4

/-- A mover refuses its descriptor (R297, R299). -/
def World.moverRefused (w : World) (j : Job) (addr : Nat) : World :=
  let t := j.course / 12
  let w := w.setBit (MEMR t + 0x58) 0
  let w := w.memFault t addr 3 unitMover j.course j.set j.ctx j.pos
  w.addrRefused j addr

/-- A mover's cost exceeds its budget (R297). -/
def World.moverOversize (w : World) (j : Job) : World :=
  let t := j.course / 12
  let w := w.setBit (MEMR t + 0x58) 1
  w.unitFault j stPlanOverrun

/-- The address a refused descriptor names: the first of its ends that R38 refuses, or the descriptor's own. -/
def MoverDesc.refusedAddr (m : MoverDesc) (far desc : Nat) : Nat :=
  if m.op != 3 && !addrOk far m.src then m.src else if m.op != 4 && !addrOk far m.dst then m.dst else desc

/-- Count the blocks a mover moved, filled or scrubbed. -/
def World.moverCount (w : World) (j : Job) (n : Nat) : World :=
  w.count (MEMR (j.course / 12) + 0x100 + 8 * (j.course % 12)) 63 0 n

/-- Write the blocks of a copy: to the stores, or to the far store as requests that LINE_COMPLETE waits for. -/
def World.moverWrite (w : World) (j : Job) (m : MoverDesc) (blocks : List (Nat × Blk)) : World :=
  if tierOf m.dst = 3 then
    w.onDev (fun d => d.farAsk (j.course / 48) (whoLine j.course j.idx) j.ctx 2 false false
      (blocks.map (fun e => (bitsOf e.1 41 0, some e.2))))
  else blocks.foldl (fun w e => w.putBlk e.1 e.2.data (blkSyn e.2)) w

/-- A copy whose source is in the far store: the blocks are asked for at work start, and moved once all have arrived. -/
def World.moverFar (w : World) (j : Job) (m : MoverDesc) : World :=
  let who := whoLine j.course j.idx
  let ps := m.pairs
  if j.prog = 0 then
    (w.onDev (fun d => d.farAsk (j.course / 48) who j.ctx 1 false false (ps.map (fun e => (bitsOf e.1 41 0, none))))).progress j 1
  else if w.d.farBusy who then w
  else
    let got := ps.filterMap (fun e => (w.d.farBlk who e.1).map (fun b => (e.2, b)))
    if got.length < ps.length then w
    else
      let poison := (got.filter (fun e => blkSyn e.2 == poisonMark)).length
      if m.op = 4 then ((((w.carried (j.course / 12) poison).onDev (fun d => d.farDrop who)).moverCount j ps.length)).finish j
      else
        let w := w.moverWrite j m got
        let w := w.carried (j.course / 12) poison
        let w := if j.ln.window = 0xFFFF then w
          else w.onDev (fun d => d.onCtx j.ctx (fun x => { x with
            win := tput x.win j.ln.window (tget 0 x.win j.ln.window + ps.length) }))
        ((w.onDev (fun d => d.farDrop who)).moverCount j ps.length).finish j

/-- A copy or scrub between stores of the device. -/
def World.moverNear (w : World) (j : Job) (m : MoverDesc) (bad : List Nat) : World :=
  let ps := m.pairs
  match w.checkBlocks j bad (ps.map (·.1)) with
  | some w' => w'
  | none =>
    if m.op = 4 then ((w.carried (j.course / 12) (w.poisonCount (ps.map (·.1)))).moverCount j ps.length).finish j
    else
      let blocks := ps.map (fun e => (e.2, w.carry e.1))
      let w := w.carried (j.course / 12) (w.poisonCount (ps.map (·.1)))
      let w := w.moverWrite j m blocks
      (w.moverCount j ps.length).finish j

/-- FILL: blocks of a repeated 64-bit pattern, with new checks (R164). -/
def World.moverFill (w : World) (j : Job) (m : MoverDesc) : World :=
  let data := (List.replicate 64 (leBytes 8 m.pattern)).flatten
  let w := m.pairs.foldl (fun w e => w.putBlk e.2 data 0) w
  (w.moverCount j (m.run * m.rows)).finish j

/-- Work start of a mover line whose descriptor holds operation `op`, and its later steps (R297): a descriptor whose route is not that
of the line's PATH breaks R294. -/
def World.mover (w : World) (k : Work) (op : Nat) : World :=
  match w.ready k.course.val k.line unitMover with
  | none => w
  | some j =>
    match w.fetch j k.bad j.ln.desc 64 with
    | .wait w' => w'
    | .got b poison =>
      let m := moverDesc b
      let far := farBytes w.d
      let lat := (m.route w.d.farBound j.course).getD { path := 0, num := 1, den := 1, lat := 0 }
      if poison then (w.consumed (j.course / 12) 1 unitMover j.ctx).unitFault j stPlanMismatch
      else if !descOk j.ln.desc 64 j.course || !m.ok far j.course || (m.op == op && lat.path != j.ln.path) then
        if m.op = op ∨ m.op = 0 ∨ 4 < m.op then w.moverRefused j (m.refusedAddr far j.ln.desc) else w
      else if m.op ≠ op then w
      else if j.prog = 0 ∧ j.ln.wcCompute + j.ln.wcXfer < 64 + lat.lat + m.cycles lat then w.moverOversize j
      else if m.op = 3 then w.moverFill j m
      else (if tierOf m.src = 3 then w.moverFar j m else w.moverNear j m k.bad).keepDesc j [(j.ln.desc, 64)]

def doMoverCopy (k : Work) (w : World) : World := w.mover k 1
def doMoverCopy2d (k : Work) (w : World) : World := w.mover k 2
def doMoverFill (k : Work) (w : World) : World := w.mover k 3
def doMoverScrub (k : Work) (w : World) : World := w.mover k 4

/-! ## The commands -/

/-- MOVER_COPY (R297). -/
def execMoverCopy (w : Work) (s : State) : Host.Outcome State Fault Refusal :=
  runWork s w (doMoverCopy w)

/-- MOVER_COPY2D (R297). -/
def execMoverCopy2d (w : Work) (s : State) : Host.Outcome State Fault Refusal :=
  runWork s w (doMoverCopy2d w)

/-- MOVER_FILL (R164). -/
def execMoverFill (w : Work) (s : State) : Host.Outcome State Fault Refusal :=
  runWork s w (doMoverFill w)

/-- MOVER_SCRUB (R164). -/
def execMoverScrub (w : Work) (s : State) : Host.Outcome State Fault Refusal :=
  runWork s w (doMoverScrub w)

end Sys2Proof.Machine
end

