-- ==== Sys2Proof/Machine/Elem.lean ====
section
/-! DEFINITION. Stored elements: how a unit reads and writes the elements and scales of tensors, poisoned blocks included (R109,
R183, R211, R219, R267), and the format-health counts (R131). -/

namespace Sys2Proof.Machine

/-- `n` codes of `bits` bits out of bytes, the first in the lowest bits (R109). -/
def byteCodes (k : Nat) : Nat → List Byte → List Nat
  | 0, _ => []
  | n + 1, bs => leNat (bs.take k) :: byteCodes k n (bs.drop k)

def codesOf (bits n : Nat) (bs : List Byte) : List Nat :=
  if bits = 4 then (bs.flatMap (fun b => [b.toNat % 16, b.toNat / 16])).take n
  else byteCodes (bits / 8) n bs

/-- Codes of `bits` bits as bytes. -/
def packNibbles : List Nat → List Byte
  | [] => []
  | [a] => [BitVec.ofNat 8 (a % 16)]
  | a :: b :: t => BitVec.ofNat 8 (a % 16 + 16 * (b % 16)) :: packNibbles t

def packCodes (bits : Nat) (cs : List Nat) : List Byte :=
  if bits = 4 then packNibbles cs else cs.flatMap (leBytes (bits / 8))

/-- An element as a unit reads it: its value, whether its block is poisoned, whether its block scale is NaN. -/
structure El where
  v : Val
  poison : Bool
  scaleNan : Bool
  deriving DecidableEq, Repr

/-- What an element of a poisoned block reads as: NaN, or 0 for the integers. -/
def poisonVal (fmt : Nat) : Val := if fmt = 0x9 ∨ fmt = 0xA then .fin false 0 0 else .nan

/-- The poisoned blocks among those that hold `n` bytes. -/
def World.poisonedIn (w : World) (a n : Nat) : List Nat := (blocksOf a n).filter w.poisoned

/-- `n` codes from an address on, and for each whether its block is poisoned. -/
def World.codesAt (w : World) (bits a n : Nat) : List (Nat × Bool) :=
  let len := ceilDiv (n * bits) 8
  let bad := w.poisonedIn a len
  (codesOf bits n (readBytes w.mem a len)).zipIdx.map (fun e =>
    (e.1, !bad.isEmpty && bad.contains (blockOf (a + e.2 * bits / 8))))

/-- `n` elements of a row without scales; `fl` is the input flush of the unit, on codes. -/
def World.plainRow (w : World) (fmt a n : Nat) (fl : Nat → Nat) : List El :=
  (w.codesAt (elemBits fmt) a n).map (fun e =>
    { v := if e.2 then poisonVal fmt else elemVal fmt (fl e.1), poison := e.2, scaleNan := false })

/-- `n` scales from an address on: values, and whether their block is poisoned. -/
def World.scaleRow (w : World) (fmt a n : Nat) : List El :=
  (w.codesAt (8 * scaleBytes fmt) a n).map (fun e =>
    let v := if e.2 then Val.nan else scaleVal fmt e.1
    { v := v, poison := e.2, scaleNan := v == .nan })

/-- Pair each element with the scale of its block of 32. -/
def applyScales (xs ss : List El) : List El :=
  xs.zipIdx.map (fun e =>
    let s := ss.getD (e.2 / 32) { v := .nan, poison := false, scaleNan := true }
    { v := e.1.v.mul s.v, poison := e.1.poison || s.poison, scaleNan := s.scaleNan })

/-- `n` elements of a row, with the scales at `sa` where the format carries them. -/
def World.row (w : World) (fmt a sa n : Nat) (scaled : Bool) (fl : Nat → Nat) : List El :=
  let xs := w.plainRow fmt a n fl
  if scaled then applyScales xs (w.scaleRow fmt sa (ceilDiv n 32)) else xs

/-- Transpose `n` columns of rows. -/
def transpose {α : Type} (n : Nat) (rows : List (List α)) : List (List α) :=
  (List.range n).map (fun i => rows.filterMap (fun r => r[i]?))

/-- Write bytes that may fill blocks in part: a whole block gets a new check, a partly filled one is merged, and stays
poisoned if it was (R219, R285). Answers the poisoned blocks met. -/
def World.mergeWrite (w : World) (a : Nat) (bs : List Byte) : World × Nat :=
  let n := bs.length
  (blocksOf a n).foldl (fun s b =>
    let (w, bad) := s
    let lo := max a b
    let hi := min (a + n) (b + 512)
    let part := (bs.drop (lo - a)).take (hi - lo)
    if hi - lo = 512 then (w.putBlk b part 0, bad)
    else if w.poisoned b then (w, bad + 1)
    else (w.put (.data lo part), bad)) (w, 0)

/-- The blocks that a run of bytes fills only in part. -/
def partialBlocks (a n : Nat) : List Nat := (blocksOf a n).filter (fun b => decide (b < a) || decide (a + n < b + 512))

/-- Count converted elements of a context in the live format-health set of a class and an FMT (R131). -/
def Dev.countFh (d : Dev) (ctx cls fmt total ovr under : Nat) : Dev :=
  if 1 ≤ fmt ∧ fmt ≤ 9 ∧ 0 < total ∧ d.fld FH_CTRL 31 31 = 1 ∧ d.fld FH_CTRL 13 0 = ctx then
    let n := 16 * cls + fmt
    let x := tget { total := 0, ovr := 0, under := 0 } d.fh n
    { d with fh := tput d.fh n { total := satAdd 64 x.total total, ovr := satAdd 64 x.ovr ovr, under := satAdd 64 x.under under } }
  else d

def overs (cs : List Conv) : Nat := (cs.filter (·.ovr)).length
def unders (cs : List Conv) : Nat := (cs.filter (·.under)).length

/-- Whether a code of an FMT is NaN or ±∞. -/
def nonfiniteCode (fmt c : Nat) : Bool :=
  match floatFmt fmt with
  | some f => match f.decode c with
    | .fin _ _ _ => false
    | _ => true
  | none => false

/-- Whether a scale of an FMT is NaN. -/
def nanScale (fmt s : Nat) : Bool := scaleVal fmt s == .nan

/-- A line whose descriptor block is poisoned faults (class 0x1B, R537). -/
def World.poisonDesc (w : World) (j : Job) : World :=
  (w.consumed (j.course / 12) 1 j.ln.unit j.ctx).unitFault j stPlanMismatch

end Sys2Proof.Machine
end

