-- ==== Sys2Proof/Machine/Accum.lean ====
section
/-! DEFINITION. The accumulator buffer: the merge stack, spill, the fused epilogue, DRAIN, IMPORT, AB_SAVE and AB_RESTORE
(R196 to R227, R566). -/

namespace Sys2Proof.Machine

def unitMa : Nat := 1
def unitAb : Nat := 3
def unitSave : Nat := 10
def unitRestore : Nat := 11

def Accum.init : Accum :=
  { open_ := false, held := false, acc := 0, next := 0, levels := [], lastM := 0, lastN := 0, lastQuad := false, amax := 0 }

def Dev.accum (d : Dev) (c g : Nat) : Accum := tget .init (d.course c).groups g
def abGroup (c g : Nat) : Nat := AB c + 0x10 + 8 * g
def abNext (c g : Nat) : Nat := AB c + 0x30 + 8 * g

/-- The partition of a course's AB. -/
def Dev.abPartition (d : Dev) (c : Nat) : Nat := d.fld (AB c) 2 0

/-- Cells of a slot. -/
def slotCells : Nat := 16384

/-! ## Merging (R197, R202) -/

def mergeCell (int : Bool) (x y : W32) : W32 :=
  if int then x + y else BitVec.ofNat 32 (ftz (fadd (ftz x.toNat) (ftz y.toNat)))

/-- The cell-by-cell merge; a cell absent on one side passes the other through. -/
def mergeCells (int : Bool) : List (Option W32) → List (Option W32) → List (Option W32)
  | [], ys => ys
  | xs, [] => xs
  | some x :: xs, some y :: ys => some (mergeCell int x y) :: mergeCells int xs ys
  | none :: xs, y :: ys => y :: mergeCells int xs ys
  | x :: xs, none :: ys => x :: mergeCells int xs ys

/-- The merge of two nodes, an absent one passing the other through. -/
def mergeNode (int : Bool) (x y : Option Node) : Option Node :=
  match x, y with
  | some a, some b => some { cells := mergeCells int a.cells b.cells }
  | some a, none => some a
  | none, y => y

/-- The merge stack of a group, or of one tile of a product with FINISH: occupied levels as bits (16 for the root), and the nodes
that the buffer holds. -/
structure MStack where
  int : Bool
  span : Nat
  buf : Nat
  spill : Nat
  next : Nat
  occ : Nat
  nodes : Tab Node

/-- A full-width node in a store: its cells, and the poisoned blocks among its 128 (R211). -/
def World.readNode (w : World) (int : Bool) (a : Nat) : Node × Nat :=
  let cs := w.codesAt 32 a slotCells
  ({ cells := cs.map (fun e => some (if e.2 then (if int then 0 else 0x7FC00000) else BitVec.ofNat 32 e.1)) },
   (w.poisonedIn a 65536).length)

/-- Write a node's present cells over a slot area of a store, its blocks with new checks. -/
def World.writeNode (w : World) (a : Nat) (x : Node) : World :=
  let old := codesOf 32 slotCells (readBytes w.mem a 65536)
  let bytes := (x.cells.zip old).flatMap (fun e => leBytes 4 ((e.1.map (·.toNat)).getD e.2))
  (List.range 128).foldl (fun w i => w.putBlk (a + 512 * i) (slice bytes (512 * i) 512) 0) w

/-- Poisoned blocks consumed by the AB (R211). -/
def World.abPoison (w : World) (j : Job) (n off : Nat) : World :=
  if n = 0 then w
  else
    let w := w.setBit (AB j.course + 0x88) 4
    let w := w.setReg (AB j.course + 0x90) (faultInfo j off)
    w.consumed (j.course / 12) n unitAb j.ctx

/-- The address of a spilled level. -/
def MStack.levelAddr (s : MStack) (l : Nat) : Nat := s.spill + (l - s.buf) * 65536

/-- The node of an occupied level, from the buffer or the spill area. -/
def World.takeLevel (w : World) (j : Job) (s : MStack) (l : Nat) : World × Option Node :=
  if l < s.buf then (w, tfind s.nodes l)
  else
    let r := w.readNode s.int (s.levelAddr l)
    ((w.abPoison j r.2 s.next).count (AB j.course + 0x58) 63 0 128, some r.1)

/-- Merge upwards from a level while it is occupied. -/
def mergeUp (j : Job) : Nat → World × MStack × Node → Nat → World × MStack × Node × Nat
  | 0, (w, s, x), l => (w, s, x, l)
  | fuel + 1, (w, s, x), l =>
    if l < s.span ∧ bitOf s.occ l then
      let r := w.takeLevel j s l
      let w := r.1.count (AB j.course + 0x50) 63 0 1
      let x := (mergeNode s.int r.2 (some x)).getD x
      mergeUp j fuel (w, { s with occ := s.occ - 2 ^ l, nodes := tdel s.nodes l }, x) (l + 1)
    else (w, s, x, l)

/-- insert() of R202: none where it raises ORDER_FAULT. -/
def World.insertNode (w : World) (j : Job) (s : MStack) (x : Node) (off lvl : Nat) : Option (World × MStack) :=
  if off ≠ s.next ∨ off % 2 ^ lvl ≠ 0 ∨ 2 ^ s.span < off + 2 ^ lvl then none
  else
    let (w, s, x, l) := mergeUp j 17 (w, { s with next := off + 2 ^ lvl }, x) lvl
    if l = s.span then some (w, { s with occ := s.occ + 2 ^ 16, nodes := tput s.nodes 16 x })
    else
      let s := { s with occ := s.occ + 2 ^ l }
      if l < s.buf then some (w, { s with nodes := tput s.nodes l x })
      else some ((w.writeNode (s.levelAddr l) x).count (AB j.course + 0x58) 63 0 128, s)

/-- fold() of R202: absent where no leaf was inserted. -/
def World.foldStack (w : World) (j : Job) (s : MStack) : World × Option Node :=
  if bitOf s.occ 16 then (w, tfind s.nodes 16)
  else
    (List.range s.span).foldl (fun (a : World × Option Node) l =>
      if bitOf s.occ l then
        let r := a.1.takeLevel j s l
        let w := if a.2.isSome then r.1.count (AB j.course + 0x50) 63 0 1 else r.1
        (w, mergeNode s.int r.2 a.2)
      else a) (w, none)

/-- A fold with no leaf gives +0 in every cell, and counts (R204). -/
def World.foldOrZero (w : World) (j : Job) (s : MStack) : World × Node :=
  match w.foldStack j s with
  | (w, some x) => (w, x)
  | (w, none) => (w.count (AB j.course + 0x80) 63 0 1, { cells := List.replicate slotCells (some 0) })

/-- The blocks of the spill levels that a stack may read: those of its occupied levels. -/
def MStack.spillBlocks (s : MStack) : List Nat :=
  (List.range s.span).flatMap (fun l => if s.buf ≤ l ∧ bitOf s.occ l then blocksOf (s.levelAddr l) 65536 else [])

/-! ## The epilogue (R217 to R222) -/

/-- Whether a DRAIN exports its cells unchanged (R220). -/
def AccDesc.export_ (q : AccDesc) (int : Bool) : Bool :=
  q.epi == 0 && q.scale == 0x3F800000 && ((q.outFmt == 0 && !int) || (q.outFmt == 10 && int))

/-- The FP32 value of a cell after scale, bias and activation. -/
def AccDesc.cellOut (q : AccDesc) (int : Bool) (cell col bias : Nat) : Nat :=
  let a := ftz (if int then f32OfI32 cell else cell)
  let s := ftz (if q.hasCol then col else q.scale)
  let u := ftz (if q.biasKind = 0 then fmul a s else ffma a s (ftz bias))
  match q.act with
  | 1 => actRelu u
  | 2 => actGelu ftz u
  | 3 => actSilu ftz u
  | _ => u

/-- The output of one tile: what is written so far, and the running amax. -/
structure EpiOut where
  w : World
  amax : Nat
  poison : Nat
  nonfinite : Bool

/-- A list cut into pieces of 32. -/
def pieces32 {α : Type} (xs : List α) : List (List α) :=
  (List.range (ceilDiv xs.length 32)).map (fun i => (xs.drop (32 * i)).take 32)

/-- Write output row `gi`, columns from `c0` on, of an output of width `n`. -/
def AccDesc.writeRow (q : AccDesc) (int : Bool) (seed : W64) (ctx gi c0 n : Nat) (cells cols biases : List Nat)
    (o : EpiOut) : EpiOut :=
  let fmt := q.outFmt
  let at_ := q.dest + gi * q.stride + c0 * elemBits fmt / 8
  let vs := (cells.zip (cols.zip biases)).map (fun e => q.cellOut int e.1 e.2.1 e.2.2)
  let amax := vs.foldl (fun m v => if f32IsNan v then m else max m (f32Mag v)) o.amax
  let ns (k : Nat) : Nat := noise seed q.tensor (gi * n + c0 + k)
  if q.export_ int then
    let r := o.w.mergeWrite at_ (packCodes 32 cells)
    { w := r.1, amax := amax, poison := o.poison + r.2,
      nonfinite := o.nonfinite || (!int && cells.any (fun c => !f32IsFinite c)) }
  else if isBlockFmt fmt then
    let qs := (pieces32 (vs.map some)).zipIdx.map (fun e => quantise fmt q.rnd q.sat (fun k => ns (32 * e.2 + k)) e.1)
    let cs := qs.flatMap (fun e => e.2)
    let codes := qs.flatMap (fun e => padTo 32 (e.2.map (fun c => BitVec.ofNat 8 c.code)))
    let r := o.w.mergeWrite at_ (packCodes (elemBits fmt) (codes.map (·.toNat)))
    let r2 := r.1.mergeWrite (q.destScale + (gi * ceilDiv n 32 + c0 / 32) * scaleBytes fmt)
      (packCodes (8 * scaleBytes fmt) (qs.map (·.1)))
    { w := r2.1.onDev (fun d => d.countFh ctx q.cls fmt vs.length (overs cs) (unders cs)), amax := amax,
      poison := o.poison + r.2 + r2.2,
      nonfinite := o.nonfinite || cs.any (fun c => nonfiniteCode fmt c.code) || qs.any (fun e => nanScale fmt e.1) }
  else
    let cs := vs.zipIdx.map (fun e =>
      let c := convElem fmt q.rnd q.sat (ns e.2) (f32Val e.1)
      if fmt = 1 then flushBf16 c else c)
    let r := o.w.mergeWrite at_ (packCodes (elemBits fmt) (cs.map (·.code)))
    { w := r.1.onDev (fun d => d.countFh ctx q.cls fmt vs.length (overs cs) (unders cs)), amax := amax,
      poison := o.poison + r.2, nonfinite := o.nonfinite || cs.any (fun c => nonfiniteCode fmt c.code) }

/-- The per-column operands of the epilogue: scales and biases of `n` columns from `c0` on, and the poisoned blocks read. -/
def World.epiColumns (w : World) (q : AccDesc) (c0 n : Nat) : List Nat × List Nat × Nat :=
  let cols := if q.hasCol then w.plainRow 0 (q.colscale + 4 * c0) n id else []
  let e := if q.biasKind = 1 then 2 else 4
  let biases := if q.biasKind = 0 then [] else w.plainRow (if q.biasKind = 1 then 1 else 0) (q.bias + e * c0) n id
  let pois := (if q.hasCol then (w.poisonedIn (q.colscale + 4 * c0) (4 * n)).length else 0) +
    (if q.biasKind = 0 then 0 else (w.poisonedIn (q.bias + e * c0) (e * n)).length)
  ((cols.map (·.v.f32)) ++ List.replicate (n - cols.length) 0,
   (biases.map (·.v.f32)) ++ List.replicate (n - biases.length) 0, pois)

/-- The cells of row i of a node: a full tile, or a quadrant starting at cell `base`. -/
def nodeRow (x : Node) (base width i n : Nat) : List Nat :=
  ((x.cells.drop (base + width * i)).take n).map (fun c => (c.map (·.toNat)).getD 0)

/-- Drain a block of a node through the epilogue: rows from `r0` and columns from `c0` of the output, `m` by `n` of them present,
of an output of width `width`. Answers the running amax. -/
def World.epilogue (w : World) (j : Job) (q : AccDesc) (int : Bool) (x : Node) (base rowLen r0 c0 m n width amax : Nat) :
    World × Nat :=
  let seed := (w.d.ctx j.ctx).seed
  let (cols, biases, pois) := w.epiColumns q c0 n
  let o := (List.range m).foldl (fun o i =>
    q.writeRow int seed j.ctx (r0 + i) c0 width (nodeRow x base rowLen i n) cols biases o)
    { w := w, amax := amax, poison := pois, nonfinite := false }
  let w := o.w.abPoison j o.poison 0
  let w := if o.nonfinite && q.watch then w.raise flagNonfinite else w
  (w, o.amax)

/-- The blocks that the epilogue of a tile reads: column operands and partly filled output blocks (R211, R219). -/
def AccDesc.readsOf (q : AccDesc) (r0 c0 m n width : Nat) : List Nat :=
  let fmt := q.outFmt
  let n' := if isBlockFmt fmt then ceilDiv n 32 * 32 else n
  (if q.hasCol then blocksOf (q.colscale + 4 * c0) (4 * n) else []) ++
  (if q.biasKind = 0 then [] else
    (let e := if q.biasKind = 1 then 2 else 4; blocksOf (q.bias + e * c0) (e * n))) ++
  (List.range m).flatMap (fun i => partialBlocks (q.dest + (r0 + i) * q.stride + c0 * elemBits fmt / 8) (bytesFor fmt n')) ++
  (if isBlockFmt fmt then (List.range m).flatMap (fun i =>
    partialBlocks (q.destScale + ((r0 + i) * ceilDiv width 32 + c0 / 32) * scaleBytes fmt)
      (ceilDiv n 32 * scaleBytes fmt)) else []) ++
  (if q.amax = 0 then [] else blocksOf q.amax 4)

/-- Write the amax where the descriptor asks for it (R222). -/
def World.writeAmax (w : World) (j : Job) (q : AccDesc) (amax : Nat) : World :=
  if q.amax = 0 then w
  else
    let r := w.mergeWrite q.amax (leBytes 4 amax)
    r.1.abPoison j r.2 0

/-! ## The group of a line -/

/-- The stack of a group as its registers and nodes hold it. -/
def Dev.groupStack (d : Dev) (c g : Nat) (q : AccDesc) : MStack :=
  let a := d.accum c g
  { int := d.fld (abGroup c g) 62 62 == 1, span := d.fld (abGroup c g) 26 22, buf := bufLevels (d.abPartition c), spill := q.spill,
    next := a.next, occ := d.fld (abGroup c g) 16 0, nodes := a.levels }

/-- Keep a stack in its group. -/
def Dev.keepStack (d : Dev) (c g : Nat) (s : MStack) : Dev :=
  let d := d.setFld (abGroup c g) 16 0 s.occ
  let d := d.setFld (abNext c g) 16 0 s.next
  d.onCourse c (fun x => { x with groups := tput x.groups g { (tget .init x.groups g) with next := s.next, levels := s.nodes } })

/-- Open an accumulation in a group (R199, R205). -/
def Dev.openAccum (d : Dev) (c g acc : Nat) (q : AccDesc) (int : Bool) : Dev :=
  let d := d.setFld (abGroup c g) 62 62 (if int then 1 else 0)
  let d := d.setFld (abGroup c g) 26 22 q.span
  let d := d.setFld (abGroup c g) 16 0 0
  let d := d.setReg (abNext c g) (BitVec.ofNat 64 (q.root <<< 32))
  let d := d.setFld (AB c) (8 + g) (8 + g) 1
  d.onCourse c (fun x => { x with groups := tput x.groups g { Accum.init with open_ := true, acc := acc } })

/-! ## Faults of the AB (R205, R566) -/

/-- AB_FAULT and AB_FAULT_INFO. -/
def World.abFault (w : World) (j : Job) (bit off : Nat) : World :=
  let w := w.setBit (AB j.course + 0x88) bit
  w.setReg (AB j.course + 0x90) (faultInfo j off)

def World.abOrder (w : World) (j : Job) (off : Nat) : World := (w.abFault j 0 off).unitFault j stPlanMismatch
def World.abConflict (w : World) (j : Job) (off : Nat) : World := (w.abFault j 1 off).unitFault j stPlanMismatch
def World.abRefused (w : World) (j : Job) (addr off : Nat) : World := (w.abFault j 2 off).addrRefused j addr

/-! ## Tied accumulations (R224, R225) -/

def AccDesc.tieSlot (q : AccDesc) (t u : Nat) : Nat := q.tie + 512 + (8 * t + u - 1) * 65536

def World.tieBits (w : World) (q : AccDesc) (t : Nat) : Nat := (readByte w.mem (q.tie + t)).toNat

/-- The type of an accumulation before one of its products has come (R196): that of the products of the position that name it; with
none, INT32 exactly where the output is INT32 (log 34). -/
def World.typeOf (w : World) (c acc : Nat) (q : AccDesc) : Bool :=
  match (w.d.course c).lines.find? (fun l =>
    l.ln.unit == unitMa && numAt (readBytes w.mem (l.ln.desc + 56) 8) 0 8 == acc) with
  | some l => numAt (readBytes w.mem (l.ln.desc + 48) 1) 0 1 % 16 == 9
  | none => q.outFmt == 10

/-- The type of a tied accumulation: that of the nodes in its tie area, or before the first that of R196 (log 111). -/
def World.tieType (w : World) (c acc : Nat) (q : AccDesc) : Bool :=
  (tfind (w.d.course c).ties q.tie).getD (w.typeOf c acc q)

/-- Write the node of tile t and use u, of type `int`, into its tie slot; none where the slot is occupied. -/
def World.writeTie (w : World) (j : Job) (q : AccDesc) (int : Bool) (t u : Nat) (x : Node) : Option World :=
  let bits := w.tieBits q t
  if bitOf bits (u - 1) then none
  else
    let w := (w.writeNode (q.tieSlot t u) x).onDev (fun d => d.onCourse j.course (fun y => { y with ties := tput y.ties q.tie int }))
    let r := w.mergeWrite (q.tie + t) (leBytes 1 (bits + 2 ^ (u - 1)))
    some (r.1.abPoison j r.2 t)

/-- The stack that eight uses of a tile make: the occupied slots in ascending use order, padded to eight (R225). -/
def World.tieFold (w : World) (j : Job) (q : AccDesc) (int : Bool) (t : Nat) : World × Node :=
  let bits := w.tieBits q t
  let node (w : World) (u : Nat) : World × Option Node :=
    if bitOf bits (u - 1) then
      let r := w.readNode int (q.tieSlot t u)
      (w.abPoison j r.2 t, some r.1)
    else (w, none)
  let pairUp (s : World × List (Option Node)) : World × List (Option Node) :=
    (List.range (s.2.length / 2)).foldl (fun (a : World × List (Option Node)) i =>
      let x := s.2.getD (2 * i) none
      let y := s.2.getD (2 * i + 1) none
      let w := if x.isSome && y.isSome then a.1.count (AB j.course + 0x50) 63 0 1 else a.1
      (w, a.2 ++ [mergeNode int x y])) (s.1, [])
  let s := (List.range 8).foldl (fun (a : World × List (Option Node)) i =>
    let r := node a.1 (i + 1)
    (r.1, a.2 ++ [r.2])) (w, [])
  let s := pairUp (pairUp (pairUp s))
  match s.2.headD none with
  | some x => (s.1, x)
  | none => (s.1.count (AB j.course + 0x80) 63 0 1, { cells := List.replicate slotCells (some 0) })

/-! ## DRAIN and IMPORT -/

/-- The status bit of the AB while a command is in work, waiting or refused; LINE_COMPLETE counts by it and clears it. -/
def World.abBusy (w : World) (j : Job) (bit : Nat) : World := w.setBit (AB j.course) bit

/-- Whether an earlier MA line of the buffer that names an accumulation has not ended its issue (R215). -/
def World.maPending (w : World) (j : Job) (acc : Nat) : Bool :=
  ((w.d.course j.course).lines.take j.idx).any (fun l =>
    l.ln.unit == unitMa && (l.phase == .waiting || l.phase == .held || l.phase == .launched) &&
      numAt (readBytes w.mem (l.ln.desc + 56) 8) 0 8 == acc)

/-- Whether an earlier MA line of the buffer has been launched and has not handed over what it issues (R214). -/
def World.maIssuing (w : World) (j : Job) : Bool :=
  ((w.d.course j.course).lines.take j.idx).any (fun l => l.ln.unit == unitMa && l.phase == .launched)

/-- The output an untied DRAIN writes: rows and columns (R207). -/
def drainDims (q : AccDesc) (a : Accum) : Nat × Nat :=
  if q.outM ≠ 0 then (q.outM, q.outN) else if a.lastM ≠ 0 then (a.lastM, a.lastN) else (128, 128)

/-- The parts of an output that an untied DRAIN writes: first cell, cells per row, first row, first column, rows and columns. The
quadrants of a block-diagonal accumulation are drained one by one (R200). -/
def drainParts (quad : Bool) (m n : Nat) : List (Nat × Nat × Nat × Nat × Nat × Nat) :=
  if quad then (List.range 4).map (fun k => (4096 * k, 64, 64 * k, 64 * k, min 64 (m - 64 * k), min 64 (n - 64 * k)))
  else [(0, 128, 0, 0, m, n)]

/-- A DRAIN of the open accumulation of group g. -/
def World.drainOpen (w : World) (j : Job) (g : Nat) (q : AccDesc) (int : Bool) (bad : List Nat) : World :=
  let c := j.course
  let a := w.d.accum c g
  let s := if a.open_ then w.d.groupStack c g q
    else { int := int, span := q.span, buf := bufLevels (w.d.abPartition c), spill := q.spill, next := 0, occ := 0, nodes := [] }
  let (m, n) := drainDims q a
  let parts := drainParts a.lastQuad m n
  match w.checkBlocks j bad (s.spillBlocks ++
      parts.flatMap (fun e => q.readsOf e.2.2.1 e.2.2.2.1 e.2.2.2.2.1 e.2.2.2.2.2 n)) with
  | some w' => w'
  | none =>
    let r := w.foldOrZero j s
    let (w, amax) := parts.foldl (fun (a : World × Nat) e =>
      let (base, width, r0, c0, m, k) := e
      a.1.epilogue j q s.int r.2 base width r0 c0 m k n a.2) (r.1, a.amax)
    ((w.writeAmax j q amax).onDev (fun d => d.closeAccum c g)).finish j

/-- A tied DRAIN: tile by tile of OUT_M × OUT_N (R225). -/
def World.drainTied (w : World) (j : Job) (g : Nat) (q : AccDesc) (int : Bool) (bad : List Nat) : World :=
  let tn := ceilDiv q.outN 128
  let tiles := (List.range q.tieTiles).map (fun t =>
    let r0 := 128 * (t / tn)
    let c0 := 128 * (t % tn)
    (t, r0, c0, min 128 (q.outM - r0), min 128 (q.outN - c0)))
  let slots := tiles.flatMap (fun e => (List.range 8).flatMap (fun i =>
    if bitOf (w.tieBits q e.1) i then blocksOf (q.tieSlot e.1 (i + 1)) 65536 else []))
  let reads := q.tie :: slots ++ tiles.flatMap (fun e => q.readsOf e.2.1 e.2.2.1 e.2.2.2.1 e.2.2.2.2 q.outN)
  match w.checkBlocks j bad reads with
  | some w' => w'
  | none =>
    let (w, amax) := tiles.foldl (fun (a : World × Nat) e =>
      let r := a.1.tieFold j q int e.1
      r.1.epilogue j q int r.2 0 128 e.2.1 e.2.2.1 e.2.2.2.1 e.2.2.2.2 q.outN a.2) (w, 0)
    let w := (w.writeAmax j q amax).putBlk q.tie (List.replicate 512 0) 0
    (w.onDev (fun d => (d.closeAccum j.course g).onCourse j.course (fun x => { x with ties := tdel x.ties q.tie }))).finish j

/-- Import a node into the stack of group g. -/
def World.importStack (w : World) (j : Job) (g : Nat) (k : AbCmd) (q : AccDesc) (int : Bool) (bad : List Nat) : World :=
  let c := j.course
  let a := w.d.accum c g
  if !a.open_ ∧ k.offset ≠ 0 then w.abOrder j k.offset
  else
    let w0 := if a.open_ then w else w.onDev (fun d => d.openAccum c g k.acc q int)
    let s := w0.d.groupStack c g q
    match w.checkBlocks j bad (blocksOf k.src 65536 ++ s.spillBlocks) with
    | some w' => w'
    | none =>
      let r := w0.readNode int k.src
      let w1 := w0.abPoison j r.2 k.offset
      match w1.insertNode j s r.1 k.offset k.level with
      | none => w.abOrder j k.offset
      | some (w2, s) => (w2.onDev (fun d => d.keepStack c g s)).finish j

/-- Import a node into a tie slot. -/
def World.importTie (w : World) (j : Job) (k : AbCmd) (q : AccDesc) (int : Bool) (bad : List Nat) : World :=
  match w.checkBlocks j bad (q.tie :: blocksOf k.src 65536) with
  | some w' => w'
  | none =>
    let r := w.readNode int k.src
    let w1 := w.abPoison j r.2 k.offset
    match w1.writeTie j q int k.offset k.tieU r.1 with
    | none => w.abOrder j k.offset
    | some w2 => w2.finish j

/-- An AB command whose operation is `op`, read, with group g (R208, R566). -/
def World.abCommand (w : World) (j : Job) (op g : Nat) (cmd : AbCmd) (bad : List Nat) : World :=
  let c := j.course
  if !descOk j.ln.desc 32 c || !descOk cmd.acc 128 c then w.abRefused j cmd.acc cmd.offset
  else match w.fetch j bad cmd.acc 128 with
    | .wait w' => w'.keepDesc j [(j.ln.desc, 32)]
    | .got qb qp =>
      let q := accDesc qb
      let a := w.d.accum c g
      let int := if q.tied && decide (op = 1 ∨ cmd.tieU ≠ 0) then w.tieType c cmd.acc q
        else if a.open_ then w.d.fld (abGroup c g) 62 62 == 1 else w.typeOf c cmd.acc q
      let dims := drainDims q a
      if qp then w.poisonDesc j
      else if a.open_ && a.acc != cmd.acc then w.abConflict j cmd.offset
      else if !q.ok c (w.d.abPartition c) int || !cmd.ok q c ||
          (op == 1 && !(if q.tied then q.outOk c q.outM q.outN else q.outOk c dims.1 dims.2)) then
        w.abRefused j cmd.acc cmd.offset
      else
        (if op = 1 then
          if w.maPending j cmd.acc then w
          else if q.tied then w.drainTied j g q int bad
          else w.drainOpen j g q int bad
        else if cmd.tieU = 0 then w.importStack j g cmd q int bad
        else w.importTie j cmd q int bad).keepDesc j [(j.ln.desc, 32), (cmd.acc, 128)]

/-- Work start of an AB command line whose operation is `op` (R208, R566). -/
def World.abLine (w : World) (k : Work) (op : Nat) : World :=
  match w.ready k.course.val k.line unitAb with
  | none => w
  | some j =>
    match w.fetch j k.bad j.ln.desc 32 with
    | .wait w' => w'
    | .got b poison =>
      let cmd := abCmd b
      if poison then (if op = 1 then w.poisonDesc j else w)
      else if cmd.op = 2 ∧ op = 1 ∨ cmd.op ≠ 2 ∧ op = 2 then w
      else match w.d.groupOf j.course j.ctx with
        | none => w
        | some g => (w.abCommand j op g cmd k.bad).abBusy j (if op = 1 then 5 else 4)

def doDrain (k : Work) (w : World) : World := w.abLine k 1
def doImportNode (k : Work) (w : World) : World := w.abLine k 2

/-! ## AB_SAVE and AB_RESTORE (R226, R227) -/

/-- The level whose node a slot of a group holds, by its position in the record: the root lies in a live slot (R198, R202). -/
def slotNode (nodes : Tab Node) (pos : Nat) : Option Node := tfind nodes (if pos = 0 then 16 else pos - 2)

/-- The node as AB_SAVE writes a slot. A slot that holds no node is written with what lies in it, which the spec does not say: free
values by course, count of saves, slot and cell (log 112). -/
def Dev.savedSlot (d : Dev) (c : Nat) (nodes : Tab Node) (pos : Nat) : Node :=
  let idle (i : Nat) : W32 := Config.idleCell c (d.fld (AB c + 0x70) 63 0) pos i
  match if pos = 1 then none else slotNode nodes pos with
  | some x => { cells := x.cells.zipIdx.map (fun e => some (e.1.getD (idle e.2))) }
  | none => { cells := (List.range slotCells).map (fun i => some (idle i)) }

/-- The control block of a save record (R226). -/
def World.saveControl (w : World) (j : Job) (g : Nat) : List Byte :=
  let c := j.course
  let x := w.d.accum c g
  let gr := rget w.d.regs (abGroup c g)
  let q := accDesc (readBytes w.mem x.acc 128)
  let state := (if x.open_ then 1 else 0) + (if x.held then 2 else 0) + (if fieldOf gr 62 62 = 1 then 4 else 0) +
    (if x.open_ && q.finish then 8 else 0)
  leBytes 4 0x56534241 ++ leBytes 1 1 ++ leBytes 1 (w.d.abPartition c) ++ leBytes 1 g ++ leBytes 1 c ++ leBytes 2 j.ctx ++
    leBytes 1 state ++ leBytes 1 (fieldOf gr 26 22) ++ leBytes 4 (fieldOf gr 16 0) ++ leBytes 4 x.next ++
    leBytes 4 (w.d.fld (abNext c g) 63 32) ++ leBytes 8 (if x.open_ then x.acc else 0) ++ leBytes 4 0 ++ leBytes 4 x.amax

def doAbSave (k : Work) (w : World) : World :=
  match w.ready k.course.val k.line unitSave with
  | none => w
  | some j =>
    let c := j.course
    let p := w.d.abPartition c
    match w.d.groupOf c j.ctx with
    | none => w
    | some g =>
      let a := j.ln.desc
      if w.maIssuing j then w.abBusy j 7
      else if a % 512 ≠ 0 ∨ !maRegion c a (512 + 65536 * groupSlots p) then (w.abRefused j a 0).abBusy j 7
      else
        let x := w.d.accum c g
        let w' := w.putBlk a (w.saveControl j g) 0
        let w' := (List.range (groupSlots p)).foldl (fun w' s =>
          w'.writeNode (a + 512 + 65536 * s) (w.d.savedSlot c x.levels s)) w'
        ((w'.onDev (fun d => d.closeAccum c g)).abBusy j 7).finish j

def doAbRestore (k : Work) (w : World) : World :=
  match w.ready k.course.val k.line unitRestore with
  | none => w
  | some j =>
    let c := j.course
    let p := w.d.abPartition c
    match w.d.groupOf c j.ctx with
    | none => w
    | some g =>
      let a := j.ln.desc
      let mismatch (w : World) : World := ((w.abFault j 3 0).unitFault j stPlanMismatch).abBusy j 6
      if w.maIssuing j then w.abBusy j 6
      else if a % 512 ≠ 0 ∨ !maRegion c a (512 + 65536 * groupSlots p) then (w.abRefused j a 0).abBusy j 6
      else match w.fetch j k.bad a 512 with
        | .wait w' => w'.abBusy j 6
        | .got b poison =>
          let match_ := numAt b 0 4 == 0x56534241 && numAt b 4 1 == 1 && numAt b 5 1 == p && numAt b 7 1 == c &&
            numAt b 8 2 == j.ctx
          if poison then mismatch (w.consumed (c / 12) 1 unitRestore j.ctx)
          else if !match_ || (w.d.accum c g).open_ then mismatch w
          else
            let occ := numAt b 12 4 % 2 ^ 17
            let int := bitOf (numAt b 10 1) 2
            let lv := (List.range (bufLevels p)).filter (bitOf occ) ++ (if bitOf occ 16 then [16] else [])
            let pos (l : Nat) : Nat := a + 512 + 65536 * (if l = 16 then 0 else 2 + l)
            match w.checkBlocks j k.bad (lv.flatMap (fun l => blocksOf (pos l) 65536)) with
            | some w' => w'.abBusy j 6
            | none =>
              let r := lv.foldl (fun (s : World × Tab Node) l =>
                let n := s.1.readNode int (pos l)
                (s.1.abPoison j n.2 0, tput s.2 l n.1)) (w, [])
              let isOpen := bitOf (numAt b 10 1) 0
              let w := r.1.onDev (fun d =>
                let d := d.setFld (abGroup c g) 62 62 (if int then 1 else 0)
                let d := d.setFld (abGroup c g) 26 22 (numAt b 11 1)
                let d := d.setFld (abGroup c g) 16 0 occ
                let d := d.setReg (abNext c g) (BitVec.ofNat 64 ((numAt b 20 4 <<< 32) + numAt b 16 4 % 2 ^ 17))
                let d := d.setFld (AB c) (8 + g) (8 + g) (if isOpen then 1 else 0)
                let d := d.setFld (AB c) (12 + g) (12 + g) (if bitOf (numAt b 10 1) 1 then 1 else 0)
                let y : Accum :=
                  { open_ := isOpen, held := bitOf (numAt b 10 1) 1, acc := numAt b 24 8, next := numAt b 16 4, levels := r.2,
                    lastM := 0, lastN := 0, lastQuad := false, amax := numAt b 36 4 }
                d.onCourse c (fun x => { x with groups := tput x.groups g y }))
              (w.abBusy j 6).finish j

/-! ## The commands -/

/-- DRAIN (R215). -/
def execDrain (w : Work) (s : State) : Host.Outcome State Fault Refusal :=
  runWork s w (doDrain w)

/-- IMPORT (R208). -/
def execImportNode (w : Work) (s : State) : Host.Outcome State Fault Refusal :=
  runWork s w (doImportNode w)

/-- AB_SAVE (R226). -/
def execAbSave (w : Work) (s : State) : Host.Outcome State Fault Refusal :=
  runWork s w (doAbSave w)

/-- AB_RESTORE (R227). -/
def execAbRestore (w : Work) (s : State) : Host.Outcome State Fault Refusal :=
  runWork s w (doAbRestore w)

end Sys2Proof.Machine
end

