-- ==== Sys2Proof/Machine/Matrix.lean ====
section
/-! DEFINITION. The matrix array: operand staging, the cell update, and a product line from work start to its hand-over
(R126 to R130, R168 to R192). -/

namespace Sys2Proof.Machine

/-! ## The cell (R127 to R130) -/

/-- A list cut into pieces of `n`; `fuel` bounds them. -/
def pieces {α : Type} (n : Nat) : Nat → List α → List (List α)
  | 0, _ => []
  | fuel + 1, xs => if xs.isEmpty then [] else xs.take n :: pieces n fuel (xs.drop n)

/-- The exact contribution of a K-group: the sum of its products. -/
def groupSum : List (Val × Val) → Option Val
  | [] => none
  | (a, b) :: t =>
    match groupSum t with
    | none => some (a.mul b)
    | some s => some ((a.mul b).add s)

/-- The FP32 cell of one K-block, from −0, group by group. -/
def cellF32 (g : Nat) (xs : List (Val × Val)) : Nat :=
  (pieces g xs.length xs).foldl (fun c p =>
    match groupSum p with
    | some s => ftz ((f32Val c).add s).f32
    | none => c) 0x80000000

/-- The signed integer that an exact value holds. -/
def valInt : Val → Int
  | .fin s m e => let i : Int := ((m <<< e.toNat : Nat) : Int); if s then -i else i
  | _ => 0

/-- The INT32 cell of one K-block, modulo 2^32. -/
def cellI32 (xs : List (Val × Val)) : Nat :=
  ((xs.foldl (fun (c : Int) (e : Val × Val) => c + valInt e.1 * valInt e.2) 0) % 2 ^ 32).toNat

def cellOf (int : Bool) (g : Nat) (xs : List (Val × Val)) : W32 := BitVec.ofNat 32 (if int then cellI32 xs else cellF32 g xs)

/-! ## Operand staging (R179 to R183) -/

/-- The input flush of the MA (R120): FP32 and BF16. -/
def maFlush (fmt c : Nat) : Nat :=
  if fmt = 0 then ftz c else if fmt = 1 ∧ c % 2 ^ 15 < 2 ^ 7 then c - c % 2 ^ 15 else c

/-- An element re-blocked to BF16 (R181). -/
def reblock (x : El) : El :=
  let c := (fmtBf16.conv .nearest false 0 x.v).code
  { x with v := fmtBf16.decode (if c % 2 ^ 15 < 2 ^ 7 then c - c % 2 ^ 15 else c) }

/-- One operand as `count` vectors along K: rows of A or columns of B. -/
def World.operand (w : World) (fmt a sa stride len rows : Nat) (scaled reb alongK : Bool) : List (List El) :=
  let stored := (List.range rows).map (fun r =>
    w.row fmt (a + r * stride) (sa + r * ceilDiv len 32 * scaleBytes fmt) len scaled (maFlush fmt))
  let vecs := if alongK then stored else transpose len stored
  if reb then vecs.map (fun v => v.map reblock) else vecs

def World.operandA (w : World) (p : MaDesc) : List (List El) :=
  w.operand p.fmtA p.a p.aScale p.aStride p.lenA p.rowsA p.scaledA p.reblockA p.alongA
def World.operandB (w : World) (p : MaDesc) : List (List El) :=
  w.operand p.fmtB p.b p.bScale p.bStride p.lenB p.rowsB p.scaledB p.reblockB p.alongB

/-- The blocks of an operand and its scales. -/
def operandBlocks (fmt a sa stride len rows : Nat) (scaled : Bool) : List Nat :=
  (List.range rows).flatMap (fun r => blocksOf (a + r * stride) (bytesFor fmt len)) ++
  (if scaled then blocksOf sa (rows * ceilDiv len 32 * scaleBytes fmt) else [])

def MaDesc.blocksRead (p : MaDesc) : List Nat :=
  (operandBlocks p.fmtA p.a p.aScale p.aStride p.lenA p.rowsA p.scaledA ++
   operandBlocks p.fmtB p.b p.bScale p.bStride p.lenB p.rowsB p.scaledB).eraseDups

/-! ## Tiles -/

/-- The origin and extent of the cell blocks of tile t: (first cell, cells per row, first row, first column, rows, columns). -/
def MaDesc.tileBlocks (p : MaDesc) (t : Nat) : List (Nat × Nat × Nat × Nat × Nat × Nat) :=
  if p.quad then
    (List.range 4).map (fun q => (4096 * q, 64, 64 * q, 64 * q, min 64 (p.m - 64 * q), min 64 (p.n - 64 * q)))
  else
    let (ti, tj) := if bitOf p.mode 5 then (t % p.tilesM, t / p.tilesM) else (t / p.tilesN, t % p.tilesN)
    [(0, 128, 128 * ti, 128 * tj, min 128 (p.m - 128 * ti), min 128 (p.n - 128 * tj))]

/-- The part of a vector along K that K-block b covers. -/
def blockPart (b : Nat) (v : List El) : List Val := ((v.drop (128 * b)).take 128).map (·.v)

/-- The node that K-block b of a tile makes. -/
def MaDesc.leaf (p : MaDesc) (va vb : List (List El)) (t b : Nat) : Node :=
  let part (e : Nat × Nat × Nat × Nat × Nat × Nat) : List (Option W32) :=
    let (_, width, r0, c0, m, n) := e
    let cols := ((vb.drop c0).take n).map (blockPart b)
    let rows := ((va.drop r0).take m).map (blockPart b)
    let filled := rows.flatMap (fun r =>
      cols.map (fun c => some (cellOf p.int8 p.group (r.zip c))) ++ List.replicate (width - n) none)
    filled ++ List.replicate (width * width - filled.length) none
  { cells := (p.tileBlocks t).flatMap part }

/-- Whether a tile reads an element with a property. -/
def MaDesc.tileHas (p : MaDesc) (fa fb : List Bool) (t : Nat) : Bool :=
  (p.tileBlocks t).any (fun e =>
    let (_, _, r0, c0, m, n) := e
    ((fa.drop r0).take m).any id || ((fb.drop c0).take n).any id)

/-- Rows and columns present in a tile, for the counters. -/
def MaDesc.tileCells (p : MaDesc) (t : Nat) : Nat := ((p.tileBlocks t).map (fun e => e.2.2.2.2.1 * e.2.2.2.2.2)).foldl (· + ·) 0
def MaDesc.tileReads (p : MaDesc) (t : Nat) : Nat × Nat :=
  (((p.tileBlocks t).map (fun e => e.2.2.2.2.1)).foldl (· + ·) 0, ((p.tileBlocks t).map (fun e => e.2.2.2.2.2)).foldl (· + ·) 0)

def sumOf (xs : List Nat) : Nat := xs.foldl (· + ·) 0

/-! ## The product line -/

/-- What a product has done so far; `ok` falls with an ORDER_FAULT, and the line stops merging there: the tie slots of earlier tiles
stay written (log 113). -/
structure MaRun where
  w : World
  s : MStack
  amax : Nat
  ok : Bool

/-- Insert the K-blocks of a tile, the first at offset `off`. -/
def MaRun.leaves (r : MaRun) (j : Job) (p : MaDesc) (va vb : List (List El)) (t off : Nat) : MaRun :=
  (List.range p.blocks).foldl (fun r b =>
    if !r.ok then r
    else match r.w.insertNode j r.s (p.leaf va vb t b) (off + b) 0 with
      | some (w, s) => { r with w := w, s := s }
      | none => { r with ok := false }) r

/-- Drain one finished tile. -/
def MaRun.drain (r : MaRun) (j : Job) (p : MaDesc) (q : AccDesc) (t : Nat) : MaRun :=
  let f := r.w.foldOrZero j r.s
  let o := (p.tileBlocks t).foldl (fun (a : World × Nat) e =>
    let (base, width, r0, c0, m, n) := e
    a.1.epilogue j q r.s.int f.2 base width r0 c0 m n p.n a.2) (f.1, r.amax)
  { r with w := o.1, amax := o.2 }

/-- Write the node of a finished tile of a tied use into its tie slot. -/
def MaRun.tie (r : MaRun) (j : Job) (p : MaDesc) (q : AccDesc) (t : Nat) : MaRun :=
  let f := r.w.foldOrZero j r.s
  match f.1.writeTie j q p.int8 t p.tieUse f.2 with
  | some w => { r with w := w }
  | none => { r with w := f.1, ok := false }

/-- A fresh stack of a tile. -/
def freshStack (int : Bool) (span partition spill : Nat) : MStack :=
  { int := int, span := span, buf := bufLevels partition, spill := spill, next := 0, occ := 0, nodes := [] }

/-- The tile index used for tie slots: row by row of the output. -/
def MaDesc.rowTile (p : MaDesc) (t : Nat) : Nat := if bitOf p.mode 5 ∧ !p.quad then (t % p.tilesM) * p.tilesN + t / p.tilesM else t

/-- The tiles of a product with FINISH set. -/
def World.finishTiles (w : World) (j : Job) (p : MaDesc) (q : AccDesc) (va vb : List (List El)) : MaRun :=
  let part := w.d.abPartition j.course
  let span := if q.tied then q.tieSpan else q.span
  (List.range p.tiles).foldl (fun (r : MaRun) t =>
    if !r.ok then r
    else
      let r := ({ r with s := freshStack p.int8 span part q.spill }).leaves j p va vb t 0
      if !r.ok then r else if q.tied then r.tie j p q (p.rowTile t) else r.drain j p q t)
    { w := w, s := freshStack p.int8 span part q.spill, amax := 0, ok := true }

/-- The single tile of a product with FINISH clear, into the stack of its group. -/
def World.openTile (w : World) (j : Job) (g : Nat) (p : MaDesc) (q : AccDesc) (va vb : List (List El)) : MaRun :=
  let c := j.course
  let s := w.d.groupStack c g q
  let r := (MaRun.mk w s 0 true).leaves j p va vb 0 (p.leafBase - q.root)
  if !r.ok then r
  else
    { r with w := r.w.onDev (fun d =>
        let d := d.keepStack c g r.s
        d.onCourse c (fun x =>
          let y : Accum := { (tget .init x.groups g) with lastM := p.m, lastN := p.n, lastQuad := p.quad }
          { x with groups := tput x.groups g y })) }

/-- MA_FAULT and MA_FAULT_INFO. -/
def World.maFault (w : World) (j : Job) (bit tile : Nat) : World :=
  let w := w.setBit (MA j.course + 0x38) bit
  w.setReg (MA j.course + 0x40) (faultInfo j (min tile 0xFFFF))

/-- The counters and consumed faults of a product that issues (R181, R183): the last fault is the one of the latest tile. A poisoned
block that several tiles read is counted once for the product in MEM_POISON_READ (DESIGN CHOICE, log 114: R183 and R284 do not
say). -/
def World.maCount (w : World) (j : Job) (p : MaDesc) (va vb : List (List El)) : World :=
  let c := j.course
  let ts := List.range p.tiles
  let w := w.count (MA c + 0x10) 63 0 (p.tiles * p.tTile)
  let w := w.count (MA c + 0x18) 63 0 (sumOf (ts.map p.tileCells) * p.k)
  let ra := if p.reblockA then sumOf (ts.map (fun t => (p.tileReads t).1)) * p.k else 0
  let rb := if p.reblockB then sumOf (ts.map (fun t => (p.tileReads t).2)) * p.k else 0
  let w := w.count (MA c + 0x30) 63 0 (ra + rb)
  let last (f : El → Bool) : Option Nat := (ts.filter (p.tileHas (va.map (fun v => v.any f)) (vb.map (fun v => v.any f)))).getLast?
  let hits := ([(2, last (·.scaleNan)), (1, last (·.poison))].filterMap (fun e => e.2.map (fun t => (e.1, t))))
  let w := hits.foldl (fun w e => w.maFault j e.1 (hits.foldl (fun m x => max m x.2) 0)) w
  w.consumed (c / 12) (w.poisonCount p.blocksRead) unitMa j.ctx

/-- MA_STATUS while the product runs: formats, re-blocking, QUAD, STALLED, BUSY; LINE_COMPLETE clears it. -/
def World.maStatus (w : World) (j : Job) (p : MaDesc) (stalled : Bool) : World :=
  w.setReg (MA j.course) (BitVec.ofNat 64 ((p.fmtB <<< 12) + (p.fmtA <<< 8) + (if p.reblockB then 32 else 0) +
    (if p.reblockA then 16 else 0) + (if p.quad then 8 else 0) + (if stalled then 4 else 0) + 1))

/-- A product issues: operands, tiles, hand-over. -/
def World.product (w : World) (j : Job) (g : Nat) (p : MaDesc) (q : AccDesc) (bad : List Nat) : World :=
  let c := j.course
  let a := w.d.accum c g
  let epi := if q.finish && !q.tied then
      (List.range p.tiles).flatMap (fun t => (p.tileBlocks t).flatMap (fun e => q.readsOf e.2.2.1 e.2.2.2.1 e.2.2.2.2.1 e.2.2.2.2.2 p.n))
    else if q.tied then [q.tie] else (w.d.groupStack c g q).spillBlocks
  match w.checkBlocks j bad (p.blocksRead ++ epi) with
  | some w' => (w'.maStatus j p true).keepDesc j [(j.ln.desc, 64), (p.abDesc, 128)]
  | none =>
    let va := w.operandA p
    let vb := w.operandB p
    if q.finish then
      let r := w.finishTiles j p q va vb
      if !r.ok then r.w.abOrder j (p.leafBase - q.root)
      else
        let w := if q.tied then r.w else r.w.writeAmax j q r.amax
        ((w.maCount j p va vb).maStatus j p false).finish j
    else
      let opened := if a.open_ then w.onDev (fun d => d.setFld (abGroup c g) 62 62 (if p.int8 then 1 else 0))
        else w.onDev (fun d => d.openAccum c g p.abDesc q p.int8)
      let r := opened.openTile j g p q va vb
      if !r.ok then w.abOrder j (p.leafBase - q.root) else ((r.w.maCount j p va vb).maStatus j p false).finish j

/-- Work start of an MA line (R189, R205, R566). -/
def doMaProduct (k : Work) (w : World) : World :=
  match w.ready k.course.val k.line unitMa with
  | none => w
  | some j =>
    let c := j.course
    match w.fetch j k.bad j.ln.desc 64 with
    | .wait w' => w'.setReg (MA c) 1
    | .got b poison =>
      let p := maDesc b
      if poison then w.poisonDesc j
      else if !descOk j.ln.desc 64 c || !p.ok c then (w.maFault j 0 0).addrRefused j (p.refused c j.ln.desc)
      else if j.ln.wcCompute < p.cost then (w.maFault j 3 0).unitFault j stPlanOverrun
      else match w.d.groupOf c j.ctx with
        | none => w
        | some g =>
          match w.fetch j k.bad p.abDesc 128 with
          | .wait w' => (w'.maStatus j p false).keepDesc j [(j.ln.desc, 64)]
          | .got qb qp =>
            let q := accDesc qb
            let a := w.d.accum c g
            let off := p.leafBase - q.root
            if qp then w.poisonDesc j
            else if a.open_ && a.acc != p.abDesc then w.abConflict j off
            else if !descOk p.abDesc 128 c || !q.ok c (w.d.abPartition c) p.int8 || !q.productOk p ||
                (q.finish && !q.tied && !q.outOk c p.m p.n) ||
                (a.open_ && decide (a.lastM ≠ 0) && (w.d.fld (abGroup c g) 62 62 == 1) != p.int8) then
              (if !q.tied && p.tieUse != 0 then w.maFault j 0 0 else w).abRefused j p.abDesc off
            else if (!a.open_ && !q.finish && decide (off ≠ 0)) || (a.open_ && q.finish) then w.abOrder j off
            else w.product j g p q k.bad

/-! ## The commands -/

/-- MA_PRODUCT (R189). -/
def execMaProduct (w : Work) (s : State) : Host.Outcome State Fault Refusal :=
  runWork s w (doMaProduct w)

end Sys2Proof.Machine
end

