-- ==== Sys2Proof/Machine/Vector.lean ====
section
/-! DEFINITION. The vector engine at work: sources and masks, the operations, reductions in canonical order, the pieces,
destinations, summaries and faults (R230 to R270). -/

namespace Sys2Proof.Machine

def unitVe : Nat := 2

/-! ## Sources and masks (R240, R241, R243, R267) -/

/-- The lanes of vector register k of set n (R231). -/
def Dev.lanes (d : Dev) (c n k : Nat) : List Nat :=
  let v := (tget 0 (d.course c).vregs (32 * n + k)).toNat
  (List.range 128).map (fun l => bitsOf v (32 * l + 31) (32 * l))

/-- The row of a tensor source at indices i1 to i4, as `n` FP32 patterns, or INT32 patterns for an integer operation. -/
def World.tensRow (w : World) (int : Bool) (t : Tens) (n : Nat) (ix : List Nat) : List Nat :=
  let e0 := extAt t.ext 0
  let els := w.row t.fmt (t.rowAddr ix) (t.scaleAt ix) e0 t.isBlock id
  let vs := els.map (fun e => if int then (valInt e.v % 2 ^ 32).toNat else e.v.f32)
  if e0 = 1 then List.replicate n (vs.headD 0) else vs

/-- The row of any source. -/
def World.veRow (w : World) (j : Job) (p : VePlan) (int : Bool) (i n : Nat) (ix : List Nat) : List Nat :=
  match p.srcs[i]? with
  | some (.tensor t) => w.tensRow int t n ix
  | some (.vreg k) => let ls := w.d.lanes j.course j.set k; (List.range n).map (fun l => ls.getD (l % 128) 0)
  | some (.sreg k) => List.replicate n (w.d.sreg32 j.course j.set k)
  | some .imm => List.replicate n p.o.imm
  | none => List.replicate n 0

/-- Which of the `n` elements of a row are unmasked. -/
def World.maskRow (w : World) (j : Job) (p : VePlan) (n : Nat) (ix : List Nat) : List Bool :=
  let inv := bitOf p.o.mask 4
  let bits : List Bool :=
    match p.mask with
    | some t => (w.tensRow true t n ix).map (· != 0)
    | none =>
      let m := (tget 0 (w.d.course j.course).mregs (8 * j.set + (p.o.maskSel - 1))).toNat
      (List.range n).map (fun i => bitOf m (i % 128))
  if p.o.maskSel = 0 then List.replicate n true else bits.map (· != inv)

/-- The blocks of a tensor that a row's present elements lie in, each with its vector of the row. -/
def Tens.uses (t : Tens) (ix : List Nat) (present : List Bool) : List (Nat × Nat) :=
  let a := t.rowAddr ix
  let s := t.scaleAt ix
  let at_ (i : Nat) : List (Nat × Nat) :=
    (0, blockOf (a + i * elemBits t.fmt / 8)) :: (if t.isBlock then [(0, blockOf (s + i / 32 * scaleBytes t.fmt))] else [])
  if extAt t.ext 0 = 1 then (if present.any id then at_ 0 else [])
  else (present.zipIdx.flatMap (fun e => if e.1 then (at_ e.2).map (fun x => (e.2 / 128, x.2)) else [])).eraseDups

/-- The entries of an index source of GATHER or SCATTER (R264). -/
def World.indices (w : World) (j : Job) (p : VePlan) : List Nat :=
  let n := p.entries
  match (p.srcs[1]? : Option VSrc) with
  | some (.tensor t) =>
    if extAt t.ext 0 = n then w.tensRow true t n [0, 0, 0, 0]
    else (List.range n).map (fun i => (w.tensRow true t 1 [i, 0, 0, 0]).headD 0)
  | _ => w.veRow j p true 1 n [0, 0, 0, 0]

/-- The row that an index names, none for an absent one. -/
def indexRow (e : List Nat) (x : Nat) : Option Nat := if x < extAt e 1 then some x else none
def indexBad (e : List Nat) (x : Nat) : Bool := decide (extAt e 1 ≤ x) && x != 0xFFFFFFFF

/-- What a walk reads: for each use, the row number of the walk, the source (3 for the mask), the indices of the row and the
elements read. -/
def World.veUses (w : World) (j : Job) (p : VePlan) : List (Nat × Nat × List Nat × List Bool) :=
  let op := p.o.op
  let two (m : List Bool) : List Bool := List.replicate 2 (m.any id)
  let mask (rn n : Nat) (ix : List Nat) : List (Nat × Nat × List Nat × List Bool) := [(rn, 3, ix, List.replicate n true)]
  if op = 0x78 ∨ op = 0x79 then
    let e := if op = 0x78 then p.out else p.inp
    let n := extAt e 0
    let idx := w.indices j p
    let whole : List (Nat × Nat × List Nat × List Bool) :=
      (List.range p.entries).map (fun i => (i, 1, [i, 0, 0, 0], [true])) ++
      [(0, 1, [0, 0, 0, 0], List.replicate p.entries true)]
    whole ++ (List.range (extRows e)).flatMap (fun rn =>
      let ix := rowIx e rn
      let x := idx.getD (ix.getD 0 0) 0xFFFFFFFF
      let m := w.maskRow j p n ix
      mask rn n ix ++
      (if op = 0x78 then (match indexRow p.inp x with | some r => [(rn, 0, ix.set 0 r, m)] | none => [])
       else if (indexRow p.out x).isSome then [(rn, 0, ix, m)] else []))
  else
    let e := p.inp
    let n := extAt e 0
    (List.range (extRows e)).flatMap (fun rn =>
      let ix := rowIx e rn
      let m := w.maskRow j p n ix
      mask rn n ix ++
      (match op with
       | 0x31 => [(rn, 0, ix, m), (rn, 1, ix, m.map (!·))]
       | 0x62 => [(rn, 0, ix, m), (rn, 1, ix, two m), (rn, 2, ix, m)]
       | 0x69 => [(rn, 0, ix, m), (rn, 1, ix, two m)]
       | 0x6A => [(rn, 0, ix, two m), (rn, 1, ix, two m)]
       | _ => (List.range p.o.arity).map (fun i => (rn, i, ix, m))))

/-- The blocks a walk reads, each with the index of its vector in the walk. -/
def World.veBlocks (w : World) (j : Job) (p : VePlan) : List (Nat × Nat) :=
  let nv := ceilDiv (extAt p.inp 0) 128
  ((w.veUses j p).flatMap (fun u =>
    let (rn, i, ix, m) := u
    let t : Option Tens := if i = 3 then p.mask else match (p.srcs[i]? : Option VSrc) with | some (.tensor t) => some t | _ => none
    match t with
    | some t => (t.uses ix m).map (fun e => (rn * nv + e.1, e.2))
    | none => [])).eraseDups

/-! ## Element functions (R244, R245) -/

def canonNan (x : Nat) : Nat := if f32IsNan x then f32Nan else x

def log2e : Nat := 0x3FB8AA3B
def ln2 : Nat := 0x3F317218
def f32NegInf : Nat := 0xFF800000

/-- CMP: 0 EQ, 1 NE, 2 LT, 3 LE, 4 GT, 5 GE. -/
def veCmpFn (mode a b : Nat) : Bool :=
  match mode % 8 with
  | 0 => fp32Eq a b
  | 1 => !fp32Eq a b
  | 2 => fp32Lt a b
  | 3 => fp32Le a b
  | 4 => fp32Lt b a
  | _ => fp32Le b a

/-- The element-wise operations on FP32 patterns. -/
def veFn (op mode : Nat) (xs : List Nat) : Nat :=
  let a := xs.getD 0 0
  let b := xs.getD 1 0
  let c := xs.getD 2 0
  match op with
  | 0x01 | 0x02 => canonNan a
  | 0x10 => fadd a b
  | 0x11 => fsub a b
  | 0x12 => fmul a b
  | 0x13 => ffma a b c
  | 0x14 => fmin a b
  | 0x15 => fmax a b
  | 0x16 => fabs a
  | 0x17 => fneg a
  | 0x18 => fdiv a b
  | 0x19 => fsqrt a
  | 0x20 => vexp2 a
  | 0x21 => vlog2 a
  | 0x22 => vrecip a
  | 0x23 => vrsqrt a
  | 0x24 => vtanh a
  | 0x25 => vexp2 (fmul a log2e)
  | 0x26 => actSilu id a
  | 0x27 => actGelu id a
  | 0x30 => if veCmpFn mode a b then f32One else 0
  | 0x38 => (a + b) % 2 ^ 32
  | 0x39 => (a + (2 ^ 32 - b)) % 2 ^ 32
  | 0x3A => (a * b) % 2 ^ 32
  | _ => 0

/-! ## Reductions in canonical order (R256 to R258) -/

/-- One level of the canonical tree; an absent node passes its sibling through. -/
def pairUp (f : Nat → Nat → Nat) : List (Option Nat) → List (Option Nat)
  | a :: b :: t =>
    (match a, b with
     | some x, some y => some (f x y)
     | some x, none => some x
     | none, y => y) :: pairUp f t
  | xs => xs

/-- The canonical tree over leaves by index. -/
def treeFold (f : Nat → Nat → Nat) (xs : List (Option Nat)) : Option Nat := (iter (pairUp f) 48 xs).headD none

def present (xs : List (Option Nat)) : List Nat := xs.filterMap id
def leavesOf (m : List Bool) (xs : List Nat) : List (Option Nat) := List.zipWith (fun p x => if p then some x else none) m xs

def treeSum (xs : List (Option Nat)) : Nat := (treeFold fadd xs).getD 0
def squares (xs : List (Option Nat)) : List (Option Nat) := xs.map (fun x => x.map (fun v => fmul v v))

/-- vrecip of the count of present leaves. -/
def recipCount (xs : List (Option Nat)) : Nat := vrecip (f32OfInt ((present xs).length : Int))

/-- exp(x − m) as the softmax pieces form it (R261). -/
def smExp (x m : Nat) : Nat := vexp2 (fmul (fsub x m) log2e)

/-- SM_STATS: (m, s). -/
def smStats (xs : List (Option Nat)) : Nat × Nat :=
  match treeFold fmax xs with
  | none => (f32NegInf, 0)
  | some m => (m, treeSum (xs.map (fun x => x.map (fun v => smExp v m))))

/-- The index of the first NaN, or of the best value by a strict order; 0xFFFFFFFF with no leaf (R257). -/
def argBest (better : Nat → Nat → Bool) (xs : List (Option Nat)) : Nat :=
  let ps : List (Nat × Nat) := xs.zipIdx.filterMap (fun e => e.1.map (fun v => (v, e.2)))
  match ps.find? (fun e => f32IsNan e.1) with
  | some e => e.2
  | none => match ps with
    | [] => 0xFFFFFFFF
    | h :: t => (t.foldl (fun (b e : Nat × Nat) => if better e.1 b.1 then e else b) h).2

/-- A reduction of R245 over leaves. -/
def reduceLeaves (op : Nat) (xs : List (Option Nat)) : Nat :=
  match op with
  | 0x50 => treeSum xs
  | 0x51 => if (present xs).isEmpty then 0 else fmul (treeSum xs) (recipCount xs)
  | 0x52 => (treeFold fmax xs).getD f32NegInf
  | 0x53 => (treeFold fmin xs).getD 0x7F800000
  | 0x54 => treeSum (squares xs)
  | 0x55 => argBest (fun a b => decide (f32Ord b < f32Ord a)) xs
  | 0x56 => argBest (fun a b => decide (f32Ord a < f32Ord b)) xs
  | _ =>
    if (present xs).isEmpty then f32NegInf
    else let r := smStats xs; fadd r.1 (fmul (vlog2 r.2) ln2)

/-- The statistics of a row (R259, R261), `eps` the immediate. -/
def rowStats (op eps : Nat) (xs : List (Option Nat)) : List Nat :=
  if op = 0x68 then [(smStats xs).1, (smStats xs).2]
  else if (present xs).isEmpty then [0, 0]
  else
    let rn := recipCount xs
    if op = 0x60 then [0, vrsqrt (fadd (fmul (treeSum (squares xs)) rn) eps)]
    else
      let mu := fmul (treeSum xs) rn
      let ds := xs.map (fun x => x.map (fun v => fsub v mu))
      [mu, vrsqrt (fadd (fmul (treeSum (squares ds)) rn) eps)]

/-- Whether an element ranks before another (R262): NaNs first, then descending values; ties keep their order. -/
def topLe (a b : Nat × Nat) : Bool :=
  if f32IsNan a.1 then true else if f32IsNan b.1 then false else decide (f32Key b.1 ≤ f32Key a.1)

/-- TOPK: k values with their indices. -/
def topk (k : Nat) (xs : List (Option Nat)) : List (Nat × Nat) :=
  let ps : List (Nat × Nat) := xs.zipIdx.filterMap (fun e => e.1.map (fun v => (canonNan v, e.2)))
  let best := (ps.mergeSort topLe).take k
  best ++ List.replicate (k - best.length) (f32NegInf, 0xFFFFFFFF)

/-! ## Results -/

/-- A result element: none where nothing is written; otherwise its value, and whether it counts as unmasked. -/
abbrev VOut := Option (Nat × Bool)

/-- The results of a walk: rows of DST by row number, in the order they are written, the rows of DST2, elements
processed, rows reduced from no element, and the vector of an index out of range. -/
structure VeRes where
  rows : List (Nat × List VOut)
  rows2 : List (Nat × List VOut)
  elements : Nat
  empties : Nat
  badIndex : Option Nat

def shown (xs : List Nat) : List VOut := xs.map (fun v => some (v, true))

/-- The columns of `n`-element rows. -/
def columns (n : Nat) (rows : List (List Nat)) : List (List Nat) :=
  rows.foldr (fun r acc => List.zipWith (· :: ·) r acc) (List.replicate n [])

def outsOf (m : List Bool) (vs : List Nat) : List VOut := List.zipWith (fun p v => if p then some (v, true) else none) m vs

/-- One row of the operations that give row rn of DST from row rn of their sources: the row, and the empty rows in it. -/
def World.rowResult (w : World) (j : Job) (p : VePlan) (rn : Nat) : List VOut × Nat :=
  let op := p.o.op
  let e := p.inp
  let n := extAt e 0
  let ix := rowIx e rn
  let m := w.maskRow j p n ix
  let src (i k : Nat) : List Nat := w.veRow j p (veInteger op || op == 0x40) i k ix
  let leaves := leavesOf m (src 0 n)
  let none_ := if m.any id then 0 else 1
  if veReduces op then (shown [reduceLeaves op leaves], none_)
  else if veStats op then (shown (rowStats op p.o.imm leaves), none_)
  else match op with
    | 0x31 => (List.zipWith (fun b ab => some (if b then canonNan ab.1 else canonNan ab.2, b)) m ((src 0 n).zip (src 1 n)), 0)
    | 0x40 =>
      let i1 : Int := (ix.getD 0 0 : Int) + signedOf 32 p.o.imm
      let causal := bitOf p.o.mode 3
      let vs := ((src 0 n).zip (src 1 n)).zipIdx.map (fun x =>
        if x.1.1 = x.1.2 ∧ (!causal ∨ (x.2 : Int) ≤ i1) then 1 else 0)
      (outsOf m vs, 0)
    | 0x62 =>
      let s := src 1 2
      (outsOf m (((src 0 n).zip (src 2 n)).map (fun x => fmul (fmul (fsub x.1 (s.getD 0 0)) (s.getD 1 0)) x.2)), 0)
    | 0x69 =>
      let s := src 1 2
      let mx := s.getD 0 0
      let r := vrecip (s.getD 1 0)
      let dead := mx == f32NegInf
      (List.zipWith (fun b x => some (if b && !dead then fmul (smExp x mx) r else 0, b)) m (src 0 n),
       if dead then 1 else none_)
    | 0x6A =>
      let a := src 0 2
      let b := src 1 2
      let mx := fmax (a.getD 0 0) (b.getD 0 0)
      let s := if mx = f32NegInf then 0
        else ffma (b.getD 1 0) (smExp (b.getD 0 0) mx) (fmul (a.getD 1 0) (smExp (a.getD 0 0) mx))
      (outsOf m [mx, s], 0)
    | _ => (outsOf m ((columns n ((List.range p.o.arity).map (fun i => src i n))).map (veFn op p.o.mode)), 0)

/-- A reduction along an axis above 0: the rows of DST. -/
def World.axisRows (w : World) (j : Job) (p : VePlan) : List (List VOut × Nat) :=
  let e := p.inp
  let n := extAt e 0
  (List.range (extRows p.out)).map (fun rn =>
    let ix := rowIx p.out rn
    let rows := (List.range (extAt e p.o.axis)).map (fun k =>
      let jx := ix.set (p.o.axis - 1) k
      leavesOf (w.maskRow j p n jx) (w.veRow j p false 0 n jx))
    let cols := rows.foldr (fun r acc => List.zipWith (· :: ·) r acc) (List.replicate n [])
    (shown (cols.map (reduceLeaves p.o.op)), (cols.filter (fun c => (present c).isEmpty)).length))

/-- Unmasked elements of a walk over extents. -/
def World.maskCount (w : World) (j : Job) (p : VePlan) (e : List Nat) : Nat :=
  sumOf ((List.range (extRows e)).map (fun rn => ((w.maskRow j p (extAt e 0) (rowIx e rn)).filter id).length))

/-- What an operation gives. -/
def World.veResult (w : World) (j : Job) (p : VePlan) : VeRes :=
  let op := p.o.op
  let e := p.inp
  let n := extAt e 0
  let number (rs : List (List VOut × Nat)) : VeRes :=
    { rows := rs.zipIdx.map (fun r => (r.2, r.1.1)), rows2 := [], elements := w.maskCount j p e,
      empties := sumOf (rs.map (·.2)), badIndex := none }
  if veReduces op ∧ p.o.axis ≠ 0 then number (w.axisRows j p)
  else if op = 0x70 then
    let ts := (List.range (extRows e)).map (fun rn =>
      let ix := rowIx e rn
      let m := w.maskRow j p n ix
      (topk p.o.kTop (leavesOf m (w.veRow j p false 0 n ix)), if m.any id then 0 else 1))
    { rows := ts.zipIdx.map (fun r => (r.2, shown (r.1.1.map (·.1)))),
      rows2 := ts.zipIdx.map (fun r => (r.2, shown (r.1.1.map (·.2)))),
      elements := w.maskCount j p e, empties := sumOf (ts.map (·.2)), badIndex := none }
  else if op = 0x78 ∨ op = 0x79 then
    let idx := w.indices j p
    let walk := if op = 0x78 then p.out else e
    let named := if op = 0x78 then e else p.out
    let rows := (List.range (extRows walk)).filterMap (fun rn =>
      let ix := rowIx walk rn
      let m := w.maskRow j p (extAt walk 0) ix
      let tgt (i : Nat) : Nat := ix.set 0 i |> fun x =>
        x.getD 0 0 + extAt p.out 1 * (x.getD 1 0 + extAt p.out 2 * (x.getD 2 0 + extAt p.out 3 * x.getD 3 0))
      match op == 0x78, indexRow named (idx.getD (ix.getD 0 0) 0xFFFFFFFF) with
      | true, some r => some (rn, outsOf m ((w.veRow j p false 0 n (ix.set 0 r)).map canonNan))
      | true, none => some (rn, outsOf m (List.replicate n 0))
      | false, some r => some (tgt r, outsOf m ((w.veRow j p false 0 n ix).map canonNan))
      | false, none => none)
    let nv := ceilDiv (extAt e 0) 128
    { rows := rows, rows2 := [], elements := sumOf (rows.map (fun r => (r.2.filter (·.isSome)).length)), empties := 0,
      badIndex := ((idx.zipIdx.filter (fun x => indexBad named x.1)).getLast?).map (fun x => x.2 * nv) }
  else number ((List.range (extRows e)).map (w.rowResult j p))

/-! ## Destinations (R240, R243) -/

/-- A value written: its logical index, its FP32 or INT32 pattern, whether it counts as unmasked. -/
structure VVal where
  idx : Nat
  v : Nat
  counted : Bool

/-- What a destination takes: writes in order, the values written, the conversions, and whether a block scale is NaN. -/
structure VeEmit where
  writes : List (Nat × List Byte)
  vals : List VVal
  convs : List Conv
  nanScale : Bool

/-- Join each write to the next where it ends at its start. -/
def joinWrites : List (Nat × List Byte) → List (Nat × List Byte)
  | [] => []
  | (a, bs) :: t =>
    match joinWrites t with
    | (b, cs) :: u => if a + bs.length = b then (a, bs ++ cs) :: u else (a, bs) :: (b, cs) :: u
    | [] => [(a, bs)]

/-- One row of results for a tensor destination. -/
def Tens.emitRow (t : Tens) (o : VeOp) (seed : W64) (int : Bool) (rn : Nat) (row : List VOut) : VeEmit :=
  let ix := rowIx t.ext rn
  let a := t.rowAddr ix
  let base := rn * extAt t.ext 0
  let rnd := o.conv % 4
  let sat := o.conv / 4
  let ns (i : Nat) : Nat := noise seed t.tid (base + i)
  if t.isBlock then
    let vs := row.map (fun x => x.map (fun e => if int then f32OfI32 e.1 else e.1))
    let qs := (pieces32 vs).zipIdx.map (fun e => quantise t.fmt rnd sat (fun k => ns (32 * e.2 + k)) e.1)
    let codes := qs.flatMap (fun q => let cs := q.2.map (·.code); cs ++ List.replicate (32 - cs.length) 0)
    let vals := qs.flatMap (fun q => q.2.map (fun c => ((elemVal t.fmt c.code).mul (scaleVal t.fmt q.1)).f32))
    { writes := [(a, packCodes (elemBits t.fmt) codes), (t.scaleAt ix, packCodes (8 * scaleBytes t.fmt) (qs.map (·.1)))],
      vals := (row.zip vals).zipIdx.filterMap (fun e => e.1.1.map (fun x => { idx := base + e.2, v := e.1.2, counted := x.2 })),
      convs := (row.zip (qs.flatMap (·.2))).filterMap (fun e => e.1.map (fun _ => e.2)),
      nanScale := qs.any (fun q => nanScale t.fmt q.1) }
  else
    let bytes := elemBits t.fmt / 8
    let cs : List (Nat × Conv × Bool) := row.zipIdx.filterMap (fun e => e.1.map (fun x =>
      (e.2, convElem t.fmt rnd sat (ns e.2) (if int then intVal 32 x.1 else f32Val x.1), x.2)))
    let val (c : Nat) : Nat :=
      if t.fmt = 9 then (valInt (intVal 8 c) % 2 ^ 32).toNat else if t.fmt = 10 then c else (elemVal t.fmt c).f32
    { writes := cs.map (fun e => (a + e.1 * bytes, leBytes bytes e.2.1.code)),
      vals := cs.map (fun e => { idx := base + e.1, v := val e.2.1.code, counted := e.2.2 }),
      convs := cs.map (·.2.1), nanScale := false }

/-- All rows of a tensor destination. -/
def Tens.emit (t : Tens) (o : VeOp) (seed : W64) (int : Bool) (rows : List (Nat × List VOut)) : VeEmit :=
  let es := rows.map (fun r => t.emitRow o seed int r.1 r.2)
  { writes := joinWrites ((es.flatMap (fun e => e.writes.take (if t.isBlock then 1 else e.writes.length)))) ++
      (if t.isBlock then joinWrites (es.flatMap (fun e => e.writes.drop 1)) else []),
    vals := es.flatMap (·.vals), convs := es.flatMap (·.convs), nanScale := es.any (·.nanScale) }

/-- The values a register destination takes. -/
def laneVals (row : List VOut) : List VVal :=
  row.zipIdx.filterMap (fun e => e.1.map (fun x => { idx := e.2, v := x.1, counted := x.2 }))

/-- Write a vector register: absent and masked lanes keep their values. -/
def World.writeVreg (w : World) (j : Job) (k : Nat) (row : List VOut) : World :=
  let n := 32 * j.set + k
  let old := w.d.lanes j.course j.set k
  let new := old.zipIdx.map (fun e => match row.getD e.2 none with | some x => x.1 | none => e.1)
  w.onDev (fun d => d.onCourse j.course (fun x => { x with vregs := tput x.vregs n (BitVec.ofNat 4096 (leNat (new.flatMap (leBytes 4)))) }))

/-- Write a mask register: absent and masked lanes receive 0. -/
def World.writeMreg (w : World) (j : Job) (k : Nat) (row : List VOut) : World :=
  let n := 8 * j.set + k
  let v := ofBits (row.map (fun x => match x with | some e => e.1 != 0 | none => false))
  w.onDev (fun d => d.onCourse j.course (fun x => { x with mregs := tput x.mregs n (BitVec.ofNat 128 v) }))

/-! ## Summaries (R265, R266) -/

/-- Leaves by logical index, from values in rising order of it. -/
def leavesFrom : Nat → Nat → List VVal → List (Option Nat)
  | 0, _, _ => []
  | n + 1, i, [] => none :: leavesFrom n (i + 1) []
  | n + 1, i, v :: t => if v.idx = i then some v.v :: leavesFrom n (i + 1) t else none :: leavesFrom n (i + 1) (v :: t)

/-- The last value of each logical index, in rising order. -/
def lastVals (vs : List VVal) : List VVal :=
  let s := vs.zipIdx.mergeSort (fun a b => decide (a.1.idx ≤ b.1.idx))
  let rec keep : List (VVal × Nat) → List VVal
    | a :: b :: t => if a.1.idx = b.1.idx then keep (b :: t) else a.1 :: keep (b :: t)
    | [a] => [a.1]
    | [] => []
  keep s

/-- The four words of a summary; `total` elements in DST. -/
def summaryOf (op : Nat) (ints : Bool) (total empties : Nat) (vals : List VVal) : List W64 :=
  let vs := vals.map (·.v)
  let one := if ints then 1 else f32One
  let flagged := op == 0x30 || op == 0x40
  let count := if flagged then (vs.filter (· == one)).length else (vals.filter (·.counted)).length
  let sum := if flagged then f32OfInt (count : Int)
    else if ints then sumOf ((lastVals vals).map (·.v)) % 2 ^ 32
    else treeSum (leavesFrom total 0 (lastVals vals))
  let sg (x : Nat) : Int := signedOf 32 x
  let mx := if ints then vs.foldl (fun m v => if sg m < sg v then v else m) 0x80000000
    else (vs.filter (!f32IsNan ·)).foldl fmax f32NegInf
  let mn := if ints then vs.foldl (fun m v => if sg v < sg m then v else m) 0x7FFFFFFF
    else (vs.filter (!f32IsNan ·)).foldl fmin 0x7F800000
  let nf := if ints then 0 else (vs.filter (!f32IsFinite ·)).length
  [BitVec.ofNat 64 count, BitVec.ofNat 64 sum, BitVec.ofNat 64 (mx + 2 ^ 32 * mn),
   BitVec.ofNat 64 (nf % 2 ^ 32 + (if count = 0 then 2 ^ 32 else 0) + (if empties = 0 then 0 else 2 ^ 33))]

/-! ## The line -/

/-- VE_FAULT and VE_FAULT_INFO. -/
def World.veFault (w : World) (j : Job) (bit vec : Nat) : World :=
  let w := w.setBit (VE j.course + 0x38) bit
  w.setReg (VE j.course + 0x40) (faultInfo j (min vec 0xFFFF))

/-- What an operation writes to its destination and to its second one, with the values and conversions that its counters see. -/
def World.veEmits (w : World) (j : Job) (p : VePlan) : VeEmit × VeEmit :=
  let r := w.veResult j p
  let seed := (w.d.ctx j.ctx).seed
  let row0 := (r.rows.head?.map (·.2)).getD []
  (match p.dst with
    | some t => t.emit p.o seed (veIntResult p.o.op) r.rows
    | none =>
      let vs := if p.o.kindOf 3 = 2 then (laneVals row0).map (fun v => { v with v := if v.v = 0 then 0 else 1 }) else laneVals row0
      { writes := [], vals := vs, convs := [], nanScale := false },
   match p.dst2 with
    | some t => t.emit p.o seed true r.rows2
    | none => { writes := [], vals := [], convs := [], nanScale := false })

/-- The runs of bytes an operation stores: address and bytes. -/
def World.veStores (w : World) (j : Job) (p : VePlan) : List (Nat × List Byte) :=
  let e := w.veEmits j p
  e.1.writes ++ e.2.writes

/-- The blocks that an operation's results fill only in part, each with the index of the vector of the walk that writes it: a row that a
reduction or a piece writes ends with the last vector of its source row, and one along another axis with the walk. -/
def World.veMerged (w : World) (j : Job) (p : VePlan) : List (Nat × Nat) :=
  let nv := ceilDiv (extAt p.inp 0) 128
  let part := (w.veStores j p).flatMap (fun x => partialBlocks x.1 x.2.length)
  let vec (rn v : Nat) : Nat :=
    if veReduces p.o.op ∧ p.o.axis ≠ 0 then extVecs p.inp - 1
    else if p.out = p.inp then rn * nv + v else rn * nv + (nv - 1)
  (p.dst.toList ++ p.dst2.toList).flatMap (fun t => (List.range (extRows t.ext)).flatMap (fun rn =>
    ((t.uses (rowIx t.ext rn) (List.replicate (extAt t.ext 0) true)).filter (fun e => part.contains e.2)).map (fun e =>
      (vec rn e.1, e.2))))

/-- VE_STATUS of a line in work: OP, STALLED, REDUCING, BUSY (R270). A row fold is shown in work when the walk of a reduction or of a
statistics operation has ended (log 115). -/
def World.veStatus (w : World) (j : Job) (op : Nat) (stalled folding : Bool) : World :=
  w.setReg (VE j.course) (BitVec.ofNat 64 (op * 65536 + (if stalled then 4 else 0) + (if folding then 2 else 0) + 1))

/-- The effects of an operation that issues. -/
def World.veIssue (w : World) (j : Job) (p : VePlan) (bad : List Nat) : World :=
  let c := j.course
  let op := p.o.op
  let reads := w.veBlocks j p
  let r := w.veResult j p
  let int := veIntResult op
  let row0 := (r.rows.head?.map (·.2)).getD []
  let e : VeEmit := (w.veEmits j p).1
  let writes := w.veStores j p
  match w.checkBlocks j bad ((reads.map (·.2) ++ writes.flatMap (fun x => partialBlocks x.1 x.2.length)).eraseDups) with
  | some w' => (w'.veStatus j op true false).keepDesc j ((j.ln.desc, 64) :: (p.refs.map (fun a => (a, 64))))
  | none =>
    let hit := (reads ++ w.veMerged j p).filter (fun x => w.poisoned x.2)
    let s := writes.foldl (fun (a : World × Nat) x => let q := a.1.mergeWrite x.1 x.2; (q.1, a.2 + q.2)) (w, 0)
    let n := (hit.map (·.2)).eraseDups.length + s.2
    let w := s.1
    let w := if p.o.kindOf 3 = 1 then w.writeVreg j p.o.dst row0 else if p.o.kindOf 3 = 2 then w.writeMreg j p.o.dst row0 else w
    let w := if n = 0 then w else (w.veFault j 2 (hit.foldl (fun m x => max m x.1) 0)).consumed (c / 12) n unitVe j.ctx
    let ints := match p.dst with | some t => t.fmt == 9 || t.fmt == 10 | none => p.o.kindOf 3 == 2 || int
    let nf := if ints then 0 else (e.vals.filter (fun v => !f32IsFinite v.v)).length
    let w := match p.dst with
      | some t =>
        let w := if t.flags % 2 = 1 ∧ (0 < nf ∨ e.nanScale) then w.raise flagNonfinite else w
        w.onDev (fun d => d.countFh j.ctx (bitsOf t.flags 2 1) t.fmt e.convs.length (overs e.convs) (unders e.convs))
      | none => w
    let total := match p.dst with | some t => extAt t.ext 0 * extRows t.ext | none => 128
    let w := if p.o.sumb = 0 then w
      else (summaryOf op ints total r.empties e.vals).zipIdx.foldl (fun w x =>
        w.onDev (fun d => d.setSreg c j.set (p.o.sumb + x.2) x.1)) w
    let w := w.veStatus j op false (veReduces op || veStats op)
    let w := w.count (VE c + 0x10) 63 0 p.walk
    let w := w.count (VE c + 0x18) 63 0 r.elements
    let w := w.count (VE c + 0x28) 63 0 nf
    let w := w.count (VE c + 0x30) 63 0 r.empties
    match r.badIndex with
    | some v => (w.veFault j 3 v).unitFault j stPlanMismatch
    | none => w.finish j

/-- The tensor descriptors of a line read and checked, unless the unit has read them before. -/
def World.veFetch (w : World) (j : Job) (bad : List Nat) (p : VePlan) : Fetch :=
  let bl := (p.refs.flatMap (fun a => if descOk a 64 j.course && (tfind (w.readOf j) a).isNone then blocksOf a 64 else [])).eraseDups
  match w.checkBlocks j bad bl with
  | some w' => .wait w'
  | none => .got [] (bl.any w.poisoned)

/-- A descriptor of the line lies in a poisoned block: read as a poisoned block of R267, and the line faults (R537). -/
def World.vePoisonDesc (w : World) (j : Job) : World := (w.veFault j 2 0).poisonDesc j

/-- Work start of a VE line whose descriptor holds operation `op` (R248). -/
def World.veLine (w : World) (k : Work) (op : Nat) : World :=
  match w.ready k.course.val k.line unitVe with
  | none => w
  | some j =>
    let c := j.course
    match w.fetch j k.bad j.ln.desc 64 with
    | .wait w' => w'.setReg (VE c) 1
    | .got b poison =>
      let o := veOp b
      if poison then w.vePoisonDesc j
      else if o.op ≠ op ∧ (veInfo o.op o.kTop).isSome then w
      else
        let p := vePlan (w.descMem j) j.ln.desc
        match w.veFetch j k.bad p with
        | .wait w' => (w'.veStatus j o.op false false).keepDesc j [(j.ln.desc, 64)]
        | .got _ poison =>
          if poison then w.vePoisonDesc j
          else match p.bad c with
            | some .shape => (w.veFault j 4 0).unitFault j stPlanMismatch
            | some (.addr a) => (w.veFault j 0 0).addrRefused j a
            | none =>
              if j.ln.wcCompute < p.cost then (w.veFault j 1 0).unitFault j stPlanOverrun
              else w.veIssue j p k.bad

def doVeCopy (k : Work) (w : World) : World := w.veLine k 0x01
def doVeFill (k : Work) (w : World) : World := w.veLine k 0x02
def doVeAdd (k : Work) (w : World) : World := w.veLine k 0x10
def doVeSub (k : Work) (w : World) : World := w.veLine k 0x11
def doVeMul (k : Work) (w : World) : World := w.veLine k 0x12
def doVeFma (k : Work) (w : World) : World := w.veLine k 0x13
def doVeMin (k : Work) (w : World) : World := w.veLine k 0x14
def doVeMax (k : Work) (w : World) : World := w.veLine k 0x15
def doVeAbs (k : Work) (w : World) : World := w.veLine k 0x16
def doVeNeg (k : Work) (w : World) : World := w.veLine k 0x17
def doVeDiv (k : Work) (w : World) : World := w.veLine k 0x18
def doVeSqrt (k : Work) (w : World) : World := w.veLine k 0x19
def doVeExp2 (k : Work) (w : World) : World := w.veLine k 0x20
def doVeLog2 (k : Work) (w : World) : World := w.veLine k 0x21
def doVeRecip (k : Work) (w : World) : World := w.veLine k 0x22
def doVeRsqrt (k : Work) (w : World) : World := w.veLine k 0x23
def doVeTanh (k : Work) (w : World) : World := w.veLine k 0x24
def doVeExp (k : Work) (w : World) : World := w.veLine k 0x25
def doVeSilu (k : Work) (w : World) : World := w.veLine k 0x26
def doVeGelu (k : Work) (w : World) : World := w.veLine k 0x27
def doVeCmp (k : Work) (w : World) : World := w.veLine k 0x30
def doVeSelect (k : Work) (w : World) : World := w.veLine k 0x31
def doVeIadd (k : Work) (w : World) : World := w.veLine k 0x38
def doVeIsub (k : Work) (w : World) : World := w.veLine k 0x39
def doVeImul (k : Work) (w : World) : World := w.veLine k 0x3A
def doVeMaskgen (k : Work) (w : World) : World := w.veLine k 0x40
def doVeRsum (k : Work) (w : World) : World := w.veLine k 0x50
def doVeRmean (k : Work) (w : World) : World := w.veLine k 0x51
def doVeRmax (k : Work) (w : World) : World := w.veLine k 0x52
def doVeRmin (k : Work) (w : World) : World := w.veLine k 0x53
def doVeRsumsq (k : Work) (w : World) : World := w.veLine k 0x54
def doVeRargmax (k : Work) (w : World) : World := w.veLine k 0x55
def doVeRargmin (k : Work) (w : World) : World := w.veLine k 0x56
def doVeRlse (k : Work) (w : World) : World := w.veLine k 0x57
def doVeRmsStats (k : Work) (w : World) : World := w.veLine k 0x60
def doVeLnStats (k : Work) (w : World) : World := w.veLine k 0x61
def doVeNormApply (k : Work) (w : World) : World := w.veLine k 0x62
def doVeSmStats (k : Work) (w : World) : World := w.veLine k 0x68
def doVeSmApply (k : Work) (w : World) : World := w.veLine k 0x69
def doVeSmMerge (k : Work) (w : World) : World := w.veLine k 0x6A
def doVeTopk (k : Work) (w : World) : World := w.veLine k 0x70
def doVeGather (k : Work) (w : World) : World := w.veLine k 0x78
def doVeScatter (k : Work) (w : World) : World := w.veLine k 0x79

/-! ## The commands -/

/-- VE_COPY (R243). -/
def execVeCopy (w : Work) (s : State) : Host.Outcome State Fault Refusal :=
  runWork s w (doVeCopy w)

/-- VE_FILL (R245). -/
def execVeFill (w : Work) (s : State) : Host.Outcome State Fault Refusal :=
  runWork s w (doVeFill w)

/-- VE_ADD (R244). -/
def execVeAdd (w : Work) (s : State) : Host.Outcome State Fault Refusal :=
  runWork s w (doVeAdd w)

/-- VE_SUB (R244). -/
def execVeSub (w : Work) (s : State) : Host.Outcome State Fault Refusal :=
  runWork s w (doVeSub w)

/-- VE_MUL (R244). -/
def execVeMul (w : Work) (s : State) : Host.Outcome State Fault Refusal :=
  runWork s w (doVeMul w)

/-- VE_FMA (R244). -/
def execVeFma (w : Work) (s : State) : Host.Outcome State Fault Refusal :=
  runWork s w (doVeFma w)

/-- VE_MIN (R244). -/
def execVeMin (w : Work) (s : State) : Host.Outcome State Fault Refusal :=
  runWork s w (doVeMin w)

/-- VE_MAX (R244). -/
def execVeMax (w : Work) (s : State) : Host.Outcome State Fault Refusal :=
  runWork s w (doVeMax w)

/-- VE_ABS (R245). -/
def execVeAbs (w : Work) (s : State) : Host.Outcome State Fault Refusal :=
  runWork s w (doVeAbs w)

/-- VE_NEG (R245). -/
def execVeNeg (w : Work) (s : State) : Host.Outcome State Fault Refusal :=
  runWork s w (doVeNeg w)

/-- VE_DIV (R244). -/
def execVeDiv (w : Work) (s : State) : Host.Outcome State Fault Refusal :=
  runWork s w (doVeDiv w)

/-- VE_SQRT (R244). -/
def execVeSqrt (w : Work) (s : State) : Host.Outcome State Fault Refusal :=
  runWork s w (doVeSqrt w)

/-- VE_EXP2 (R250). -/
def execVeExp2 (w : Work) (s : State) : Host.Outcome State Fault Refusal :=
  runWork s w (doVeExp2 w)

/-- VE_LOG2 (R251). -/
def execVeLog2 (w : Work) (s : State) : Host.Outcome State Fault Refusal :=
  runWork s w (doVeLog2 w)

/-- VE_RECIP (R252). -/
def execVeRecip (w : Work) (s : State) : Host.Outcome State Fault Refusal :=
  runWork s w (doVeRecip w)

/-- VE_RSQRT (R253). -/
def execVeRsqrt (w : Work) (s : State) : Host.Outcome State Fault Refusal :=
  runWork s w (doVeRsqrt w)

/-- VE_TANH (R254). -/
def execVeTanh (w : Work) (s : State) : Host.Outcome State Fault Refusal :=
  runWork s w (doVeTanh w)

/-- VE_EXP (R245). -/
def execVeExp (w : Work) (s : State) : Host.Outcome State Fault Refusal :=
  runWork s w (doVeExp w)

/-- VE_SILU (R217). -/
def execVeSilu (w : Work) (s : State) : Host.Outcome State Fault Refusal :=
  runWork s w (doVeSilu w)

/-- VE_GELU (R217). -/
def execVeGelu (w : Work) (s : State) : Host.Outcome State Fault Refusal :=
  runWork s w (doVeGelu w)

/-- VE_CMP (R244). -/
def execVeCmp (w : Work) (s : State) : Host.Outcome State Fault Refusal :=
  runWork s w (doVeCmp w)

/-- VE_SELECT (R245). -/
def execVeSelect (w : Work) (s : State) : Host.Outcome State Fault Refusal :=
  runWork s w (doVeSelect w)

/-- VE_IADD (R244). -/
def execVeIadd (w : Work) (s : State) : Host.Outcome State Fault Refusal :=
  runWork s w (doVeIadd w)

/-- VE_ISUB (R244). -/
def execVeIsub (w : Work) (s : State) : Host.Outcome State Fault Refusal :=
  runWork s w (doVeIsub w)

/-- VE_IMUL (R244). -/
def execVeImul (w : Work) (s : State) : Host.Outcome State Fault Refusal :=
  runWork s w (doVeImul w)

/-- VE_MASKGEN (R263). -/
def execVeMaskgen (w : Work) (s : State) : Host.Outcome State Fault Refusal :=
  runWork s w (doVeMaskgen w)

/-- VE_RSUM (R256). -/
def execVeRsum (w : Work) (s : State) : Host.Outcome State Fault Refusal :=
  runWork s w (doVeRsum w)

/-- VE_RMEAN (R257). -/
def execVeRmean (w : Work) (s : State) : Host.Outcome State Fault Refusal :=
  runWork s w (doVeRmean w)

/-- VE_RMAX (R257). -/
def execVeRmax (w : Work) (s : State) : Host.Outcome State Fault Refusal :=
  runWork s w (doVeRmax w)

/-- VE_RMIN (R257). -/
def execVeRmin (w : Work) (s : State) : Host.Outcome State Fault Refusal :=
  runWork s w (doVeRmin w)

/-- VE_RSUMSQ (R257). -/
def execVeRsumsq (w : Work) (s : State) : Host.Outcome State Fault Refusal :=
  runWork s w (doVeRsumsq w)

/-- VE_RARGMAX (R257). -/
def execVeRargmax (w : Work) (s : State) : Host.Outcome State Fault Refusal :=
  runWork s w (doVeRargmax w)

/-- VE_RARGMIN (R257). -/
def execVeRargmin (w : Work) (s : State) : Host.Outcome State Fault Refusal :=
  runWork s w (doVeRargmin w)

/-- VE_RLSE (R257). -/
def execVeRlse (w : Work) (s : State) : Host.Outcome State Fault Refusal :=
  runWork s w (doVeRlse w)

/-- VE_RMS_STATS (R259). -/
def execVeRmsStats (w : Work) (s : State) : Host.Outcome State Fault Refusal :=
  runWork s w (doVeRmsStats w)

/-- VE_LN_STATS (R259). -/
def execVeLnStats (w : Work) (s : State) : Host.Outcome State Fault Refusal :=
  runWork s w (doVeLnStats w)

/-- VE_NORM_APPLY (R260). -/
def execVeNormApply (w : Work) (s : State) : Host.Outcome State Fault Refusal :=
  runWork s w (doVeNormApply w)

/-- VE_SM_STATS (R261). -/
def execVeSmStats (w : Work) (s : State) : Host.Outcome State Fault Refusal :=
  runWork s w (doVeSmStats w)

/-- VE_SM_APPLY (R261). -/
def execVeSmApply (w : Work) (s : State) : Host.Outcome State Fault Refusal :=
  runWork s w (doVeSmApply w)

/-- VE_SM_MERGE (R261). -/
def execVeSmMerge (w : Work) (s : State) : Host.Outcome State Fault Refusal :=
  runWork s w (doVeSmMerge w)

/-- VE_TOPK (R262). -/
def execVeTopk (w : Work) (s : State) : Host.Outcome State Fault Refusal :=
  runWork s w (doVeTopk w)

/-- VE_GATHER (R264). -/
def execVeGather (w : Work) (s : State) : Host.Outcome State Fault Refusal :=
  runWork s w (doVeGather w)

/-- VE_SCATTER (R264). -/
def execVeScatter (w : Work) (s : State) : Host.Outcome State Fault Refusal :=
  runWork s w (doVeScatter w)

end Sys2Proof.Machine
end

