-- ==== Sys2Proof/Machine/Update.lean ====
section
/-! DEFINITION. Step slots, the decision of a step, and the update engine: OPEN, UPDATE, the trust passes, STEER and DIGEST
(R303 to R333). -/

namespace Sys2Proof.Machine

def unitUe : Nat := 7

/-! ## Step slots (R303 to R307, R333) -/

def slotBase (n : Nat) : Nat := UER 0 + 0x100 + n * 0x40

def slotFree : Nat := 0
def slotOpen : Nat := 2
def slotNormed : Nat := 3
def slotClean : Nat := 4
def slotSkipped : Nat := 5

def Dev.slotState (d : Dev) (n : Nat) : Nat := d.fld (slotBase n) 19 17
def Dev.slotCtx (d : Dev) (n : Nat) : Nat := d.fld (slotBase n) 13 0
def Dev.setSlotState (d : Dev) (n s : Nat) : Dev := d.setFld (slotBase n) 19 17 s
def Dev.lsExp (d : Dev) (n : Nat) : Nat := d.fld (slotBase n) 31 27
def Dev.resPhase (d : Dev) (n : Nat) : Nat := d.fld (slotBase n) 26 26

/-- Clear the bucket stack and FLAGS_ACC of a slot. -/
def Dev.clearStep (d : Dev) (n : Nat) : Dev :=
  (d.setFld (slotBase n) 25 24 0).onSlot n (fun s => { s with normStack := [], normNext := 0, verdict := 0, trust := [] })

/-- Whether a slot is open for a context (R307, R361). -/
def Dev.slotOpenFor (d : Dev) (n ctx : Nat) : Bool := d.slotState n == slotOpen && d.slotCtx n == ctx

/-- Deliver a bucket's leaf to a slot's stack (R311, R361); an absent leaf is none. None where it is not the next leaf. -/
def Dev.insertBucket (d : Dev) (n ctx b : Nat) (q : Option W32) : Option Dev :=
  if d.slotOpenFor n ctx ∧ b = (d.slot n).normNext ∧ b < 4096 then
    some (d.onSlot n (fun s => { s with
      normStack := match q with | some v => tput s.normStack b v | none => s.normStack, normNext := b + 1 }))
  else none

/-- An FP32 addition with or without flushing (R120). -/
def addBy (flush : Bool) (a b : Nat) : Nat := if flush then ftz (fadd (ftz a) (ftz b)) else fadd a b
def mulBy (flush : Bool) (a b : Nat) : Nat := if flush then ftz (fmul (ftz a) (ftz b)) else fmul a b

/-- The bucket stack folded into Q_d (R312): +0 for an empty one. -/
def Dev.deviceSum (d : Dev) (n : Nat) (flush : Bool) : Nat :=
  let s := d.slot n
  ((treeFold (addBy flush) ((List.range s.normNext).map (fun b => (tfind s.normStack b).map (·.toNat)))).getD 0)

/-- Q reaches a slot: it enters NORMED (R312). -/
def Dev.stepNormed (d : Dev) (n q : Nat) : Dev :=
  let d := d.setFld (slotBase n + 0x10) 63 32 q
  (d.setSlotState n slotNormed).onSlot n (fun s => { s with posNormed := d.fretNum })

/-! ## The decision (R310 to R316) -/

/-- The step record (R313). -/
def Dev.stepRecord (d : Dev) (n : Nat) (clean qFinite : Bool) : List Byte :=
  let b := slotBase n
  let acc := d.fld b 25 24
  leBytes 1 (if clean then 1 else 2) ++ leBytes 1 (d.lsExp n) ++ leBytes 1 (acc + (if qFinite then 0 else 4)) ++ leBytes 1 0 ++
  leBytes 4 (d.fld (b + 0x10) 31 0) ++ leBytes 8 (d.fld (b + 8) 63 0) ++ leBytes 4 (d.fld (b + 0x10) 63 32) ++
  leBytes 4 (d.fld (b + 0x18) 63 32) ++ leBytes 4 (d.fld (b + 0x18) 31 0) ++ leBytes 4 (scale2 f32One (d.lsExp n : Int)) ++
  leBytes 4 (d.fld (b + 0x20) 31 0) ++ leBytes 4 (d.fld (b + 0x20) 63 32)

/-- The slot's values after a clean decision. -/
def Dev.decideClean (d : Dev) (n : Nat) : Dev :=
  let b := slotBase n
  let p := (d.slot n).param
  let ls : Int := (d.lsExp n : Int)
  let gnorm := scale2 (fsqrt (d.fld (b + 0x10) 63 32)) (-ls)
  let clip := if fp32Lt 0 (parClip p) && fp32Lt (parClip p) gnorm then fdiv (parClip p) gnorm else f32One
  let d := d.setFld (b + 0x10) 31 0 gnorm
  let d := d.setFld (b + 0x18) 63 32 clip
  let d := d.setFld (b + 0x18) 31 0 (scale2 clip (-ls))
  let d := d.setReg (b + 8) (rget d.regs (b + 8) + 1)
  let d := d.setFld (b + 0x20) 31 0 (fmul (d.fld (b + 0x20) 31 0) (parBeta1 p))
  let d := d.setFld (b + 0x20) 63 32 (fmul (d.fld (b + 0x20) 63 32) (parBeta2 p))
  let d := d.setFld b 63 48 0
  let d := d.setFld b 26 26 (1 - d.resPhase n)
  let d := if parLsMode p = 1 then
      let k := d.fld b 47 32 + 1
      if k = parLsInterval p then (d.setFld b 47 32 0).setFld b 31 27 (min (parLsMax p) (d.lsExp n + 1)) else d.setFld b 47 32 k
    else d
  d.setSlotState n slotClean

/-- The slot's values after a skipped step. -/
def Dev.decideSkip (d : Dev) (n : Nat) (qFinite : Bool) : Dev :=
  let b := slotBase n
  let p := (d.slot n).param
  let d := d.setFld (b + 0x10) 31 0 (if qFinite then fsqrt (d.fld (b + 0x10) 63 32) else f32Nan)
  let d := d.setFld (b + 0x18) 63 32 f32One
  let d := d.setFld (b + 0x18) 31 0 0
  let d := d.count b 63 48 1
  let d := d.count (b + 0x28) 63 0 1
  let d := if parLsMode p = 1 then (d.setFld b 31 27 (max (parLsMin p) (d.lsExp n - 1))).setFld b 47 32 0 else d
  d.setSlotState n slotSkipped

/-- The decision of a slot (R312 to R314). -/
def World.decide_ (w : World) (n : Nat) : World :=
  let q := w.d.fld (slotBase n + 0x10) 63 32
  let fin := f32IsFinite q
  let acc := w.d.fld (slotBase n) 25 24
  let clean := acc == 0 && fin
  let w := w.onDev (fun d => if clean then d.decideClean n else d.decideSkip n fin)
  let w := w.onDev (fun d => d.onSlot n (fun s => { s with verdict := if clean then 1 else 2 }))
  let p := (w.d.slot n).param
  let bytes := w.d.stepRecord n clean fin
  let w := (List.range 8).foldl (fun w t => if w.d.fenced t then w else w.putBlk (nearAddr t (parRecord p)) bytes 0) w
  let w := if clean then w else w.log { entry 0x10 0xFF unitUe with index := n, ctx := w.d.slotCtx n }
  if !clean && parMaxSkips p != 0 && w.d.fld (slotBase n) 63 48 == parMaxSkips p then
    let w := w.raise flagAbort
    let w := w.event 0x808 stOk (BitVec.ofNat 16 n) (w.d.slotCtx n) []
    w.log { entry 0x11 0xFF unitUe with index := n, ctx := w.d.slotCtx n, event := 0x808, detail := BitVec.ofNat 16 n, flags := 1 }
  else w

/-- What a settle point does to the slots: the latched word enters FLAGS_ACC (R310), and a NORMED slot whose context runs a later
position in this fret decides (R312). -/
def World.settleSteps (w : World) (word : W128) : World :=
  (List.range 4).foldl (fun w n =>
    let s := w.d.slotState n
    let w := if s = slotOpen ∨ s = slotNormed then
        w.setFld (slotBase n) 25 24 (w.d.fld (slotBase n) 25 24 ||| word.toNat % 4) else w
    let x := w.d.ctx (w.d.slotCtx n)
    if s = slotNormed ∧ !w.d.ft.latchedReq ∧ x.ran ∧ (w.d.slot n).posNormed < w.d.fretNum then w.decide_ n else w) w

/-! ## Faults and status -/

def World.ueFault (w : World) (j : Job) (d : UeDesc) (bit : Nat) : World :=
  let t := j.course / 12
  let w := w.setBit (UER t + 0x28) bit
  w.setReg (UER t + 0x30) (faultInfo j (d.kind % 256 * 256 + d.slot % 4 * 64))

def World.uePoison (w : World) (j : Job) (d : UeDesc) (n : Nat) : World :=
  if n = 0 then w else (w.ueFault j d 4).consumed (j.course / 12) n unitUe j.ctx

/-- A pass that ran, or was skipped: its status is shown until LINE_COMPLETE. -/
def World.uePassed (w : World) (j : Job) (d : UeDesc) (skipping : Bool) : World :=
  let t := j.course / 12
  (w.setReg (UER t) (BitVec.ofNat 64 (d.kind * 256 + d.slot * 64 + (if skipping then 4 else 0) + 1))).finish j

/-- What a pass that goes on leaves in UE_STATUS: it waits (R333). -/
def World.ueShown (w : World) (j : Job) (kind slot : Nat) : World :=
  let t := j.course / 12
  match lineAt (w.d.course j.course) j.idx with
  | some l =>
    if l.phase = .launched then w.setReg (UER t) (BitVec.ofNat 64 (kind % 16 * 256 + slot % 4 * 64 + 2 + 1)) else w
  | none => w

/-- A pass that wrote working weights is kept with its T, so that a block can be derived again (R319, R331). -/
def World.ueDerived (w : World) (j : Job) (d : UeDesc) (t : Nat) : World :=
  let b := readBytes (w.descMem j) j.ln.desc 128
  w.onDev (fun x => x.onSlot d.slot (fun s => { s with
    derived := (if s.derivedT = t then s.derived else []) ++ [(j.course, b)], derivedT := t }))

/-- The digest service owes a comparison for each of its runs whose root has been built (R414). -/
def Dev.digestBuilt (x : Dev) (j : Job) (d : UeDesc) : Dev :=
  let s := x.svc 2
  if s.active ∧ numAt s.config 32 2 = j.ctx ∧ numAt s.config 34 1 = d.slot then
    let hit := (List.range (numAt s.config 35 1)).filter (fun r => numAt s.config (64 + 24 * r) 8 == d.aux)
    x.onSvc 2 (fun s => { s with
      due := (s.due ++ hit).eraseDups
      bases := hit.foldl (fun t r => tput t r (d.ww - d.base)) s.bases })
  else x

/-! ## OPEN (R305 to R309) -/

def World.ueOpenPass (w : World) (j : Job) (d : UeDesc) (bad : List Nat) : World :=
  let n := d.slot
  let st := w.d.slotState n
  if st = slotOpen ∨ st = slotNormed then (w.ueFault j d 2).unitFault j stPlanMismatch
  else match w.fetch j bad d.aux 256 with
    | .wait w' => w'
    | .got b poison =>
      if poison then ((w.uePoison j d 1).ueFault j d 3).unitFault j stPlanMismatch
      else if !paramOk b (st == slotFree) then (w.ueFault j d 3).unitFault j stPlanMismatch
      else if parRecord b % 512 ≠ 0 ∨ 2 ^ 31 < parRecord b + 512 then
        (w.ueFault j d 0).addrRefused j (nearAddr (j.course / 12) (parRecord b))
      else
        let a := slotBase n
        let w := w.onDev (fun x =>
          let x := if st = slotFree then x.setReg (a + 0x28) 0 else x
          let x := (x.setFld a 13 0 j.ctx).clearStep n
          let x := x.onSlot n (fun s => { s with param := b })
          let x := if parInit b = 1 then
              let x := x.setReg (a + 8) (BitVec.ofNat 64 (numAt b 64 8))
              let x := x.setFld (a + 0x20) 31 0 (numAt b 72 4)
              let x := x.setFld (a + 0x20) 63 32 (numAt b 76 4)
              ((x.setFld a 31 27 (parLsInit b)).setFld a 47 32 0).setFld a 63 48 0
            else x
          let x := if x.ft.settled then x.setFld a 25 24 ((rget x.regs FT_LATCH_LO).toNat % 4) else x
          x.setSlotState n slotOpen)
        w.uePassed j d false

/-! ## Recipes (R323 to R325) -/

/-- The per-step scalars. -/
structure UeScalars where
  u : Nat
  lr : Nat
  b1 : Nat
  b2 : Nat
  ob1 : Nat
  ob2 : Nat
  eps : Nat
  wd : Nat
  mu : Nat
  k1 : Nat
  k2 : Nat
  kd : Nat
  consts : List Nat
  program : List Nat

def Dev.scalars (d : Dev) (n : Nat) : UeScalars :=
  let p := (d.slot n).param
  let one (x : Nat) : Nat := fsub f32One x
  { u := d.fld (slotBase n + 0x18) 31 0, lr := parLR p, b1 := parBeta1 p, b2 := parBeta2 p, ob1 := one (parBeta1 p),
    ob2 := one (parBeta2 p), eps := parEps p, wd := parWd p, mu := parMu p,
    k1 := fdiv f32One (one (d.fld (slotBase n + 0x20) 31 0)), k2 := fdiv f32One (one (d.fld (slotBase n + 0x20) 63 32)),
    kd := ffma (fneg (parLR p)) (parWd p) f32One, consts := (List.range 6).map (fun i => parF32 p (28 + 4 * i)),
    program := programSteps p }

/-- One step of a programmed recipe over its 32 operands. -/
def progStep (ov : List Nat) (s : Nat) : List Nat :=
  let a := ov.getD (bitsOf s 20 16) 0
  let b := ov.getD (bitsOf s 15 11) 0
  let c := ov.getD (bitsOf s 10 6) 0
  let r := match s >>> 26 with
    | 0x01 => fadd a b
    | 0x02 => fsub a b
    | 0x03 => fmul a b
    | 0x04 => ffma a b c
    | 0x05 => fdiv a b
    | 0x06 => fsqrt a
    | 0x07 => fmin a b
    | 0x08 => fmax a b
    | 0x09 => fneg a
    | 0x0A => fabs a
    | 0x0B => if fp32Lt 0 a then b else c
    | _ => vrsqrt a
  ov.set (progDst s) (canonNan r)

/-- The moments and the d of ADAM, from x. -/
def adamMoments (k : UeScalars) (x m v : Nat) : Nat × Nat :=
  (ffma k.b1 m (fmul k.ob1 x), ffma k.b2 v (fmul k.ob2 (fmul x x)))
def adamDelta (k : UeScalars) (m v : Nat) : Nat := fdiv (fmul m k.k1) (fadd (fsqrt (fmul v k.k2)) k.eps)

/-- A recipe on one parameter: m, v, w. -/
def ueRecipe (recipe : Nat) (k : UeScalars) (g m v w : Nat) : Nat × Nat × Nat :=
  let nlr := fneg k.lr
  let gu := fmul g k.u
  match recipe with
  | 1 =>
    let m := ffma k.mu m (ffma k.wd w gu)
    (m, v, ffma nlr m w)
  | 2 =>
    let x := ffma k.wd w gu
    let m := ffma k.mu m x
    (m, v, ffma nlr (ffma k.mu m x) w)
  | 3 =>
    let r := adamMoments k (ffma k.wd w gu) m v
    (r.1, r.2, ffma nlr (adamDelta k r.1 r.2) w)
  | 4 =>
    let r := adamMoments k gu m v
    (r.1, r.2, ffma nlr (adamDelta k r.1 r.2) (fmul w k.kd))
  | _ =>
    let ov := [g, m, v, w, k.u, k.lr, k.b1, k.b2, k.ob1, k.ob2, k.eps, k.wd, k.mu, k.k1, k.k2, k.kd, f32One, 0] ++ k.consts ++
      List.replicate 8 0
    let ov := k.program.foldl progStep ov
    (ov.getD 1 0, ov.getD 2 0, ov.getD 3 0)

/-! ## Streams (R317, R319, R322) -/

/-- A stream of plain elements as FP32 patterns, each with whether its block is poisoned. -/
def World.stream (w : World) (fmt a n : Nat) : List (Nat × Bool) := (w.plainRow fmt a n id).map (fun e => (e.v.f32, e.poison))

def Dev.gradFmt (d : Dev) (n : Nat) : Nat := if parLsMode (d.slot n).param = 1 then 2 else 1
def UeDesc.momFmt (d : UeDesc) : Nat := if d.momBf16 then 1 else 0

/-- Moments converted for storing, and their conversions. -/
def UeDesc.momCodes (d : UeDesc) (seed : W64) (t : Nat) (xs : List Nat) : List Conv :=
  xs.zipIdx.map (fun e =>
    if d.momBf16 then
      convElem 1 (if d.momSr then 2 else 0) 0 (noise seed ((d.tid + t + 0x80000000) % 2 ^ 32) (d.base + e.2)) (f32Val e.1)
    else { code := e.1, ovr := false, under := false })

/-- Working weights from masters (R319): codes, scales, conversions. -/
def UeDesc.weights (d : UeDesc) (seed : W64) (t : Nat) (ws : List Nat) : List Nat × List Nat × List Conv :=
  let tid := (d.tid + t) % 2 ^ 32
  let rnd := d.conv % 4
  let sat := d.conv / 4
  if d.wwBlock then
    let qs := (pieces32 (ws.map some)).zipIdx.map (fun e =>
      quantise d.wwFmt rnd sat (fun k => noise seed tid (d.base + 32 * e.2 + k)) e.1)
    (qs.flatMap (fun q => let cs := q.2.map (·.code); cs ++ List.replicate (32 - cs.length) 0), qs.map (·.1), qs.flatMap (·.2))
  else
    let cs := ws.zipIdx.map (fun e => convElem d.wwFmt rnd sat (noise seed tid (d.base + e.2)) (f32Val e.1))
    (cs.map (·.code), [], cs)

/-- The writes of a pass: device addresses and bytes. -/
def UeDesc.weightWrites (d : UeDesc) (r : List Nat × List Nat × List Conv) : List (Nat × List Byte) :=
  (d.ww, packCodes d.wwBits r.1) :: (if d.wwBlock then [(d.wwScale, packCodes (8 * scaleBytes d.wwFmt) r.2.1)] else [])

/-- The blocks in which parameter i lies, in every stream the pass writes. -/
def UeDesc.outBlocks (d : UeDesc) (moments : Bool) (i : Nat) : List Nat :=
  (if moments then blockOf (d.m + i * d.momBytes) :: (if d.hasV then [blockOf (d.v + i * d.momBytes)] else []) else []) ++
  [blockOf (d.masterOut + 4 * i), blockOf (d.ww + i * d.wwBits / 8)] ++
  (if d.wwBlock then [blockOf (d.wwScale + i / 32 * scaleBytes d.wwFmt)] else [])

/-- The client number of the master writes of a UE line: they complete for the pass when they have left the device. -/
def whoUe (c i : Nat) : Nat := 0x50000 + 256 * c + i

/-- The far blocks of a master run that the pass fills only in part. -/
def UeDesc.farPartial (d : UeDesc) : List Nat := if d.far then partialBlocks d.masterOut (4 * d.count) else []

/-- A far block with the bytes of a run laid over it; one filled in part that was poisoned stays poisoned. -/
def Dev.farMerge (x : Dev) (who a : Nat) (bs : List Byte) (poison : List Nat) (b : Nat) : Blk :=
  let n := bs.length
  let lo := max a b
  let hi := min (a + n) (b + 512)
  let part := slice bs (lo - a) (hi - lo)
  if poison.contains b then poisonBlk
  else if hi - lo = 512 then mkBlk part
  else match x.farBlk who b with
    | some o => if blkSyn o = poisonMark then poisonBlk else mkBlk (o.data.take (lo - b) ++ part ++ o.data.drop (hi - b))
    | none => mkBlk (List.replicate (lo - b) 0 ++ part)

/-- Apply a pass's writes: stores merged, the blocks of poisoned parameters in poison form, far masters as requests. Answers the
poisoned blocks that the writes fill in part (R285). -/
def World.ueWrite (w : World) (j : Job) (d : UeDesc) (writes : List (Nat × List Byte)) (masters : List Byte) (poison : List Nat) :
    World × Nat :=
  let all := if d.far ∨ masters.isEmpty then writes else (d.masterOut, masters) :: writes
  let s := all.foldl (fun (a : World × Nat) x => let r := a.1.mergeWrite x.1 x.2; (r.1, a.2 + r.2)) (w, 0)
  let w := (poison.filter (fun b => tierOf b != 3)).foldl (fun w b => w.putPoison b) s.1
  let farBad := if masters.isEmpty then 0 else (d.farPartial.filter (fun b =>
    match w.d.farBlk (whoLine j.course j.idx) b with
    | some o => blkSyn o == poisonMark
    | none => false)).length
  let w := if d.far ∧ !masters.isEmpty then
      w.onDev (fun x =>
        let bl := (blocksOf d.masterOut masters.length).map (fun b =>
          (bitsOf b 41 0, some (x.farMerge (whoLine j.course j.idx) d.masterOut masters poison b)))
        (x.farDrop (whoLine j.course j.idx)).farAsk (j.course / 48) (whoUe j.course j.idx) j.ctx 2 false false bl)
    else w
  (w, s.2 + farBad)

/-- Ask for the far blocks that a pass fills in part: none once they are there. -/
def World.ueFarReads (w : World) (j : Job) (d : UeDesc) : Option World :=
  let who := whoLine j.course j.idx
  if d.farPartial.isEmpty then none
  else if j.prog = 0 then
    some ((w.onDev (fun x => x.farAsk (j.course / 48) who j.ctx 1 false false
      (d.farPartial.map (fun b => (bitsOf b 41 0, none))))).progress j 1)
  else if w.d.farBusy who ∨ d.farPartial.any (fun b => (w.d.farBlk who b).isNone) then some w
  else none

def streamBlocks (xs : List (Nat × Nat)) : List Nat := (xs.flatMap (fun e => blocksOf e.1 e.2)).eraseDups

/-! ## UPDATE (R321 to R323) -/

def World.ueUpdatePass (w : World) (j : Job) (d : UeDesc) (bad : List Nat) : World :=
  let n := d.count
  let mb := d.momBytes
  let t := w.d.fld (slotBase d.slot + 8) 63 0
  let outs := (if d.far then [] else [(d.masterOut, 4 * n)]) ++ [(d.ww, d.wwBytes)] ++
    (if d.wwBlock then [(d.wwScale, d.scaleLen)] else [])
  let reads := streamBlocks ([(d.grad, 2 * n), (d.m, mb * n)] ++ (if d.hasV then [(d.v, mb * n)] else []) ++ [(d.masterIn, 4 * n)])
  match w.checkBlocks j bad (reads ++ outs.flatMap (fun e => partialBlocks e.1 e.2)).eraseDups, w.ueFarReads j d with
  | some w', _ => w'
  | none, some w' => w'
  | none, none =>
    let k := w.d.scalars d.slot
    let g := w.stream (w.d.gradFmt d.slot) d.grad n
    let m := w.stream d.momFmt d.m n
    let v := if d.hasV then w.stream d.momFmt d.v n else List.replicate n (0, false)
    let p := w.stream 0 d.masterIn n
    let rows := (g.zip m).zip (v.zip p)
    let out := rows.map (fun r => ueRecipe d.recipe k r.1.1.1 r.1.2.1 r.2.1.1 r.2.2.1)
    let hit := (rows.zipIdx.filter (fun r => r.1.1.1.2 || r.1.1.2.2 || r.1.2.1.2 || r.1.2.2.2)).map (·.2)
    let poison := (hit.flatMap (d.outBlocks true)).eraseDups
    let seed := (w.d.ctx j.ctx).seed
    let mc := d.momCodes seed t (out.map (·.1))
    let vc := if d.hasV then d.momCodes seed t (out.map (·.2.1)) else []
    let ww := d.weights seed t (out.map (·.2.2))
    let writes := (d.m, packCodes (8 * mb) (mc.map (·.code))) ::
      (if d.hasV then [(d.v, packCodes (8 * mb) (vc.map (·.code)))] else []) ++ d.weightWrites ww
    let npois := w.poisonCount reads
    let r := w.ueWrite j d writes (packCodes 32 (out.map (·.2.2))) poison
    let w := r.1.uePoison j d (npois + r.2)
    let w := w.onDev (fun x =>
      let x := if d.momBf16 then x.countFh j.ctx 3 1 (mc.length + vc.length) (overs mc + overs vc) (unders mc + unders vc) else x
      x.countFh j.ctx 1 d.wwFmt ww.2.2.length (overs ww.2.2) (unders ww.2.2))
    (w.count (UER (j.course / 12) + 8) 63 0 n).ueDerived j d t |>.uePassed j d false

/-! ## The trust passes (R324) -/

/-- The segments of a pass, each with its table entry's address, first parameter and length; and the entry whose table block is poisoned,
at which the table is read no further (R322, log 101). -/
def World.segmentsOf (w : World) (d : UeDesc) : Nat → Nat → List (Nat × Nat × Nat) × Option Nat
  | 0, _ => ([], none)
  | fuel + 1, a =>
    if (blocksOf a 16).any w.poisoned then ([], some a)
    else
      let first := numAt (readBytes w.mem a 16) 0 4
      let len := numAt (readBytes w.mem a 16) 4 4
      if len = 0 ∨ d.base + d.count ≤ first then ([], none)
      else if d.base + d.count ≤ first + len then ([(a, first, len)], none)
      else let r := w.segmentsOf d fuel (a + 16); ((a, first, len) :: r.1, r.2)

/-- The blocks of the table that a pass reads. -/
def segBlocks (s : List (Nat × Nat × Nat) × Option Nat) : List Nat :=
  ((s.1.map (·.1) ++ s.2.toList).flatMap (fun a => blocksOf a 16)).eraseDups

/-- A leaf or node at level `l`, number `p`, enters a merge stack (R201, R202): with its left sibling it forms the node above; a left
sibling that is absent passes it up. -/
def stackInsert (f : Nat → Nat → Nat) : Nat → Tab Nat → Nat → Nat → Nat → Tab Nat
  | 0, s, l, _, v => tput s l v
  | fuel + 1, s, l, p, v =>
    if p % 2 = 0 then tput s l v
    else match tfind s l with
      | some u => stackInsert f fuel (tdel s l) (l + 1) (p / 2) (f u v)
      | none => stackInsert f fuel s (l + 1) (p / 2) v

/-- The sum a merge stack stands for: its nodes from the lowest up, each the left operand. -/
def stackSum (f : Nat → Nat → Nat) (s : Tab Nat) : Option Nat :=
  s.foldl (fun a e => match a with
    | none => some e.2
    | some x => some (f e.2 x)) none

/-- The merge stack of a segment after a pass: leaf i is parameter i of the segment (R223, R324). -/
def segStack (d : UeDesc) (first len : Nat) (s : Tab Nat) (xs : List Nat) : Tab Nat :=
  let lo := max first d.base
  let hi := min (first + len) (d.base + d.count)
  ((xs.drop (lo - d.base)).take (hi - lo)).zipIdx.foldl (fun s e => stackInsert fadd 33 s 0 (lo - first + e.2) e.1) s

/-- TRUST_P1: moments as ADAM, and the segment sums. A segment that spans passes is summed as one: its merge stack stays with the slot
until its last parameter. -/
def World.trust1 (w : World) (j : Job) (d : UeDesc) (bad : List Nat) : World :=
  let n := d.count
  let mb := d.momBytes
  let t := w.d.fld (slotBase d.slot + 8) 63 0
  let found := w.segmentsOf d n d.aux
  let segs := found.1
  let table := segBlocks found
  let reads := streamBlocks [(d.grad, 2 * n), (d.m, mb * n), (d.v, mb * n), (d.masterIn, 4 * n)]
  match w.checkBlocks j bad (reads ++ table).eraseDups with
  | some w' => w'
  | none =>
    let k := w.d.scalars d.slot
    let g := (w.stream (w.d.gradFmt d.slot) d.grad n).map (·.1)
    let m := (w.stream d.momFmt d.m n).map (·.1)
    let v := (w.stream d.momFmt d.v n).map (·.1)
    let p := (w.stream 0 d.masterIn n).map (·.1)
    let out := ((g.zip m).zip (v.zip p)).map (fun r =>
      let x := ffma k.wd r.2.2 (fmul r.1.1 k.u)
      let mv := adamMoments k x r.1.2 r.2.1
      let delta := ffma k.wd r.2.2 (adamDelta k mv.1 mv.2)
      (mv.1, mv.2, fmul r.2.2 r.2.2, fmul delta delta))
    let seed := (w.d.ctx j.ctx).seed
    let mc := d.momCodes seed t (out.map (·.1))
    let vc := d.momCodes seed t (out.map (·.2.1))
    let kept := (w.d.slot d.slot).trust
    let parts := segs.map (fun s =>
      let one (k : Nat) (xs : List Nat) : Tab Nat :=
        segStack d s.2.1 s.2.2 (if s.2.1 < d.base then tget [] kept (2 * s.1 + k) else []) xs
      (s, one 0 (out.map (·.2.2.1)), one 1 (out.map (·.2.2.2))))
    let sums := parts.map (fun e =>
      (e.1.1 + 8, leBytes 4 ((stackSum fadd e.2.1).getD 0) ++ leBytes 4 ((stackSum fadd e.2.2).getD 0)))
    let kept := parts.foldl (fun t e =>
      if e.1.2.1 + e.1.2.2 ≤ d.base + n then tdel (tdel t (2 * e.1.1)) (2 * e.1.1 + 1)
      else tput (tput t (2 * e.1.1) e.2.1) (2 * e.1.1 + 1) e.2.2) kept
    let writes := (d.m, packCodes (8 * mb) (mc.map (·.code))) :: (d.v, packCodes (8 * mb) (vc.map (·.code))) :: sums
    let npois := w.poisonCount (reads ++ table).eraseDups
    let s := writes.foldl (fun (a : World × Nat) x => let r := a.1.mergeWrite x.1 x.2; (r.1, a.2 + r.2)) (w, 0)
    let w := s.1.uePoison j d (npois + s.2)
    let w := w.onDev (fun x => x.onSlot d.slot (fun y => { y with trust := kept }))
    let w := w.onDev (fun x =>
      if d.momBf16 then x.countFh j.ctx 3 1 (mc.length + vc.length) (overs mc + overs vc) (unders mc + unders vc) else x)
    w.uePassed j d false

/-- The e of a segment: LR × ρ, rounded once. -/
def trustRate (k : UeScalars) (sw sd : Nat) : Nat :=
  let rho := if fp32Lt 0 sw && fp32Lt 0 sd then fdiv (fsqrt sw) (fsqrt sd) else f32One
  fmul k.lr rho

/-- TRUST_P2: masters scaled by the trust ratio, and their working weights. -/
def World.trust2 (w : World) (j : Job) (d : UeDesc) (bad : List Nat) : World :=
  let n := d.count
  let mb := d.momBytes
  let t := w.d.fld (slotBase d.slot + 8) 63 0
  let found := w.segmentsOf d n d.aux
  let segs := found.1
  let table := segBlocks found
  let outs := (if d.far then [] else [(d.masterOut, 4 * n)]) ++ [(d.ww, d.wwBytes)] ++
    (if d.wwBlock then [(d.wwScale, d.scaleLen)] else [])
  let reads := streamBlocks [(d.m, mb * n), (d.v, mb * n), (d.masterIn, 4 * n)]
  match w.checkBlocks j bad (reads ++ table ++ outs.flatMap (fun e => partialBlocks e.1 e.2)).eraseDups, w.ueFarReads j d with
  | some w', _ => w'
  | none, some w' => w'
  | none, none =>
    let k := w.d.scalars d.slot
    let rates := segs.map (fun s =>
      let b := readBytes w.mem s.1 16
      (s.2.1, s.2.2, trustRate k (numAt b 8 4) (numAt b 12 4)))
    let rateOf (i : Nat) : Option Nat :=
      (rates.find? (fun s => decide (s.1 ≤ d.base + i) && decide (d.base + i < s.1 + s.2.1))).map (·.2.2)
    let rate (i : Nat) : Nat := (rateOf i).getD k.lr
    let m := w.stream d.momFmt d.m n
    let v := w.stream d.momFmt d.v n
    let p := w.stream 0 d.masterIn n
    let rows := m.zip (v.zip p)
    let out := rows.zipIdx.map (fun e =>
      let r := e.1
      let delta := ffma k.wd r.2.2.1 (adamDelta k r.1.1 r.2.1.1)
      ffma (fneg (rate e.2)) delta r.2.2.1)
    let hit := (rows.zipIdx.filter (fun r => r.1.1.2 || r.1.2.1.2 || r.1.2.2.2 || (found.2.isSome && (rateOf r.2).isNone))).map (·.2)
    let poison := (hit.flatMap (d.outBlocks false)).eraseDups
    let ww := d.weights (w.d.ctx j.ctx).seed t out
    let npois := w.poisonCount (reads ++ table).eraseDups
    let r := w.ueWrite j d (d.weightWrites ww) (packCodes 32 out) poison
    let w := r.1.uePoison j d (npois + r.2)
    let w := w.onDev (fun x => x.countFh j.ctx 1 d.wwFmt ww.2.2.length (overs ww.2.2) (unders ww.2.2))
    (w.count (UER (j.course / 12) + 8) 63 0 n).ueDerived j d t |>.uePassed j d false

/-! ## STEER (R329) -/

/-- The greatest of FP32 values, NaN left out. -/
def greatest (xs : List Nat) : Option Nat :=
  match xs.filter (!f32IsNan ·) with
  | [] => none
  | h :: t => some (t.foldl fmax h)

/-- The new scale of an entry from the greatest history value; none where R329 states none. -/
def steerScale (e : SteerEntry) (h : Nat) : Option Nat :=
  let clamp (x : Nat) : Nat := fmin (fmax x 0x00800000) 0x7F000000
  match f32Val h with
  | .inf false => some (clamp (scale2 e.scale (-1)))
  | .fin s m q =>
    if m = 0 then some (clamp e.scale)
    else if s then none
    else some (clamp (scale2 f32One (topExp (if e.fmt = 3 then 448 else 57344) m - q - (e.margin : Int))))
  | _ => none

/-- One entry of a STEER pass: its new bytes 3, 16 to 23 and history. -/
def World.steerOne (w : World) (d : UeDesc) (i : Nat) : World × Nat :=
  let a := d.aux + 128 * i
  let e := d.steerAt w.mem i
  if (blocksOf a 128).any w.poisoned then (w, 1)
  else
    let words := w.stream 0 e.addr e.contrib
    let n := (w.poisonedIn e.addr (4 * e.contrib)).length
    let top := (greatest (words.map (·.1))).getD (Config.steerMax (words.map (fun e => BitVec.ofNat 32 e.1))).toNat
    let hist := e.amax.set (e.head % e.hist) top
    let h := (hist.take e.hist).foldl fmax (hist.headD 0)
    let sc := (steerScale e h).getD (Config.steerScale e.fmt e.margin (BitVec.ofNat 32 e.scale) (BitVec.ofNat 32 h)).toNat
    let r := w.mergeWrite (a + 3) (leBytes 1 ((e.head + 1) % e.hist))
    let r2 := r.1.mergeWrite (a + 16) (leBytes 4 sc ++ leBytes 4 (fdiv f32One sc))
    let r3 := r2.1.mergeWrite (a + 64) (packCodes 32 hist)
    (r3.1, n)

def World.steerPass (w : World) (j : Job) (d : UeDesc) (bad : List Nat) : World :=
  let reads := (blocksOf d.aux (128 * d.count) ++ (List.range d.count).flatMap (fun i =>
    let e := d.steerAt w.mem i
    if (blocksOf (d.aux + 128 * i) 128).any w.poisoned then [] else blocksOf e.addr (4 * e.contrib))).eraseDups
  match w.checkBlocks j bad reads with
  | some w' => w'
  | none =>
    let n := w.poisonCount reads
    let w := (List.range d.count).foldl (fun w i => (w.steerOne d i).1) w
    (w.uePoison j d n).uePassed j d false

/-! ## DIGEST (R330) -/

def digestLeafOf (i : Nat) (bs : List Byte) : List Byte := shake256 32 (leBytes 1 0 ++ leBytes 8 i ++ leBytes 4 bs.length ++ bs)
def digestNode (h j : Nat) (kids : List Byte) : List Byte := shake256 32 (leBytes 1 1 ++ leBytes 1 h ++ leBytes 8 j ++ kids)

/-- The runs of bytes in which the upper levels are written, the root at the start of the tree area. -/
def UeDesc.levelRuns (d : UeDesc) : List (Nat × Nat) :=
  if !d.root then []
  else if d.levels.isEmpty then [(d.aux, 32)]
  else ((levelOffsets 512 (d.firstLeaf + d.leaves) d.levels).zip d.levels).map (fun e =>
    if e.2 = 1 then (d.aux, 32) else (d.aux + e.1, 32 * e.2))

/-- The levels above the leaves: each from the digests of the one below, the root at bytes 0 to 31. Answers the poisoned blocks that
they fill in part (R285). -/
def World.digestLevels (w : World) (aux : Nat) : Nat → Nat → Nat → List Nat → World × Nat
  | h, off, n, k :: ks =>
    let kids := readBytes w.mem (aux + off) (32 * n)
    let nodes := (List.range k).flatMap (fun j => digestNode h j (slice kids (2048 * j) (min 2048 (32 * n - 2048 * j))))
    let o := ceilDiv (off + 32 * n) 64 * 64
    if k = 1 then w.mergeWrite aux nodes
    else
      let r := w.mergeWrite (aux + o) nodes
      let s := r.1.digestLevels aux (h + 1) o k ks
      (s.1, r.2 + s.2)
  | _, _, _, [] => (w, 0)

def World.digestPass (w : World) (j : Job) (d : UeDesc) (bad : List Nat) : World :=
  let tree := if d.root then blocksOf (d.aux + 512) (32 * d.firstLeaf) else []
  let own := (d.aux + 512 + 32 * d.firstLeaf, 32 * d.leaves)
  let reads := (blocksOf d.ww d.count ++ tree).eraseDups
  match w.checkBlocks j bad (reads ++ (own :: d.levelRuns).flatMap (fun e => partialBlocks e.1 e.2)).eraseDups with
  | some w' => w'
  | none =>
    let n := w.poisonCount reads
    let leaves := (List.range d.leaves).flatMap (fun i =>
      digestLeafOf (d.firstLeaf + i) (readBytes w.mem (d.ww + digestLeaf * i) (min digestLeaf (d.count - digestLeaf * i))))
    let r := w.mergeWrite own.1 leaves
    let total := d.firstLeaf + d.leaves
    let s := if !d.root then (r.1, 0)
      else if total = 1 then r.1.mergeWrite d.aux leaves
      else r.1.digestLevels d.aux 1 512 total d.levels
    let w := if d.root then s.1.onDev (fun x => x.digestBuilt j d) else s.1
    (w.uePoison j d (n + r.2 + s.2)).uePassed j d false

/-! ## Work start (R321, R322) -/

/-- A pass whose descriptor has been read and is of the kind that the command names, or of none. -/
def World.uePassOn (w : World) (j : Job) (d : UeDesc) (kind : Nat) (poison : Bool) (bad : List Nat) : World :=
  let l := d.least w.mem
  let st := w.d.slotState (d.slot % 4)
  if poison then w.poisonDesc j
  else match d.bad w.mem (farBytes w.d) j.course j.ln.desc with
    | some a => (w.ueFault j d 0).addrRefused j a
    | none =>
      if j.ln.wcCompute < l.1 ∨ j.ln.wcXfer < l.2.1 then (w.ueFault j d 1).unitFault j stPlanOverrun
      else if st ≠ slotFree ∧ w.d.slotCtx d.slot ≠ j.ctx then (w.ueFault j d 2).unitFault j stPlanMismatch
      else if kind = 1 then w.ueOpenPass j d bad
      else if st = slotSkipped then w.uePassed j d true
      else if st ≠ slotClean then (w.ueFault j d 2).unitFault j stPlanMismatch
      else match kind with
        | 2 => w.ueUpdatePass j d bad
        | 3 => w.trust1 j d bad
        | 4 => w.trust2 j d bad
        | 5 =>
          if (w.d.fld (slotBase d.slot + 8) 63 0) % max 1 (parDigestEvery (w.d.slot d.slot).param) ≠ 0 then w.uePassed j d false
          else w.digestPass j d bad
        | _ => w.steerPass j d bad

def World.uePass (w : World) (k : Work) (kind : Nat) : World :=
  match w.ready k.course.val k.line unitUe with
  | none => w
  | some j =>
    match w.fetch j k.bad j.ln.desc 128 with
    | .wait w' => w'.ueShown j 0 0
    | .got b poison =>
      let d := ueDesc b
      let known := decide (1 ≤ d.kind) && decide (d.kind ≤ 6)
      if !poison && known && d.kind != kind then w
      else ((w.uePassOn j d kind poison k.bad).ueShown j d.kind d.slot).keepDesc j [(j.ln.desc, 128)]

def doUeOpen (k : Work) (w : World) : World := w.uePass k 1
def doUeUpdate (k : Work) (w : World) : World := w.uePass k 2
def doTrustP1 (k : Work) (w : World) : World := w.uePass k 3
def doTrustP2 (k : Work) (w : World) : World := w.uePass k 4
def doUeDigest (k : Work) (w : World) : World := w.uePass k 5
def doSteer (k : Work) (w : World) : World := w.uePass k 6

/-! ## The commands -/

/-- UE_OPEN (R308). -/
def execUeOpen (w : Work) (s : State) : Host.Outcome State Fault Refusal :=
  runWork s w (doUeOpen w)

/-- UE_UPDATE (R323). -/
def execUeUpdate (w : Work) (s : State) : Host.Outcome State Fault Refusal :=
  runWork s w (doUeUpdate w)

/-- TRUST_P1 (R324). -/
def execTrustP1 (w : Work) (s : State) : Host.Outcome State Fault Refusal :=
  runWork s w (doTrustP1 w)

/-- TRUST_P2 (R324). -/
def execTrustP2 (w : Work) (s : State) : Host.Outcome State Fault Refusal :=
  runWork s w (doTrustP2 w)

/-- UE_DIGEST (R330). -/
def execUeDigest (w : Work) (s : State) : Host.Outcome State Fault Refusal :=
  runWork s w (doUeDigest w)

/-- STEER (R329). -/
def execSteer (w : Work) (s : State) : Host.Outcome State Fault Refusal :=
  runWork s w (doSteer w)

end Sys2Proof.Machine
end

