-- ==== Sys2Proof/Machine/Digest.lean ====
section
/-! DEFINITION. The digest service (R331, R414, R415): what a comparison of roots among replicas decides, and how a block is
derived again and written. -/

namespace Sys2Proof.Machine

/-- A run of the digest service (R415). -/
structure DigestRun where
  tree : Nat
  master : Nat
  blocks : Nat
  far : Bool
  replicated : Bool
  owner : Nat

def digestRun (cfg : List Byte) (r : Nat) : DigestRun :=
  let o := 64 + 24 * r
  { tree := numAt cfg o 8, master := numAt cfg (o + 8) 8, blocks := numAt cfg (o + 16) 4,
    far := numAt cfg (o + 20) 1 % 2 == 1, replicated := bitOf (numAt cfg (o + 20) 1) 1, owner := numAt cfg (o + 22) 2 }

/-- The ranks of the group table (R415). -/
def World.digestGroup (w : World) (cfg : List Byte) : List Nat :=
  (List.range (numAt cfg 36 2)).map (fun i => leNat (readBytes w.mem (numAt cfg 40 8 + 2 * i) 2))

def World.digestPosition (w : World) (cfg : List Byte) : Nat := (w.digestGroup cfg).findIdx (fun r => decide (r = w.d.hedge.rank))

/-- The passes of the service's slot that last derived working weights. -/
def World.digestPasses (w : World) (cfg : List Byte) : List UeDesc :=
  (w.d.slot (numAt cfg 34 1)).derived.map (fun e => ueDesc e.2)

/-- The parameters [i, i + n) of a pass whose weights, or scales, lie in the 512 bytes from `a` on, in whole groups of 32. -/
def UeDesc.paramsIn (d : UeDesc) (a : Nat) : Nat × Nat :=
  let hit (base bytes : Nat) (group : Nat → Nat) (up : Nat → Nat) : Option (Nat × Nat) :=
    if overlaps a 512 base bytes then
      let lo := 32 * group (max a base - base)
      some (lo, min d.count (32 * up (min (a + 512) (base + bytes) - base)) - lo)
    else none
  let ww := hit d.ww d.wwBytes (fun x => x * 8 / d.wwBits / 32) (fun x => ceilDiv (ceilDiv (x * 8) d.wwBits) 32)
  let sc := hit d.wwScale d.scaleLen (fun x => x / scaleBytes d.wwFmt) (fun x => ceilDiv x (scaleBytes d.wwFmt))
  match ww with
  | some r => r
  | none => if d.wwBlock then sc.getD (0, 0) else (0, 0)

/-- Bytes laid over a block of the stores. -/
def layOver (a : Nat) (block : List Byte) (b : Nat) (bs : List Byte) : List Byte :=
  (List.range 512).map (fun i =>
    if b ≤ a + i ∧ a + i < b + bs.length then bs.getD (a + i - b) 0 else block.getD i 0)

/-- The passes whose weights, or scales, lie in a block, each with the first parameter and the count of those there. -/
def World.passesIn (w : World) (cfg : List Byte) (a : Nat) : List (UeDesc × Nat × Nat) :=
  (w.digestPasses cfg).filterMap (fun d => let r := d.paramsIn a; if r.2 = 0 then none else some (d, r.1, r.2))

/-- The masters of a block's parameters: address and bytes, pass by pass. -/
def World.masterRuns (w : World) (cfg : List Byte) (a : Nat) : List (Nat × Nat) :=
  (w.passesIn cfg a).map (fun r => (r.1.masterOut + 4 * r.2.1, 4 * r.2.2))

/-- The blocks of such runs, in order. -/
def runsBlocks (runs : List (Nat × Nat)) : List Nat := runs.flatMap (fun r => blocksOf r.1 r.2)

/-- The own masters of a block's parameters: in the own stores, or in the blocks that the far store gave. -/
def World.ownMasters (w : World) (runs : List (Nat × Nat)) (far : Option (List Byte)) : List Byte :=
  match far with
  | none => runs.flatMap (fun r => readBytes w.mem r.1 r.2)
  | some m => (runs.foldl (fun (s : List Byte × List Byte) r =>
      (s.1 ++ slice s.2 (r.1 - blockOf r.1) r.2, s.2.drop (512 * (blocksOf r.1 r.2).length))) ([], m)).1

/-- Whether the own master blocks pass their checks; of the far store they do if it gave them. -/
def World.mastersStand (w : World) (runs : List (Nat × Nat)) (far : Option (List Byte)) : Bool :=
  (runsBlocks runs).all (fun b => if tierOf b = 3 then far.isSome else !w.poisoned b && !w.failing [] b)

/-- A block derived again from the masters of its parameters under R319, with the T of the passes that wrote it. -/
def World.rederive (w : World) (cfg : List Byte) (a : Nat) (masters : List Byte) : List Byte :=
  let s := w.d.slot (numAt cfg 34 1)
  let seed := (w.d.ctx (numAt cfg 32 2)).seed
  ((w.passesIn cfg a).foldl (fun (x : List Byte × List Byte) r =>
    let (d, i, n) := r
    let ws := (List.range n).map (fun k => numAt x.2 (4 * k) 4)
    let e := { d with base := d.base + i, count := n, ww := d.ww + i * d.wwBits / 8,
                      wwScale := d.wwScale + i / 32 * scaleBytes d.wwFmt }
    ((e.weightWrites (e.weights seed s.derivedT ws)).foldl (fun b y => layOver a b y.1 y.2) x.1, x.2.drop (4 * n)))
    (w.blk a, masters)).1

/-- The value that more than half of `g` replicas hold. -/
def strictMajority (g : Nat) (xs : List (List Byte)) : Option (List Byte) :=
  xs.find? (fun x => decide (g < 2 * (xs.filter (· == x)).length))

/-- The block that a difference of the digest service names. -/
def World.digestAddr (w : World) (e : DigestDiff) : Nat := tget 0 (w.d.svc 2).bases e.run + 512 * e.block

/-- Whether the replicas differ: in the root of the run, and in the data of the block. -/
def World.digestDiffers (w : World) (cfg : List Byte) (e : DigestDiff) : Bool :=
  e.roots.any (fun r => r != readBytes w.mem (digestRun cfg e.run).tree 32) && e.blocks.any (fun b => b != w.blk (w.digestAddr e))

/-- How a difference is settled (R331): the masters that stand, and the block derived from them; none where it cannot be. -/
def World.digestFix (w : World) (cfg : List Byte) (e : DigestDiff) : Option (List Byte × List Byte) :=
  let r := digestRun cfg e.run
  let a := w.digestAddr e
  let g := numAt cfg 36 2
  let runs := w.masterRuns cfg a
  let own := w.ownMasters runs e.far
  let stand := w.mastersStand runs e.far
  if r.replicated then
    if stand && e.masters.all (· == own) then some (own, w.rederive cfg a own)
    else if g < 3 then none
    else (strictMajority g ((if stand then [own] else []) ++ e.masters)).map (fun m => (m, w.rederive cfg a m))
  else if r.owner = w.digestPosition cfg then (if stand then some (own, w.rederive cfg a own) else none)
  else e.owned.map (fun b => (own, b))

/-- The client number of the repairs of masters in the far store. -/
def whoDigest : Nat := 0x40004

/-- The majority's masters written over the own ones, in the own stores or the far store. -/
def World.mendMasters (w : World) (cfg : List Byte) (a : Nat) (far : Option (List Byte)) (m : List Byte) : World :=
  let old := (far.getD []).length
  ((w.masterRuns cfg a).foldl (fun (s : World × List Byte × List Byte) r =>
    let (w, got, m) := s
    let bs := m.take r.2
    let bl := blocksOf r.1 r.2
    let new (b : Nat) (block : List Byte) : List Byte := layOver b block r.1 bs
    let w :=
      if tierOf r.1 = 3 then
        if old = 0 then w
        else w.onDev (fun d => d.farAsk (towerOf a / 4) whoDigest (numAt cfg 32 2) 2 false false
          (bl.zipIdx.map (fun b => (bitsOf b.1 41 0, some (mkBlk (new b.1 (slice got (512 * b.2) 512)))))))
      else bl.foldl (fun w b => w.putBlk b (new b (w.blk b)) 0) w
    (w, got.drop (512 * bl.length), m.drop r.2)) (w, far.getD [], m)).1

/-- The repairs of a hold that the digest service raised (R331). -/
def World.digestRepairs (w : World) : World :=
  let s := w.d.svc 2
  if s.repairs.isEmpty then w
  else
    let cfg := s.config
    let fix (w : World × List Nat) (e : DigestDiff) : World × List Nat :=
      let (w, done) := w
      let a := w.digestAddr e
      match w.digestFix cfg e with
      | none => (w, done)
      | some (m, new) =>
        let w := if (digestRun cfg e.run).replicated && m != w.ownMasters (w.masterRuns cfg a) e.far then w.mendMasters cfg a e.far m else w
        if new = w.blk a ∧ w.synOf a = 0 then (w, done)
        else ((w.putBlk a new 0).count (UER (towerOf a) + 0x20) 63 0 1, done ++ [a])
    let (w, done) := s.repairs.foldl fix (w, [])
    let w := w.onDev (fun d => d.onSvc 2 (fun s => { s with repairs := [] }))
    match done with
    | [] => w
    | a :: _ =>
      let w := w.event 0x809 stOk (sat16 done.length) (numAt cfg 32 2) [mkBlk (leBytes 8 a)]
      w.log { entry 0x12 (towerOf a) 0x7 with
        detail := sat16 done.length, ctx := numAt cfg 32 2, addr := a, event := 0x809 }

end Sys2Proof.Machine
end

