-- ==== Sys2Proof/Machine/Packet.lean ====
section
/-! DEFINITION. Packets of the peer fabric: how they are cut and sent, and what a device does with one that arrives
(R350 to R355). -/

namespace Sys2Proof.Machine

def unitP2p : Nat := 5
def unitColl : Nat := 6

/-- A packet header (R351). -/
structure PktHdr where
  kind : Nat
  step : Nat
  dest : Nat
  src : Nat
  ctx : Nat
  tag : Nat
  blocks : Nat
  index : Nat
  addr : Nat

def PktHdr.bytes (h : PktHdr) : List Byte :=
  let b := leBytes 1 h.kind ++ leBytes 1 h.step ++ leBytes 2 h.dest ++ leBytes 2 h.src ++ leBytes 2 h.ctx ++ leBytes 2 h.tag ++
    leBytes 2 h.blocks ++ leBytes 4 h.index ++ leBytes 8 h.addr ++ leBytes 4 0
  b ++ leBytes 4 (crc32c b).toNat

def pktHdr (b : List Byte) : PktHdr :=
  { kind := numAt b 0 1, step := numAt b 1 1, dest := numAt b 2 2, src := numAt b 4 2, ctx := numAt b 6 2, tag := numAt b 8 2,
    blocks := numAt b 10 2, index := numAt b 12 4, addr := numAt b 16 8 }

def pktHdrOk (b : List Byte) : Bool := numAt b 28 4 == (crc32c (b.take 28)).toNat

def pktBytes (h : PktHdr) (bl : List Blk) : List Byte := h.bytes ++ bl.flatMap (fun b => padTo 512 b.data ++ leBytes 4 b.chk.toNat)

/-- The blocks after a header. -/
def pktBlocks (n : Nat) (b : List Byte) : List Blk :=
  (List.range n).map (fun i => { data := slice b (32 + 516 * i) 512, chk := BitVec.ofNat 32 (numAt b (544 + 516 * i) 4) })

/-! ## Sending -/

/-- Put one packet on a port and count its blocks. -/
def Dev.putPacket (d : Dev) (l : Nat) (fwd : Bool) (bytes : List Byte) (n : Nat) : Dev :=
  (d.sendPacket l fwd bytes).count (portTx l) 63 0 n

/-- Put a packet that is not cut here (one passed on, a re-send request, a block sent again) on the trunk toward a rank: packet
number `index / 32` of its line takes the port at that position modulo the ports in service, as R352 places packet j on the
first trunk (DEDUCED, log 66); with no port in service it goes nowhere. A packet passed on waits beside the own ones (R350). -/
def Dev.routePacket (d : Dev) (q index : Nat) (fwd : Bool) (bytes : List Byte) (n : Nat) : Dev :=
  let up := (d.liveTo q).filter d.linkUp
  let ports := if up.isEmpty then d.liveTo q else up
  if ports.isEmpty then d else d.putPacket (ports.getD (index / 32 % ports.length) 0) fwd bytes n

/-- Cut a line's blocks into packets of 32 and stripe them over the first-hop trunk (R352). -/
def Dev.stripe (d : Dev) (h : PktHdr) (bl : List Blk) : Dev :=
  let ports := d.liveTo h.dest
  if ports.isEmpty then d
  else (List.range (ceilDiv bl.length 32)).foldl (fun d k =>
    let part := (bl.drop (32 * k)).take 32
    let addr := if h.addr = 0 then 0 else h.addr + 512 * (32 * k)
    let g := { h with blocks := part.length, index := h.index + 32 * k, addr := addr }
    d.putPacket (ports.getD (k % ports.length) 0) false (pktBytes g part) part.length) d

/-- Send a line's blocks of one step, kept so that a re-send request can be served; poisoned ones are carried (R284). -/
def World.sendBlocks (w : World) (j : Job) (kind dest ctx tag step addr : Nat) (items : List (Nat × Blk)) : World :=
  if items.isEmpty then w
  else
    let poison := (items.filter (fun e => blkSyn e.2 == poisonMark)).length
    let w := w.carried (j.course / 12) poison
    let key (s : Sent) : Bool := s.dest == dest && s.kind == kind && s.ctx == ctx && s.tag == tag && s.step == step
    let rec_ : Sent := { dest := dest, kind := kind, ctx := ctx, tag := tag, step := step, addr := addr, items := items }
    let w := w.onDev (fun d => { d with sent := d.sent.filter (fun s => !key s) ++ [rec_] })
    w.onDev (fun d => d.stripe
      { kind := kind, step := step, dest := dest, src := d.hedge.rank, ctx := ctx, tag := tag, blocks := 0, index := 0,
        addr := addr } (items.map (·.2)))

/-- Ask a rank for a block again (R351, R353). -/
def Dev.askAgain (d : Dev) (src ctx tag step index : Nat) : Dev :=
  let h : PktHdr :=
    { kind := 4, step := step, dest := src, src := d.hedge.rank, ctx := ctx, tag := tag, blocks := 0, index := index, addr := 0 }
  d.routePacket src index false h.bytes 0

/-! ## Receiving -/

/-- A packet that is dropped: STRAY or TAG_MISMATCH (R354). -/
def World.strayPacket (w : World) (port src ctx bit : Nat) : World :=
  let t := port / 3
  let x := w.d.ctx ctx
  let w := w.setBit (EFR t + 0x10) bit
  let w := w.efInfo t port src ctx ((w.d.setOf (firstCourse x.tabMask.toNat) ctx).getD 0) x.pos
  let w := w.raise flagAbort
  let det := BitVec.ofNat 16 (port % 64 + (src % 1024) * 64)
  let w := w.event 0x80C stOk det ctx []
  w.log { entry 0x1F t 0x12 with detail := det, ctx := ctx, index := port, event := 0x80C, flags := 1 }

/-- The running collective lines, each with its plan. -/
def World.runningColls (w : World) : List (Job × EfPlan) :=
  w.d.courses.flatMap (fun e => e.2.lines.zipIdx.filterMap (fun l =>
    if l.1.phase = .launched ∧ l.1.ln.unit = unitColl ∧ 1 ≤ l.1.prog then
      (w.d.jobOf e.1 l.2).map (fun j => (j, efPlan w.mem w.d j.course j.ln (ctxBlocks w.mem (w.d.ctx j.ctx) j.course)))
    else none))

/-- The senders and steps from which a running line still expects something, and whether over the scalar lane. -/
def EfPlan.expects (p : EfPlan) (prog : Nat) : List (Nat × Nat) :=
  match p.coll.kind with
  | 1 | 2 | 3 => (p.steps.zipIdx.filter (fun s => decide (0 < s.1.recv) && decide (prog ≤ s.2 + 1))).map (fun s => (s.1.q, s.2))
  | 4 => (p.g.ranks.zipIdx.filter (fun e => e.2 != p.g.p && decide (0 < (p.g.entry e.2).recvBlocks))).map (fun e => (e.1, 0))
  | _ => (List.range p.g.k).filterMap (fun l =>
      if prog ≤ l + 1 then (scalarPartner p.g.size l p.g.p).map (fun r => (p.g.rankOf r, l)) else none)

/-- The collective lines that run for a step, if the tag differs from that of each of them (R354). -/
def World.tagDiffers (w : World) (ctx : Option Nat) (src step tag : Nat) : List Job :=
  let mine := w.runningColls.filter (fun e => (match ctx with
      | some c => e.1.ctx == c && decide (e.2.coll.kind ≤ 4)
      | none => decide (5 ≤ e.2.coll.kind)) && (e.2.expects e.1.prog).contains (src, step))
  if mine.all (fun e => e.2.coll.tag != tag) then mine.map (·.1) else []

/-- A packet of another tag is dropped (R354); the lines that run for its step complete and write nothing, so that the hedge parks
(DEDUCED, log 63). -/
def World.tagMismatch (w : World) (port src ctx : Nat) (js : List Job) : World :=
  js.foldl (fun w j => w.finish j) (w.strayPacket port src ctx 3)

def Want.matches (x : Want) (h : PktHdr) (index : Nat) : Bool :=
  x.src == h.src && x.kind == h.kind && x.ctx == h.ctx && x.tag == h.tag && x.step == h.step && x.index == index

/-- The number under which the ladder of a block in flight is kept: above every device address, its low 64 bits the address it goes
to, 0 for a block of a collective (R287, R353). -/
def Want.key (x : Want) : Nat :=
  x.addr % 2 ^ 64 + 2 ^ 64 * (1 + ((((x.src * 16 + x.kind) * 2 ^ 16 + x.ctx) * 2 ^ 16 + x.tag) * 256 + x.step) * 2 ^ 32 + x.index)

def Want.hdr (x : Want) : PktHdr :=
  { kind := x.kind, step := x.step, dest := 0, src := x.src, ctx := x.ctx, tag := x.tag, blocks := 1, index := x.index, addr := x.addr }

/-- The tower a block in flight goes to: that of its address, or of the collective line that waits for it. -/
def World.wantTower (w : World) (x : Want) : Nat :=
  if x.kind = 1 then towerOf x.addr
  else match w.runningColls.find? (fun e => e.1.ctx == x.ctx && e.2.coll.tag == x.tag) with
    | some e => e.1.course / 12
    | none => x.port / 3

/-- The ladder of a block in flight: of what it crossed, this device can test the bridge links between the root die of its port and
that of its tower (R287, log 106). -/
def World.wantLadder (w : World) (x : Want) (step : Nat) (after : Bool) (v : Nat) : Ladder :=
  let t := w.wantTower x
  { block := x.key, step := step, tries := 3, unit := if x.kind = 1 then unitP2p else unitColl, course := 12 * (x.port / 3), set := 0,
    ctx := x.ctx, pos := (w.d.ctx x.ctx).pos, store := none, segs := bridgeSegments (x.port / 3) t v, pathFailed := false,
    after := after, clients := [] }

/-- A block that passes its check, or is poisoned, is placed: a point-to-point block at its address, counted by its window
(R353); a collective's in the receive buffers until its line takes it (R375). -/
def World.takeBlock (w : World) (h : PktHdr) (index addr : Nat) (b : Blk) : World :=
  let w := w.onDev (fun d => { d with wants := d.wants.filter (fun x => !x.matches h index) })
  if h.kind = 1 then
    let w := if blkSyn b = poisonMark then w.carried (towerOf addr) 1 else w
    let w := w.putBlk addr b.data (blkSyn b)
    w.onDev (fun d => d.onCtx h.ctx (fun x => { x with win := tput x.win h.tag (tget 0 x.win h.tag + 1) }))
  else
    w.onDev (fun d =>
      let r : RxBlock := { ctx := h.ctx, tag := h.tag, src := h.src, step := h.step, index := index, blk := b }
      let same (y : RxBlock) : Bool :=
        y.ctx == h.ctx && y.tag == h.tag && y.src == h.src && y.step == h.step && y.index == index
      { d with rx := d.rx.filter (fun y => !same y) ++ [r] })

/-- A block that was asked for again is taken in poison form, with its verdict (R287, R353). -/
def World.wantPoisoned (w : World) (x : Want) (l : Ladder) : World :=
  let w := w.takeBlock x.hdr x.index x.addr poisonBlk
  (w.setBit (MEMR (x.port / 3) + 0x58) 3).verdict l 2

/-- A block that fails its check on receipt: counted, and asked for again up to three times (R287, R353). After the third its ladder is
at step 2; the read after a repair of its path is the last one. -/
def World.failBlock (w : World) (port : Nat) (h : PktHdr) (index addr : Nat) : World :=
  let w := w.count (MEMR (port / 3) + 0x10) 63 0 1
  let old := w.d.wants.find? (fun x => x.matches h index)
  let tries := match old with
    | some x => x.tries + 1
    | none => 0
  let want : Want :=
    { src := h.src, kind := h.kind, ctx := h.ctx, tag := h.tag, step := h.step, index := index, addr := addr,
      port := (old.map (·.port)).getD port, tries := min 3 tries }
  match w.d.ladders.find? (fun l => l.block == want.key && !l.after) with
  | some l => if l.step = 3 then w.wantPoisoned want l else w
  | none =>
    let w := w.onDev (fun d => { d with wants := d.wants.filter (fun x => !x.matches h index) ++ [want] })
    if tries < 3 then w.onDev (fun d => d.askAgain h.src h.ctx h.tag h.step index)
    else
      let (w, v) := w.draw
      w.onDev (fun d => { d with ladders := d.ladders ++ [w.wantLadder want 2 false v] })

/-- A block that was asked for again passes: the verdict is transient, and its path is still tested (R287, R288), or the path
repaired where it was read after a repair. -/
def World.wantPasses (w : World) (x : Want) : World :=
  match w.d.ladders.find? (fun l => l.block == x.key && !l.after) with
  | some l => if l.step = 3 then w.pathRepaired l else w.onDev (fun d => { d with ladders := d.ladders.filter (fun m => m.block != l.block) })
  | none =>
    let w := w.count (MEMR (x.port / 3) + 0x18) 63 0 1
    let (w, v) := w.draw
    let l := w.wantLadder x 1 true v
    if l.segs.isEmpty then w else w.onDev (fun d => { d with ladders := d.ladders ++ [l] })

/-- The ladder of a block in flight takes its verdict: after a repair of its path it is asked for once more, otherwise it is taken
as poisoned (R287). -/
def World.wantVerdict (w : World) (l : Ladder) : World :=
  if l.after then w.onDev (fun d => { d with ladders := d.ladders.filter (fun m => m.block != l.block) })
  else match w.d.wants.find? (fun x => x.key == l.block) with
    | none => w.verdict l 2
    | some x =>
      if l.pathFailed then
        w.onDev (fun d =>
          ({ d with ladders := d.ladders.map (fun m => if m.block = l.block then { m with step := 3 } else m) } : Dev).askAgain
            x.src x.ctx x.tag x.step x.index)
      else w.wantPoisoned x l

/-- The guard band in which step 2 begins for the blocks in flight of which no segment is to be tested: they are taken as
poisoned (R287). -/
def World.poisonWants (w : World) : World :=
  (w.d.ladders.filter (fun l => decide (2 ^ 64 ≤ l.block) && l.step == 2 && l.store.isSome && l.segs.isEmpty && !l.after)).foldl
    World.wantVerdict w

/-- The verdict of a ladder whose step-2 tests have all ended (R287). -/
def doLadderVerdict (block : Nat) (rereadOk : Bool) (w : World) : World :=
  match w.d.ladderReady block with
  | none => w
  | some l => if 2 ^ 64 ≤ block then w.wantVerdict l else w.storeVerdict l rereadOk

/-- The blocks of a packet for this device, one by one. -/
def World.takeBlocks (w : World) (port : Nat) (h : PktHdr) (bl : List Blk) : World :=
  bl.zipIdx.foldl (fun w e =>
    let addr := if h.kind = 1 then h.addr + 512 * e.2 else 0
    let syn := blkSyn e.1
    if syn = 0 ∨ syn = poisonMark then
      let w := match w.d.wants.find? (fun x => x.matches h (h.index + e.2)) with
        | some x => w.wantPasses x
        | none => w
      w.takeBlock h (h.index + e.2) addr e.1
    else w.failBlock port h (h.index + e.2) addr) w

/-- A re-send request: the sender reads the block again from where the line took it (R353). -/
def World.serveAgain (w : World) (h : PktHdr) : World :=
  match w.d.sent.find? (fun s => s.dest == h.src && s.ctx == h.ctx && s.tag == h.tag && s.step == h.step &&
      decide (h.index < s.items.length)) with
  | none => w
  | some s =>
    match s.items[h.index]? with
    | none => w
    | some (a, b) =>
      let b := if a = 0 then b else w.carry a
      w.onDev (fun d =>
        let g : PktHdr :=
          { kind := s.kind, step := s.step, dest := s.dest, src := d.hedge.rank, ctx := s.ctx, tag := s.tag, blocks := 1,
            index := h.index, addr := if s.addr = 0 then 0 else s.addr + 512 * h.index }
        d.routePacket s.dest h.index false (pktBytes g [b]) 1)

/-- Whether a context is loaded (R354): its tab image is in place. -/
def Dev.ctxLoaded (d : Dev) (i : Nat) : Bool := (d.ctx i).st != .free && (d.ctx i).tabValid

/-- Whether a point-to-point packet breaks R354. -/
def World.p2pStray (w : World) (h : PktHdr) : Bool :=
  let x := w.d.ctx h.ctx
  let c := firstCourse x.tabMask.toNat
  match ctxBlocks w.mem x c h.tag with
  | none => true
  | some n =>
    decide (n ≤ tget 0 x.win h.tag) || h.addr % 512 != 0 || decide (2 < tierOf h.addr) ||
    !runOk 0 h.addr (512 * h.blocks) || w.d.fenced (towerOf h.addr)

/-- A whole packet whose header is good has arrived. -/
def World.rxPacket (w : World) (port : Nat) (h : PktHdr) (raw : List Byte) : World :=
  let w := w.count (portRx port) 63 0 h.blocks
  if h.dest ≠ w.d.hedge.rank then w.onDev (fun d => d.routePacket h.dest h.index true raw h.blocks)
  else if h.kind = 4 then w.serveAgain h
  else if h.kind = 0 ∨ 4 < h.kind then w
  else if !w.d.ctxLoaded h.ctx then w.strayPacket port h.src h.ctx 2
  else if h.kind = 1 then
    if w.p2pStray h then w.strayPacket port h.src h.ctx 2 else w.takeBlocks port h (pktBlocks h.blocks raw)
  else match w.tagDiffers (some h.ctx) h.src h.step h.tag with
    | [] => w.takeBlocks port h (pktBlocks h.blocks raw)
    | js => w.tagMismatch port h.src h.ctx js

/-- What names a block of a packet whose header CRC failed. -/
def PktHdr.failKey (h : PktHdr) (i : Nat) : List Nat := [h.src, h.ctx, h.tag, h.step, h.index + i]

/-- A packet whose header CRC fails: its blocks are asked for again, and it is STRAY when every copy across 3 re-send requests
has failed (R354). The header names them as it was received: nothing else does (DEDUCED, log 107). -/
def World.badHeader (w : World) (port : Nat) (h : PktHdr) : World :=
  let is := List.range (min 32 (max 1 h.blocks))
  let seen := (w.d.link port).hdrBad
  if is.any (fun i => 3 ≤ (seen.filter (· == h.failKey i)).length) then
    (w.onDev (fun d => d.onLink port (fun x => { x with
      hdrBad := x.hdrBad.filter (fun k => is.all (fun i => h.failKey i != k)) }))).strayPacket port h.src h.ctx 2
  else
    let w := w.onDev (fun d => d.onLink port (fun x => { x with hdrBad := x.hdrBad ++ is.map h.failKey }))
    is.foldl (fun w i => w.onDev (fun d => d.askAgain h.src h.ctx h.tag h.step (h.index + i))) w

/-- A packet whose header is good: its blocks are no longer counted as failed. -/
def Link.goodHeader (x : Link) (h : PktHdr) : Link :=
  { x with hdrBad := x.hdrBad.filter (fun k => (List.range (min 32 (max 1 h.blocks))).all (fun i => h.failKey i != k)) }

/-- Take the whole packets from what a port has received (R351). Zeros behind a packet are the padding of its last flit: no packet
begins with KIND 0 (log 32). -/
def World.rxStream : Nat → World → Nat → List Byte → World
  | 0, w, l, buf => w.onDev (fun d => d.onLink l (fun x => { x with rx := buf }))
  | fuel + 1, w, l, buf =>
    if buf.all (· == 0) then w.onDev (fun d => d.onLink l (fun x => { x with rx := [] }))
    else
      let h := pktHdr buf
      let need := 32 + 516 * min 32 h.blocks
      if buf.length < need then w.onDev (fun d => d.onLink l (fun x => { x with rx := buf }))
      else
        let raw := buf.take need
        let w := if !pktHdrOk raw ∨ 32 < h.blocks then w.badHeader l h
          else (w.onDev (fun d => d.onLink l (fun x => x.goodHeader h))).rxPacket l h raw
        World.rxStream fuel w l (buf.drop need)

/-- A DATA flit arrives: its payload continues the packet stream of its port. At most 8 packets end in one flit. -/
def doFlitDataRx (lk : Fin 32) (flit : List Byte) (w : World) : World :=
  let l := lk.val
  let (w, inOrder) := w.numberedFlit l 1 flit
  if !inOrder || decide (24 ≤ l) then w else World.rxStream 9 w l ((w.d.link l).rx ++ slice flit 4 248)

/-- A SCALAR flit arrives (R364): forwarded, or kept for the line that runs its step. -/
def doFlitScalarRx (lk : Fin 32) (flit : List Byte) (m : ScalarMsg) (w : World) : World :=
  let l := lk.val
  if 24 ≤ l then w
  else
    let (w, inOrder) := w.numberedFlit l 3 flit
    if !inOrder then w
    else if m.dest.toNat ≠ w.d.hedge.rank then
      match w.d.liveTo m.dest.toNat with
      | p :: _ => w.onDev (fun d => d.sendScalar p m)
      | [] => w
    else match w.tagDiffers none m.src.toNat m.step.toNat m.tag.toNat with
      | [] => w.onDev (fun d => { d with srx := d.srx ++ [m] })
      | js => w.tagMismatch l m.src.toNat 0x3FFF js

/-! ## The commands -/

/-- FLIT_DATA_RX (R340). -/
def execFlitDataRx (link : Fin 32) (flit : List Byte) (s : State) : Host.Outcome State Fault Refusal :=
  runLive s (doFlitDataRx link flit)

/-- FLIT_SCALAR_RX (R339). -/
def execFlitScalarRx (link : Fin 32) (flit : List Byte) (m : ScalarMsg) (s : State) : Host.Outcome State Fault Refusal :=
  runLive s (doFlitScalarRx link flit m)

end Sys2Proof.Machine
end

