-- ==== Sys2Proof/Machine/Fabric.lean ====
section
/-! DEFINITION. The collective engine at work: point-to-point sends (R356), collectives and compressed exchange (R357 to R369), the
scalar lane (R364) and NORM (R365). A collective works one step of its schedule at a command: PROG counts what has been sent. -/

namespace Sys2Proof.Machine

/-! ## Faults and status -/

def World.efFault (w : World) (j : Job) (bit : Nat) : World :=
  let t := j.course / 12
  (w.setBit (EFR t + 0x10) bit).efInfo t 0 0 j.ctx j.set j.pos

def World.efRefused (w : World) (j : Job) (addr : Nat) : World := (w.efFault j 0).addrRefused j addr
def World.efOversize (w : World) (j : Job) : World := (w.efFault j 1).unitFault j stPlanOverrun
def World.efStepState (w : World) (j : Job) : World := (w.efFault j 4).unitFault j stPlanMismatch

/-- EF_STATUS while a line is in work; LINE_COMPLETE clears it. -/
def World.efStatus (w : World) (j : Job) (kind : Nat) (stalled : Bool) : World :=
  w.setReg (EFR (j.course / 12)) (BitVec.ofNat 64 (kind * 256 + (if stalled then 2 else 0) + 1))

/-- The status of a step in which the engine has merged (R376). -/
def World.efMerging (w : World) (j : Job) (kind : Nat) : World :=
  w.setReg (EFR (j.course / 12)) (BitVec.ofNat 64 (kind * 256 + 4 + 1))

/-- A line of the engine has done its work. -/
def World.efDone (w : World) (j : Job) : World :=
  (w.onDev (fun d => { d with efVals := tdel d.efVals (whoLine j.course j.idx) })).finish j

/-- What a step of a line leaves in EF_STATUS: a line that could not go on waits (R376). -/
def World.efShown (w : World) (j : Job) (kind : Nat) : World :=
  match lineAt (w.d.course j.course) j.idx with
  | some l =>
    if l.phase = .launched ∧ l.prog = j.prog then w.efStatus j kind true else w
  | none => w

/-- Poisoned blocks that entered a reduction (R358). -/
def World.efPoison (w : World) (j : Job) (n : Nat) : World :=
  if n = 0 then w else (w.efFault j 6).consumed (j.course / 12) n unitColl j.ctx

/-! ## Work start (R373) -/

/-- What the start of a line's work answers. -/
inductive EfStart where
  /-- the line's descriptor is of another kind: the command is not its work -/
  | other
  | stop (w : World)
  | go (w : World) (p : EfPlan)

/-- The group table of a collective, and its shard or step table: address and bytes. -/
def CollDesc.tableRuns (x : CollDesc) : List (Nat × Nat) :=
  (x.group, 2 * x.g) :: (if x.kind ≤ 3 then [(x.table, 4 * x.g)] else if x.kind = 4 then [(x.table, 32 * x.g)] else [])

/-- Read and check the descriptor and tables again. -/
def World.efStart (w : World) (j : Job) (bad : List Nat) (kind : Nat) : EfStart :=
  match w.fetch j bad j.ln.desc (if j.ln.unit = unitP2p then 64 else 128) with
  | .wait w' => .stop w'
  | .got b poison =>
    let x := collDesc b
    let known := decide (1 ≤ x.kind) && decide (x.kind ≤ 6)
    if poison then .stop (w.poisonDesc j)
    else if j.ln.unit = unitColl ∧ known ∧ x.kind ≠ kind then .other
    else
      let tables := if j.ln.unit = unitColl ∧ x.fieldsOk ∧ (x.tablesBad (w.descMem j) j.course).isNone ∧ x.kind ≠ 6 then
          x.tableRuns.flatMap (fun e => blocksOf e.1 e.2)
        else []
      match if (w.readOf j).isEmpty then w.checkBlocks j bad tables else none with
      | some w' => .stop w'
      | none =>
        if (w.readOf j).isEmpty && tables.any w.poisoned then .stop (w.poisonDesc j)
        else
          let p := efPlan (w.descMem j) w.d j.course j.ln (ctxBlocks w.mem (w.d.ctx j.ctx) j.course)
          let w := w.keepDesc j ((j.ln.desc, if j.ln.unit = unitP2p then 64 else 128) :: (if tables.isEmpty then [] else x.tableRuns))
          if j.prog ≠ 0 then .go w p
          else match p.bad with
            | some a => .stop (w.efRefused j a)
            | none =>
              if p.mismatch then .stop (w.efRefused j j.ln.desc)
              else if !p.check15 w.d j.ln then .stop (w.efOversize j)
              else .go (w.efStatus j (if p.p2p then 7 else kind) false) p

/-! ## Point to point (R356) -/

/-- The blocks of a run as they travel, with their addresses. -/
def World.runItems (w : World) (a n : Nat) : List (Nat × Blk) := (blocksOf a n).map (fun b => (b, w.carry b))

def doP2pSend (k : Work) (w : World) : World :=
  match w.ready k.course.val k.line unitP2p with
  | none => w
  | some j =>
    match w.efStart j k.bad 7 with
    | .other => w
    | .stop w' => w'.efShown j 7
    | .go w p =>
      let s := p.send
      match w.checkBlocks j k.bad (blocksOf s.src (512 * s.blocks)) with
      | some w' => w'.efShown j 7
      | none => ((w.sendBlocks j 1 s.dest s.ctx s.window 0 s.dst (w.runItems s.src (512 * s.blocks))).efDone j).efShown j 7

/-! ## Reductions (R358 to R361) -/

/-- An element read for a reduction: FP32 bits, or the INT32 itself. -/
def redValue (int : Bool) (v : Val) : Nat := if int then (convElem 0xA 0 0 0 v).code else v.f32

/-- `n` values from an address on, and the poisoned blocks met. -/
def World.redRun (w : World) (int : Bool) (fmt a n : Nat) : List Nat × Nat :=
  ((w.plainRow fmt a n id).map (fun e => redValue int e.v), (w.poisonedIn a (n * elemBits fmt / 8)).length)

/-- Address and format of the node of shard s after `l` steps (R359): in SRC, or in the work region, where the shards kept
after step 0 lie one after another. -/
def CollDesc.nodeAt (x : CollDesc) (g : Group) (l s : Nat) : Nat × Nat :=
  if l = 0 then (x.src + g.offset s * elemBits x.fmtIn / 8, x.fmtIn)
  else (x.work + 4 * natSum (((g.keep 1).filter (fun u => decide (u < s))).map g.shard), if x.int then 0xA else 0)

def CollDesc.nodeLen (x : CollDesc) (g : Group) (l s : Nat) : Nat := g.shard s * elemBits (x.nodeAt g l s).2 / 8

/-- The blocks of the nodes of a list of shards. -/
def CollDesc.nodeBlocks (x : CollDesc) (g : Group) (l : Nat) (ss : List Nat) : List Nat :=
  ss.flatMap (fun s => blocksOf (x.nodeAt g l s).1 (x.nodeLen g l s))

/-- The values that received blocks hold. -/
def blkValues (int : Bool) (fmt : Nat) (bl : List Blk) : List Nat :=
  let per := 4096 / elemBits fmt
  bl.flatMap (fun b =>
    if blkSyn b = poisonMark then List.replicate per (redValue int (poisonVal fmt))
    else (codesOf (elemBits fmt) per (padTo 512 b.data)).map (fun c => redValue int (elemVal fmt c)))

/-- The blocks of a step that have arrived, all of them or none. -/
def Dev.rxBlocks (d : Dev) (ctx tag src step n : Nat) : Option (List Blk) :=
  let bs := (List.range n).filterMap (fun i =>
    (d.rx.find? (fun r => r.ctx == ctx && r.tag == tag && r.src == src && r.step == step && r.index == i)).map (·.blk))
  if bs.length = n then some bs else none

def Dev.rxDrop (d : Dev) (ctx tag src step : Nat) : Dev :=
  { d with rx := d.rx.filter (fun r => !(r.ctx == ctx && r.tag == tag && r.src == src && r.step == step)) }

/-- One merge (R358). -/
def CollDesc.merge (x : CollDesc) (a b : Nat) : Nat := if x.int then (a + b) % 2 ^ 32 else addBy x.flush a b

/-- Send the nodes given away at step l (R359). -/
def World.rsSend (w : World) (j : Job) (x : CollDesc) (g : Group) (l : Nat) : World :=
  let items := (g.give l).flatMap (fun s => w.runItems (x.nodeAt g l s).1 (x.nodeLen g l s))
  (w.sendBlocks j 2 (g.rankOf (g.p ^^^ 2 ^ l)) j.ctx x.tag l 0 items).progress j (l + 1)

/-- Merge what step l brought into the nodes kept, and write them to the work region. -/
def World.rsMerge (w : World) (j : Job) (x : CollDesc) (g : Group) (l : Nat) (bl : List Blk) : World :=
  let q := g.p ^^^ 2 ^ l
  let fmt := if l = 0 then x.fmtIn else if x.int then 0xA else 0
  let got := blkValues x.int fmt bl
  let start : World × Nat × Nat := (w, 0, (bl.filter (fun b => blkSyn b == poisonMark)).length)
  let r := (g.keep (l + 1)).foldl (fun (s : World × Nat × Nat) u =>
    let (w, off, bad) := s
    let n := g.shard u
    let own := w.redRun x.int (x.nodeAt g l u).2 (x.nodeAt g l u).1 n
    let ys := (got.drop off).take n
    let zs := List.zipWith (fun a y => if q < g.p then x.merge y a else x.merge a y) own.1 ys
    ((w.mergeWrite (x.nodeAt g 1 u).1 (packCodes 32 zs)).1, off + n, bad + own.2)) start
  r.1.efPoison j r.2.2

/-- Convert the own shard, count it, write it, and deliver its q_b (R360, R361): none where the slot refuses it. -/
def World.rsOut (w : World) (j : Job) (x : CollDesc) (g : Group) (vals : List Nat) : World × Bool :=
  let seed := (w.d.ctx j.ctx).seed
  let off := g.offset g.p
  let cs : List Conv := if x.int then vals.map (fun v => { code := v, ovr := false, under := false })
    else vals.zipIdx.map (fun e => convElem x.fmtOut x.rnd x.sat (noise seed x.tid (off + e.2)) (f32Val e.1))
  let codes := cs.map (·.code)
  let a := if x.kind = 3 then x.dst + off * elemBits x.fmtOut / 8 else x.dst
  let s := w.mergeWrite a (packCodes (elemBits x.fmtOut) codes)
  let w := s.1.efPoison j s.2
  let w := w.onDev (fun d => d.countFh j.ctx x.cls x.fmtOut cs.length (overs cs) (unders cs))
  let w := if x.watch && codes.any (nonfiniteCode x.fmtOut) then w.raise flagNonfinite else w
  if !x.norm then (w, true)
  else
    let sq := codes.map (fun c => let v := redValue x.int (elemVal x.fmtOut c); some (mulBy x.flush v v))
    let q := (treeFold (addBy x.flush) sq).getD 0
    match w.d.insertBucket x.slot j.ctx x.bucket (if x.exclude then none else some (BitVec.ofNat 32 q)) with
    | some d => ({ w with d := d }, true)
    | none => (w, false)

/-! ## Gathers (R362) -/

/-- The blocks of a run as they travel, cut from its first byte on; a block that is whole keeps its check. -/
def World.cutItems (w : World) (a n : Nat) : List (Nat × Blk) :=
  (List.range (ceilDiv n 512)).map (fun i =>
    let b := a + 512 * i
    let m := min 512 (n - 512 * i)
    if b % 512 = 0 ∧ m = 512 then (b, w.carry b)
    else if (blocksOf b m).any w.poisoned then (0, poisonBlk)
    else (0, mkBlk (readBytes w.mem b m)))

/-- Blocks cut that way written as the run at an address: whole blocks keep their checks and stay poisoned if they are; a poisoned
block of the stores that one fills in part stays poisoned and is consumed (R285). -/
def World.layItems (w : World) (j : Job) (a n : Nat) (bl : List Blk) : World :=
  let r := bl.zipIdx.foldl (fun (s : World × Nat) e =>
    let (w, bad) := s
    let b := a + 512 * e.2
    let m := min 512 (n - 512 * e.2)
    if b % 512 = 0 ∧ m = 512 then (w.putBlk b e.1.data (blkSyn e.1), bad)
    else if blkSyn e.1 = poisonMark then ((blocksOf b m).foldl (fun w c => w.putPoison c) w, bad)
    else let q := w.mergeWrite b (slice e.1.data 0 m); (q.1, bad + q.2)) (w, 0)
  r.1.consumed (j.course / 12) r.2 unitColl j.ctx

/-- Byte offset and length in the bucket of the shards of the aligned block of 2^l positions that holds y. -/
def CollDesc.held (x : CollDesc) (g : Group) (l y : Nat) : Nat × Nat :=
  (g.offset (y / 2 ^ l * 2 ^ l) * elemBits x.fmtOut / 8,
   natSum ((alignedBlock l y).map g.shard) * elemBits x.fmtOut / 8)

/-- Send what is held at step l of the all-gather; `base` steps of the line came before it. -/
def World.agSend (w : World) (j : Job) (x : CollDesc) (g : Group) (base l : Nat) : World :=
  let h := x.held g l g.p
  (w.sendBlocks j 2 (g.rankOf (g.p ^^^ 2 ^ l)) j.ctx x.tag (base + l) 0 (w.cutItems (x.dst + h.1) h.2)).progress j (base + l + 1)

/-- The all-gather begins, or the line ends where there is one rank. -/
def World.agStart (w : World) (j : Job) (x : CollDesc) (g : Group) (base : Nat) : World :=
  if g.k = 0 then w.efDone j else w.agSend j x g base 0

/-- A step of the all-gather: the blocks it fills in part, and those it sends on, are checked first (R283); it waits until all of
its own have arrived. -/
def World.agStep (w : World) (j : Job) (x : CollDesc) (g : Group) (base l : Nat) (bad : List Nat) : World :=
  let q := g.p ^^^ 2 ^ l
  let h := x.held g l q
  let own := x.held g l g.p
  let reads := partialBlocks (x.dst + h.1) h.2 ++ (if l + 1 < g.k then blocksOf (x.dst + own.1) own.2 else [])
  match w.checkBlocks j bad reads.eraseDups with
  | some w' => w'
  | none =>
  match w.d.rxBlocks j.ctx x.tag (g.rankOf q) (base + l) (ceilDiv h.2 512) with
  | none => w.efStatus j x.kind true
  | some bl =>
    let w := w.carried (j.course / 12) (bl.filter (fun b => blkSyn b == poisonMark)).length
    let w := (w.layItems j (x.dst + h.1) h.2 bl).onDev (fun d => d.rxDrop j.ctx x.tag (g.rankOf q) (base + l))
    if l + 1 < g.k then (w.agSend j x g base (l + 1)).efStatus j x.kind false else w.efDone j

/-! ## Compressed exchange (R326, R327, R368, R369) -/

/-- The place of |a| among the kept: NaN first. -/
def topKey (a : Nat) : Nat := if f32IsNan a then 2 ^ 32 else f32Mag a

/-- The entries a top-k pack keeps of a block: index and value, by rising index; ties go to the lower index. -/
def topEntries (k : Nat) (as : List Nat) : List (Nat × Nat) :=
  let all := as.zipIdx.map (fun e => (e.2, e.1))
  let first := (all.mergeSort (fun a b => decide (topKey b.2 ≤ topKey a.2))).take k
  first.mergeSort (fun a b => decide (a.1 ≤ b.1))

/-- A block packed (R326; the values sent are converted under the descriptor's CONV, with the element's index in the whole bucket,
R115, R122, R360): its bytes in the entry (or bit) plane, in the scale plane, its residual, and the conversions made. -/
structure Packed where
  plane : List Byte
  scale : List Byte
  residual : List Nat
  convs : List Conv

def signScale (as : List Nat) : Nat := scale2 (treeSum (as.map (fun a => some (fabs a)))) (-12)
def signBit1 (a : Nat) : Bool := f32Neg a && !f32IsNan a

def bitPlane : Nat → List Bool → List Byte
  | 0, _ => []
  | n + 1, bs => BitVec.ofNat 8 (ofBits (bs.take 8)) :: bitPlane n (bs.drop 8)

def CollDesc.packBlock (x : CollDesc) (seed : W64) (first : Nat) (as : List Nat) : Packed :=
  if x.mode = 1 then
    let es := (topEntries x.kept as).map (fun e =>
      let c : Conv := if x.wireFp32 then { code := e.2, ovr := false, under := false }
        else convElem 1 x.rnd x.sat (noise seed x.tid (first + e.1)) (f32Val e.2)
      (e.1, c))
    let bytes := es.flatMap (fun e =>
      if x.wireFp32 then leBytes 8 (e.2.code * 2 ^ 32 + e.1) else leBytes 4 (e.2.code * 2 ^ 16 + e.1))
    let res := es.foldl (fun (r : List Nat) e =>
      let sent := if x.wireFp32 then e.2.code else (elemVal 1 e.2.code).f32
      r.set e.1 (fsub (as.getD e.1 0) sent)) as
    { plane := bytes, scale := [], residual := res, convs := if x.wireFp32 then [] else es.map (·.2) }
  else
    let s := signScale as
    { plane := bitPlane 512 (as.map signBit1), scale := leBytes 4 s,
      residual := as.map (fun a => fsub a (if signBit1 a then fneg s else s)), convs := [] }

/-- `n`-element pieces of a list. -/
def cut (n : Nat) (xs : List Nat) : List (List Nat) := (List.range (ceilDiv xs.length n)).map (fun i => (xs.drop (n * i)).take n)

/-- The wire blocks of a shard's packs. -/
def wireBlocks (ps : List Packed) : List Blk := mkBlks (ps.flatMap (·.plane)) ++ mkBlks (ps.flatMap (·.scale))

/-- The packs of position y for shard s: the step at which they came, or 0xFF for the own ones, and their first index. -/
def CollDesc.packPlace (x : CollDesc) (g : Group) (s y : Nat) : Nat × Nat × Nat :=
  let pb (u : Nat) : Nat := x.packBlocks (g.shard u)
  if y = g.p then (g.rankOf g.p, 0xFF, natSum ((List.range s).map pb))
  else
    let l := Nat.log2 (y ^^^ g.p)
    (g.rankOf (g.p ^^^ 2 ^ l), l,
     2 ^ l * natSum (((g.keep (l + 1)).filter (fun u => decide (u < s))).map pb) + (y % 2 ^ l) * pb s)

/-- The packs of position y for shard s, as they arrived or were made. -/
def Dev.packsOf (d : Dev) (j : Job) (x : CollDesc) (g : Group) (s y : Nat) : List Blk :=
  let (src, step, first) := x.packPlace g s y
  (List.range (x.packBlocks (g.shard s))).map (fun i =>
    ((d.rx.find? (fun r => r.ctx == j.ctx && r.tag == x.tag && r.src == src && r.step == step && r.index == first + i)).map
      (·.blk)).getD (mkBlk []))

/-- Send the packs of the sources held for the shards given away at step l. -/
def World.packSend (w : World) (j : Job) (x : CollDesc) (g : Group) (l : Nat) : World :=
  let bl := (g.give l).flatMap (fun s => (alignedBlock l g.p).flatMap (fun y => w.d.packsOf j x g s y))
  (w.sendBlocks j 2 (g.rankOf (g.p ^^^ 2 ^ l)) j.ctx x.tag l 0 (bl.map (fun b => (0, b)))).progress j (l + 1)

/-- The dense FP32 values of one position's packs for a shard of n elements (R326): +0 for unsent elements, NaN where a block
of the pack is poisoned. -/
def CollDesc.dense (x : CollDesc) (n : Nat) (bl : List Blk) : List Nat :=
  let bytes := payloadBytes bl
  let bad (a len : Nat) : Bool := ((List.range bl.length).filter (fun i => overlaps a len (512 * i) 512)).any (fun i =>
    match bl[i]? with
    | some b => blkSyn b == poisonMark
    | none => false)
  let nb := n / 4096
  (List.range nb).flatMap (fun b =>
    if x.mode = 1 then
      let len := x.kept * x.entryBytes
      if bad (len * b) len then List.replicate 4096 f32Nan
      else (List.range x.kept).foldl (fun (v : List Nat) i =>
        let e := numAt bytes (len * b + x.entryBytes * i) x.entryBytes
        v.set (e % 4096) (if x.wireFp32 then e / 2 ^ 32 else (elemVal 1 (e / 2 ^ 16)).f32)) (List.replicate 4096 0)
    else if bad (512 * b) 512 || bad (512 * nb + 4 * b) 4 then List.replicate 4096 f32Nan
    else
      let s := numAt bytes (512 * nb + 4 * b) 4
      (slice bytes (512 * b) 512).flatMap (fun y =>
        (List.range 8).map (fun k => if bitOf y.toNat k then fneg s else s)))

/-- The owner rebuilds every position's blocks and sums them in position order. -/
def Dev.packSum (d : Dev) (j : Job) (x : CollDesc) (g : Group) : List Nat :=
  let rows := (List.range g.size).map (fun y => x.dense (g.shard g.p) (d.packsOf j x g g.p y))
  (transpose (g.shard g.p) rows).map (fun vs => (treeFold (addBy x.flush) (vs.map some)).getD 0)

/-- Compress the bucket: own packs kept as blocks of step 0xFF, new residuals written to the other half (R326, R327). The sum g + e, the
scale of a sign pack and the residuals honour subnormals whatever SUBNORMAL says: R120 speaks of collective sums and R326 of the rank
sum alone (DESIGN CHOICE, log 109). -/
def World.packOwn (w : World) (j : Job) (x : CollDesc) (g : Group) : World :=
  let n := g.total
  let half := w.d.resPhase x.slot
  let gr := w.redRun false x.fmtIn x.src n
  let er := w.redRun false 0 (x.res + 4 * n * half) n
  let as := List.zipWith fadd gr.1 er.1
  let seed := (w.d.ctx j.ctx).seed
  let packs := (cut 4096 as).zipIdx.map (fun e => x.packBlock seed (4096 * e.2) e.1)
  let w := w.efPoison j (gr.2 + er.2)
  let w := (w.mergeWrite (x.res + 4 * n * (1 - half)) (packCodes 32 (packs.flatMap (·.residual)))).1
  let cs := packs.flatMap (·.convs)
  let w := w.onDev (fun d => d.countFh j.ctx x.cls 1 cs.length (overs cs) (unders cs))
  let bl := (List.range g.size).flatMap (fun s =>
    wireBlocks ((packs.drop (g.offset s / 4096)).take (g.shard s / 4096)))
  w.onDev (fun d =>
    let own := g.rankOf g.p
    let d := d.rxDrop j.ctx x.tag own 0xFF
    { d with rx := d.rx ++ bl.zipIdx.map (fun e =>
        ({ ctx := j.ctx, tag := x.tag, src := own, step := 0xFF, index := e.2, blk := e.1 } : RxBlock)) })

/-! ## The engine's steps -/

/-- The reduction of a line has ended: its result is written, and the all-gather of an all-reduce begins. -/
def World.rsEnd (w : World) (j : Job) (x : CollDesc) (g : Group) (vals : List Nat) : World :=
  let r := w.rsOut j x g vals
  if !r.2 then r.1.efStepState j
  else if x.kind = 3 then r.1.agStart j x g g.k
  else r.1.efDone j

/-- The last node of the own shard as the values to convert, its poison counted where the group is one rank. -/
def World.rsLast (w : World) (j : Job) (x : CollDesc) (g : Group) : World :=
  let r := w.redRun x.int (x.nodeAt g g.k g.p).2 (x.nodeAt g g.k g.p).1 (g.shard g.p)
  (w.efPoison j r.2).rsEnd j x g r.1

/-- Drop the packs of a compressed line. -/
def Dev.packDrop (d : Dev) (j : Job) (x : CollDesc) (g : Group) : Dev :=
  let d := d.rxDrop j.ctx x.tag (g.rankOf g.p) 0xFF
  (List.range g.k).foldl (fun d l => d.rxDrop j.ctx x.tag (g.rankOf (g.p ^^^ 2 ^ l)) l) d

def World.packEnd (w : World) (j : Job) (x : CollDesc) (g : Group) : World :=
  let vals := w.d.packSum j x g
  let bad := ((List.range g.size).flatMap (fun y => if y = g.p then [] else w.d.packsOf j x g g.p y)).filter
    (fun b => blkSyn b == poisonMark)
  let w := w.efPoison j bad.length
  (w.onDev (fun d => d.packDrop j x g)).rsEnd j x g vals

/-- A step of a reduce-scatter, or of the first half of an all-reduce. -/
def World.rsStep (w : World) (j : Job) (x : CollDesc) (g : Group) (bad : List Nat) : World :=
  if j.prog = 0 then
    let src := blocksOf x.src (g.total * elemBits x.fmtIn / 8)
    let res := if x.mode = 0 then [] else blocksOf (x.res + 4 * g.total * w.d.resPhase x.slot) (4 * g.total)
    match w.checkBlocks j bad (src ++ res) with
    | some w' => w'
    | none =>
      if x.mode = 0 then (if g.k = 0 then w.rsLast j x g else w.rsSend j x g 0)
      else
        let w := w.packOwn j x g
        if g.k = 0 then w.packEnd j x g else w.packSend j x g 0
  else
    let l := j.prog - 1
    let q := g.rankOf (g.p ^^^ 2 ^ l)
    let n := ceilDiv (x.nodeBytes g l (g.keep (l + 1))) 512
    match w.checkBlocks j bad (if l = 0 ∨ x.mode ≠ 0 then [] else x.nodeBlocks g l (g.keep (l + 1))) with
    | some w' => w'
    | none =>
      match w.d.rxBlocks j.ctx x.tag q l n with
      | none => w.efStatus j x.kind true
      | some bl =>
        let w := if x.mode = 0 then w.efMerging j x.kind else w.efStatus j x.kind false
        if x.mode = 0 then
          let w := (w.rsMerge j x g l bl).onDev (fun d => d.rxDrop j.ctx x.tag q l)
          if l + 1 < g.k then w.rsSend j x g (l + 1) else w.rsLast j x g
        else if l + 1 < g.k then w.packSend j x g (l + 1) else w.packEnd j x g

/-- A collective line of a kind at work. -/
def World.coll (w : World) (k : Work) (kind : Nat) (f : World → Job → EfPlan → World) : World :=
  match w.ready k.course.val k.line unitColl with
  | none => w
  | some j =>
    match w.efStart j k.bad kind with
    | .other => w
    | .stop w' => w'.efShown j kind
    | .go w p => (f w j p).efShown j kind

def doReduceScatter (k : Work) (w : World) : World := w.coll k 1 (fun w j p => w.rsStep j p.coll p.g k.bad)

def doAllGather (k : Work) (w : World) : World :=
  w.coll k 2 (fun w j p =>
    let x := p.coll
    let g := p.g
    if j.prog ≠ 0 then w.agStep j x g 0 (j.prog - 1) k.bad
    else
      let n := g.shard g.p * elemBits x.fmtOut / 8
      match w.checkBlocks j k.bad (blocksOf x.src n ++ partialBlocks (x.dst + g.offset g.p * elemBits x.fmtOut / 8) n).eraseDups with
      | some w' => w'
      | none =>
        let w := w.carried (j.course / 12) (w.poisonedIn x.src n).length
        let items := (w.cutItems x.src n).map (·.2)
        (w.layItems j (x.dst + g.offset g.p * elemBits x.fmtOut / 8) n items).agStart j x g 0)

def doAllReduce (k : Work) (w : World) : World :=
  w.coll k 3 (fun w j p =>
    if j.prog ≤ p.g.k then w.rsStep j p.coll p.g k.bad else w.agStep j p.coll p.g p.g.k (j.prog - p.g.k - 1) k.bad)

/-! ## All-to-all (R363) -/

/-- The positions that send to the own one. -/
def Group.senders (g : Group) : List Nat :=
  (List.range g.size).filter (fun s => s != g.p && decide (0 < (g.entry s).recvBlocks))

/-- Place the blocks that have arrived, each counted by the line's window. -/
def World.a2aPlace (w : World) (j : Job) (x : CollDesc) (g : Group) : World :=
  g.senders.foldl (fun w s =>
    let e := g.entry s
    let mine := w.d.rx.filter (fun r => r.ctx == j.ctx && r.tag == x.tag && r.src == g.rankOf s && decide (r.index < e.recvBlocks))
    let w := mine.foldl (fun w r => w.putBlk (e.recvAddr + 512 * r.index) r.blk.data (blkSyn r.blk)) w
    let w := w.carried (j.course / 12) (mine.filter (fun r => blkSyn r.blk == poisonMark)).length
    let w := w.onDev (fun d => d.onCtx j.ctx (fun y => { y with win := tput y.win x.window (tget 0 y.win x.window + mine.length) }))
    w.onDev (fun d => { d with rx := d.rx.filter (fun r => !mine.contains r) })) w

def World.a2aFinish (w : World) (j : Job) (x : CollDesc) (g : Group) : World :=
  let w := w.a2aPlace j x g
  let want := natSum (g.senders.map (fun s => (g.entry s).recvBlocks))
  if want ≤ tget 0 (w.d.ctx j.ctx).win x.window then w.efDone j else w.efStatus j 4 true

def doAllToAll (k : Work) (w : World) : World :=
  w.coll k 4 (fun w j p =>
    let x := p.coll
    let g := p.g
    let n := g.size
    if j.prog ≠ 0 then w.a2aFinish j x g
    else
      let reads := g.a2a.flatMap (fun e => blocksOf e.sendAddr (512 * e.sendBlocks))
      match w.checkBlocks j k.bad reads with
      | some w' => w'
      | none =>
        let own := g.entry g.p
        let items := w.runItems own.sendAddr (512 * own.sendBlocks)
        let w := w.carried (j.course / 12) (items.filter (fun e => blkSyn e.2 == poisonMark)).length
        let w := w.layItems j own.recvAddr (512 * own.sendBlocks) (items.map (·.2))
        let w := (List.range (n - 1)).foldl (fun w i =>
          let q := (g.p + i + 1) % n
          let e := g.entry q
          w.sendBlocks j 3 (g.rankOf q) j.ctx x.tag 0 0 (w.runItems e.sendAddr (512 * e.sendBlocks))) w
        (w.progress j 1).a2aFinish j x g)

/-! ## The scalar lane (R364, R365) -/

/-- One reduction of two values. -/
def scalarOp (op : Nat) (flush : Bool) (a b : Nat) : Nat :=
  match op with
  | 1 => addBy flush a b
  | 2 => (a + b) % 2 ^ 32
  | 3 => fmax a b
  | 4 => fmin a b
  | _ => max a b

/-- Send values to a rank, 60 to a flit. -/
def Dev.sendValues (d : Dev) (q tag step : Nat) (vs : List W32) : Dev :=
  match d.liveTo q with
  | [] => d
  | l :: _ => (List.range (ceilDiv vs.length 60)).foldl (fun d i =>
      d.sendScalar l
        { dest := BitVec.ofNat 16 q, src := BitVec.ofNat 16 d.hedge.rank, tag := BitVec.ofNat 16 tag,
          step := BitVec.ofNat 8 step, first := BitVec.ofNat 16 (60 * i), values := (vs.drop (60 * i)).take 60 }) d

def msgOf (src tag step : Nat) (m : ScalarMsg) : Bool := m.src.toNat == src && m.tag.toNat == tag && m.step.toNat == step

/-- The `n` values of a rank at a step, once all have arrived. -/
def Dev.scalarGot (d : Dev) (src tag step n : Nat) : Option (List Nat) :=
  let vs := (List.range n).filterMap (fun i =>
    (d.srx.findSome? (fun m => if msgOf src tag step m ∧ m.first.toNat ≤ i then m.values[i - m.first.toNat]? else none)).map (·.toNat))
  if vs.length = n then some vs else none

/-- Send the own values of a step to every position that selects the own one, and move to it. -/
def World.laneSend (w : World) (j : Job) (x : CollDesc) (g : Group) (l : Nat) (vs : List W32) : World :=
  let w := w.onDev (fun d => (g.selectors l).foldl (fun d q => d.sendValues (g.rankOf q) x.tag l vs) d)
  (w.onDev (fun d => { d with efVals := tput d.efVals (whoLine j.course j.idx) vs })).progress j (l + 1)

/-- A step of the lane: the values after it, none while the partner's are missing. -/
def World.laneStep (w : World) (x : CollDesc) (g : Group) (op l : Nat) (vs : List Nat) : Option (World × List Nat) :=
  match scalarPartner g.size l g.p with
  | none => some (w, vs)
  | some r =>
    match w.d.scalarGot (g.rankOf r) x.tag l vs.length with
    | none => none
    | some ys =>
      let zs := List.zipWith (fun a y => if r < g.p then scalarOp op x.flush y a else scalarOp op x.flush a y) vs ys
      some (w.onDev (fun d => { d with srx := d.srx.filter (fun m => !msgOf (g.rankOf r) x.tag l m) }), zs)

/-- A scalar line at work: `fin` takes the reduced values. -/
def World.lane (w : World) (j : Job) (x : CollDesc) (g : Group) (op : Nat) (own : List Nat) (fin : World → List Nat → World) :
    World :=
  let words (vs : List Nat) : List W32 := vs.map (BitVec.ofNat 32)
  if j.prog = 0 then (if g.k = 0 then fin w own else w.laneSend j x g 0 (words own))
  else
    let vs := (tget [] w.d.efVals (whoLine j.course j.idx)).map (·.toNat)
    let l := j.prog - 1
    match w.laneStep x g op l vs with
    | none => w.efStatus j x.kind true
    | some (w, zs) =>
      let w := w.efMerging j x.kind
      if l + 1 < g.k then w.laneSend j x g (l + 1) (words zs) else fin w zs

def doScalarCollective (k : Work) (w : World) : World :=
  w.coll k 5 (fun w j p =>
    let x := p.coll
    let n := 4 * x.count
    match w.checkBlocks j k.bad (if j.prog = 0 then (blocksOf x.src n ++ partialBlocks x.dst n).eraseDups else []) with
    | some w' => w'
    | none =>
      let int := x.op == 2 || x.op == 5
      let own := w.redRun int (if int then 0xA else 0) x.src x.count
      let w := if j.prog = 0 then w.efPoison j own.2 else w
      w.lane j x p.g x.op own.1 (fun w vs =>
        let r := w.mergeWrite x.dst (packCodes 32 vs)
        (r.1.efPoison j r.2).efDone j))

def doNormCollective (k : Work) (w : World) : World :=
  w.coll k 6 (fun w j p =>
    let x := p.coll
    if !w.d.slotOpenFor x.slot j.ctx ∨ (j.prog = 0 ∧ x.bucket ≠ (w.d.slot x.slot).normNext) then w.efStepState j
    else w.lane j x p.g 1 [w.d.deviceSum x.slot x.flush] (fun w vs =>
      (w.onDev (fun d => d.stepNormed x.slot (vs.headD 0))).efDone j))

/-! ## The commands -/

/-- P2P_SEND (R356). -/
def execP2pSend (w : Work) (s : State) : Host.Outcome State Fault Refusal :=
  runWork s w (doP2pSend w)

/-- REDUCE_SCATTER (R359). -/
def execReduceScatter (w : Work) (s : State) : Host.Outcome State Fault Refusal :=
  runWork s w (doReduceScatter w)

/-- ALL_GATHER (R362). -/
def execAllGather (w : Work) (s : State) : Host.Outcome State Fault Refusal :=
  runWork s w (doAllGather w)

/-- ALL_REDUCE (R362). -/
def execAllReduce (w : Work) (s : State) : Host.Outcome State Fault Refusal :=
  runWork s w (doAllReduce w)

/-- ALL_TO_ALL (R363). -/
def execAllToAll (w : Work) (s : State) : Host.Outcome State Fault Refusal :=
  runWork s w (doAllToAll w)

/-- SCALAR_COLLECTIVE (R364). -/
def execScalarCollective (w : Work) (s : State) : Host.Outcome State Fault Refusal :=
  runWork s w (doScalarCollective w)

/-- NORM_COLLECTIVE (R365). -/
def execNormCollective (w : Work) (s : State) : Host.Outcome State Fault Refusal :=
  runWork s w (doNormCollective w)

end Sys2Proof.Machine
end

