-- ==== Sys2Proof/Machine/Fret.lean ====
section
/-! DEFINITION. The fret: its start, the hold latch, the settle point and the guard band (R43 to R69), the drone frames and fret
markers (R62, R70 to R74, R341, R342), how positions start (R94, R97, R397 to R403), and the counting windows of format health
(R132). -/

namespace Sys2Proof.Machine

def Dev.setFt (d : Dev) (f : Ft → Ft) : Dev := { d with ft := f d.ft }
def World.setFt (w : World) (f : Ft → Ft) : World := w.onDev (fun d => d.setFt f)

/-! ## Lines that overrun (R55, R56) -/

/-- Whether a window is filled from the far store by a line of the position that a context runs. -/
def World.fedByFar (w : World) (ctx k : Nat) : Bool :=
  w.d.courses.any (fun e => e.2.runner == some ctx && e.2.lines.any (fun l => l.ln.window == k && fillsWindow w.mem l.ln))

/-- Whether a line's data crosses a vertical bundle, the bridge or a peer link (R55): an EF or UE line, whose unit stands on the
root die and its descriptor in the course store; a line of another unit that names a place outside its own course store. -/
def World.crosses (w : World) (c ctx : Nat) (ln : Line) : Bool :=
  let x := w.d.ctx ctx
  let v := vLine w.mem w.d (ctxBlocks w.mem x c) x.partition c { at_ := 0, raw := [], ln := ln }
  ln.path != 0 || ln.unit == 5 || ln.unit == 6 || ln.unit == 7 ||
  v.regions.any (fun a => tierOf a != 0 || courseOf a != c)

/-- Whether the route of a line includes the far store (R300). -/
def World.farRoute (w : World) (ln : Line) : Bool :=
  (ln.unit == 4 && (let m := moverDesc (readBytes w.mem ln.desc 64); tierOf m.src == 3 || tierOf m.dst == 3)) ||
  (ln.unit == 7 && (ueDesc (readBytes w.mem ln.desc 128)).far)

/-- What a line that is still running at the last cycle of a fret gives as its cause: RESEND, FAR_LATE; OVERRUN if neither. For one
that climbs the ladder it is the store of the block that decides (R289). -/
def World.lineCauses (w : World) (c : Nat) (ctx : Nat) (l : LineSt) : Bool × Bool :=
  let waits := !w.windowOver ctx c l.ln
  let climbs := w.d.ladders.filter (fun x => x.course == c && x.unit == l.ln.unit && !x.after)
  let far := w.farRoute l.ln || climbs.any (fun x => tierOf x.block == 3)
  if l.phase == .held then (false, false)
  else if !climbs.isEmpty then (climbs.any (fun x => tierOf x.block != 3), far)
  else
    (w.crosses c ctx l.ln || (waits && !w.fedByFar ctx l.ln.window), far || (waits && w.fedByFar ctx l.ln.window))

/-- A line that runs past the end of a fret records its causes (R56). -/
def World.lateLine (w : World) (c ctx : Nat) (l : LineSt) : LineSt :=
  if l.phase.running then
    let k := w.lineCauses c ctx l
    { l with resend := k.1, farLate := k.2, overrun := !k.1 && !k.2 }
  else l

/-- The running lines of the device record their causes at the end of a fret (R56). -/
def World.recordLate (w : World) : World :=
  w.onDev (fun d => { d with courses := d.courses.map (fun e => match e.2.runner with
    | some i => (e.1, { e.2 with lines := e.2.lines.map (w.lateLine e.1 i) })
    | none => e) })

/-- A launched line whose DEP line and window are over makes no progress in this fret (R505). -/
def World.countIdle (w : World) : World :=
  w.onDev (fun d => { d with courses := d.courses.map (fun e => match e.2.runner with
    | some i => (e.1, { e.2 with lines := e.2.lines.map (fun l =>
        if l.phase = .launched ∧ w.d.depOver e.1 l.ln ∧ w.windowOver i e.1 l.ln then { l with idle := l.idle + 1 }
        else l) })
    | none => e) })

/-! ## The end of a fret -/

/-- The counters of the fret that ends (R52 to R54, R402), if it reached its hold latch. The checkpoint service runs in the hold frets
in which its stream runs (R404, R417). -/
def Dev.endFret (d : Dev) : Dev :=
  if !d.ft.latched then d
  else if d.fld FT_HOLD_STATUS 17 17 = 1 then
    let d := d.setFt (fun f => { f with remain := f.remain - 1, holdRun := f.holdRun + 1 })
    let d := if (d.svc 1).active && d.ckpts.any (fun k => k.running && k.job.isNone) then d.count (CTX_SVC 1) 47 0 1 else d
    let d := (d.count FT_HOLD_FRETS 63 0 1).setFld FT_HOLD_STATUS 23 20 0
    let d := d.setFld FT_HOLD_STATUS 13 0 (min d.ft.remain 0x3FFF)
    if d.ft.holdRun = 64 then d.log_ { entry 0x19 0xFF 0xFF with param := d.fld FT_HOLD_CAUSE 31 0 } else d
  else
    let d := d.setFt (fun f => { f with holdRun := 0 })
    let d := (d.count FT_POS 63 0 1).setFld FT_HOLD_STATUS 23 20 (min 15 (d.fld FT_HOLD_STATUS 23 20 + 1))
    if d.fld FT_POS 63 0 % 64 = 0 then { d with ctxs := d.ctxs.map (fun e => (e.1, { e.2 with windowRuns := 0 })) } else d

/-- A checkpoint of the service falls due before the next position of its context if that position opens a step of the slot and T is
a multiple of EVERY (R411): on any course of the tab, resident or not, and once for a position of a pass. -/
def World.ckptByService (w : World) (i : Nat) : World :=
  let s := w.d.svc 1
  let x := w.d.ctx i
  let slot := numAt s.config 34 1
  let opens := if !s.active || x.posOpen || !x.begun then [] else (maskCourses x.tabMask.toNat).flatMap (fun c =>
    let img := ctxImg w.mem x c
    let e := courseEntry img c
    if e.2 = 0 then []
    else (positionFrom img 255 (skipPositions img x.pos e.1)).1.filterMap (fun l =>
        let u := ueDesc (readBytes w.mem l.desc 128)
        if l.unit = unitUe ∧ u.kind = 1 ∧ u.slot = slot then some (readBytes w.mem u.aux 256) else none))
  let t := match opens.find? (fun b => parInit b == 1) with
    | some b => numAt b 64 8
    | none => w.d.fld (slotBase slot + 8) 63 0
  if s.active && numAt s.config 32 2 == i && !opens.isEmpty && decide (t % max 1 (numAt s.config 36 4) = 0) &&
      s.asked != some (x.pos, x.passes) && !w.d.ckpts.any (fun k => k.ctx == i && k.pos == x.pos) then
    w.onDev (fun d =>
      let d := d.onSvc 1 (fun s => { s with asked := some (x.pos, x.passes) })
      let k : Ckpt :=
        { ctx := i, slot := slot, pos := x.pos, dest := 0, far := numAt s.config (40 + 8 * s.alt) 8,
          regions := slice s.config 128 384, job := none, running := false, sent := false, total := 0, digest := [] }
      { d with ckpts := d.ckpts ++ [k] })
  else w

/-- The end of the fret for a running context: its frets are counted, and its position may complete (R396). -/
def World.endPosition (w : World) (ranNonHold : Bool) (i : Nat) : World :=
  let x := w.d.ctx i
  if !x.active then w
  else
    let w := w.onDev (fun d => d.onCtx i (fun x => { x with
      runFrets := if x.ran && ranNonHold then x.runFrets + 1 else x.runFrets, ran := false }))
    if x.kind = 2 then
      if x.ran then w.onDev (fun d => (d.ctxCourses i).foldl (fun d c =>
        if (d.course c).runner.isNone then d.setFld (CC_STATUS c) 0 0 0 else d) d)
      else w
    else
      let w := if x.posOpen && w.d.positionDone i then w.completePosition i else w
      if (w.d.ctx i).active then w.ckptByService i else w

/-! ## The leader (R70 to R74) -/

def Dev.role (d : Dev) : Nat := d.fld FT_LEADER 49 48

/-- Whether this device follows a leader. -/
def Dev.follows (d : Dev) : Bool := d.hedge.joined && decide (1 < d.hedge.size) && decide (d.role ≠ 1)

/-- The payload of the LEADER event (R439). -/
def Dev.leaderBlock (d : Dev) (num : Nat) : List Blk := [mkBlk (leBytes 2 (d.fld FT_LEADER 25 16) ++ leBytes 6 0 ++ leBytes 8 num)]

/-- A fret starts without a valid marker in the guard band before it (R73). -/
def World.leaderMissing (w : World) : World :=
  if w.d.follows && !w.d.ft.markerSeen then
    let first := w.d.fld FT_HOLD_STATUS 18 18 == 0
    let w := w.onDev (fun d => (d.setFld FT_HOLD_STATUS 18 18 1).count FT_LEADER 63 56 1)
    let w := w.setFt (fun f => { f with leaderHold := true, aligned := 0 })
    if first then
      let w := w.event 0x815 stOk 0 0xFFFF (w.d.leaderBlock w.d.fretNum)
      w.log { entry 0x22 0xFF 0xFF with event := 0x815 }
    else w
  else w

/-! ## The start of a fret (R57) -/

/-- The sample: the contribution of cycle 0, the causes recorded, the flags and lengths it takes (R57, R55, R61). -/
def Dev.takeSample (d : Dev) : Dev :=
  let word := d.contribution
  let causes := d.causes
  let bits := ofBits causes + (if d.lateLines.any (·.overrun) then 2 ^ 11 else 0)
  let d := { d with regs := rput d.regs FT_HOLD_CAUSE (rget d.regs FT_HOLD_CAUSE ||| BitVec.ofNat 64 bits) }
  let want := wordFlag word 2
  d.setFt (fun f => { f with
    sample := word, word := word, voteReq := want, voteLen := BitVec.ofNat 16 (wordLen word),
    voteTherm := BitVec.ofNat 16 (wordTherm word), freshPos := 0, freshTabMax := 0, hostHold := 0, wardenHold := 0,
    localCause := want || (f.localCause && decide (0 < f.remain)) })

/-- The FT state of a fret that begins. -/
def Ft.begin_ (f : Ft) : Ft :=
  { f with cycle := 0, latched := false, settled := false, guard := false, launchStop := false, latchedReq := false,
           markerSeen := false, frames := 0, trim := 0 }

/-- The FRET_OUT pulse (R514). -/
def Dev.fretOut (d : Dev) : Dev :=
  if d.fld CLK_FRET_OUT 0 0 = 1 then
    let n := d.fld CLK_FRET_OUT 15 8
    { d.emit (.fretPulse n) with board := { d.board with fretPulse := n } }
  else d

/-! ## Positions start -/

/-- The courses on which the current position of a context holds a line. -/
def World.lineCourses (w : World) (i : Nat) : List Nat :=
  let x := w.d.ctx i
  (maskCourses x.tabMask.toNat).filter (fun c => match w.d.setOf c i with
    | none => false
    | some n =>
      let s := tget { lineCount := 0, ptr := 0, pass := 0 } (w.d.course c).sets n
      decide (s.lineCount ≠ 0) && !(positionFrom (ctxImg w.mem x c) 255 s.ptr).1.isEmpty)

/-- Whether a context of a KIND may start its next position in this fret. -/
def Dev.mayStart (d : Dev) (i : Nat) : Bool :=
  let x := d.ctx i
  x.st == .resident && x.begun && !x.posOpen && x.stop.isNone && x.destroy.isNone && x.parkPos != some x.pos && x.parkPos != some 0 &&
  !d.ckpts.any (fun k => k.ctx == i && d.ckptDue k)

/-- The counts of a window of format health are shown, and a new window begins (R132). -/
def Dev.fhSnapshot (d : Dev) (pos : Nat) : Dev :=
  let d := (List.range 64).foldl (fun d n =>
    let x := tget { total := 0, ovr := 0, under := 0 } d.fh n
    ((d.setReg (FH_TOTAL n) (BitVec.ofNat 64 x.total)).setReg (FH_TOTAL n + 8) (BitVec.ofNat 64 x.ovr)).setReg
      (FH_TOTAL n + 0x10) (BitVec.ofNat 64 x.under)) d
  let d := d.setReg FH_SNAP_SEQ (rget d.regs FH_SNAP_SEQ + 1)
  { d.setReg FH_SNAP_POS (BitVec.ofNat 64 pos) with fh := [], fhPositions := 1 }

/-- A position of the context named in FH_CTRL starts (R132, R134). -/
def Dev.fhPosition (d : Dev) (i : Nat) : Dev :=
  if d.fld FH_CTRL 31 31 = 1 ∧ d.fld FH_CTRL 13 0 = i then
    if d.fhRestart then { d with fh := [], fhPositions := 1, fhRestart := false }
    else if max 1 (d.fld FH_WINDOW 23 0) ≤ d.fhPositions then d.fhSnapshot (d.ctx i).pos
    else { d with fhPositions := d.fhPositions + 1 }
  else d

/-- The lines of the next position of a context in its set n of a course, as its stream holds them (R138). -/
def World.nextLines (w : World) (i c n : Nat) : List Line :=
  let s := tget { lineCount := 0, ptr := 0, pass := 0 } (w.d.course c).sets n
  if s.lineCount = 0 then [] else (positionFrom (ctxImg w.mem (w.d.ctx i) c) 255 s.ptr).1

/-- A context starts its position on a list of courses, with the lines that the line buffer holds for it; a position that the schedule
did not foresee when the fret began is read as it starts. -/
def World.startPosition (w : World) (i : Nat) (cs : List Nat) : World :=
  let w := w.onDev (fun d => d.fhPosition i)
  let w := cs.foldl (fun w c =>
    match w.d.setOf c i with
    | none => w
    | some n =>
      let ls := match (w.d.course c).fetched with
        | some (k, ls) => if k = i then ls else w.nextLines i c n
        | none => w.nextLines i c n
      w.onDev (fun d =>
        let d := (d.setFld (CC_STATUS c) 5 4 n).setFld (CC_STATUS c) 0 0 1
        d.onCourse c (fun y => { y with
          lines := ls.map LineSt.init, fetched := none, runner := some i, predsAt := d.fld (CC_SET c n) 19 16 }))) w
  w.onDev (fun d => d.onCtx i (fun x => { x with posOpen := true, ran := true }))

def disjoint (xs ys : List Nat) : Bool := xs.all (fun x => !ys.contains x)

/-- What a fret has been given: courses in use, contexts that run lines, whether one of KIND 1 does, and whether a standalone one may
still be the first chosen. -/
structure Sched where
  used : List Nat
  running : List Nat
  hedge : Bool
  /-- no standalone context has been chosen yet -/
  first : Bool

/-- Contexts of KIND 1 run on the courses on which their positions hold lines (R401), if no course of these still runs lines of another
context: a course runs the lines of one (R158). -/
def schedHedge (s : World × Sched) (i : Nat) : World × Sched :=
  let (w, q) := s
  if w.d.mayStart i && (w.d.ctx i).kind == 1 then
    let cs := w.lineCourses i
    if disjoint cs q.used then (w.startPosition i cs, { q with used := q.used ++ cs, running := q.running ++ [i], hedge := true })
    else (w, q)
  else (w, q)

/-- Whether a service has work pending. -/
def Dev.svcWork (d : Dev) (k : Nat) : Bool := !(d.svc k).due.isEmpty || (decide (8 ≤ k) && !(d.svc k).queue.isEmpty)

/-- A service owed frets runs on its courses if they are free: the active set is its own (R159, R392, R401, R402). -/
def schedService (s : World × Sched) (k : Nat) : World × Sched :=
  let (w, q) := s
  let x := w.d.ctx k
  let cs := w.d.ctxCourses k
  if x.kind == 2 && x.st == .resident && x.begun && x.stop.isNone && x.destroy.isNone && (w.d.svc k).active && w.d.svcWork k &&
      decide (x.windowRuns < (w.d.svc k).share) && disjoint cs q.used then
    let w := w.count (CTX_SVC k) 47 0 1
    (w.onDev (fun d =>
      let d := cs.foldl (fun d c => match d.setOf c k with
        | some n => (d.setFld (CC_STATUS c) 5 4 n).setFld (CC_STATUS c) 0 0 1
        | none => d) d
      d.onCtx k (fun x => { x with ran := true, windowRuns := x.windowRuns + 1 })),
      { q with used := q.used ++ cs })
  else (w, q)

/-- A standalone context runs on all the courses of its mask if they are free and it fits beside those that run (R381, R401,
R403). -/
def schedAlone (s : World × Sched) (i : Nat) : World × Sched :=
  let (w, q) := s
  let x := w.d.ctx i
  let cs := w.d.ctxCourses i
  let fits := (!q.hedge || (bitOf x.filler.toNat 0 && w.fillerTab i)) && (q.running.isEmpty || w.admits (q.running ++ [i]))
  if w.d.mayStart i && x.kind == 0 && disjoint cs q.used && fits then
    let w := if q.hedge then
        (List.range 8).foldl (fun w t => w.count (CTXR t + 0x10) 63 0 (cs.filter (fun c => c / 12 == t)).length) w
      else w
    (w.onDev (fun d => if q.first then { d with turn := some (d.placeRank i) } else d) |>.startPosition i cs,
      { q with used := q.used ++ cs, running := q.running ++ [i], first := false })
  else (w, q)

/-- The standalone contexts in turn (R401): round robin over the order of R399, from the one after the context that was chosen first in
the last fret that ran one (log 17). -/
def Dev.turnOrder (d : Dev) : List Nat :=
  let ids := sortBy d.placeRank ((d.ctxs.filter (fun e => e.2.kind == 0 && e.2.active)).map (·.1))
  match d.turn with
  | none => ids
  | some r => ids.filter (fun i => decide (r < d.placeRank i)) ++ ids.filter (fun i => decide (d.placeRank i ≤ r))

/-- The courses that lines of positions still open occupy. -/
def Dev.openCourses (d : Dev) : List Nat := (d.courses.filter (fun e => e.2.runner.isSome)).map (·.1)

/-- The runner of every course of a fret that is not a hold fret (R401). -/
def World.schedule (w : World) : World :=
  let s := (w.d.ctxs.map (·.1)).foldl schedHedge (w, { used := w.d.openCourses, running := [], hedge := false, first := true })
  let s := (List.range 16).foldl schedService s
  (s.1.d.turnOrder.foldl schedAlone s).1

/-- The line sequencers fetch the position that each course is to run in this fret (R138, R159): the schedule as it stands at the start
of the fret decides which. -/
def World.fetchLines (w : World) : World :=
  let w := w.onDev (fun d => { d with courses := d.courses.map (fun e => (e.1, { e.2 with fetched := none })) })
  w.schedule.d.courses.foldl (fun w e => match e.2.runner, (w.d.course e.1).runner with
    | some i, none => w.onDev (fun d => d.onCourse e.1 (fun y => { y with fetched := some (i, e.2.lines.map (·.ln)) }))
    | _, _ => w) w

/-- A service is set up by a SVC_START block (R404, R406): its context is to be resident on the courses of the mask. -/
def Dev.configure (d : Dev) (i : Nat) (b : List Byte) : Dev :=
  let share := numAt b 1 1
  let mask := BitVec.ofNat 96 (numAt b 4 12)
  let moved := mask != (d.ctx i).mask
  let d := if moved then d.dropResident i else d
  let d := d.onSvc i (fun s => { s with active := true, share := share, config := b, alt := 0, due := [], bases := [], next := none, asked := none })
  let d := (d.setFld (CTX_SVC i) 63 63 1).setFld (CTX_SVC i) 55 48 share
  d.onCtx i (fun x => { x with
    st := if x.active && !moved then x.st else .runnable, kind := 2, tabValid := true, begun := true, mask := mask, tabMask := mask })

/-- A SVC_START on a service that runs replaces its configuration at the fret boundary (R406). -/
def World.svcReplaced (w : World) : World :=
  (w.d.svcs.map (·.1)).foldl (fun w i => match (w.d.svc i).next with
    | some b => if (w.d.svc i).active then w.onDev (fun d => d.configure i b) else w
    | none => w) w

/-! ## A fret begins (R57) -/

def doFretStart (w : World) : World :=
  let nonHold := w.d.ft.latched && w.d.fld FT_HOLD_STATUS 17 17 == 0
  let w := w.countIdle.recordLate
  let ids := w.d.ctxs.map (·.1)
  let w := ids.foldl (fun w i => w.endPosition nonHold i) w
  let w := w.onDev Dev.endFret
  let w := w.leaderMissing
  let w := w.onDev (fun d =>
    let d := (d.count FT_FRET_NUM 63 0 1).setFld FT_HOLD_STATUS 17 17 0
    let d := d.setFld FT_ALIGN 31 16 (d.ft.trim % 65536).toNat
    ((d.takeSample.setFt Ft.begin_).setFt (fun f => if d.follows then f else { f with aligned := f.aligned + 1 })).fretOut.sendVote)
  let w := w.fwParks
  let w := (ids.foldl (fun w i => w.boundary false i) w).svcReplaced
  let w := w.onDev (fun d =>
    let d := (List.range 8).foldl (fun d t => if (d.tower t).step = .none then d else d.onTower t (fun x => { x with waited := x.waited + 1 })) d
    if d.fw.state ≠ 4 then { d with fw := { d.fw with hold := false } } else d)
  w.fetchLines

/-! ## The hold latch (R51 to R53, R61) -/

def doHoldLatch (w : World) : World :=
  if w.d.ft.latched then w
  else
    let f := w.d.ft
    let lvl := min 2 f.voteTherm.toNat
    let w := if lvl = w.d.fld FT_HOLD_STATUS 15 14 then w
      else w.onDev (fun d => (d.setFld FT_HOLD_STATUS 15 14 lvl).setFld FT_HOLD_STATUS 23 20 0)
    let cnt := w.d.fld FT_HOLD_STATUS 23 20
    let throttle := (lvl == 1 && cnt == 7) || (lvl == 2 && cnt == 1)
    let hold := f.voteReq || decide (0 < f.remain) || throttle
    let remain := if f.voteReq then max f.remain (max 1 f.voteLen.toNat) else f.remain
    let own := decide (0 < wordTherm f.sample) && throttle
    let w := w.setFt (fun f => { f with latched := true, latchedReq := f.voteReq, remain := remain, cycle := 240 })
    let w := w.onDev (fun d =>
      let d := (d.setFld FT_HOLD_STATUS 17 17 (if hold then 1 else 0)).setFld FT_HOLD_STATUS 13 0 (min remain 0x3FFF)
      if hold && !f.localCause && !own then d.setBit FT_HOLD_CAUSE 9 else d)
    if hold then w.digestRepairs
    else (w.setFt (fun f => { f with posFlags := f.freshPos, tabMax := f.freshTabMax })).schedule

/-- A started or resumed context begins to run (R392). A fret already scheduled takes it in if it is not a hold fret and its
guard band has not begun. -/
def doCtxStartFret (ctx : Nat) (w : World) : World :=
  let x := w.d.ctx ctx
  let hold := w.d.fld FT_HOLD_STATUS 17 17 == 1
  if x.active ∧ !x.begun ∧ x.startFret ≤ w.d.fretNum ∧ !(w.d.ft.latched && hold) then
    let w := w.onDev (fun d => d.onCtx ctx (fun x => { x with begun := true }))
    let w := w.ckptByService ctx
    if w.d.ft.latched && !w.d.ft.guard then
      let q : Sched :=
        { used := w.d.openCourses
          running := (w.d.ctxs.filter (fun e => e.2.posOpen)).map (·.1)
          hedge := w.d.ctxs.any (fun e => e.2.posOpen && e.2.kind == 1)
          first := !w.d.ctxs.any (fun e => e.2.posOpen && e.2.kind == 0) }
      (schedAlone (schedHedge (w, q) ctx) ctx).1
    else w
  else w

/-! ## The settle point (R66 to R68) -/

/-- Every running context stops at the next fret boundary, and the event names the fret (R68). -/
def World.abortAll (w : World) : World :=
  let w := w.onDev (fun d => d.ctxs.foldl (fun (d : Dev) (e : Nat × Ctx) => d.stopCtx e.1 .parked stOk 0 0) d)
  (w.setFt (fun f => { f with split := false })).event 0x805 stOk (if w.d.ft.split then 1 else 0) 0xFFFF []

def doSettlePoint (w : World) : World :=
  if !w.d.ft.latched || w.d.ft.settled then w
  else
    let word := w.d.ft.word
    let split := wordFlag word 2 != w.d.ft.latchedReq
    let w := w.onDev (fun d =>
      (d.setReg FT_LATCH_LO (BitVec.ofNat 64 (word.toNat % 2 ^ 64))).setReg FT_LATCH_HI (BitVec.ofNat 64 (word.toNat / 2 ^ 64)))
    let w := w.setFt (fun f => { f with settled := true, cycle := w.d.settleLen })
    let w := if wordFlag word flagAbort then w.abortAll else w
    let w := if split then
        let w := (w.setBit FT_HOLD_CAUSE 10).raise flagAbort
        let w := w.log { entry 0x1E 0xFF 0xFF with event := 0x805, detail := 1, flags := 1 }
        let w := w.setFt (fun f => { f with launchStop := true, split := true })
        w.onDev (fun d => { d with courses := d.courses.map (fun e => (e.1, { e.2 with lines := e.2.lines.map (fun l =>
          if l.phase = .waiting ∨ l.phase = .held then { l with phase := .abandoned } else l) })) })
      else w
    (w.settleSteps word).fwDecide (wordFlag word 7)

/-! ## The guard band (R43, R49) -/

/-- The greatest trim of one fret, cycles (R49, R75): none without marker alignment, for the leader and for a device alone. -/
def Dev.trimBound (d : Dev) : Nat :=
  if !d.follows || !(d.board.clkMode == 1 || d.board.clkMode == 2) then 0
  else if d.board.clkMode = 1 then 2
  else max 4 (d.period / 1024)

/-- The trim of this fret: within the bound, and otherwise a free value (log 3). -/
def World.chooseTrim (w : World) : World :=
  let b := w.d.trimBound
  if b = 0 then w.setFt (fun f => { f with trim := 0 })
  else
    let (w, v) := w.draw
    w.setFt (fun f => { f with trim := (v % (2 * b + 1) : Nat) - (b : Int) })

def doGuardBandStart (damaged : List Nat) (w : World) : World :=
  if w.d.ft.guard then w
  else
    let w := w.setFt (fun f => { f with guard := true, cycle := w.d.deadline })
    let w := (w.storeChecks damaged).poisonWants
    let w := w.onDev Dev.startTests
    let w := w.onDev Dev.ladderBusy
    w.regImages.chooseTrim

/-! ## Drone frames (R62, R341) -/

def Dev.droneBytes (d : Dev) (idx : Nat) (word : W128) : List Byte :=
  let b := [0x01#8, BitVec.ofNat 8 idx] ++ leBytes 2 (d.fretNum % 65536) ++ leBytes 16 word.toNat ++ leBytes 11 0
  b ++ leBytes 1 (crc8 b)

/-- The peer ports in service. -/
def Dev.portsUp (d : Dev) : List Nat := (List.range 24).filter d.linkUp

def doDroneFrameSend (w : World) : World :=
  if w.d.ft.settled then w
  else w.onDev (fun d =>
    let b := d.droneBytes d.ft.frames d.ft.word
    (d.portsUp.foldl (fun d l => d.emit (.drone l b)) d).setFt (fun f => { f with frames := f.frames + 1 }))

/-- Whether 32 bytes are a control frame of a TYPE with a good CRC-8 (R341). -/
def frameOk (typ : Nat) (b : List Byte) : Bool := b.length == 32 && numAt b 0 1 == typ && numAt b 31 1 == crc8 (b.take 31)

def doDroneFrameRx (port : Fin 24) (frame : List Byte) (w : World) : World :=
  let l := port.val
  if !w.d.linkUp l then w
  else if !frameOk 1 frame || numAt frame 2 2 != w.d.fretNum % 65536 then w.count (portDrop l) 31 0 1
  else if w.d.ft.settled then w
  else w.onDev (fun d =>
    let word := foldWord d.ft.word (BitVec.ofNat 128 (numAt frame 4 16))
    let d := d.setFt (fun f => { f with word := word })
    let b := d.droneBytes (numAt frame 1 1) (foldWord d.ft.sample (BitVec.ofNat 128 (numAt frame 4 16)))
    (d.portsUp.filter (· != l)).foldl (fun d l => d.emit (.drone l b)) d)

/-! ## Fret markers (R70 to R74, R342) -/

/-- What a device's markers announce, the next FT_FRET_NUM, P, G and S (R70): a follower passes on what its leader announces, one
fret further than it last heard, and nothing while it has lost its leader; any other device its own (DEDUCED, log 65). -/
def Dev.announced (d : Dev) : Option (Nat × Nat × Nat × Nat) :=
  if !d.follows then some ((d.fretNum + 1) % 2 ^ 64, d.period, d.guardLen, d.settleLen)
  else if d.ft.markerSeen then d.ft.marker
  else if d.fld FT_HOLD_STATUS 18 18 = 1 then none
  else d.ft.marker.map (fun m => ((m.1 + 1) % 2 ^ 64, m.2))

def Dev.markerBytes (d : Dev) (m : Nat × Nat × Nat × Nat) (copy : Nat) : List Byte :=
  let b := [0x02#8, BitVec.ofNat 8 copy] ++ leBytes 2 0 ++ leBytes 8 m.1 ++ leBytes 4 m.2.1 ++
    leBytes 4 m.2.2.1 ++ leBytes 4 m.2.2.2 ++ leBytes 2 (d.fld FT_LEADER 25 16) ++ leBytes 5 0
  b ++ leBytes 1 (crc8 b)

def doFretMarkerSend (copy : Nat) (w : World) : World :=
  match w.d.announced with
  | some m =>
    if w.d.ft.guard ∧ copy < 4 then
      w.onDev (fun d =>
        let b := d.markerBytes m copy
        d.portsUp.foldl (fun d l => d.emit (.marker l b)) d)
    else w
  | none => w

/-- The port from which a follower takes the markers of a rank (R342). -/
def Dev.markerPort (d : Dev) (leader : Nat) : Option Nat := (d.trunkTo leader).find? d.linkUp

/-- The fret start less the leader's, in picoseconds, from a marker's copy number, P and G and its arrival (R70). -/
def markerOffset (copy p g : Nat) (arrival : Int) : Int := ((((p - g) + 64 * copy) * 4000 / 7 : Nat) : Int) - arrival

/-- A follower takes a marker. A leader lost while the hedge has no successor stays lost until HEDGE_LEAVE and HEDGE_JOIN (R74). -/
def World.takeMarker (w : World) (b : List Byte) (arrival : Int) : World :=
  let num := numAt b 4 8
  let leader := numAt b 24 2
  let takeover := decide (leader ≠ w.d.fld FT_LEADER 25 16)
  let off := markerOffset (numAt b 1 1) (numAt b 12 4) (numAt b 16 4) arrival
  let near := decide (-8000 ≤ off) && decide (off ≤ 8000)
  let agree := numAt b 12 4 == w.d.period && numAt b 16 4 == w.d.guardLen && numAt b 20 4 == w.d.settleLen
  let lost := w.d.fld FT_HOLD_STATUS 18 18 == 1
  let stays := lost && !takeover && !w.d.ft.adopt && w.d.fld FT_LEADER 42 32 == 0x7FF
  let w := w.onDev (fun d =>
    let d := if stays then d else (d.setFld FT_HOLD_STATUS 18 18 0).setFld FT_LEADER 63 56 0
    let d := d.setFld FT_HOLD_STATUS 19 19 (if agree then 0 else 1)
    let d := d.setFld FT_ALIGN 15 0 (off % 65536).toNat
    let d := if takeover then ((d.setFld FT_LEADER 25 16 leader).setFld FT_LEADER 42 32 0x7FF).setFld FT_LEADER 49 48 0 else d
    d.setFt (fun f => { f with
      markerSeen := f.guard, marker := some (num, numAt b 12 4, numAt b 16 4, numAt b 20 4), aligned := if near then f.aligned + 1 else 0, leaderHold := f.leaderHold || !near || lost }))
  let w := if takeover then
      let w := if num ≠ w.d.fretNum + 1 then w.log { entry 0x22 0xFF 0xFF with param := num % 2 ^ 32, event := 0x815, detail := 1 } else w
      w.event 0x815 stOk 1 0xFFFF (w.d.leaderBlock num)
    else w
  if takeover ∨ w.d.ft.adopt then
    (w.setReg FT_FRET_NUM (BitVec.ofNat 64 num - 1)).setFt (fun f => { f with adopt := false })
  else w

/-- A fret marker arrives; it counts only in the guard band (R73), but for a device that has still to adopt the leader's count
(R72). It goes on to further devices as this device's own markers (R70, R342; DEDUCED, log 65). A leader that hears its successor lead has been taken over (R73). -/
def doFretMarkerRx (port : Fin 24) (m : Marker) (w : World) : World :=
  let l := port.val
  let b := m.bytes
  let leader := numAt b 24 2
  let next := leader == w.d.fld FT_LEADER 42 32 && w.d.fld FT_LEADER 42 32 != 0x7FF
  let heeds := if w.d.follows then leader == w.d.fld FT_LEADER 25 16 || next else w.d.role == 1 && next
  if !w.d.linkUp l then w
  else if !frameOk 2 b then w.count (portDrop l) 31 0 1
  else if w.d.hedge.joined && heeds && !w.d.ft.markerSeen && (w.d.ft.guard || w.d.ft.adopt) && w.d.markerPort leader == some l then w.takeMarker b m.offset
  else w

/-- The successor becomes the leader (R73). -/
def doLeaderTakeover (w : World) : World :=
  if w.d.hedge.joined && w.d.role == 2 && decide (64 ≤ w.d.fld FT_LEADER 63 56) then
    let w := w.onDev (fun d =>
      let d := (((d.setFld FT_LEADER 49 48 1).setFld FT_LEADER 25 16 d.hedge.rank).setFld FT_LEADER 42 32 0x7FF).setFld FT_LEADER 63 56 0
      (d.setFld FT_HOLD_STATUS 18 18 0).setFt (fun f => { f with leaderHold := false, aligned := 0 }))
    w.event 0x815 stOk 1 0xFFFF (w.d.leaderBlock w.d.fretNum)
  else w

/-- Four consecutive frets within bound end the hold (R71). -/
def doLeaderRealigned (w : World) : World :=
  if w.d.ft.leaderHold && decide (4 ≤ w.d.ft.aligned) && w.d.fld FT_HOLD_STATUS 18 18 == 0 then
    w.setFt (fun f => { f with leaderHold := false })
  else w

/-- New P, G and S take effect at the start of a fret at or after the apply number (R47). -/
def doFretConfigApply (w : World) : World :=
  match w.d.ft.pendingCfg with
  | some (n, p, g, s) =>
    if n ≤ w.d.fretNum ∧ !w.d.ft.latched then
      (w.onDev (fun d => ((d.setFld FT_FRET_PERIOD 20 0 p).setFld FT_GUARD 18 0 g).setFld FT_DRONE_SETTLE 19 0 s)).setFt
        (fun f => { f with pendingCfg := none })
    else w
  | none => w

/-! ## The commands -/

/-- FRET_START (R57). -/
def execFretStart (s : State) : Host.Outcome State Fault Refusal :=
  runLive s doFretStart

/-- HOLD_LATCH (R51). -/
def execHoldLatch (s : State) : Host.Outcome State Fault Refusal :=
  runLive s doHoldLatch

/-- SETTLE_POINT (R66). -/
def execSettlePoint (s : State) : Host.Outcome State Fault Refusal :=
  runLive s doSettlePoint

/-- GUARD_BAND_START (R43). -/
def execGuardBandStart (damaged : List Nat) (s : State) : Host.Outcome State Fault Refusal :=
  runLive s (doGuardBandStart damaged)

/-- DRONE_FRAME_SEND (R62). -/
def execDroneFrameSend (s : State) : Host.Outcome State Fault Refusal :=
  runLive s doDroneFrameSend

/-- FRET_MARKER_SEND (R342). -/
def execFretMarkerSend (copy : Nat) (s : State) : Host.Outcome State Fault Refusal :=
  runLive s (doFretMarkerSend copy)

/-- DRONE_FRAME_RX (R62). -/
def execDroneFrameRx (port : Fin 24) (frame : List Byte) (s : State) : Host.Outcome State Fault Refusal :=
  runLive s (doDroneFrameRx port frame)

/-- FRET_MARKER_RX (R70). -/
def execFretMarkerRx (port : Fin 24) (m : Marker) (s : State) : Host.Outcome State Fault Refusal :=
  runLive s (doFretMarkerRx port m)

/-- LEADER_TAKEOVER (R73). -/
def execLeaderTakeover (s : State) : Host.Outcome State Fault Refusal :=
  runLive s doLeaderTakeover

/-- LEADER_REALIGNED (R71). -/
def execLeaderRealigned (s : State) : Host.Outcome State Fault Refusal :=
  runLive s doLeaderRealigned

/-- FRET_CONFIG_APPLY (R47). -/
def execFretConfigApply (s : State) : Host.Outcome State Fault Refusal :=
  runLive s doFretConfigApply

/-- CTX_START_FRET (R392). -/
def execCtxStartFret (ctx : Nat) (s : State) : Host.Outcome State Fault Refusal :=
  runLive s (doCtxStartFret ctx)

end Sys2Proof.Machine
end

