-- ==== Sys2Proof/Machine/Lines.lean ====
section
/-! DEFINITION. The line sequencer (R94 to R97, R138 to R141): when a line launches, waits for its unit, decides its predicate, and
completes. -/

namespace Sys2Proof.Machine

/-- Whether two lines occupy one unit (R91, R140, R141): one of a course, or a shared one. -/
def World.sameUnit (w : World) (ctx c : Nat) (x : Line) (ctx' c' : Nat) (y : Line) : Bool :=
  if x.unit = 5 ∨ x.unit = 6 ∨ x.unit = 7 then (w.sharedUnits ctx c x).any (w.sharedUnits ctx' c' y).contains
  else c == c' && unitKey x.unit == unitKey y.unit

/-- Whether a launched line occupies the unit of a line of a context on course c (R95). -/
def World.unitBusy (w : World) (ctx c : Nat) (x : Line) : Bool :=
  w.d.courses.any (fun e => e.2.runner.any (fun i =>
    e.2.lines.any (fun l => (l.phase == .launched || l.phase == .worked) && w.sameUnit ctx c x i e.1 l.ln)))

/-- Whether a SET_PRED line that comes before line i in the stream has not completed (R83). -/
def Dev.predsOpen (d : Dev) (c i : Nat) : Bool :=
  ((d.course c).lines.take i).any (fun l => isSetPred l.ln && !l.phase.ovr)

/-- Whether an earlier line of the same unit is held back (R141). -/
def World.heldBefore (w : World) (ctx c i : Nat) (x : Line) : Bool :=
  ((w.d.course c).lines.take i).any (fun l => l.phase == .held && w.sameUnit ctx c x ctx c l.ln)

/-- The predicates as line i of a course decides by them (R83): what the last SET_PRED line before it in the stream wrote, or what
stood when the position started. No later SET_PRED line takes part. -/
def Dev.preds (d : Dev) (c i : Nat) : Nat :=
  let x := d.course c
  ofBits ((List.range 4).map (fun p =>
    match ((x.lines.take i).filterMap (fun l => if isSetPred l.ln ∧ l.ln.pred % 4 = p then l.wrote else none)).getLast? with
    | some v => v
    | none => bitOf x.predsAt p))

/-- A line takes its phase, at the start of its work. -/
def World.setPhase (w : World) (c i : Nat) (p : LinePhase) : World :=
  w.onDev (fun d => d.onLine c i (fun l => { l with phase := p, prog := 0, idle := 0, read := [] }))

/-- A line decides its predicate and launches, or is skipped, or is held back until its unit is free and its predicate settled.
CC_LATE counts a line held back for its unit (R96): one that a SET_PRED line alone held back is not late under that rule. -/
def World.launch (w : World) (c i : Nat) (l : LineSt) : World :=
  let ctx := ((w.d.course c).runner).getD 0
  if bitOf l.ln.pred 2 && w.d.predsOpen c i then w.setPhase c i .held
  else if !launches l.ln (w.d.preds c i) then w.setPhase c i .skipped
  else if w.unitBusy ctx c l.ln || w.heldBefore ctx c i l.ln then
    (w.setPhase c i .held).onDev (fun d => d.onLine c i (fun l => { l with late := true }))
  else
    let w := (w.setPhase c i .launched).count (CC_LAUNCHED c) 63 0 1
    if l.late then w.count (CC_LATE c) 63 0 1 else w

/-- The drone word latched at the last settle point. -/
def Dev.latchedWord (d : Dev) : W128 := BitVec.ofNat 128 (d.fld FT_LATCH_LO 63 0 + (d.fld FT_LATCH_HI 63 0 <<< 64))

/-- A line reaches its OFFSET in a fret that is not a hold fret (R94). It sees the word latched by then, however late it launches
(R66; DEDUCED from R27 and R99, log 97). -/
def doLineLaunch (c : Fin 96) (line : Nat) (w : World) : World :=
  match lineAt (w.d.course c.val) line with
  | none => w
  | some l =>
    let f := w.d.ft
    if l.phase = .waiting ∧ f.latched ∧ w.d.fld FT_HOLD_STATUS 17 17 = 0 ∧ !f.guard ∧ !f.launchStop ∧ 256 ≤ l.ln.offset ∧
        f.cycle ≤ l.ln.offset ∧ l.ln.offset < w.d.deadline ∧ (f.settled ∨ l.ln.offset < w.d.settleLen) then
      let w := w.setFt (fun f => { f with cycle := l.ln.offset })
      (w.onDev (fun d => d.onLine c.val line (fun l => { l with word := d.latchedWord }))).launch c.val line l
    else w

/-- A line held back launches in the cycle its unit becomes free (R96), in any part of any fret; after a hold split no line
launches any more in the fret (R67). -/
def doLineLateLaunch (c : Fin 96) (line : Nat) (w : World) : World :=
  match lineAt (w.d.course c.val) line with
  | none => w
  | some l => if l.phase = .held ∧ !w.d.ft.launchStop then w.launch c.val line l else w

/-- Whether nothing that a worked line has set going is still on its way. -/
def World.lineQuiet (w : World) (c i : Nat) (ln : Line) : Bool :=
  !w.d.farBusy (whoLine c i) &&
  !w.d.hl.far.any (fun r => r.who == whoUe c i && !r.sent) &&
  (ln.unit != 5 || (w.d.trunkTo (sendDesc (readBytes w.mem ln.desc 64)).dest).all (fun l => (w.d.link l).txq.isEmpty))

/-- The unit of a line shows no work any more. -/
def Dev.unitIdle (d : Dev) (c unit : Nat) : Dev :=
  let t := c / 12
  match unit with
  | 1 => d.setReg (ccBase c + 0x4000) 0
  | 2 => d.setReg (ccBase c + 0x8000) 0
  | 3 => d.setFld (AB c) 7 4 0
  | 5 => d.setReg (EFR t) 0
  | 6 => d.setReg (EFR t) 0
  | 7 => d.setReg (UER t) 0
  | 10 => d.setFld (AB c) 7 4 0
  | 11 => d.setFld (AB c) 7 4 0
  | _ => d

/-- The counts of completed lines: every line counts that completes, one whose work was refused included. The AB counts by the
operation that AB_STATUS shows in work. -/
def World.lineCounted (w : World) (c unit : Nat) : World :=
  let t := c / 12
  let shows (b : Nat) : Bool := w.d.fld (AB c) b b == 1
  match unit with
  | 1 => w.count (ccBase c + 0x4008) 63 0 1
  | 2 => w.count (ccBase c + 0x8008) 63 0 1
  | 3 => if shows 5 then w.count (AB c + 0x60) 63 0 1 else if shows 4 then w.count (AB c + 0x68) 63 0 1 else w
  | 5 => w.count (EFR t + 0x20) 63 0 1
  | 6 => w.count (EFR t + 0x20) 63 0 1
  | 7 => w.count (UER t + 0x10) 63 0 1
  | 10 => if shows 7 then w.count (AB c + 0x70) 63 0 1 else w
  | 11 => if shows 6 then w.count (AB c + 0x78) 63 0 1 else w
  | _ => w

/-- A line whose unit has done its work completes: the unit is free (R97). -/
def doLineComplete (c : Fin 96) (line : Nat) (w : World) : World :=
  match lineAt (w.d.course c.val) line with
  | none => w
  | some l =>
    if l.phase = .worked ∧ w.lineQuiet c.val line l.ln then
      (w.lineCounted c.val l.ln.unit).onDev (fun d =>
        (d.onLine c.val line (fun l => { l with phase := .done })).unitIdle c.val l.ln.unit)
    else w

/-! ## The commands -/

/-- LINE_LAUNCH (R94). -/
def execLineLaunch (c : Fin 96) (line : Nat) (s : State) : Host.Outcome State Fault Refusal :=
  runLive s (doLineLaunch c line)

/-- LINE_LATE_LAUNCH (R96). -/
def execLineLateLaunch (c : Fin 96) (line : Nat) (s : State) : Host.Outcome State Fault Refusal :=
  runLive s (doLineLateLaunch c line)

/-- LINE_COMPLETE (R97). -/
def execLineComplete (c : Fin 96) (line : Nat) (s : State) : Host.Outcome State Fault Refusal :=
  runLive s (doLineComplete c line)

end Sys2Proof.Machine
end

