-- ==== Sys2Proof/Machine/Admit.lean ====
section
/-! DEFINITION. How a host command is admitted (R426 to R433), and the memory commands that wait for blocks (R286). -/

namespace Sys2Proof.Machine

/-- What the table of R434 says of a command: opcode, whether CTX names a context, the parameters it does not use, the payload
lengths it takes in blocks, whether the custody warden admits it (R430), whether it is taken before the warden is ready (R429), and
the first parameter that is out of its range, which counts there when one that must be zero is not (R436). -/
structure OpSpec where
  op : Nat
  ctx : Bool
  unused : List Nat
  lenOk : Nat → Bool
  custody : Bool
  early : Bool
  bad : Dev → HostCmd → Option Nat := fun _ _ => none

def noPayload (n : Nat) : Bool := n == 0
def oneBlock (n : Nat) : Bool := n == 1

def param (h : HostCmd) (i : Nat) : W32 := match i with | 0 => h.p0 | 1 => h.p1 | 2 => h.p2 | _ => h.p3

/-- The byte offset of parameter i in the header (R424, R436). -/
def paramAt (i : Nat) : W16 := BitVec.ofNat 16 (12 + 4 * i)

/-- A refusal of a command that is not counted as outstanding. -/
def World.turnAway (w : World) (h : HostCmd) (op : Nat) (st det : W16) : World :=
  w.onDev (fun d => d.replyPkt h op st det 0 [])

/-- A payload block that fails its check at ingress (R427); one in poison form does not pass. -/
def firstBadBlock (p : List Blk) : Option Nat := (List.range p.length).find? (fun i => match p[i]? with | some b => blkSyn b != 0 | none => false)

/-- The service contexts that no command may name (R404). -/
def reservedCtx (i : Nat) : Bool := i == 0 || (decide (3 ≤ i) && decide (i ≤ 7))

/-- The first parameter that offends: one out of its range, or one that must be zero, whichever lies lower in the header (R434, R436). -/
def Dev.paramBad (d : Dev) (h : HostCmd) (s : OpSpec) : Option Nat :=
  match s.bad d h, s.unused.find? (fun i => param h i != 0) with
  | some i, some j => some (min i j)
  | some i, none => some i
  | none, r => r

/-- Source, destination and blocks of MEM_COPY (R434). -/
def copyArgs (h : HostCmd) : Nat × Nat × Nat :=
  let b := payloadBytes h.payload
  (numAt b 0 8, numAt b 8 8, numAt b 16 4)

/-- The runs of bytes that a memory command names (R434). -/
def cmdRuns (op : Nat) (h : HostCmd) : List (Nat × Nat) :=
  let a := farCanon (pair h.p0 h.p1)
  match op with
  | 0x201 => [(a, 512 * h.payload.length)]
  | 0x202 => [(a, 512 * h.p2.toNat)]
  | 0x203 => [(a, 512 * h.p2.toNat)]
  | 0x204 =>
    let (src, dst, n) := copyArgs h
    [(farCanon src, 512 * n), (farCanon dst, 512 * n)]
  | _ => []

/-- Whether two commands name one resource: an address range, or the firmware slots (R431). -/
def sameResource (op : Nat) (h : HostCmd) (op' : Nat) (h' : HostCmd) : Bool :=
  (cmdRuns op h).any (fun r => (cmdRuns op' h').any (fun q => overlaps r.1 r.2 q.1 q.2)) || (op / 256 == 4 && op' / 256 == 4)

/-- Whether two commands name one context (R431). -/
def sameCtx (h h' : HostCmd) : Bool := h.ctx != 0xFFFF && h.ctx == h'.ctx

/-- Whether a command must wait for an earlier one to run to completion: those of `held` before it, and the jobs. An FW_COMMIT_AT, a
CTX_PARK and a CHECKPOINT that wait for their fret or position hold nothing up (R393, R411, R460, R467; log 117). -/
def Dev.mustWait (d : Dev) (held : List HostJob) (op : Nat) (h : HostCmd) : Bool :=
  d.hl.jobs.any (fun j => (j.opcode != 0x403 && sameResource op h j.opcode j.h) || (j.opcode == 0x106 && sameCtx h j.h)) ||
  held.any (fun j => sameResource op h j.opcode j.h || sameCtx h j.h)

/-- The checks every command passes before its own (R426 to R434); the command then runs, or waits for an earlier one (R431). -/
def World.admitCmd (w : World) (h : HostCmd) (s : OpSpec) (k : World → World) : World :=
  if !w.d.quarter0 h.port.val then w
  else
    let n := h.payload.length
    if h.len.toNat ≠ 512 * n ∨ !s.lenOk n then w.turnAway h s.op stBadLength 8
    else match (if s.op = 0x201 then none else firstBadBlock h.payload) with
      | some i => w.turnAway h s.op stBlockCrc (sat16 i)
      | none =>
        let w := w.count HL_COMMANDS 63 0 1
        let mine := w.d.hl.outstanding.filter (fun e => e.1 == h.port.val)
        if mine.contains (h.port.val, h.tag) then w.turnAway h s.op stBadParam 6
        else if 64 ≤ mine.length then w.turnAway h s.op stHeld 0
        else
          let w := w.onDev (fun d => { d with hl := { d.hl with outstanding := d.hl.outstanding ++ [(h.port.val, h.tag)] } })
          if w.d.fld HL_STATUS 9 9 = 0 ∧ !s.early then w.answer h s.op stHeld 0
          else if s.custody ∧ w.d.restarting then w.answer h s.op stHeld 0
          else if s.custody ∧ w.d.custodyWarden = none then w.answer h s.op stCustodyLost 0
          else if (s.ctx && (decide (10240 ≤ h.ctx.toNat) || reservedCtx h.ctx.toNat)) || (!s.ctx && h.ctx != 0xFFFF) then
            w.answer h s.op stBadParam 4
          else match w.d.paramBad h s with
            | some i => w.answer h s.op stBadParam (paramAt i)
            | none =>
              if w.d.mustWait w.d.hl.held s.op h then
                w.onDev (fun d => { d with hl := { d.hl with held := d.hl.held ++ [{ h := h, opcode := s.op, result := none }] } })
              else k w

/-- BAD_PARAM for a parameter. -/
def World.badParam (w : World) (h : HostCmd) (op i : Nat) : World := w.answer h op stBadParam (paramAt i)

/-- A command goes on if none of its parameters is out of its range. -/
def World.onParams (w : World) (h : HostCmd) (op : Nat) (bad : Dev → HostCmd → Option Nat) (k : World → World) : World :=
  match bad w.d h with
  | some i => w.badParam h op i
  | none => k w

/-- The first of a list of conditions that holds names the offending parameter. -/
def firstParam (l : List (Bool × Nat)) : Option Nat := (l.find? (·.1)).map (·.2)

/-- BAD_PARAM for a byte of the payload. -/
def World.badByte (w : World) (h : HostCmd) (op o : Nat) : World := w.answer h op stBadParam (sat16 (32 + o))

/-! ## The memory commands (R286, R434) -/

/-- A run of blocks that a memory command names: 512-byte aligned, in tiers 0x0 to 0x3 (R38, R434). -/
def Dev.memRunOk (d : Dev) (a n : Nat) : Bool := a % 512 == 0 && decide (tierOf a ≤ 3) && runOk (farBytes d) a (512 * n)

def runBlocks (a n : Nat) : List Nat := (List.range n).map (fun k => a + 512 * k)

/-- Whether the stores of a run are in a fenced tower, or in one that core reset holds (R446). -/
def Dev.runFenced (d : Dev) (a : Nat) : Bool := decide (tierOf a ≠ 3) && d.fenced (towerOf a)
def Dev.runHeld (d : Dev) (a : Nat) : Bool :=
  decide (tierOf a ≠ 3) && (let s := (d.tower (towerOf a)).step; s == .fenced || s == .asserted || s == .retraining)

/-- A run whose blocks may not be written yet: core reset holds their tower, or a ladder runs for one of them (R301, R446). -/
def Dev.runClosed (d : Dev) (a n : Nat) : Bool :=
  d.runHeld a || d.ladders.any (fun l => !l.after && overlaps (farCanon a) (512 * n) (farCanon l.block) 512)

/-- A command that has not been answered waits for blocks or for a tower. -/
def World.park_ (w : World) (h : HostCmd) (op : Nat) (r : Option (W16 × W16)) : World :=
  w.onDev (fun d => { d with hl := { d.hl with jobs := d.hl.jobs ++ [{ h := h, opcode := op, result := r }] } })

def Dev.dropJob (d : Dev) (h : HostCmd) (op : Nat) : Dev :=
  { d with hl := { d.hl with jobs := d.hl.jobs.filter (fun j => !(j.opcode == op && j.h.port == h.port && j.h.tag == h.tag)) } }

def hostWho (h : HostCmd) : Nat := whoHost h.port.val h.tag

/-- The blocks of a MEM_WRITE that are written: those before the first that fails its check; and the status it ends with. -/
def writeBlocks (p : List Blk) : List Blk × W16 × W16 :=
  let good := p.takeWhile (fun b => blkSyn b == 0 || blkSyn b == poisonMark)
  (good, if good.length = p.length then (stOk, 0) else (stBlockCrc, sat16 good.length))

/-- Blocks put into the stores, or handed to the adapter. -/
def World.storeBlocks (w : World) (h : HostCmd) (a : Nat) (bl : List Blk) : World :=
  let pairs := (runBlocks a bl.length).zip bl
  if tierOf a = 3 then
    w.onDev (fun d => d.farAsk h.port.val (hostWho h) 0xFFFF 2 false false (pairs.map (fun e => (bitsOf e.1 41 0, some e.2))))
  else pairs.foldl (fun w e => w.putBlk e.1 e.2.data (blkSyn e.2)) w

/-- The work of MEM_WRITE. -/
def World.memWrite (w : World) (h : HostCmd) : World :=
  let a := pair h.p0 h.p1
  let (good, st, det) := writeBlocks h.payload
  let w := w.storeBlocks h a good
  let w := if tierOf a = 3 then w else w.carried (towerOf a) (good.filter (fun b => blkSyn b == poisonMark)).length
  if tierOf a = 3 ∧ !good.isEmpty then w.park_ h 0x201 (some (st, det)) else w.answer h 0x201 st det

/-- The reply of MEM_READ: poisoned blocks are carried in the tower of their store, far ones in that of the port's QUARTER_0 (R284). -/
def World.memReply (w : World) (h : HostCmd) (bl : List Blk) : World :=
  let n := (bl.filter (fun b => blkSyn b == poisonMark)).length
  let a := pair h.p0 h.p1
  let w := w.carried (if tierOf a = 3 then 4 * h.port.val else towerOf a) n
  if n = 0 then w.reply h 0x202 stOk 0 0 bl else w.reply h 0x202 stPoisoned (sat16 n) 0 bl

/-- The work of MEM_READ: blocks that fail at egress go on the ladder, and the command waits (R286). -/
def World.memRead (w : World) (h : HostCmd) (bad : List Nat) : World :=
  let a := pair h.p0 h.p1
  let bl := runBlocks a h.p2.toNat
  if tierOf a = 3 then
    (w.onDev (fun d => d.farAsk h.port.val (hostWho h) 0xFFFF 1 false false (bl.map (fun x => (bitsOf x 41 0, none))))).park_ h 0x202 none
  else
    let fails := bl.filter (w.failing bad)
    if fails.isEmpty then w.memReply h (bl.map w.carry)
    else (fails.foldl (fun w x => w.climb 0xF 0 (48 * h.port.val) 0 0x3FFF 0 x) w).park_ h 0x202 none

/-- A waiting memory command goes on if what it waits for is there. -/
def World.retryOne (w : World) (j : HostJob) : World :=
  let h := j.h
  let a := pair h.p0 h.p1
  if w.d.runHeld a then w
  else if j.opcode = 0x201 then
    match j.result with
    | none => if w.d.runClosed a h.payload.length then w else (w.onDev (fun d => d.dropJob h 0x201)).memWrite h
    | some (st, det) =>
      if w.d.farBusy (hostWho h) then w else (w.onDev (fun d => d.dropJob h 0x201)).answer h 0x201 st det
  else if j.opcode = 0x202 then
    let bl := runBlocks a h.p2.toNat
    if tierOf a = 3 then
      let got := bl.filterMap (w.d.farBlk (hostWho h))
      if got.length < bl.length then w
      else (w.onDev (fun d => (d.farDrop (hostWho h)).dropJob h 0x202)).memReply h got
    else if bl.any (w.failing []) then
      (bl.filter (w.failing [])).foldl (fun w x =>
        if w.d.ladders.any (fun l => l.block == x && !l.after) then w else w.climb 0xF 0 (48 * h.port.val) 0 0x3FFF 0 x) w
    else (w.onDev (fun d => d.dropJob h 0x202)).memReply h (bl.map w.carry)
  else w

def World.retryMem (w : World) : World := w.d.hl.jobs.foldl World.retryOne w

end Sys2Proof.Machine
end

