-- ==== Sys2Proof/Machine/HostCmds.lean ====
section
/-! DEFINITION. The host commands of the device, memory, hedge, firmware and stack families (R434), and COMMAND_DONE (R433). -/

namespace Sys2Proof.Machine

/-! ## Family 0x00 -/

def doIdentify (h : HostCmd) (w : World) : World :=
  w.admitCmd h { op := 0x001, ctx := false, unused := [0, 1, 2, 3], lenOk := noPayload, custody := false, early := true } (fun w =>
    let d := w.d
    let b := leBytes 8 (rget d.regs IDENT_DEVICE).toNat ++ leBytes 8 (rget d.regs IDENT_BUILD).toNat ++ d.serial ++
      leBytes 2 (if d.hedge.joined then d.hedge.rank else 0xFFFF) ++ leBytes 2 d.hedge.size ++ leBytes 1 d.custodyTower ++
      leBytes 1 d.board.clkMode.toNat ++ leBytes 1 d.board.bootSrc.toNat ++ leBytes 1 0 ++ leBytes 8 (farBytes d)
    w.reply h 0x001 stOk 0 0 [mkBlk b])

/-- Whether an address lies in the IDENT or RST blocks (R429), or in the WD block (R430). -/
def earlyReg (a : Nat) : Bool := decide (a < 0x08000000) && decide ((a >>> 16) % 256 ≤ 1)
def wardenReg (a : Nat) : Bool := decide (a < 0x08000000) && decide ((a >>> 16) % 256 = 0xA)

def readRegBad (_ : Dev) (h : HostCmd) : Option Nat := firstParam [((regRow h.p0.toNat).isNone, 0)]

def doReadReg (h : HostCmd) (w : World) : World :=
  w.admitCmd h { op := 0x002, ctx := false, unused := [1, 2, 3], lenOk := noPayload, custody := false, early := earlyReg h.p0.toNat, bad := readRegBad } (fun w =>
    match w.d.readReg h.p0.toNat with
    | some v => w.reply h 0x002 stOk 0 0 [mkBlk (leBytes 8 v.toNat)]
    | none => w.badParam h 0x002 0)

def writeRegBad (_ : Dev) (h : HostCmd) : Option Nat :=
  match regRow h.p0.toNat with
  | none => some 0
  | some r => firstParam [(!r.wide && h.p2 != 0, 2)]

def doWriteReg (h : HostCmd) (w : World) : World :=
  w.admitCmd h { op := 0x003, ctx := false, unused := [3], lenOk := noPayload, custody := wardenReg h.p0.toNat, early := false, bad := writeRegBad } (fun w =>
    w.onParams h 0x003 writeRegBad (fun w =>
      match w.writeReg h.p0.toNat (BitVec.ofNat 64 (pair h.p1 h.p2)) with
      | some w => w.answer h 0x003 stOk 0
      | none => w.badParam h 0x003 0))

def resetBad (_ : Dev) (h : HostCmd) : Option Nat :=
  firstParam [(h.p0 != 1 && h.p0 != 2, 0), (h.p0 == 2 && (h.p1 == 0 || decide (256 ≤ h.p1.toNat)), 1)]

/-- RESET (R503, R507): a system reset begins after its reply; a core reset is accepted. -/
def doReset (h : HostCmd) (w : World) : World :=
  let sys := h.p0 == 1
  w.admitCmd h { op := 0x004, ctx := false, unused := if sys then [1, 2, 3] else [2, 3], lenOk := noPayload, custody := true, early := false, bad := resetBad }
    (fun w => w.onParams h 0x004 resetBad (fun w =>
      if sys then
        let w := w.answer h 0x004 stOk 0
        (w.onDev (fun d => d.writeWear.drainLog)).systemReset 4 false
      else
        let mask := h.p1.toNat
        let ts := (List.range 8).filter (bitOf mask)
        let runs := w.d.ctxs.any (fun e => e.2.active && e.2.kind != 2 &&
          (maskCourses e.2.mask.toNat).any (fun c => bitOf mask (c / 12)))
        if runs then w.answer h 0x004 stContextState (paramAt 1)
        else
          let w := w.accept h 0x004
          let w := ts.foldl World.stopServices w
          let w := ts.foldl (fun w t => if w.d.fenced t then w else w.askCoreReset t 0 false) w
          w.onDev (fun d => d.resetJobs)))

def attestBad (_ : Dev) (h : HostCmd) : Option Nat := firstParam [(decide (2 ≤ h.p0.toNat), 0)]

def doAttest (h : HostCmd) (w : World) : World :=
  w.admitCmd h { op := 0x005, ctx := false, unused := [1, 2, 3], lenOk := oneBlock, custody := true, early := false, bad := attestBad } (fun w =>
    w.onParams h 0x005 attestBad (fun w =>
      let rep := w.d.report (h.p0 == 1) (payloadBytes h.payload)
      let w := w.reply h 0x005 stOk 0 0 (mkBlks rep)
      w.onDev (fun d => { d with fw := { d.fw with signs := d.fw.signs + 1 } })))

/-- The 4 bytes of sensor i (R530). -/
def Dev.sensorWord (d : Dev) (i : Nat) : List Byte :=
  let a := THM_SENSOR (i / 46) (i % 46)
  leBytes 4 (d.fld a 63 48 + (d.fld a 0 0 <<< 16) + (d.fld a 2 2 <<< 17) + (d.fld a 3 3 <<< 18))

/-- The 4 bytes of rail i, or of the input at index 48 (R530). -/
def Dev.railWord (d : Dev) (i : Nat) : List Byte :=
  let a := if i = 48 then PWR_INPUT else THM (i / 6) + 0x40 + 8 * (i % 6)
  leBytes 4 (d.fld a 47 32 + (d.fld a 31 16 <<< 16))

/-- A reading named is one of the 368 temperatures, or of the 48 rails and the input. -/
def sensorBad (_ : Dev) (h : HostCmd) : Option Nat :=
  let limit := if h.p0 = 0 then 368 else 49
  firstParam [(decide (2 ≤ h.p0.toNat), 0), (decide (limit ≤ h.p1.toNat), 1), (decide (limit < h.p1.toNat + h.p2.toNat), 2)]

def doSensorRead (h : HostCmd) (w : World) : World :=
  w.admitCmd h { op := 0x006, ctx := false, unused := [3], lenOk := noPayload, custody := false, early := false, bad := sensorBad } (fun w =>
    w.onParams h 0x006 sensorBad (fun w =>
      let lo := h.p1.toNat
      let b := (List.range h.p2.toNat).flatMap (fun k => if h.p0 = 0 then w.d.sensorWord (lo + k) else w.d.railWord (lo + k))
      w.reply h 0x006 stOk 0 0 (mkBlks b)))

/-! ## Family 0x02 -/

/-- The parameters of a memory command on `n` blocks, `most` of them at most: the address itself, the count, the run's end (R434, R436). -/
def Dev.runBad (d : Dev) (h : HostCmd) (n most : Nat) : Option Nat :=
  let a := pair h.p0 h.p1
  firstParam [(!d.memRunOk a 1, 0), (decide (n = 0) || decide (most < n), 2), (!d.memRunOk a n, 0)]

def memWriteBad (d : Dev) (h : HostCmd) : Option Nat := d.runBad h h.payload.length 65536
def memReadBad (d : Dev) (h : HostCmd) : Option Nat := d.runBad h h.p2.toNat 65536
def memFillBad (d : Dev) (h : HostCmd) : Option Nat := d.runBad h h.p2.toNat (2 ^ 24)

/-- A memory command goes on unless its stores are in a fenced tower (R434). -/
def World.onStores (w : World) (h : HostCmd) (op a : Nat) (k : World → World) : World :=
  if w.d.runFenced a then w.answer h op stStackDegraded 12 else k w

/-- The work of MEM_WRITE once it starts (R286, R301, R446). -/
def World.goMemWrite (w : World) (h : HostCmd) : World :=
  let a := pair h.p0 h.p1
  w.onParams h 0x201 memWriteBad (fun w => w.onStores h 0x201 a (fun w =>
    if w.d.runClosed a h.payload.length then w.park_ h 0x201 none else w.memWrite h))

def doMemWrite (h : HostCmd) (w : World) : World :=
  w.admitCmd h
    { op := 0x201, ctx := false, unused := [2, 3], lenOk := fun n => decide (1 ≤ n) && decide (n ≤ 65536), custody := false, early := false,
      bad := memWriteBad } (fun w => w.goMemWrite h)

/-- The work of MEM_READ once it starts. -/
def World.goMemRead (w : World) (h : HostCmd) (bad : List Nat) : World :=
  let a := pair h.p0 h.p1
  w.onParams h 0x202 memReadBad (fun w => w.onStores h 0x202 a (fun w =>
    if w.d.runHeld a then w.park_ h 0x202 none else w.memRead h bad))

def doMemRead (h : HostCmd) (bad : List Nat) (w : World) : World :=
  w.admitCmd h { op := 0x202, ctx := false, unused := [3], lenOk := noPayload, custody := false, early := false, bad := memReadBad }
    (fun w => w.goMemRead h bad)

/-- MEM_FILL is checked and accepted. -/
def World.goMemFill (w : World) (h : HostCmd) : World :=
  w.onParams h 0x203 memFillBad (fun w => w.onStores h 0x203 (pair h.p0 h.p1) (fun w => w.accept h 0x203))

def doMemFill (h : HostCmd) (w : World) : World :=
  w.admitCmd h { op := 0x203, ctx := false, unused := [], lenOk := noPayload, custody := false, early := false } (fun w => w.goMemFill h)

/-- The first byte of a MEM_COPY block that breaks R434: an address, the count, or a run's end. -/
def Dev.copyBad (d : Dev) (h : HostCmd) : Option Nat :=
  let (src, dst, n) := copyArgs h
  firstParam [(!d.memRunOk src 1, 0), (!d.memRunOk dst 1, 8), (decide (n = 0) || decide (2 ^ 24 < n), 16), (!d.memRunOk src n, 0),
    (!d.memRunOk dst n, 8)]

/-- MEM_COPY is checked and accepted. -/
def World.goMemCopy (w : World) (h : HostCmd) : World :=
  let (src, dst, n) := copyArgs h
  match w.d.copyBad h with
  | some o => w.badByte h 0x204 o
  | none =>
    if w.d.runFenced src then w.answer h 0x204 stStackDegraded 32
    else if w.d.runFenced dst then w.answer h 0x204 stStackDegraded 40
    else
      let w := w.accept h 0x204
      if tierOf src = 3 then
        w.onDev (fun d => d.farAsk h.port.val (hostWho h) 0xFFFF 1 false false ((runBlocks src n).map (fun x => (bitsOf x 41 0, none))))
      else w

def doMemCopy (h : HostCmd) (w : World) : World :=
  w.admitCmd h { op := 0x204, ctx := false, unused := [0, 1, 2, 3], lenOk := oneBlock, custody := false, early := false } (fun w => w.goMemCopy h)

def farMapBad (_ : Dev) (h : HostCmd) : Option Nat :=
  firstParam [(decide (h.p0 = 0) || decide (4096 < h.p0.toNat), 0), (decide (0xFFF6F < h.p1.toNat), 1)]

def doFarMap (h : HostCmd) (w : World) : World :=
  w.admitCmd h { op := 0x205, ctx := false, unused := [2, 3], lenOk := noPayload, custody := false, early := false, bad := farMapBad } (fun w =>
    w.onParams h 0x205 farMapBad (fun w =>
    let g := h.p0.toNat
    let b := h.p1.toNat
    if g < w.d.fld HL_FAR_MAP 12 0 ∧ w.d.ctxs.any (fun e => e.2.active) then w.answer h 0x205 stContextState (paramAt 0)
    else
      let w := (w.setFld HL_FAR_MAP 12 0 g).setFld HL_FAR_MAP 51 32 b
      let w := if w.d.fld MEM_FAR_BUDGET 19 0 < b + 144 then w.writeFarBudget (BitVec.ofNat 64 (b + 144)) else w
      w.answer h 0x205 stOk 0))

/-! ## Family 0x03 -/

/-- A port of the own rank whose valid entry disagrees with the neighbour that training found (R349). -/
def Dev.wrongPort (d : Dev) (img : List Byte) (rank : Nat) : Option Nat :=
  (List.range 24).find? (fun l =>
    let e := routeEntry img rank l
    entryValid e && (!d.linkUp l || (d.link l).nbr != some (entryRank e, entryPort e)))

/-- The diameter of a route image: the greatest hop count (R64). -/
def diameter (img : List Byte) : Nat :=
  let n := routeN img
  (List.range n).foldl (fun m s => (List.range n).foldl (fun m t => max m (hopCount img s t)) m) 0

/-- S_min of a diameter (R65). -/
def settleMin (dia : Nat) : Nat := ceilDiv (256 + 75 * dia) 256 * 256

/-- The hedge registers and state after HEDGE_JOIN (R72). -/
def Dev.join (d : Dev) (size rank leader succ dia : Nat) : Dev :=
  let role := if rank = leader then 1 else if rank = succ then 2 else 0
  let d := { d with hedge := { d.hedge with joined := true, size := size, rank := rank } }
  let d := d.setReg FT_LEADER (BitVec.ofNat 64
    ((role <<< 48) + ((if succ = 0xFFFF then 0x7FF else succ) <<< 32) + (leader <<< 16) + rank))
  let d := d.setReg FT_DIAMETER (BitVec.ofNat 64 ((settleMin dia <<< 16) + dia))
  let d := (d.setReg FT_POS 0).setReg FT_HOLD_FRETS 0
  let d := (d.setFld FT_HOLD_STATUS 18 18 0).setFld FT_HOLD_STATUS 19 19 0
  d.setFt (fun f => { f with adopt := decide (rank ≠ leader), aligned := 0, leaderHold := false, markerSeen := false })

def doHedgeJoin (h : HostCmd) (w : World) : World :=
  w.admitCmd h { op := 0x301, ctx := false, unused := [], lenOk := noPayload, custody := true, early := false } (fun w =>
    let size := h.p0.toNat
    let rank := h.p1.toNat
    let leader := h.p2.toNat
    let succ := h.p3.toNat
    let img := w.d.hedge.route
    let dia := diameter img
    let clk := w.d.board.clkMode
    if size = 0 ∨ 1024 < size ∨ clk = 3 ∨ (clk = 0 ∧ 1 < size) ∨
        (img.isEmpty ∧ 1 < size) ∨ (!img.isEmpty ∧ routeN img ≠ size) then w.badParam h 0x301 0
    else if size ≤ rank then w.badParam h 0x301 1
    else if size ≤ leader then w.badParam h 0x301 2
    else if succ ≠ 0xFFFF ∧ (size ≤ succ ∨ succ = leader) then w.badParam h 0x301 3
    else match w.d.wrongPort img rank with
      | some l => w.answer h 0x301 stBadParam (BitVec.ofNat 16 l)
      | none =>
        if 16 < dia ∨ w.d.settleLen < settleMin dia then w.badParam h 0x301 0
        else
          let w := w.accept h 0x301
          w.onDev (fun d => d.join size rank leader succ dia))

/-- The device leaves its hedge: it stands alone again (R74). -/
def doHedgeLeave (h : HostCmd) (w : World) : World :=
  w.admitCmd h { op := 0x302, ctx := false, unused := [0, 1, 2, 3], lenOk := noPayload, custody := true, early := false } (fun w =>
    let w := w.onDev (fun d =>
      let d := { d with hedge := { d.hedge with joined := false, size := 1, rank := 0 } }
      let d := (d.setReg FT_LEADER (resetWord FT_LEADER)).setReg FT_DIAMETER (resetWord FT_DIAMETER)
      let d := (d.setFld FT_HOLD_STATUS 18 18 0).setFld FT_HOLD_STATUS 19 19 0
      d.setFt (fun f => { f with adopt := false, aligned := 0, leaderHold := false }))
    w.answer h 0x302 stOk 0)

/-- FRET_CONFIG. A second one accepted before the first has applied takes its place: the spec is silent there (DESIGN CHOICE, log 118). -/
def doFretConfig (h : HostCmd) (w : World) : World :=
  w.admitCmd h { op := 0x303, ctx := false, unused := [], lenOk := noPayload, custody := true, early := false } (fun w =>
    let p := 1024 * bitsOf h.p0.toNat 10 0
    let g := 256 * bitsOf h.p0.toNat 21 11
    let s := 256 * bitsOf h.p1.toNat 12 0
    let a := pair h.p2 h.p3
    if 2 ^ 22 ≤ h.p0.toNat ∨ p < 4096 ∨ 1048576 < p ∨ g < max 512 (p / 256) ∨ p / 4 < g then w.badParam h 0x303 0
    else if 2 ^ 13 ≤ h.p1.toNat ∨ s < w.d.fld FT_DIAMETER 31 16 ∨ p < s + g + 256 then w.badParam h 0x303 1
    else if a ≤ w.d.fretNum + 8 then w.badParam h 0x303 2
    else if w.d.ctxs.any (fun e => e.2.active) then w.answer h 0x303 stContextState 0
    else (w.setFt (fun f => { f with pendingCfg := some (a, p, g, s) })).answer h 0x303 stOk 0)

/-- The first rank at which a route image breaks R347 or R348. -/
def routeBad (img : List Byte) : Option Nat :=
  let n := routeN img
  let dims := slice img 9 3
  let prod := dims.foldl (fun p b => p * b.toNat) 1
  let kind := numAt img 8 1
  let hdr := numAt img 0 4 == 0x45545552 && numAt img 4 2 == 1 && decide (1 ≤ n) && decide (n ≤ 1024) && decide (kind ≤ 1) &&
    (if kind = 1 then prod == n else zeroAt img 9 12) && numAt img 12 4 == 512 + 96 * n + n * n && zeroAt img 16 512
  let entry (s i : Nat) : Bool :=
    let e := routeEntry img s i
    !entryValid e ||
      (bitsOf e 30 24 == 0 && decide (entryRank e < n) && decide (entryPort e < 24) &&
        (let b := routeEntry img (entryRank e) (entryPort e)
         entryValid b && entryRank b == s && entryPort b == i) &&
        (List.range 24).all (fun k =>
          let f := routeEntry img s k
          !(entryValid f && entryTrunk f == entryTrunk e) || entryRank f == entryRank e))
  let row (s : Nat) : Bool :=
    (List.range 24).all (entry s) &&
    (List.range n).all (fun t => if s = t then nextHop img s t == 0xFF else (hops img 16 s t).isSome)
  if !hdr then some 0 else (List.range n).find? (fun s => !row s)

def doRouteLoad (h : HostCmd) (w : World) : World :=
  w.admitCmd h { op := 0x304, ctx := false, unused := [0, 1, 2, 3], lenOk := fun n => decide (1 ≤ n), custody := true, early := false } (fun w =>
    let b := payloadBytes h.payload
    let len := numAt b 12 4
    let n := numAt b 6 2
    if b.length < len ∨ len < 512 + 96 * n + n * n then w.answer h 0x304 stBadLength 44
    else if w.d.ctxs.any (fun e => e.2.active) then w.answer h 0x304 stContextState 0
    else match routeBad b with
      | some r => w.answer h 0x304 stBadParam (BitVec.ofNat 16 r)
      | none =>
        let dig := shake256 32 (b.take len)
        let w := w.onDev (fun d =>
          let d := { d with hedge := { d.hedge with route := b.take len } }
          let d := (List.range 4).foldl (fun d k => d.setReg (EF_ROUTE_DIGEST k) (BitVec.ofNat 64 (numAt dig (8 * k) 8))) d
          d.setReg EF_ROUTE_INFO (BitVec.ofNat 64 ((1 <<< 63) + (diameter b <<< 16) + n)))
        w.answer h 0x304 stOk 0)

def droneBad (_ : Dev) (h : HostCmd) : Option Nat :=
  let v := h.p1.toNat
  firstParam [(decide (h.p0 = 0) || decide (3 < h.p0.toNat), 0), (decide (h.p0 = 2) && (decide (v = 0) || decide (65535 < v)), 1),
    (decide (h.p0 = 3) && decide (7 < v), 1)]

def doDroneRaise (h : HostCmd) (w : World) : World :=
  w.admitCmd h
    { op := 0x305, ctx := false, unused := if h.p0 = 1 then [1, 2, 3] else [2, 3], lenOk := noPayload, custody := true, early := false,
      bad := droneBad }
    (fun w => w.onParams h 0x305 droneBad (fun w =>
      let v := h.p1.toNat
      match h.p0.toNat with
      | 1 => (w.raise flagAbort).answer h 0x305 stOk 0
      | 2 => ((w.setFt (fun f => { f with hostHold := BitVec.ofNat 16 (max f.hostHold.toNat v) })).setBit FT_HOLD_CAUSE 7).answer
          h 0x305 stOk 0
      | _ => (w.raise (24 + v)).answer h 0x305 stOk 0))

/-! ## Family 0x04 (R460 to R468) -/

/-- The parameters of FW_STAGE: those that follow from the manifest count while nothing is committed and the manifest is whole (R460). -/
def Dev.stageBad (d : Dev) (h : HostCmd) : Option Nat :=
  let comp := bitsOf h.p0.toNat 7 0
  let delta := bitOf h.p0.toNat 8
  let len := if delta then h.p2.toNat else if comp = 0 then 8 else (manEntry (d.image d.inactive 0) comp).length / 512
  if 3 ≤ d.fw.state then none
  else if 512 ≤ h.p0.toNat ∨ 7 < comp ∨ (comp = 0 ∧ delta) then some 0
  else if comp ≠ 0 ∧ !allBlocks (d.stagedOf 0) 8 then none
  else firstParam [(decide (len < h.p1.toNat + h.payload.length), 1), (decide (h.p2.toNat ≠ len), 2)]

/-- The work of FW_STAGE once it starts (R460). -/
def World.goFwStage (w : World) (h : HostCmd) : World :=
  let comp := bitsOf h.p0.toNat 7 0
  if 3 ≤ w.d.fw.state then w.answer h 0x401 stHeld 0
  else w.onParams h 0x401 Dev.stageBad (fun w =>
    if comp ≠ 0 ∧ !allBlocks (w.d.stagedOf 0) 8 then w.answer h 0x401 stManifestIncomplete (checkDetail 4 0)
    else (w.onDev (fun d => d.stage comp (bitOf h.p0.toNat 8) h.p1.toNat (payloadBytes h.payload))).answer h 0x401 stOk 0)

def doFwStage (h : HostCmd) (w : World) : World :=
  w.admitCmd h
    { op := 0x401, ctx := false, unused := [3], lenOk := fun n => decide (1 ≤ n), custody := true, early := false,
      bad := Dev.stageBad } (fun w => w.goFwStage h)

/-- FW_VERIFY is accepted (R461). -/
def World.goFwVerify (w : World) (h : HostCmd) : World := w.accept h 0x402

def doFwVerify (h : HostCmd) (w : World) : World :=
  w.admitCmd h { op := 0x402, ctx := false, unused := [0, 1, 2, 3], lenOk := noPayload, custody := true, early := false } (fun w => w.goFwVerify h)

/-- The latched THERMAL_LEVEL is 2 (R435). -/
def Dev.tooHot (d : Dev) : Bool := d.fld FT_HOLD_STATUS 15 14 == 2

def commitBad (d : Dev) (h : HostCmd) : Option Nat :=
  if d.tooHot then none else firstParam [(decide (pair h.p0 h.p1 ≤ d.fretNum + 64), 0)]

/-- The work of FW_COMMIT_AT once it starts (R462). -/
def World.goFwCommitAt (w : World) (h : HostCmd) : World :=
  let a := pair h.p0 h.p1
  if w.d.tooHot then w.answer h 0x403 stThermal 0
  else w.onParams h 0x403 commitBad (fun w =>
    if w.d.fw.state ≠ 2 then w.answer h 0x403 stManifestIncomplete (checkDetail 4 0)
    else
      let w := w.accept h 0x403
      w.onDev (fun d => ({ d with fw := { d.fw with state := 3, commit := a } }).wdShared))

def doFwCommitAt (h : HostCmd) (w : World) : World :=
  w.admitCmd h { op := 0x403, ctx := false, unused := [2, 3], lenOk := noPayload, custody := true, early := false, bad := commitBad }
    (fun w => w.goFwCommitAt h)

/-- The work of FW_ABORT once it starts (R467). -/
def World.goFwAbort (w : World) (h : HostCmd) : World :=
  let s := w.d.fw.state
  if 4 ≤ s then w.answer h 0x404 stHeld 0
  else if s = 3 then
    let w := w.onDev (fun d => (d.opEnded 0x403 (fun _ => true) stManifestIncomplete 0).uncommit 2)
    w.answer h 0x404 stOk 0
  else
    let w := w.onDev (fun d => { d with fw := { d.fw with state := 0, staged := [], deltas := [] } })
    w.answer h 0x404 stOk 0

def doFwAbort (h : HostCmd) (w : World) : World :=
  w.admitCmd h { op := 0x404, ctx := false, unused := [0, 1, 2, 3], lenOk := noPayload, custody := true, early := false } (fun w => w.goFwAbort h)

/-- The work of FW_STATUS once it starts (R468). -/
def World.goFwStatus (w : World) (h : HostCmd) : World :=
  w.reply h 0x405 stOk 0 0 [mkBlk w.d.fwStatusBytes]

def doFwStatus (h : HostCmd) (w : World) : World :=
  w.admitCmd h { op := 0x405, ctx := false, unused := [0, 1, 2, 3], lenOk := noPayload, custody := true, early := false } (fun w => w.goFwStatus h)

/-! ## Family 0x06 (R497 to R499, R542) -/

def bistBad (d : Dev) (h : HostCmd) : Option Nat :=
  if d.tooHot then none
  else firstParam [(h.p0 == 0 || decide (256 ≤ h.p0.toNat), 0), (h.p1 == 0 || decide (3 < h.p1.toNat), 1)]

def doBistRun (h : HostCmd) (w : World) : World :=
  w.admitCmd h { op := 0x601, ctx := false, unused := [2, 3], lenOk := noPayload, custody := true, early := false, bad := bistBad } (fun w =>
    let ts := (List.range 8).filter (bitOf h.p0.toNat)
    let set := h.p1.toNat
    if w.d.tooHot then w.answer h 0x601 stThermal 0
    else w.onParams h 0x601 bistBad (fun w =>
    if ts.any w.d.fenced then w.answer h 0x601 stStackDegraded (paramAt 0)
    else
      let w := w.accept h 0x601
      ts.foldl (fun w t => w.onDev (fun d =>
        let d := d.onTower t (fun x => { x with
          bist := true, lasting := 0, narrowings := 0, field := if set ≠ 1 then x.field ++ (fieldPass t).filter (fun k => !x.field.contains k) else x.field })
        if set = 2 then d
        else (List.range 5).foldl (fun d cls => (List.range (bundleCount t cls)).foldl (fun d i => d.enterTest (bundleKey t cls i)) d) d)) w))

def fenceBad (_ : Dev) (h : HostCmd) : Option Nat := firstParam [(decide (8 ≤ h.p0.toNat), 0)]
def restoreBad (d : Dev) (h : HostCmd) : Option Nat := firstParam [(decide (8 ≤ h.p0.toNat) || !d.fenced h.p0.toNat, 0)]

def doTowerFence (h : HostCmd) (w : World) : World :=
  w.admitCmd h { op := 0x602, ctx := false, unused := [1, 2, 3], lenOk := noPayload, custody := true, early := false, bad := fenceBad } (fun w =>
    w.onParams h 0x602 fenceBad (fun w =>
      let t := h.p0.toNat
      if w.d.fenced t then w.answer h 0x602 stOk 0 else (w.accept h 0x602).fenceTower t))

/-- TOWER_RESTORE: the tower is let out of core reset; its bundles train and a field pass decides (R499). -/
def doTowerRestore (h : HostCmd) (w : World) : World :=
  w.admitCmd h { op := 0x603, ctx := false, unused := [1, 2, 3], lenOk := noPayload, custody := true, early := false, bad := restoreBad } (fun w =>
    w.onParams h 0x603 restoreBad (fun w =>
      let t := h.p0.toNat
      let w := w.accept h 0x603
      w.onDev (fun d => d.onTower t (fun x => { x with held := false, restore := true }))))

/-- The entry of a sequence number: in flash, or queued once the warden is ready (R542). -/
def Dev.logEntry (d : Dev) (seq : Nat) : List Byte :=
  let queued := if d.fld HL_STATUS 9 9 = 1 then d.log.queues.flatMap (·.2) else []
  match (d.log.flash ++ queued).find? (fun e => decide (e.seq = seq)) with
  | some e => entryBytes e
  | none => List.replicate 64 0

def logReadBad (_ : Dev) (h : HostCmd) : Option Nat := firstParam [(h.p1 == 0 || decide (1024 < h.p1.toNat), 1)]

def doLogRead (h : HostCmd) (w : World) : World :=
  w.admitCmd h
    { op := 0x604, ctx := false, unused := [2, 3], lenOk := noPayload, custody := w.d.fld HL_STATUS 9 9 == 1, early := true,
      bad := logReadBad } (fun w =>
    w.onParams h 0x604 logReadBad (fun w =>
      let n := h.p1.toNat
      let es := (List.range n).map (fun k => w.d.logEntry ((h.p0.toNat + k) % 2 ^ 32))
      let found := (es.filter (fun e => e.any (· != 0))).length
      w.reply h 0x604 stOk (sat16 found) (BitVec.ofNat 32 w.d.log.next) (mkBlks es.flatten)))

/-! ## COMMAND_DONE (R433, R439) -/

/-- The event that concludes an accepted command. -/
def World.concludeJob (w : World) (j : HostJob) (st det : W16) : World :=
  let h := j.h
  w.onDev (fun d =>
    let d := (d.dropJob h j.opcode).settle h.port.val h.tag
    d.event 0x804 st det h.ctx.toNat h.tag [mkBlk (leBytes 24 0 ++ leBytes 2 h.tag.toNat ++ leBytes 2 j.opcode)])

/-- The work of a job has ended; writes to the far store may still be on their way. -/
def World.jobWorked (w : World) (j : HostJob) (st det : W16) : World :=
  if w.d.farBusy (hostWho j.h) then w.onDev (fun d => d.jobEnded j.h.port j.h.tag st det) else w.concludeJob j st det

/-- MEM_COPY's work: every block is read and checked before any is written; poisoned blocks are carried (R284, R434). -/
def World.copyWork (w : World) (j : HostJob) (bad : List Nat) : World :=
  let h := j.h
  let (src, dst, n) := copyArgs h
  let bl := runBlocks src n
  if w.d.runHeld src || w.d.runClosed dst n then w
  else
    let far := tierOf src = 3
    let fails := if far then [] else bl.filter (w.failing bad)
    let got := if far then bl.filterMap (w.d.farBlk (hostWho h)) else bl.map w.carry
    if !fails.isEmpty then
      fails.foldl (fun w x =>
        if w.d.ladders.any (fun l => l.block == x && !l.after) then w else w.climb 0xF 0 (48 * h.port.val) 0 0x3FFF 0 x) w
    else if got.length < n then w
    else
      let w := if far then w.onDev (fun d => d.farDrop (hostWho h)) else w.carried (towerOf src) (w.poisonCount bl)
      (w.storeBlocks h dst got).jobWorked j stOk 0

def doCommandDone (port : Fin 2) (tag : W16) (bad : List Nat) (w : World) : World :=
  match w.d.hl.jobs.find? (fun j => j.h.port == port && j.h.tag == tag && j.opcode != 0x104 && j.opcode != 0x201 && j.opcode != 0x202) with
  | none => w
  | some j =>
    match j.result with
    | some (st, det) => if w.d.farBusy (hostWho j.h) then w else w.concludeJob j st det
    | none =>
      match j.opcode with
      | 0x203 =>
        let a := pair j.h.p0 j.h.p1
        if w.d.runClosed a j.h.p2.toNat then w
        else
          let blk := mkBlk ((List.replicate 128 (leBytes 4 j.h.p3.toNat)).flatten)
          (w.storeBlocks j.h a (List.replicate j.h.p2.toNat blk)).jobWorked j stOk 0
      | 0x204 => w.copyWork j bad
      | 0x301 => if 4 ≤ w.d.ft.aligned then w.concludeJob j stOk 0 else w
      | 0x402 =>
        let (w, st, det) := w.fwVerify
        w.concludeJob j st det
      | _ => w

/-! ## The commands -/

/-- IDENTIFY (R434). -/
def execIdentify (h : HostCmd) (s : State) : Host.Outcome State Fault Refusal :=
  runLive s (doIdentify h)

/-- READ_REG (R14). -/
def execReadReg (h : HostCmd) (s : State) : Host.Outcome State Fault Refusal :=
  runLive s (doReadReg h)

/-- WRITE_REG (R12). -/
def execWriteReg (h : HostCmd) (s : State) : Host.Outcome State Fault Refusal :=
  runLive s (doWriteReg h)

/-- RESET (R507). -/
def execReset (h : HostCmd) (s : State) : Host.Outcome State Fault Refusal :=
  runLive s (doReset h)

/-- ATTEST (R458). -/
def execAttest (h : HostCmd) (s : State) : Host.Outcome State Fault Refusal :=
  runLive s (doAttest h)

/-- SENSOR_READ (R530). -/
def execSensorRead (h : HostCmd) (s : State) : Host.Outcome State Fault Refusal :=
  runLive s (doSensorRead h)

/-- MEM_WRITE (R286). -/
def execMemWrite (h : HostCmd) (s : State) : Host.Outcome State Fault Refusal :=
  runLive s (doMemWrite h)

/-- MEM_READ (R286). -/
def execMemRead (h : HostCmd) (bad : List Nat) (s : State) : Host.Outcome State Fault Refusal :=
  runLive s (doMemRead h bad)

/-- MEM_FILL (R434). -/
def execMemFill (h : HostCmd) (s : State) : Host.Outcome State Fault Refusal :=
  runLive s (doMemFill h)

/-- MEM_COPY (R434). -/
def execMemCopy (h : HostCmd) (s : State) : Host.Outcome State Fault Refusal :=
  runLive s (doMemCopy h)

/-- FAR_MAP (R444). -/
def execFarMap (h : HostCmd) (s : State) : Host.Outcome State Fault Refusal :=
  runLive s (doFarMap h)

/-- HEDGE_JOIN (R72). -/
def execHedgeJoin (h : HostCmd) (s : State) : Host.Outcome State Fault Refusal :=
  runLive s (doHedgeJoin h)

/-- HEDGE_LEAVE (R74). -/
def execHedgeLeave (h : HostCmd) (s : State) : Host.Outcome State Fault Refusal :=
  runLive s (doHedgeLeave h)

/-- FRET_CONFIG (R47). -/
def execFretConfig (h : HostCmd) (s : State) : Host.Outcome State Fault Refusal :=
  runLive s (doFretConfig h)

/-- ROUTE_LOAD (R348). -/
def execRouteLoad (h : HostCmd) (s : State) : Host.Outcome State Fault Refusal :=
  runLive s (doRouteLoad h)

/-- DRONE_RAISE (R69). -/
def execDroneRaise (h : HostCmd) (s : State) : Host.Outcome State Fault Refusal :=
  runLive s (doDroneRaise h)

/-- FW_STAGE (R460). -/
def execFwStage (h : HostCmd) (s : State) : Host.Outcome State Fault Refusal :=
  runLive s (doFwStage h)

/-- FW_VERIFY (R461). -/
def execFwVerify (h : HostCmd) (s : State) : Host.Outcome State Fault Refusal :=
  runLive s (doFwVerify h)

/-- FW_COMMIT_AT (R462). -/
def execFwCommitAt (h : HostCmd) (s : State) : Host.Outcome State Fault Refusal :=
  runLive s (doFwCommitAt h)

/-- FW_ABORT (R467). -/
def execFwAbort (h : HostCmd) (s : State) : Host.Outcome State Fault Refusal :=
  runLive s (doFwAbort h)

/-- FW_STATUS (R468). -/
def execFwStatus (h : HostCmd) (s : State) : Host.Outcome State Fault Refusal :=
  runLive s (doFwStatus h)

/-- BIST_RUN (R497). -/
def execBistRun (h : HostCmd) (s : State) : Host.Outcome State Fault Refusal :=
  runLive s (doBistRun h)

/-- TOWER_FENCE (R498). -/
def execTowerFence (h : HostCmd) (s : State) : Host.Outcome State Fault Refusal :=
  runLive s (doTowerFence h)

/-- TOWER_RESTORE (R499). -/
def execTowerRestore (h : HostCmd) (s : State) : Host.Outcome State Fault Refusal :=
  runLive s (doTowerRestore h)

/-- LOG_READ (R542). -/
def execLogRead (h : HostCmd) (s : State) : Host.Outcome State Fault Refusal :=
  runLive s (doLogRead h)

end Sys2Proof.Machine
end

