-- ==== Sys2Proof/Machine/CtxCmds.lean ====
section
/-! DEFINITION. The context commands (R388 to R395, R564). -/

namespace Sys2Proof.Machine

/-- What a context command of R434 carries. -/
def ctxSpec (op : Nat) (unused : List Nat) (lenOk : Nat → Bool) : OpSpec :=
  { op := op, ctx := true, unused := unused, lenOk := lenOk, custody := false, early := false }

/-- A command that names a context in a state it accepts; a FREE one completes with NO_CONTEXT, any other with CONTEXT_STATE (R391). -/
def World.inState (w : World) (h : HostCmd) (op : Nat) (ok : Ctx → Bool) (k : Ctx → World → World) : World :=
  let x := w.d.ctx h.ctx.toNat
  if x.st = .free then w.answer h op stNoContext 0
  else if !ok x then w.answer h op stContextState 4
  else k x w

/-! ## CTX_CREATE (R389, R390) -/

/-- The context that the fields of a CTX_CREATE block give. -/
def createdCtx (b : List Byte) : Ctx :=
  { Ctx.init with
    st := .loaded, partition := numAt b 4 1, filler := BitVec.ofNat 8 (numAt b 5 1), priority := BitVec.ofNat 8 (numAt b 6 1),
    seed := BitVec.ofNat 64 (numAt b 8 8), mask := BitVec.ofNat 96 (numAt b 16 12), tabMask := BitVec.ofNat 96 (numAt b 16 12),
    tabOff := numAt b 32 8, tabSpace := numAt b 40 4, saveOff := numAt b 48 8 }

def saveSpan : Nat := 202752

/-- Whether the tab regions or the save areas of two contexts overlap in a tower that both have a course in (R390). -/
def clash (x y : Ctx) : Option Nat :=
  let share := (List.range 8).any (fun t =>
    (maskCourses x.mask.toNat).any (fun c => c / 12 == t) && (maskCourses y.mask.toNat).any (fun c => c / 12 == t))
  if y.st = .free ∨ !share then none
  else if overlaps x.tabOff x.tabSpace y.tabOff y.tabSpace then some 32
  else if y.kind ≠ 2 ∧ overlaps x.saveOff saveSpan y.saveOff saveSpan then some 48
  else none

/-- The first byte of a CTX_CREATE block that breaks R389 or R390. -/
def Dev.createBad (d : Dev) (b : List Byte) : Option Nat :=
  let x := createdCtx b
  firstSome id
    [ firstNonzero b 0 0 4,
      when_ (!(x.partition == 1 || x.partition == 2 || x.partition == 4)) 4,
      when_ (decide (2 ≤ x.filler.toNat)) 5,
      when_ (decide (16 ≤ x.priority.toNat)) 6,
      when_ (numAt b 7 1 != 0) 7,
      firstNonzero b 0 28 32,
      when_ (x.tabOff % 512 != 0 || decide (2 ^ 31 < x.tabOff + x.tabSpace)) 32,
      when_ (x.tabSpace % 512 != 0) 40,
      firstNonzero b 0 44 48,
      when_ (x.saveOff % 512 != 0 || decide (2 ^ 35 < x.saveOff + saveSpan)) 48,
      firstNonzero b 0 56 512,
      firstSome (fun (e : Nat × Ctx) => clash x e.2) d.ctxs ]

/-- The work of CTX_CREATE once it starts. -/
def World.goCtxCreate (w : World) (h : HostCmd) : World :=
  let i := h.ctx.toNat
  let b := payloadBytes h.payload
  if i < 16 then w.answer h 0x101 stBadParam 4
  else if (w.d.ctx i).st ≠ .free then w.answer h 0x101 stContextState 4
  else match w.d.createBad b with
    | some o => w.badByte h 0x101 o
    | none =>
      let x := createdCtx b
      if (maskCourses x.mask.toNat).any (fun c => w.d.fenced (c / 12)) then w.answer h 0x101 stStackDegraded 48
      else (w.onDev (fun d => d.setCtx i x)).answer h 0x101 stOk 0

def doCtxCreate (h : HostCmd) (w : World) : World :=
  w.admitCmd h (ctxSpec 0x101 [0, 1, 2, 3] oneBlock) (fun w => w.goCtxCreate h)

/-! ## CTX_LOAD_TAB (R564) -/

/-- The image goes into the tab region of every tower of the context's courses that is not fenced (R390). -/
def World.putImage (w : World) (x : Ctx) (bl : List Blk) : World :=
  let ts := (List.range 8).filter (fun t => (maskCourses x.mask.toNat).any (fun c => c / 12 == t) && !w.d.fenced t)
  ts.foldl (fun w t => (bl.zipIdx).foldl (fun w e => w.putBlk (nearAddr t (x.tabOff + 512 * e.2)) e.1.data 0) w) w

/-- Steps 2 to 4 of R564: what is refused before the image is written. -/
def loadRefusal (x : Ctx) (b : List Byte) : Option (W16 × W16) :=
  let h := tabHdr (b.take 256)
  if b.length < h.imageLen then some (stBadLength, 40)
  else if h.magic ≠ 0x4241544C then some (stBadParam, 32)
  else if h.format ≠ 1 then some (stBadParam, 36)
  else if h.headerLen ≠ 256 then some (stBadParam, 38)
  else if !h.crcOk then some (stBadParam, 284)
  else if x.tabSpace < h.imageLen then some (stNoMemory, 40)
  else if x.st = .parked ∧ h.positions ≤ x.pos then some (stBadParam, 56)
  else none

/-- The work of CTX_LOAD_TAB once it starts. -/
def World.goCtxLoadTab (w : World) (h : HostCmd) : World :=
  let i := h.ctx.toNat
  w.inState h 0x102 (fun x => x.kind != 2 && (x.st == .loaded || x.st == .parked)) (fun x w =>
    let b := payloadBytes h.payload
    let invalid (w : World) : World := w.onDev (fun d => d.onCtx i (fun x => { x with tabValid := false }))
    match loadRefusal x b with
    | some (st, det) => (invalid w).answer h 0x102 st det
    | none =>
      let hd := tabHdr (b.take 256)
      let n := ceilDiv hd.imageLen 512
      let w := w.putImage x (h.payload.take n)
      let w := w.onDev (fun d =>
        let d := if x.st = .parked then d.idleSlots i else d
        d.onCtx i (fun x => { x with
          tabValid := false, kind := if 1 < hd.size then 1 else 0, tabMask := BitVec.ofNat 96 hd.mask &&& x.mask,
          pos := if x.st = .loaded then 0 else x.pos, hwStatus := 0,
          tabDigest := shake256 32 (b.take (512 * n)) }))
      match w.validate (w.d.ctx i) (fun a k => slice b a k) with
      | some r => (invalid w).reply h 0x102 r.status r.detail r.param []
      | none => (w.onDev (fun d => d.onCtx i (fun x => { x with tabValid := true }))).answer h 0x102 stOk 0)

def doCtxLoadTab (h : HostCmd) (w : World) : World :=
  w.admitCmd h (ctxSpec 0x102 [0, 1, 2, 3] (fun n => decide (1 ≤ n))) (fun w => w.goCtxLoadTab h)

/-! ## CTX_START, CTX_RESUME (R392) -/

/-- START_FRET as given and as taken: 0 is the next fret for a context that is not of KIND 1. Only a context of KIND 1 is refused
for one that is not more than 8 frets ahead (DEDUCED, log 9). -/
def Dev.startFretOf (d : Dev) (x : Ctx) (f : Nat) : Option Nat :=
  if x.kind ≠ 1 ∧ f = 0 then some (d.fretNum + 1)
  else if x.kind ≠ 1 ∨ d.fretNum + 8 < f then some f
  else none

/-- Whether another context of KIND 1 with a course in common is running (R392). -/
def Dev.rival (d : Dev) (i : Nat) : Bool :=
  let x := d.ctx i
  x.kind == 1 && d.ctxs.any (fun e => decide (e.1 ≠ i) && e.2.kind == 1 && e.2.active && (e.2.mask &&& x.mask) != 0)

/-- The checks of a start or resumption; the context then enters RUNNABLE by the given change. -/
def World.startCtx (w : World) (h : HostCmd) (op : Nat) (f : Nat → Ctx → Ctx) (pre : Dev → Dev) : World :=
  let i := h.ctx.toNat
  let x := w.d.ctx i
  match w.d.startFretOf x (pair h.p0 h.p1) with
  | none => w.badParam h op 0
  | some n =>
    if w.d.rival i then w.answer h op stContextState 4
    else match (if x.kind = 2 then none else w.validateLoaded x) with
      | some r => w.reply h op (if x.hwStatus = 0 then r.status else x.hwStatus) r.detail r.param []
      | none => (w.onDev (fun d => (pre d).onCtx i (f n))).answer h op stOk 0

/-- The work of CTX_START once it starts. -/
def World.goCtxStart (w : World) (h : HostCmd) : World :=
  w.inState h 0x103 (fun x => x.st == .loaded && x.tabValid) (fun _ w =>
    w.startCtx h 0x103
      (fun n x => { x with
        st := .runnable, pos := 0, passes := 0, startFret := n, parkPos := none, stop := none, begun := false, posOpen := false,
        ran := false, fresh := x.mask, win := [] })
      (fun d => d.dropResident h.ctx.toNat))

/-- START_FRET of a context that CTX_START or CTX_RESUME would take (R392). -/
def startBad (d : Dev) (h : HostCmd) : Option Nat :=
  let x := d.ctx h.ctx.toNat
  firstParam [((x.st == .loaded || x.st == .parked) && x.tabValid && (d.startFretOf x (pair h.p0 h.p1)).isNone, 0)]

def doCtxStart (h : HostCmd) (w : World) : World :=
  w.admitCmd h { ctxSpec 0x103 [2, 3] noPayload with bad := startBad } (fun w => w.goCtxStart h)

/-- The work of CTX_RESUME once it starts. -/
def World.goCtxResume (w : World) (h : HostCmd) : World :=
  w.inState h 0x105 (fun x => x.st == .parked && x.tabValid) (fun _ w =>
    w.startCtx h 0x105
      (fun n x => { x with
        st := .runnable, startFret := n, parkPos := none, stop := none, begun := false, posOpen := false, ran := false })
      id)

def doCtxResume (h : HostCmd) (w : World) : World :=
  w.admitCmd h { ctxSpec 0x105 [2, 3] noPayload with bad := startBad } (fun w => w.goCtxResume h)

/-! ## CTX_PARK, CTX_DESTROY, CTX_QUERY (R391, R393) -/

/-- AT_POS of a context that runs: 0, but not for one of KIND 1, or above POS (R393). -/
def parkBad (d : Dev) (h : HostCmd) : Option Nat :=
  let x := d.ctx h.ctx.toNat
  let p := pair h.p0 h.p1
  firstParam [(x.active && ((decide (p = 0) && decide (x.kind = 1)) || (decide (p ≠ 0) && decide (p ≤ x.pos))), 0)]

/-- The work of CTX_PARK once it starts. -/
def World.goCtxPark (w : World) (h : HostCmd) : World :=
  w.inState h 0x104 (fun x => x.active) (fun _ w => w.onParams h 0x104 parkBad (fun w =>
    (w.accept h 0x104).onDev (fun d => d.onCtx h.ctx.toNat (fun x => { x with parkPos := some (pair h.p0 h.p1) }))))

def doCtxPark (h : HostCmd) (w : World) : World :=
  w.admitCmd h { ctxSpec 0x104 [2, 3] noPayload with bad := parkBad } (fun w => w.goCtxPark h)

/-- The work of CTX_DESTROY once it starts. -/
def World.goCtxDestroy (w : World) (h : HostCmd) : World :=
  w.inState h 0x106 (fun _ => true) (fun x w =>
    let i := h.ctx.toNat
    let w := (w.accept h 0x106).onDev (fun d => d.onCtx i (fun x => { x with destroy := some (h.port, h.tag) }))
    let w := if x.kind = 2 then
        w.endService i stContextState
      else w
    if x.active then w else w.onDev (fun d => d.destroyCtx i))

def doCtxDestroy (h : HostCmd) (w : World) : World :=
  w.admitCmd h (ctxSpec 0x106 [0, 1, 2, 3] noPayload) (fun w => w.goCtxDestroy h)

/-- The work of CTX_QUERY once it starts. -/
def World.goCtxQuery (w : World) (h : HostCmd) : World :=
  w.reply h 0x107 stOk 0 0 [mkBlk (w.d.descriptor h.ctx.toNat)]

def doCtxQuery (h : HostCmd) (w : World) : World :=
  w.admitCmd h (ctxSpec 0x107 [0, 1, 2, 3] noPayload) (fun w => w.goCtxQuery h)

/-! ## The commands -/

/-- CTX_CREATE (R391). -/
def execCtxCreate (h : HostCmd) (s : State) : Host.Outcome State Fault Refusal :=
  runLive s (doCtxCreate h)

/-- CTX_LOAD_TAB (R564). -/
def execCtxLoadTab (h : HostCmd) (s : State) : Host.Outcome State Fault Refusal :=
  runLive s (doCtxLoadTab h)

/-- CTX_START (R392). -/
def execCtxStart (h : HostCmd) (s : State) : Host.Outcome State Fault Refusal :=
  runLive s (doCtxStart h)

/-- CTX_PARK (R393). -/
def execCtxPark (h : HostCmd) (s : State) : Host.Outcome State Fault Refusal :=
  runLive s (doCtxPark h)

/-- CTX_RESUME (R392). -/
def execCtxResume (h : HostCmd) (s : State) : Host.Outcome State Fault Refusal :=
  runLive s (doCtxResume h)

/-- CTX_DESTROY (R391). -/
def execCtxDestroy (h : HostCmd) (s : State) : Host.Outcome State Fault Refusal :=
  runLive s (doCtxDestroy h)

/-- CTX_QUERY (R391). -/
def execCtxQuery (h : HostCmd) (s : State) : Host.Outcome State Fault Refusal :=
  runLive s (doCtxQuery h)

end Sys2Proof.Machine
end

