-- ==== Sys2Proof/Machine/Services.lean ====
section
/-! DEFINITION. The service contexts: their commands, the retrieval scan and the checkpoint stream (R404 to R416). -/

namespace Sys2Proof.Machine

/-! ## Regions and fields -/

/-- A region entry of a checkpoint (R413): address, length, kind; and whether it is in range. -/
def regionAt (b : List Byte) (i : Nat) : Nat × Nat × Nat := (numAt b (32 * i) 8, numAt b (32 * i + 8) 8, numAt b (32 * i + 16) 4)

def regionUsed (b : List Byte) (i : Nat) : Bool := !zeroAt b (32 * i) (32 * i + 32)

def Dev.regionOk (d : Dev) (b : List Byte) (i : Nat) : Bool :=
  let (a, n, k) := regionAt b i
  a % 512 == 0 && n % 512 == 0 && decide (0 < n) && decide (1 ≤ k) && decide (k ≤ 5) && zeroAt b (32 * i + 20) (32 * i + 32) &&
  decide (tierOf a ≤ 3) && runOk (farBytes d) a n

/-- The first entry of a region table out of range, or a table with no region: a byte offset in the table. -/
def Dev.regionsBad (d : Dev) (b : List Byte) : Option Nat :=
  let used := (List.range 12).filter (regionUsed b)
  if used.isEmpty then some 0
  else (used.find? (fun i => !d.regionOk b i)).map (32 * ·)

/-- The bytes of a checkpoint stream: a header block, the regions, a trailer block (R412). -/
def streamLen (b : List Byte) : Nat :=
  1024 + ((List.range 12).filter (regionUsed b)).foldl (fun s i => s + (regionAt b i).2.1) 0

/-- Whether a far destination holds a stream. -/
def Dev.farDestOk (d : Dev) (off len : Nat) : Bool := off % 512 == 0 && decide (off + len ≤ farBytes d)

/-- The first byte of a SVC_START block of each service that is out of range (R406, R407, R412, R415). -/
def retrievalBad (b : List Byte) : Option Nat :=
  let fmt := numAt b 32 1
  let dim := numAt b 34 2
  let mask := numAt b 4 12
  let count (t : Nat) := numAt b (40 + 4 * t) 4
  let bytes (t : Nat) := count t * bytesFor fmt dim
  let total := (List.range 8).foldl (fun s t => s + count t) 0
  firstSome id
    ([ when_ (!(fmt == 9 || fmt == 1)) 32,
       when_ (decide (1 < numAt b 33 1)) 33,
       when_ (decide (dim < 32) || decide (4096 < dim) || dim % 32 != 0) 34,
       firstNonzero b 0 36 40,
       when_ (decide (2 ^ 32 ≤ total)) 40 ] ++
     (List.range 8).map (fun t => when_ (decide (count t ≠ 0) && !(maskCourses mask).any (fun c => c / 12 == t)) 4) ++
     (List.range 8).map (fun t => when_ (decide (2 ^ 35 < numAt b (72 + 8 * t) 8 + bytes t)) (72 + 8 * t)) ++
     (List.range 8).map (fun t =>
       let a := numAt b (136 + 8 * t) 8
       when_ (if numAt b 33 1 = 1 then decide (2 ^ 35 < a + 4 * count t) else a != 0) (136 + 8 * t)) ++
     [ when_ (numAt b 200 8 % 512 != 0 || decide (2 ^ 31 < numAt b 200 8 + 2 ^ 27)) 200,
       firstNonzero b 0 208 512 ])

def Dev.checkpointBad (d : Dev) (b : List Byte) : Option Nat :=
  let ctx := numAt b 32 2
  let tab := slice b 128 384
  let len := streamLen tab
  let f0 := numAt b 40 8
  let f1 := numAt b 48 8
  firstSome id
    [ firstNonzero b 0 16 32,
      when_ (decide (ctx < 16) || decide (10240 ≤ ctx)) 32,
      when_ (decide (3 < numAt b 34 1)) 34,
      when_ (numAt b 35 1 != 0) 35,
      when_ (numAt b 36 4 == 0) 36,
      when_ (!d.farDestOk f0 len) 40,
      when_ (!d.farDestOk f1 len || overlaps f0 len f1 len) 48,
      firstNonzero b 0 56 128,
      (d.regionsBad tab).map (128 + ·) ]

def World.digestBad (w : World) (b : List Byte) : Option Nat :=
  let ctx := numAt b 32 2
  let runs := numAt b 35 1
  let g := numAt b 36 2
  let ga := numAt b 40 8
  let runBad (r : Nat) : Option Nat :=
    let o := 64 + 24 * r
    let x := digestRun b r
    let far := decide (tierOf x.master = 3)
    firstSome id
      [ when_ (x.tree % 512 != 0 || !runOk 0 x.tree 512 || decide (2 < tierOf x.tree)) o,
        when_ (x.master % 512 != 0 || !(tierOf x.master == 2 || far) || !runOk (farBytes w.d) x.master (512 * x.blocks)) (o + 8),
        when_ (x.blocks == 0) (o + 16),
        when_ (decide (4 ≤ numAt b (o + 20) 1) || x.far != far) (o + 20),
        when_ (numAt b (o + 21) 1 != 0) (o + 21),
        when_ (if x.replicated then x.owner != 0xFFFF else decide (g ≤ x.owner)) (o + 22) ]
  firstSome id
    ([ when_ (numAt b 4 12 == 0) 4,
       when_ (decide (ctx < 16) || decide (10240 ≤ ctx)) 32,
       when_ (decide (3 < numAt b 34 1)) 34,
       when_ (runs == 0 || decide (16 < runs)) 35,
       when_ (decide (g < 2) || decide (1024 < g)) 36,
       firstNonzero b 0 38 40,
       when_ (ga % 512 != 0 || decide (tierOf ga ≠ 1) || !runOk 0 ga (2 * g) ||
         ((w.digestGroup b).filter (fun r => decide (r = w.d.hedge.rank))).length != 1) 40,
       firstNonzero b 0 48 64 ] ++
     (List.range runs).map runBad ++
     [ firstNonzero b 0 (64 + 24 * runs) 512 ])

/-! ## SVC_START, SVC_STOP, SVC_QUERY (R404 to R410) -/

def World.svcBad (w : World) (b : List Byte) : Option Nat :=
  let kind := numAt b 0 1
  let id_ := numAt b 2 2
  let own := match kind with
    | 1 => decide (8 ≤ id_) && decide (id_ ≤ 15)
    | 2 => id_ == 1
    | _ => id_ == 2
  match firstSome id
    [ when_ (kind == 0 || decide (3 < kind)) 0,
      when_ (decide (64 < numAt b 1 1)) 1,
      when_ (!own) 2,
      when_ (decide (kind ≠ 2) && decide (2 ^ 22 < numAt b 16 16)) 16 ] with
  | some o => some o
  | none => match kind with
    | 1 => retrievalBad b
    | 2 => w.d.checkpointBad b
    | _ => w.digestBad b

def doSvcStart (h : HostCmd) (w : World) : World :=
  w.admitCmd h { op := 0x501, ctx := false, unused := [0, 1, 2, 3], lenOk := oneBlock, custody := true, early := false } (fun w =>
    let b := payloadBytes h.payload
    match w.svcBad b with
    | some o => w.badByte h 0x501 o
    | none =>
      let i := numAt b 2 2
      let mask := BitVec.ofNat 96 (numAt b 4 12)
      if (maskCourses mask.toNat).any (fun c => w.d.fenced (c / 12)) then w.answer h 0x501 stStackDegraded 36
      else
        let runs := (w.d.svc i).active && (w.d.ctx i).active
        (w.onDev (fun d => if runs then d.onSvc i (fun s => { s with next := some b }) else d.configure i b)).answer h 0x501 stOk 0)

/-- The work of SVC_STOP once it starts. -/
def World.goSvcStop (w : World) (h : HostCmd) : World :=
  let i := h.ctx.toNat
  if 16 ≤ i then w.answer h 0x503 stBadParam 4
  else if !(w.d.svc i).active then w.answer h 0x503 stNoContext 0
  else
    let w := w.endService i stContextState
    (w.onDev (fun d => (d.dropResident i).onCtx i (fun _ => .init))).answer h 0x503 stOk 0

def doSvcStop (h : HostCmd) (w : World) : World :=
  w.admitCmd h { op := 0x503, ctx := true, unused := [0, 1, 2, 3], lenOk := noPayload, custody := false, early := false } (fun w => w.goSvcStop h)

/-- The fields of a query batch (R410). -/
structure Batch where
  inst : Nat
  queries : Nat
  k : Nat
  dest : Nat
  rank : Nat
  ctx : Nat
  window : Nat
  addr : Nat

def batchOf (b : List Byte) : Batch :=
  { inst := numAt b 0 2, queries := numAt b 2 2, k := numAt b 4 2, dest := numAt b 6 1, rank := numAt b 8 2, ctx := numAt b 10 2,
    window := numAt b 12 2, addr := numAt b 16 8 }

def Dev.batchBad (d : Dev) (b : List Byte) : Option Nat :=
  let q := batchOf b
  firstSome id
    [ when_ (decide (q.inst < 8) || decide (15 < q.inst)) 0,
      when_ (q.queries == 0 || decide (256 < q.queries)) 2,
      when_ (q.k == 0 || decide (1024 < q.k)) 4,
      when_ (decide (1 < q.dest)) 6,
      when_ (numAt b 7 1 != 0) 7,
      when_ (q.dest == 1 && (decide (d.hedge.size ≤ q.rank) || q.rank == d.hedge.rank)) 8,
      when_ (q.dest == 1 && decide (10240 ≤ q.ctx)) 10,
      firstNonzero b 0 14 16,
      when_ (q.dest == 1 && (q.addr % 512 != 0 || decide (2 < tierOf q.addr) ||
        !runOk 0 q.addr (512 * ceilDiv (8 * q.k * q.queries) 512))) 16,
      firstNonzero b 0 32 512 ]

def doSvcQuery (h : HostCmd) (w : World) : World :=
  w.admitCmd h { op := 0x502, ctx := false, unused := [0, 1, 2, 3], lenOk := fun n => decide (2 ≤ n), custody := false, early := false }
    (fun w =>
      let b := payloadBytes h.payload
      match w.d.batchBad (b.take 512) with
      | some o => w.badByte h 0x502 o
      | none =>
        let q := batchOf b
        let s := w.d.svc q.inst
        if !s.active then w.answer h 0x502 stNoContext 0
        else if h.payload.length ≠ 1 + ceilDiv (q.queries * bytesFor (numAt s.config 32 1) (numAt s.config 34 2)) 512 then
          w.answer h 0x502 stBadLength 8
        else if 4 ≤ s.queue.length then w.answer h 0x502 stHeld 0
        else w.onDev (fun d => d.onSvc q.inst (fun s => { s with queue := s.queue ++ [h] })))

/-! ## The scan (R408, R409) -/

/-- A score, as a word; none for a NaN, which is excluded. -/
def score (int : Bool) (l2 : Bool) (q x : List Val) (norm : Nat) : Option Nat :=
  let parts := pieces 128 (ceilDiv q.length 128) (q.zip x)
  if int then
    let dot := parts.foldl (fun s p => s + cellI32 p) 0
    some ((if l2 then 2 * dot + 2 ^ 32 - norm else dot) % 2 ^ 32)
  else
    let dot := (treeFold (addBy true) (parts.map (fun p => some (cellF32 (operandGroup 1 false false) p)))).getD 0
    let v := if l2 then ffma 0x40000000 dot (fneg norm) else dot
    if f32IsNan v then none else some v

/-- Whether the first of two entries (score, vector ID) comes before the second: the higher score, then the lower ID. -/
def entryBefore (int : Bool) (a b : Nat × Nat) : Bool :=
  let key (x : Nat) : Int := if int then signedOf 32 x else f32Key x
  decide (key b.1 < key a.1) || (decide (key a.1 = key b.1) && decide (a.2 < b.2))

/-- An entry inserted into a list in that order, which keeps its first k. -/
def insertEntry (int : Bool) (e : Nat × Nat) : Nat → List (Nat × Nat) → List (Nat × Nat)
  | 0, _ => []
  | _ + 1, [] => [e]
  | k + 1, x :: xs => if entryBefore int e x then e :: (x :: xs).take k else x :: insertEntry int e k xs

/-- The vectors of an index: ID, the address of its row, the address of its squared norm (R407). -/
def indexVectors (cfg : List Byte) : List (Nat × Nat × Nat) :=
  let row := bytesFor (numAt cfg 32 1) (numAt cfg 34 2)
  let count (t : Nat) := numAt cfg (40 + 4 * t) 4
  (List.range 8).flatMap (fun t =>
    let first := (List.range t).foldl (fun s u => s + count u) 0
    (List.range (count t)).map (fun i =>
      (first + i, deepAddr t (numAt cfg (72 + 8 * t) 8 + row * i), deepAddr t (numAt cfg (136 + 8 * t) 8 + 4 * i))))

/-- The blocks of the vectors of a tower. -/
def vectorBlocks (cfg : List Byte) (t : Nat) : List Nat :=
  blocksOf (deepAddr t (numAt cfg (72 + 8 * t) 8)) (numAt cfg (40 + 4 * t) 4 * bytesFor (numAt cfg 32 1) (numAt cfg 34 2))

/-- The movers of the service stream the vectors of every tower through its staging ring of 2^18 blocks (R407), from the start of the
ring in each batch (DESIGN CHOICE, log 84); poisoned blocks travel on as they are. -/
def World.stageIndex (w : World) (cfg : List Byte) : World :=
  (List.range 8).foldl (fun w t =>
    let bl := (vectorBlocks cfg t).zipIdx
    let w := w.carried t (w.poisonCount (bl.map (·.1)))
    (bl.drop (bl.length - 2 ^ 18)).foldl (fun w e =>
      let b := w.carry e.1
      w.putBlk (nearAddr t (numAt cfg 200 8 + 512 * (e.2 % 2 ^ 18))) b.data (blkSyn b)) w) w

/-- The blocks a scan reads, by tower. -/
def indexBlocks (cfg : List Byte) (t : Nat) : List Nat :=
  let n := numAt cfg (40 + 4 * t) 4
  vectorBlocks cfg t ++
  (if numAt cfg 33 1 = 1 then blocksOf (deepAddr t (numAt cfg (136 + 8 * t) 8)) (4 * n) else [])

/-- The k entries of one query, and the NaN scores left out. -/
def World.scan (w : World) (cfg : List Byte) (q : List Val) (k : Nat) : List (Nat × Nat) × Nat :=
  let fmt := numAt cfg 32 1
  let dim := numAt cfg 34 2
  let int := fmt == 9
  let l2 := numAt cfg 33 1 == 1
  (indexVectors cfg).foldl (fun s v =>
    let x := (w.plainRow fmt v.2.1 dim (maFlush fmt)).map (·.v)
    let norm := if !l2 then 0
      else if !int && w.poisoned (blockOf v.2.2) then f32Nan
      else leNat (readBytes w.mem v.2.2 4)
    match score int l2 q x norm with
    | some y => (insertEntry int (y, v.1) k s.1, s.2)
    | none => (s.1, s.2 + 1)) ([], 0)

/-- The rows of a query batch as values. -/
def queryRows (cfg : List Byte) (b : List Byte) (n : Nat) : List (List Val) :=
  let fmt := numAt cfg 32 1
  let dim := numAt cfg 34 2
  let row := bytesFor fmt dim
  (List.range n).map (fun i => (codesOf (elemBits fmt) dim (slice b (512 + row * i) row)).map (fun c => elemVal fmt (maFlush fmt c)))

/-- The result of one query as bytes: k entries, those without a vector filled as R409 gives. -/
def resultBytes (int : Bool) (k : Nat) (es : List (Nat × Nat)) : List Byte :=
  (es ++ List.replicate (k - es.length) ((if int then 0x80000000 else 0xFF800000), 0xFFFFFFFF)).flatMap (fun (e : Nat × Nat) =>
    leBytes 4 e.1 ++ leBytes 4 e.2)

/-- What a service sends from, in place of a line: the first course of its context (R410). -/
def svcJob (inst c : Nat) : Job :=
  { course := c, idx := 0, set := 0, ctx := inst, pos := 0, prog := 0, word := 0,
    ln := { offset := 0, unit := unitP2p, pred := 0, path := 0, dep := 0xFF, wcCompute := 0, wcXfer := 0, desc := 0, window := 0xFFFF } }

/-- A retrieval batch completes (R410). Blocks of the index that fail their check go on the ladder, and the batch waits. -/
def doRetrievalBatchDone (inst : Nat) (bad : List Nat) (w : World) : World :=
  let s := w.d.svc inst
  match s.queue with
  | [] => w
  | h :: rest =>
    if !(decide (8 ≤ inst) && decide (inst < 16) && s.active && (w.d.ctx inst).ran) then w
    else
      let cfg := s.config
      let fails := ((List.range 8).flatMap (indexBlocks cfg)).filter (w.failing bad)
      if !fails.isEmpty then
        fails.foldl (fun w a =>
          if w.d.ladders.any (fun l => l.block == a && !l.after) then w
          else w.climb 4 3 (12 * towerOf a) 0 inst 0 a) w
      else
        let b := payloadBytes h.payload
        let q := batchOf b
        let int := numAt cfg 32 1 == 9
        let rs := (queryRows cfg b q.queries).map (fun v => w.scan cfg v q.k)
        let nans := rs.foldl (fun n r => n + r.2) 0
        let out := mkBlks (rs.flatMap (fun r => resultBytes int q.k r.1))
        let w := (List.range 8).foldl (fun w t => w.consumed t (w.poisonCount (indexBlocks cfg t)) 1 inst) w
        let w := (w.stageIndex cfg).onDev (fun d => d.onSvc inst (fun s => { s with queue := rest }))
        let j := svcJob inst (firstCourse (w.d.ctx inst).mask.toNat)
        let w := if q.dest = 1 then w.sendBlocks j 1 q.rank q.ctx q.window 0 q.addr (out.map (fun x => (0, x))) else w
        w.reply h 0x502 stOk 0 (BitVec.ofNat 32 nans) (if q.dest = 1 then [] else out)

/-! ## The digest comparison (R331, R414) -/

/-- The digest service has compared the roots that its runs built, and bisected what differs. Repairs wait for the hold fret that the
warden asks for, with a length of 1 (R52, R331). -/
def doDigestCompare (differs : List DigestDiff) (w : World) : World :=
  let s := w.d.svc 2
  if !s.active || s.due.isEmpty || !(w.d.ctx 2).ran then w
  else
    let cfg := s.config
    let mine := differs.filter (fun e => s.due.contains e.run && w.digestDiffers cfg e)
    let ok := mine.filter (fun e => (w.digestFix cfg e).isSome)
    let w := w.onDev (fun d => d.onSvc 2 (fun s => { s with due := [], repairs := s.repairs ++ ok }))
    let w := if ok.isEmpty then w
      else (w.setFt (fun f => { f with wardenHold := if f.wardenHold = 0 then 1 else f.wardenHold })).setBit FT_HOLD_CAUSE 5
    if ok.length = mine.length then w
    else
      let ctx := numAt cfg 32 2
      let w := w.raise flagMismatch
      let w := w.onDev (fun d => d.stopCtx ctx .faulted stReplicaDiverged 0 0)
      w.log { entry 0x13 0xFF 0x7 with status := stReplicaDiverged, ctx := ctx, event := 0x803 }

/-! ## The checkpoint stream (R411 to R413) -/

/-- The work of CHECKPOINT once it starts. -/
def World.goCheckpoint (w : World) (h : HostCmd) : World :=
  let b := payloadBytes h.payload
  let tab := slice b 128 384
  let dest := numAt b 9 1
  let far := numAt b 16 8
  match firstSome id
    [ when_ (decide (3 < numAt b 8 1)) 8,
      when_ (decide (1 < dest)) 9,
      when_ (dest == 0 && !w.d.farDestOk far (streamLen tab)) 16,
      (w.d.regionsBad tab).map (128 + ·) ] with
  | some o => w.badByte h 0x504 o
  | none =>
    if (w.d.ctx h.ctx.toNat).st = .free then w.answer h 0x504 stNoContext 0
    else
      let k : Ckpt :=
        { ctx := h.ctx.toNat, slot := numAt b 8 1, pos := numAt b 0 8, dest := dest, far := far, regions := tab,
          job := some (h.port, h.tag), running := false, sent := false, total := 0, digest := [] }
      (w.accept h 0x504).onDev (fun d => { d with ckpts := d.ckpts ++ [k] })

def doCheckpoint (h : HostCmd) (w : World) : World :=
  w.admitCmd h { op := 0x504, ctx := true, unused := [0, 1, 2, 3], lenOk := oneBlock, custody := false, early := false } (fun w => w.goCheckpoint h)

/-- The blocks of a checkpoint's regions, in order. -/
def Ckpt.blocks (k : Ckpt) : List Nat :=
  ((List.range 12).filter (regionUsed k.regions)).flatMap (fun i =>
    let (a, n, _) := regionAt k.regions i
    runBlocks a (n / 512))

/-- The header block of a stream (R413). -/
def Dev.streamHeader (d : Dev) (m : Memory) (k : Ckpt) : List Byte :=
  let a := slotBase k.slot
  let t := ((List.range 8).find? (fun t => !d.fenced t)).getD 0
  let rec_ := readBytes m (nearAddr t (parRecord (d.slot k.slot).param)) 64
  padTo 512
    (leBytes 4 0x54534B43 ++ leBytes 2 1 ++ leBytes 2 k.ctx ++ leBytes 8 k.pos ++ leBytes 8 d.fretNum ++
     leBytes 2 d.hedge.rank ++ leBytes 2 d.hedge.size ++ leBytes 2 (d.fld IDENT_BUILD 31 16) ++ leBytes 1 k.slot ++
     leBytes 1 ((List.range 12).filter (regionUsed k.regions)).length ++
     rec_ ++ leBytes 2 (d.fld a 47 32) ++ leBytes 2 (d.fld a 63 48) ++ leBytes 1 (d.fld a 26 26) ++ leBytes 27 0 ++ k.regions)

/-- The trailer block of a stream: the digest takes its bytes 12 to 43 (log 62). -/
def streamTrailer (len : Nat) (digest : List Byte) : List Byte :=
  padTo 512 (leBytes 4 0x444E454B ++ leBytes 4 0 ++ leBytes 4 len ++ digest)

/-- The stream's requests: 128 blocks through one host port, the next 128 through the other (log 62). -/
def Dev.streamAsk (d : Dev) (k : Ckpt) (bl : List Blk) : Dev :=
  let op := if k.dest = 0 then 2 else 3
  let base := if k.dest = 0 then k.far else 0
  let at_ := bl.zipIdx.map (fun e => (base + 512 * e.2, some e.1))
  (List.range (ceilDiv at_.length 128)).foldl (fun d n =>
    d.farAsk (n % 2) whoStream k.ctx op false false ((at_.drop (128 * n)).take 128)) d

/-- Change the checkpoint whose stream runs. -/
def Dev.onStream (d : Dev) (f : Ckpt → Ckpt) : Dev := { d with ckpts := d.ckpts.map (fun k => if k.running then f k else k) }

/-- The stream that has been begun sends its blocks once every region block has been read and passes its check (R283, R413). -/
def World.streamGo (w : World) : World :=
  match w.d.ckpts.find? (fun k => k.running && !k.sent) with
  | none => w
  | some k =>
    let bl := k.blocks
    let near := bl.filter (fun a => decide (tierOf a ≠ 3))
    let fails := near.filter (w.failing [])
    if !fails.isEmpty then
      fails.foldl (fun w a =>
        if w.d.ladders.any (fun l => l.block == a && !l.after) then w else w.climb 0xF 0 0 0 k.ctx k.pos a) w
    else
      let got := bl.filterMap (fun a => if tierOf a = 3 then w.d.farBlk whoStream a else some (w.carry a))
      if got.length < bl.length then w
      else
        let w := (List.range 8).foldl (fun w t => w.carried t (w.poisonCount (near.filter (fun a => towerOf a == t)))) w
        let head := mkBlk (w.d.streamHeader w.mem k)
        let body := head :: got
        let len := streamLen k.regions
        let dig := shake256 32 (payloadBytes body ++ (streamTrailer len []).take 12)
        let all := body ++ [mkBlk (streamTrailer len dig)]
        w.onDev (fun d =>
          let d := (d.farDrop whoStream).onStream (fun k => { k with sent := true, total := len, digest := dig })
          d.streamAsk k all)

/-- At the boundary before its position, or at once for a parked context, a checkpoint begins to stream (R413, R416). -/
def doCheckpointStreamStart (ctx : Nat) (w : World) : World :=
  let x := w.d.ctx ctx
  let due (k : Ckpt) : Bool :=
    k.ctx == ctx && decide (k.pos = x.pos) && !x.posOpen && (x.active || x.st == .parked)
  if w.d.ckpts.any (·.running) then w
  else match w.d.ckpts.find? due with
    | none => w
    | some k =>
      let far := k.blocks.filter (fun a => decide (tierOf a = 3))
      let w := w.onDev (fun d => { d with ckpts := d.ckpts.map (fun q => if q = k then { q with running := true } else q) })
      let w := if far.isEmpty then w
        else w.onDev (fun d => d.farAsk 0 whoStream k.ctx 1 false false (far.map (fun a => (bitsOf a 41 0, none))))
      w.streamGo

/-- A stream ends: the hold is cleared with its checkpoint, CHECKPOINT_DONE is sent, and the service turns to its other
destination if the stream is good (R411, R413, R442). -/
def World.streamEnds (w : World) (st : W16) : World :=
  match w.d.ckpts.find? (·.running) with
  | none => w
  | some k =>
    let w := w.onDev (fun d =>
      let d := { d with ckpts := d.ckpts.filter (fun q => !q.running) }
      { d with hl := { d.hl with far := d.hl.far.filter (fun r => r.who != whoStream) } })
    let w := w.event 0x80D st 0 k.ctx [mkBlk (leBytes 8 k.total ++ k.digest)]
    match k.job with
    | some (p, t) => w.onDev (fun d => d.jobEnded p t st 0)
    | none => if st = stOk then w.onDev (fun d => d.onSvc 1 (fun s => { s with alt := 1 - s.alt })) else w

/-- The stream ends when its last block is acknowledged. -/
def World.streamAcked (w : World) : World :=
  if w.d.ckpts.any (fun k => k.running && k.sent) && !w.d.farBusy whoStream then w.streamEnds stOk else w

def doStreamAck (r : FarResp) (w : World) : World :=
  match w.d.farMatch r [0x03] with
  | none => w.stray r 0 stBlockCrc
  | some q =>
    let w := (w.onDev (fun d => d.farDone q)).farLatency r.latency
    if r.status = 2 then (w.stray r (q.addr 0) stPoisoned).streamEnds stPoisoned else w.streamAcked

/-- A command that waited for an earlier one starts (R431). -/
def World.goCmd (w : World) (op : Nat) (h : HostCmd) : World :=
  match op with
  | 0x101 => w.goCtxCreate h
  | 0x102 => w.goCtxLoadTab h
  | 0x103 => w.goCtxStart h
  | 0x104 => w.goCtxPark h
  | 0x105 => w.goCtxResume h
  | 0x106 => w.goCtxDestroy h
  | 0x107 => w.goCtxQuery h
  | 0x201 => w.goMemWrite h
  | 0x202 => w.goMemRead h []
  | 0x203 => w.goMemFill h
  | 0x204 => w.goMemCopy h
  | 0x401 => w.goFwStage h
  | 0x402 => w.goFwVerify h
  | 0x403 => w.goFwCommitAt h
  | 0x404 => w.goFwAbort h
  | 0x405 => w.goFwStatus h
  | 0x503 => w.goSvcStop h
  | 0x504 => w.goCheckpoint h
  | _ => w

/-- The commands that wait start, in order, where nothing before them stands in their way (R431). -/
def World.startHeld (w : World) : World :=
  w.d.hl.held.foldl (fun w j =>
    let before := w.d.hl.held.takeWhile (fun q => q != j)
    if w.d.mustWait before j.opcode j.h then w
    else (w.onDev (fun d => { d with hl := { d.hl with held := d.hl.held.filter (fun q => q != j) } })).goCmd j.opcode j.h) w

/-- What waits goes on: host commands on blocks and on one another, and the checkpoint stream. -/
def World.retry (w : World) : World := w.retryMem.startHeld.streamGo

def doReadData (r : FarResp) (w : World) : World := (doReadDataCore r w).retry
def doWriteAck (r : FarResp) (w : World) : World := (doWriteAckCore r w).streamAcked.retry

/-! ## The commands -/

/-- SVC_START (R406). -/
def execSvcStart (h : HostCmd) (s : State) : Host.Outcome State Fault Refusal :=
  runLive s (doSvcStart h)

/-- SVC_QUERY (R410). -/
def execSvcQuery (h : HostCmd) (s : State) : Host.Outcome State Fault Refusal :=
  runLive s (doSvcQuery h)

/-- SVC_STOP (R404). -/
def execSvcStop (h : HostCmd) (s : State) : Host.Outcome State Fault Refusal :=
  runLive s (doSvcStop h)

/-- CHECKPOINT (R411). -/
def execCheckpoint (h : HostCmd) (s : State) : Host.Outcome State Fault Refusal :=
  runLive s (doCheckpoint h)

/-- READ_DATA (R442). -/
def execReadData (r : FarResp) (s : State) : Host.Outcome State Fault Refusal :=
  runLive s (doReadData r)

/-- WRITE_ACK (R443). -/
def execWriteAck (r : FarResp) (s : State) : Host.Outcome State Fault Refusal :=
  runLive s (doWriteAck r)

/-- STREAM_ACK (R440). -/
def execStreamAck (r : FarResp) (s : State) : Host.Outcome State Fault Refusal :=
  runLive s (doStreamAck r)

/-- CHECKPOINT_STREAM_START (R413). -/
def execCheckpointStreamStart (ctx : Nat) (s : State) : Host.Outcome State Fault Refusal :=
  runLive s (doCheckpointStreamStart ctx)

/-- BLOCK_REREAD_DONE (R287). -/
def execBlockRereadDone (block : Nat) (ok : Bool) (s : State) : Host.Outcome State Fault Refusal :=
  runLive s (fun w => (doBlockRereadDone block ok w).retry)

/-- LADDER_VERDICT (R287). -/
def execLadderVerdict (block : Nat) (rereadOk : Bool) (s : State) : Host.Outcome State Fault Refusal :=
  runLive s (fun w => (doLadderVerdict block rereadOk w).retry)

/-- BUNDLE_RETRAIN_DONE (R493). -/
def execBundleRetrainDone (t : Fin 8) (s : State) : Host.Outcome State Fault Refusal :=
  runLive s (fun w => (doBundleRetrainDone t w).retry)

/-- DIGEST_COMPARE (R331). -/
def execDigestCompare (differs : List DigestDiff) (s : State) : Host.Outcome State Fault Refusal :=
  runLive s (doDigestCompare differs)

/-- RETRIEVAL_BATCH_DONE (R410). -/
def execRetrievalBatchDone (inst : Nat) (bad : List Nat) (s : State) : Host.Outcome State Fault Refusal :=
  runLive s (doRetrievalBatchDone inst bad)

/-- COMMAND_DONE (R433); the commands that waited for it start (R431). -/
def execCommandDone (port : Fin 2) (tag : W16) (bad : List Nat) (s : State) : Host.Outcome State Fault Refusal :=
  runLive s (fun w => (doCommandDone port tag bad w).retry)

end Sys2Proof.Machine
end

