-- ==== Sys2Proof/Machine/Board.lean ====
section
/-! DEFINITION. Events and packets that are turned away (R427, R428, R437, R438), and the board: the leak pin, the SMBus target
and the boundary-scan port (R514, R558, R559). -/

namespace Sys2Proof.Machine

/-! ## Events (R437, R438) -/

/-- Room in the queue after a loss: EVENTS_LOST takes it. -/
def Dev.tellLost (d : Dev) : Dev :=
  let n := d.hl.lost
  if n = 0 then d else ({ d with hl := { d.hl with lost := 0 } }).event 0x814 stOk (sat16 n) 0xFFFF 0xFFFF []

/-- Whether an event must follow the final reply of a command that causes it: the verdict on a block that a MEM_READ still waits for
(R437). -/
def Dev.eventWaits (d : Dev) (e : Pkt) : Bool :=
  e.opcode == 0x806 && d.hl.jobs.any (fun j => j.opcode == 0x202 &&
    (cmdRuns 0x202 j.h).any (fun r => overlaps r.1 r.2 (farCanon (numAt (payloadBytes e.payload) 0 8)) 1))

def doEventSend (w : World) : World :=
  match w.d.eventPort, w.d.hl.events.find? (fun e => !w.d.eventWaits e) with
  | some p, some e =>
    w.onDev (fun d =>
      let seq := d.fld HL_EVENT_SEQ 31 0
      let d := { d with hl := { d.hl with events := d.hl.events.erase e } }
      let e := { e with param := BitVec.ofNat 32 seq }
      let d := (d.emit (.event p e)).sendHost (4 * p) e
      let d := (d.setFld HL_EVENT_SEQ 31 0 ((seq + 1) % 2 ^ 32)).count HL_EVENTS_SENT 63 0 1
      d.tellLost)
  | _, _ => w

/-! ## Control packets that run no command (R427, R428) -/

/-- The opcodes of R434. -/
def listedOpcodes : List Nat :=
  [0x001, 0x002, 0x003, 0x004, 0x005, 0x006, 0x101, 0x102, 0x103, 0x104, 0x105, 0x106, 0x107, 0x201, 0x202, 0x203, 0x204, 0x205,
   0x301, 0x302, 0x303, 0x304, 0x305, 0x401, 0x402, 0x403, 0x404, 0x405, 0x501, 0x502, 0x503, 0x504, 0x601, 0x602, 0x603, 0x604]

/-- A reply that echoes bytes 2 to 7 of the header as received. -/
def Dev.echoReply (d : Dev) (port : Nat) (b : List Byte) (st det : W16) : Dev :=
  d.sendReply port
    { typ := 2, opcode := BitVec.ofNat 16 (numAt b 2 2), ctx := BitVec.ofNat 16 (numAt b 4 2), tag := BitVec.ofNat 16 (numAt b 6 2),
      status := st, detail := det, fret := BitVec.ofNat 64 d.fretNum, param := 0, p0 := 0, p1 := 0, p2 := 0, p3 := 0, payload := [] }

def doBadControlPacket (quarter : Fin 8) (bytes : List Byte) (w : World) : World :=
  let b := padTo 32 bytes
  let q := quarter.val
  let main := q % 4 == 0
  if !w.d.linkUp (24 + q) then w
  else if numAt b 28 4 ≠ (crc32c (b.take 28)).toNat then
    let w := w.count HL_HDR_CRC 63 0 1
    if main then w.onDev (fun d => d.echoReply (q / 4) b stBadHeaderCrc 28) else w.count HL_STRAY 63 0 1
  else if !main || numAt b 0 1 != 1 then w.count HL_STRAY 63 0 1
  else if numAt b 1 1 ≠ 1 then w.onDev (fun d => d.echoReply (q / 4) b stBadParam 1)
  else if !listedOpcodes.contains (numAt b 2 2) then w.onDev (fun d => d.echoReply (q / 4) b stBadOpcode 2)
  else w

/-! ## LEAK_N (R514, R563) -/

/-- LEAK_N falls: the pin is read into THM_DEVICE.LEAK, and ALERT_N follows; with no domain running nothing else happens. -/
def doLeak (w : World) : World :=
  let was := w.d.board.leak
  let w := w.onDev (fun d => { d with board := { d.board with leak := true } })
  if w.d.level = .powerOn then w
  else
    let w := w.onDev (fun d => (d.setFld THM_DEVICE 8 8 1).alert)
    if was then w else w.log { entry 0x46 0xFF 0x15 with index := 0xFFFF }

/-! ## The SMBus target (R558) -/

def World.smb (w : World) (b : List Byte) : World := w.emit (.smb b)

def doSmbIdent (w : World) : World := w.smb (leBytes 8 (rget w.d.regs IDENT_DEVICE).toNat ++ w.d.serial)

/-- The highest zone value of the sensors that count (R528), as its 16 bits; none when no sensor counts. -/
def Dev.topZone (d : Dev) : Option Nat :=
  ((List.range 368).filterMap (fun i =>
    let a := THM_SENSOR (i / 46) (i % 46)
    if d.fld a 3 0 = 0 then some (d.fld a 63 48) else none)).foldl (fun m z => match m with
      | none => some z
      | some x => if signedOf 16 x < signedOf 16 z then some z else some x) none

def doSmbStatus (w : World) : World :=
  let d := w.d
  let head := leBytes 1 (d.fld THM_DEVICE 5 4) ++ leBytes 1 (d.fld THM_DEVICE 3 2) ++
    leBytes 1 (d.fld HL_STATUS 9 9 + (if d.board.leak then 2 else 0) + (if d.railAlert then 4 else 0)) ++ leBytes 1 0
  let tail := leBytes 2 (d.fld PWR_INPUT 15 0)
  match d.topZone with
  | some z => w.smb (head ++ leBytes 2 z ++ tail)
  | none =>
    let z := (Config.freeValue d.free).toNat % 2 ^ 16
    (w.onDev (fun d => { d with free := d.free + 1 })).smb (head ++ leBytes 2 z ++ tail)

def doSmbInput (w : World) : World :=
  w.smb (leBytes 2 (w.d.fld PWR_INPUT 47 32) ++ leBytes 2 (w.d.fld PWR_INPUT 31 16) ++ leBytes 2 (w.d.fld PWR_INPUT 15 0))

def doSmbCause (w : World) : World :=
  let last := if w.d.fld HL_STATUS 9 9 = 1 then w.d.fld (WD w.d.custodyTower + 0x18) 15 0 else 0
  w.smb (leBytes 2 last ++ leBytes 4 w.d.allCauses)

/-! ## The boundary-scan port (R559) -/

/-- The bits that a scan of the pins captures: the map of cells to pins is the Module Drawing Set's, so they are free (log 3). -/
def World.freeBits (w : World) (n : Nat) : World × List Bool :=
  let bits := (List.range n).map (fun i => (Config.freeValue (w.d.free + i / 64)).getLsbD (i % 64))
  (w.onDev (fun d => { d with free := d.free + ceilDiv n 64 }), bits)

def World.tap (w : World) (f : Board → Board) : World := w.onDev (fun d => { d with board := f d.board })

/-- BYPASS: one bit for each of the eight root dies, captured as 0, between TDI and TDO. -/
def doJtagBypass (tdi : List Bool) (w : World) : World :=
  let chain := List.replicate 8 false ++ tdi
  (w.tap (fun b => { b with tapInstr := 0, bypass := chain.drop tdi.length })).emit (.jtag (chain.take tdi.length))

/-- The IDCODE of a root die, bit 0 first. -/
def idcodeBits : List Bool :=
  (List.range 32).map (fun i => ((0x10740000 : W32) + Config.idcode.zeroExtend 32).getLsbD i)

def doJtagIdcode (w : World) : World :=
  (w.tap (fun b => { b with tapInstr := 1 })).emit (.jtag ((List.replicate 8 idcodeBits).flatten))

def doJtagSamplePreload (bits : List Bool) (w : World) : World :=
  let (w, out) := w.freeBits bits.length
  (w.tap (fun b => { b with tapInstr := 2, cells := bits })).emit (.jtag out)

/-- EXTEST drives the sideband pins and the lanes from the scan cells; what is captured is shifted out. -/
def doJtagExtest (w : World) : World :=
  let (w, out) := w.freeBits w.d.board.cells.length
  (w.tap (fun b => { b with tapInstr := 3 })).emit (.jtag out)

def doJtagTrst (w : World) : World := w.tap (fun b => { b with tapInstr := 1, bypass := [] })

/-! ## The commands -/

/-- EVENT_SEND (R437). -/
def execEventSend (s : State) : Host.Outcome State Fault Refusal :=
  runLive s doEventSend

/-- LEAK (R514). -/
def execLeak (s : State) : Host.Outcome State Fault Refusal :=
  run s doLeak

/-- SMB_IDENT (R558). -/
def execSmbIdent (s : State) : Host.Outcome State Fault Refusal :=
  runLive s doSmbIdent

/-- SMB_STATUS (R558). -/
def execSmbStatus (s : State) : Host.Outcome State Fault Refusal :=
  runLive s doSmbStatus

/-- SMB_INPUT (R558). -/
def execSmbInput (s : State) : Host.Outcome State Fault Refusal :=
  runLive s doSmbInput

/-- SMB_CAUSE (R558). -/
def execSmbCause (s : State) : Host.Outcome State Fault Refusal :=
  runLive s doSmbCause

/-- JTAG_BYPASS (R559). -/
def execJtagBypass (tdi : List Bool) (s : State) : Host.Outcome State Fault Refusal :=
  run s (doJtagBypass tdi)

/-- JTAG_IDCODE (R559). -/
def execJtagIdcode (s : State) : Host.Outcome State Fault Refusal :=
  run s doJtagIdcode

/-- JTAG_SAMPLE_PRELOAD (R559). -/
def execJtagSamplePreload (bits : List Bool) (s : State) : Host.Outcome State Fault Refusal :=
  run s (doJtagSamplePreload bits)

/-- JTAG_EXTEST (R559). -/
def execJtagExtest (s : State) : Host.Outcome State Fault Refusal :=
  run s doJtagExtest

/-- JTAG_TRST (R559). -/
def execJtagTrst (s : State) : Host.Outcome State Fault Refusal :=
  run s doJtagTrst

/-- BAD_CONTROL_PACKET (R427). -/
def execBadControlPacket (quarter : Fin 8) (bytes : List Byte) (s : State) : Host.Outcome State Fault Refusal :=
  runLive s (doBadControlPacket quarter bytes)

end Sys2Proof.Machine
end

