-- ==== Sys2Proof/Machine/Routine.lean ====
section
/-! DEFINITION. The routine engine at work, one command for each instruction, and SET_PRED (R84, R142 to R156, R163). -/

namespace Sys2Proof.Machine

def unitCc : Nat := 8
def unitSetPred : Nat := 9

def boolWord (b : Bool) : W64 := if b then 1 else 0

/-! ## The engine -/

/-- The words of instructions, as their command names them (R148). -/
def encT (op : Nat) (rd ra rb : Fin 32) : Nat := (op <<< 26) + (rd.val <<< 21) + (ra.val <<< 16) + (rb.val <<< 11)
def encI (op : Nat) (rd ra : Fin 32) (imm : W16) : Nat := (op <<< 26) + (rd.val <<< 21) + (ra.val <<< 16) + imm.toNat
def encL (op : Nat) (count : Fin 4096) (body : BitVec 14) : Nat := (op <<< 26) + (count.val <<< 14) + body.toNat

def World.onRoutine (w : World) (c : Nat) (f : Option Routine) : World :=
  w.onDev (fun d => d.onCourse c (fun x => { x with routine := f }))

/-- The routine stops on a fault of CC_FAULT: its line completes and its context enters FAULTED (R152, R153). -/
def World.ccStop (w : World) (c : Nat) (r : Routine) (bit : Nat) : World × Option Job :=
  let w := w.setBit (CC_FAULT c) bit
  let pos := w.d.fld (CC_POS c r.set) 31 0
  let w := w.setReg (CC_FAULT_INFO c) (BitVec.ofNat 64 ((r.set <<< 48) + ((r.pc % 4096) <<< 32) + pos))
  (w.onRoutine c none, w.d.jobOf c r.line)

def World.ccFault (w : World) (c : Nat) (r : Routine) (bit : Nat) (status : W16) : World :=
  match w.ccStop c r bit with
  | (w, some j) => w.unitFault j status
  | (w, none) => w

def World.ccRefused (w : World) (c : Nat) (r : Routine) (addr : Nat) : World :=
  match w.ccStop c r 1 with
  | (w, some j) => w.addrRefused j addr
  | (w, none) => w

/-- Loop ends reached: the innermost loop whose body ends at the next index takes its next iteration or is left, its
iteration's cost counted (R149). -/
def ccLoopEnd : Nat → Routine → Routine
  | 0, r => r
  | fuel + 1, r =>
    match r.loops with
    | l :: rest =>
      if r.pc = l.after then
        let r := { r with cost := r.cost + 1 }
        if l.iter + 1 < l.count then { r with pc := l.first, loops := { l with iter := l.iter + 1 } :: rest }
        else ccLoopEnd fuel { r with loops := rest }
      else r
    | [] => r

/-- Before an instruction runs, the engine checks that R151 would accept it and that it is within the count (R152). -/
def World.ccCheck (w : World) (c : Nat) (r : Routine) : World :=
  if !ccInstrOk r.code r.wmask r.rmask r.pc then w.ccFault c r 4 stPlanMismatch
  else
    let cost := ((ccOp (ccOpcode (ccWord r.code r.pc))).map (·.cost)).getD 0
    if r.wc < r.cost + cost then w.ccFault c r 0 stPlanOverrun
    else w.onRoutine c (some r)

/-- The engine goes on to an index after the instruction at its pc. -/
def World.ccNext (w : World) (c : Nat) (r : Routine) (pc : Nat) (loops : List LoopSt) : World :=
  let cost := ((ccOp (ccOpcode (ccWord r.code r.pc))).map (·.cost)).getD 0
  w.ccCheck c (ccLoopEnd 5 { r with pc := pc, loops := loops, cost := r.cost + cost })

/-- The routine of a course, if its next instruction is the given word. -/
def Dev.ccAt (d : Dev) (c word : Nat) : Option Routine :=
  match (d.course c).routine with
  | some r => if r.pc < r.code.length ∧ ccWord r.code r.pc = word then some r else none
  | none => none

/-- A register instruction: rd takes a value computed from the registers. -/
def World.ccReg (w : World) (c word : Nat) (rd : Fin 32) (f : (Fin 32 → W64) → W64) : World :=
  match w.d.ccAt c word with
  | none => w
  | some r =>
    let v := f (fun k => w.d.sreg c r.set k.val)
    (w.onDev (fun d => d.setSreg c r.set rd.val v)).ccNext c r (r.pc + 1) r.loops

def World.ccT (w : World) (c op : Nat) (rd ra rb : Fin 32) (f : W64 → W64 → W64) : World :=
  w.ccReg c (encT op rd ra rb) rd (fun s => f (s ra) (s rb))

def World.ccI (w : World) (c op : Nat) (rd ra : Fin 32) (imm : W16) (f : W64 → W64) : World :=
  w.ccReg c (encI op rd ra imm) rd (fun s => f (s ra))

/-- A branch: the next index is the target if the test holds (R148). -/
def World.ccB (w : World) (c op : Nat) (ra rb : Fin 32) (off : W16) (p : W64 → W64 → Bool) : World :=
  match w.d.ccAt c (encI op ra rb off) with
  | none => w
  | some r =>
    let t := if p (w.d.sreg c r.set ra.val) (w.d.sreg c r.set rb.val) then r.pc + off.toNat else r.pc + 1
    w.ccNext c r t r.loops

def sext (imm : W16) : W64 := imm.signExtend 64
def zext (imm : W16) : W64 := imm.zeroExtend 64
def shamt (x : W64) : Nat := x.toNat % 64
def shimm (imm : W16) : Nat := imm.toNat % 64

def doCcAdd (c : Fin 96) (rd ra rb : Fin 32) (w : World) : World := w.ccT c.val 0x01 rd ra rb (· + ·)
def doCcSub (c : Fin 96) (rd ra rb : Fin 32) (w : World) : World := w.ccT c.val 0x02 rd ra rb (· - ·)
def doCcAnd (c : Fin 96) (rd ra rb : Fin 32) (w : World) : World := w.ccT c.val 0x03 rd ra rb (· &&& ·)
def doCcOr (c : Fin 96) (rd ra rb : Fin 32) (w : World) : World := w.ccT c.val 0x04 rd ra rb (· ||| ·)
def doCcXor (c : Fin 96) (rd ra rb : Fin 32) (w : World) : World := w.ccT c.val 0x05 rd ra rb (· ^^^ ·)
def doCcSll (c : Fin 96) (rd ra rb : Fin 32) (w : World) : World := w.ccT c.val 0x06 rd ra rb (fun a b => a <<< shamt b)
def doCcSrl (c : Fin 96) (rd ra rb : Fin 32) (w : World) : World := w.ccT c.val 0x07 rd ra rb (fun a b => a >>> shamt b)
def doCcSra (c : Fin 96) (rd ra rb : Fin 32) (w : World) : World := w.ccT c.val 0x08 rd ra rb (fun a b => a.sshiftRight (shamt b))
def doCcSlt (c : Fin 96) (rd ra rb : Fin 32) (w : World) : World := w.ccT c.val 0x09 rd ra rb (fun a b => boolWord (a.slt b))
def doCcSltu (c : Fin 96) (rd ra rb : Fin 32) (w : World) : World := w.ccT c.val 0x0A rd ra rb (fun a b => boolWord (a.ult b))
def doCcMul (c : Fin 96) (rd ra rb : Fin 32) (w : World) : World := w.ccT c.val 0x0B rd ra rb (· * ·)
def doCcMulhu (c : Fin 96) (rd ra rb : Fin 32) (w : World) : World :=
  w.ccT c.val 0x0C rd ra rb (fun a b => BitVec.ofNat 64 (a.toNat * b.toNat / 2 ^ 64))
def doCcMin (c : Fin 96) (rd ra rb : Fin 32) (w : World) : World := w.ccT c.val 0x0D rd ra rb (fun a b => if a.slt b then a else b)
def doCcMax (c : Fin 96) (rd ra rb : Fin 32) (w : World) : World := w.ccT c.val 0x0E rd ra rb (fun a b => if a.slt b then b else a)
def doCcAddi (c : Fin 96) (rd ra : Fin 32) (imm : W16) (w : World) : World := w.ccI c.val 0x10 rd ra imm (fun a => a + sext imm)
def doCcAndi (c : Fin 96) (rd ra : Fin 32) (imm : W16) (w : World) : World := w.ccI c.val 0x11 rd ra imm (fun a => a &&& zext imm)
def doCcOri (c : Fin 96) (rd ra : Fin 32) (imm : W16) (w : World) : World := w.ccI c.val 0x12 rd ra imm (fun a => a ||| zext imm)
def doCcXori (c : Fin 96) (rd ra : Fin 32) (imm : W16) (w : World) : World := w.ccI c.val 0x13 rd ra imm (fun a => a ^^^ zext imm)
def doCcSlli (c : Fin 96) (rd ra : Fin 32) (imm : W16) (w : World) : World := w.ccI c.val 0x14 rd ra imm (fun a => a <<< shimm imm)
def doCcSrli (c : Fin 96) (rd ra : Fin 32) (imm : W16) (w : World) : World := w.ccI c.val 0x15 rd ra imm (fun a => a >>> shimm imm)
def doCcSrai (c : Fin 96) (rd ra : Fin 32) (imm : W16) (w : World) : World :=
  w.ccI c.val 0x16 rd ra imm (fun a => a.sshiftRight (shimm imm))
def doCcLui (c : Fin 96) (rd : Fin 32) (imm : W16) (w : World) : World := w.ccI c.val 0x17 rd 0 imm (fun _ => sext imm <<< 16)
def doCcShlori (c : Fin 96) (rd ra : Fin 32) (imm : W16) (w : World) : World :=
  w.ccI c.val 0x18 rd ra imm (fun a => (a <<< 16) ||| zext imm)
def doCcFlt (c : Fin 96) (rd ra rb : Fin 32) (w : World) : World :=
  w.ccT c.val 0x28 rd ra rb (fun a b => boolWord (fp32Lt (a.toNat % 2 ^ 32) (b.toNat % 2 ^ 32)))
def doCcFle (c : Fin 96) (rd ra rb : Fin 32) (w : World) : World :=
  w.ccT c.val 0x29 rd ra rb (fun a b => boolWord (fp32Le (a.toNat % 2 ^ 32) (b.toNat % 2 ^ 32)))
def doCcFeq (c : Fin 96) (rd ra rb : Fin 32) (w : World) : World :=
  w.ccT c.val 0x2A rd ra rb (fun a b => boolWord (fp32Eq (a.toNat % 2 ^ 32) (b.toNat % 2 ^ 32)))
def doCcBeq (c : Fin 96) (ra rb : Fin 32) (off : W16) (w : World) : World := w.ccB c.val 0x30 ra rb off (fun a b => a == b)
def doCcBne (c : Fin 96) (ra rb : Fin 32) (off : W16) (w : World) : World := w.ccB c.val 0x31 ra rb off (fun a b => a != b)
def doCcBlt (c : Fin 96) (ra rb : Fin 32) (off : W16) (w : World) : World := w.ccB c.val 0x32 ra rb off (fun a b => a.slt b)
def doCcBge (c : Fin 96) (ra rb : Fin 32) (off : W16) (w : World) : World := w.ccB c.val 0x33 ra rb off (fun a b => !a.slt b)
def doCcBltu (c : Fin 96) (ra rb : Fin 32) (off : W16) (w : World) : World := w.ccB c.val 0x34 ra rb off (fun a b => a.ult b)
def doCcBgeu (c : Fin 96) (ra rb : Fin 32) (off : W16) (w : World) : World := w.ccB c.val 0x35 ra rb off (fun a b => !a.ult b)
def doCcJmp (c : Fin 96) (off : W16) (w : World) : World := w.ccB c.val 0x36 0 0 off (fun _ _ => true)

/-- HALT ends the routine; its line completes. -/
def doCcHalt (c : Fin 96) (w : World) : World :=
  match w.d.ccAt c.val 0 with
  | none => w
  | some r =>
    let w := w.onRoutine c.val none
    match w.d.jobOf c.val r.line with
    | some j => w.finish j
    | none => w

/-- LOOP opens its body. -/
def doCcLoop (c : Fin 96) (count : Fin 4096) (body : BitVec 14) (w : World) : World :=
  match w.d.ccAt c.val (encL 0x37 count body) with
  | none => w
  | some r =>
    w.ccNext c.val r (r.pc + 1)
      ({ first := r.pc + 1, after := r.pc + 1 + body.toNat, count := count.val + 1, iter := 0 } :: r.loops)

/-- FLAG raises TAB_FLAG_k (R156). -/
def doCcFlag (c : Fin 96) (imm : W16) (w : World) : World :=
  match w.d.ccAt c.val (encI 0x38 0 0 imm) with
  | none => w
  | some r => (w.raise (24 + imm.toNat % 8)).ccNext c.val r (r.pc + 1) r.loops

/-- TAB_MAX of the local contribution is at least `v` (R60, R61). -/
def Dev.raiseMax (d : Dev) (v : Nat) : Dev :=
  { d with ft := { d.ft with
      tabMax := BitVec.ofNat 16 (max d.ft.tabMax.toNat v), freshTabMax := BitVec.ofNat 16 (max d.ft.freshTabMax.toNat v) } }

/-- TMAX raises TAB_MAX to at least ra[15:0] (R156). -/
def doCcTmax (c : Fin 96) (rd ra rb : Fin 32) (w : World) : World :=
  match w.d.ccAt c.val (encT 0x39 rd ra rb) with
  | none => w
  | some r =>
    let v := (w.d.sreg c.val r.set ra.val).toNat % 2 ^ 16
    (w.onDev (fun d => d.raiseMax v)).ccNext c.val r (r.pc + 1) r.loops

/-- The special values of R150. -/
def Dev.special (d : Dev) (c : Nat) (r : Routine) (k : Nat) : Nat :=
  match k with
  | 0 => c
  | 1 => c % 12
  | 2 => c / 12
  | 3 => r.ctx
  | 4 => d.hedge.rank
  | 5 => d.fld (CC_POS c r.set) 63 0
  | 6 => (r.loops.head?.map (·.iter)).getD 0
  | _ => (tget { lineCount := 0, ptr := 0, pass := 0 } (d.course c).sets r.set).pass

def doCcRdsp (c : Fin 96) (rd ra : Fin 32) (imm : W16) (w : World) : World :=
  match w.d.ccAt c.val (encI 0x3A rd ra imm) with
  | none => w
  | some r =>
    let v := BitVec.ofNat 64 (w.d.special c.val r (imm.toNat % 8))
    (w.onDev (fun d => d.setSreg c.val r.set rd.val v)).ccNext c.val r (r.pc + 1) r.loops

/-! ## Loads and stores (R153, R163) -/

/-- What a routine's address reaches. -/
inductive CcPlace where
  | store | window | refused | misaligned
  deriving DecidableEq, Repr

/-- Whether a register of the register window has the access's width (R42). -/
def regWide (a : Nat) (wide : Bool) : Bool :=
  match regRow (offOf a) with
  | some r => r.wide == wide
  | none => false

def ccPlace (c ctx a n : Nat) : CcPlace :=
  let own := tierOf a == 0 && addrOk 0 a && courseOf a == c
  let win := tierOf a == 0xC && addrOk 0 a && decide (ctx < 16)
  if !own && !win then .refused
  else if a % n ≠ 0 then .misaligned
  else if own then .store
  else if regWide a (n == 8) then .window else .refused

/-- The value a load from a poisoned block returns: the low bits of 0x7FC0_0000_7FC0_0000. -/
def ccPoisonValue (n : Nat) : Nat := 0x7FC000007FC00000 % 2 ^ (8 * n)

/-- A load or store: `n` bytes at ra + sext(imm16); `st` for a store of rd. -/
def World.ccMem (w : World) (c op n : Nat) (st : Bool) (rd ra : Fin 32) (imm : W16) (bad : Bool) : World :=
  match w.d.ccAt c (encI op rd ra imm) with
  | none => w
  | some r =>
    let a := (w.d.sreg c r.set ra.val + sext imm).toNat
    let v := (w.d.sreg c r.set rd.val).toNat % 2 ^ (8 * n)
    let next (w : World) : World := w.ccNext c r (r.pc + 1) r.loops
    let load (w : World) (x : Nat) : World := next (w.onDev (fun d => d.setSreg c r.set rd.val (BitVec.ofNat 64 x)))
    match ccPlace c r.ctx a n with
    | .refused => w.ccRefused c r a
    | .misaligned => w.ccFault c r 2 stPlanMismatch
    | .window =>
      if st then
        match w.writeReg (offOf a) (BitVec.ofNat 64 v) with
        | some w => next w
        | none => w.ccRefused c r a
      else
        match w.d.readReg (offOf a) with
        | some x => load w x.toNat
        | none => w.ccRefused c r a
    | .store =>
      let b := blockOf a
      let bads := if bad then [b] else []
      if w.failing bads b then
        match w.d.jobOf c r.line with
        | some j => (w.checkBlocks j bads [b]).getD w
        | none => w
      else if w.poisoned b then
        let w := w.consumed (c / 12) 1 unitCc r.ctx
        if st then w.ccFault c r 3 stPlanMismatch else load w (ccPoisonValue n)
      else if st then next (w.put (.data a (leBytes n v)))
      else load w (leNat (readBytes w.mem a n))

def doCcLd (c : Fin 96) (rd ra : Fin 32) (imm : W16) (bad : Bool) (w : World) : World := w.ccMem c.val 0x20 8 false rd ra imm bad
def doCcLw (c : Fin 96) (rd ra : Fin 32) (imm : W16) (bad : Bool) (w : World) : World := w.ccMem c.val 0x21 4 false rd ra imm bad
def doCcSd (c : Fin 96) (rd ra : Fin 32) (imm : W16) (bad : Bool) (w : World) : World := w.ccMem c.val 0x22 8 true rd ra imm bad
def doCcSw (c : Fin 96) (rd ra : Fin 32) (imm : W16) (bad : Bool) (w : World) : World := w.ccMem c.val 0x23 4 true rd ra imm bad

/-! ## Starting a routine -/

/-- The bytes a consumer sees of `n` bytes at an address: those of a poisoned block are the canonical NaN (R284). -/
def World.seenBytes (w : World) (a n : Nat) : List Byte :=
  let bl := blocksOf a n
  if bl.any w.poisoned then
    ((bl.flatMap (fun b => if w.poisoned b then poisonData else w.blk b)).drop (a % 512)).take n
  else readBytes w.mem a n

/-- The engine at the start of a routine. -/
def ccStart (j : Job) (code : List W32) (h : CcHdr) : Routine :=
  { line := j.idx, set := j.set, ctx := j.ctx, code := code, wmask := h.wmask, rmask := h.rmask,
    pc := 0, cost := 0, wc := j.ln.wcCompute, loops := [] }

/-- Work start of a CC routine line: the engine fetches the code (R147, R151). -/
def doCcRoutine (k : Work) (w : World) : World :=
  match w.ready k.course.val k.line unitCc with
  | none => w
  | some j =>
    let c := j.course
    let a := j.ln.desc
    if (w.d.course c).routine.isSome then w
    else if !(tierOf a == 0 && addrOk 0 a && courseOf a == c) then
      w.ccRefused c (ccStart j [] { len := 0, wmask := 0, rmask := 0, reservedOk := true }) a
    else
      match w.checkBlocks j k.bad (blocksOf a 16) with
      | some w' => w'
      | none =>
        let h := ccHdr (w.seenBytes a 16)
        let n := min h.len 4096
        let bl := blocksOf a (16 + 4 * n)
        match w.checkBlocks j k.bad bl with
        | some w' => w'
        | none =>
          let code := ccWords n (w.seenBytes (a + 16) (4 * n))
          let w := w.consumed (c / 12) (w.poisonCount bl) unitCc j.ctx
          let w := w.progress j 1
          w.ccCheck c (ccStart j code h)

/-! ## SET_PRED -/

/-- The result of a SET_PRED condition (R84, R155) for a line that sees a drone word (R66). -/
def Dev.condition (d : Dev) (word : W128) (c set desc : Nat) : Bool :=
  if desc % 256 = 0 then wordFlag word (bitsOf desc 14 8)
  else
    let x := d.sreg c set (bitsOf desc 12 8)
    let y : W64 := if bitOf desc 16 then d.sreg c set (bitsOf desc 21 17)
      else (BitVec.ofNat 32 (bitsOf desc 63 32)).signExtend 64
    match bitsOf desc 15 13 with
    | 0 => x == y
    | 1 => x != y
    | 2 => x.slt y
    | 3 => !x.slt y
    | 4 => x.ult y
    | 5 => !x.ult y
    | 6 => x.getLsbD (y.toNat % 64)
    | _ => fp32Lt (x.toNat % 2 ^ 32) (y.toNat % 2 ^ 32)

/-- SET_PRED sets predicate PRED[1:0] of its set, and its line keeps the value for the lines after it (R83). -/
def doSetPred (c : Fin 96) (line : Nat) (w : World) : World :=
  match w.ready c.val line unitSetPred with
  | none => w
  | some j =>
    let v := w.d.condition j.word j.course j.set j.ln.desc
    let p := 16 + j.ln.pred % 4
    let w := w.setFld (CC_SET j.course j.set) p p (if v then 1 else 0)
    (w.onDev (fun d => d.onLine j.course j.idx (fun l => { l with wrote := some v }))).finish j

/-! ## The commands -/

/-- SET_PRED (R84). -/
def execSetPred (c : Fin 96) (line : Nat) (s : State) : Host.Outcome State Fault Refusal :=
  runLive s (doSetPred c line)

/-- CC_ROUTINE (R147). -/
def execCcRoutine (w : Work) (s : State) : Host.Outcome State Fault Refusal :=
  runWork s w (doCcRoutine w)

/-- CC_HALT (R149). -/
def execCcHalt (c : Fin 96) (s : State) : Host.Outcome State Fault Refusal :=
  runLive s (doCcHalt c)

/-- CC_ADD (R149). -/
def execCcAdd (c : Fin 96) (rd ra rb : Fin 32) (s : State) : Host.Outcome State Fault Refusal :=
  runLive s (doCcAdd c rd ra rb)

/-- CC_SUB (R149). -/
def execCcSub (c : Fin 96) (rd ra rb : Fin 32) (s : State) : Host.Outcome State Fault Refusal :=
  runLive s (doCcSub c rd ra rb)

/-- CC_AND (R149). -/
def execCcAnd (c : Fin 96) (rd ra rb : Fin 32) (s : State) : Host.Outcome State Fault Refusal :=
  runLive s (doCcAnd c rd ra rb)

/-- CC_OR (R149). -/
def execCcOr (c : Fin 96) (rd ra rb : Fin 32) (s : State) : Host.Outcome State Fault Refusal :=
  runLive s (doCcOr c rd ra rb)

/-- CC_XOR (R149). -/
def execCcXor (c : Fin 96) (rd ra rb : Fin 32) (s : State) : Host.Outcome State Fault Refusal :=
  runLive s (doCcXor c rd ra rb)

/-- CC_SLL (R149). -/
def execCcSll (c : Fin 96) (rd ra rb : Fin 32) (s : State) : Host.Outcome State Fault Refusal :=
  runLive s (doCcSll c rd ra rb)

/-- CC_SRL (R149). -/
def execCcSrl (c : Fin 96) (rd ra rb : Fin 32) (s : State) : Host.Outcome State Fault Refusal :=
  runLive s (doCcSrl c rd ra rb)

/-- CC_SRA (R149). -/
def execCcSra (c : Fin 96) (rd ra rb : Fin 32) (s : State) : Host.Outcome State Fault Refusal :=
  runLive s (doCcSra c rd ra rb)

/-- CC_SLT (R149). -/
def execCcSlt (c : Fin 96) (rd ra rb : Fin 32) (s : State) : Host.Outcome State Fault Refusal :=
  runLive s (doCcSlt c rd ra rb)

/-- CC_SLTU (R149). -/
def execCcSltu (c : Fin 96) (rd ra rb : Fin 32) (s : State) : Host.Outcome State Fault Refusal :=
  runLive s (doCcSltu c rd ra rb)

/-- CC_MUL (R149). -/
def execCcMul (c : Fin 96) (rd ra rb : Fin 32) (s : State) : Host.Outcome State Fault Refusal :=
  runLive s (doCcMul c rd ra rb)

/-- CC_MULHU (R149). -/
def execCcMulhu (c : Fin 96) (rd ra rb : Fin 32) (s : State) : Host.Outcome State Fault Refusal :=
  runLive s (doCcMulhu c rd ra rb)

/-- CC_MIN (R149). -/
def execCcMin (c : Fin 96) (rd ra rb : Fin 32) (s : State) : Host.Outcome State Fault Refusal :=
  runLive s (doCcMin c rd ra rb)

/-- CC_MAX (R149). -/
def execCcMax (c : Fin 96) (rd ra rb : Fin 32) (s : State) : Host.Outcome State Fault Refusal :=
  runLive s (doCcMax c rd ra rb)

/-- CC_ADDI (R149). -/
def execCcAddi (c : Fin 96) (rd ra : Fin 32) (imm : W16) (s : State) : Host.Outcome State Fault Refusal :=
  runLive s (doCcAddi c rd ra imm)

/-- CC_ANDI (R149). -/
def execCcAndi (c : Fin 96) (rd ra : Fin 32) (imm : W16) (s : State) : Host.Outcome State Fault Refusal :=
  runLive s (doCcAndi c rd ra imm)

/-- CC_ORI (R149). -/
def execCcOri (c : Fin 96) (rd ra : Fin 32) (imm : W16) (s : State) : Host.Outcome State Fault Refusal :=
  runLive s (doCcOri c rd ra imm)

/-- CC_XORI (R149). -/
def execCcXori (c : Fin 96) (rd ra : Fin 32) (imm : W16) (s : State) : Host.Outcome State Fault Refusal :=
  runLive s (doCcXori c rd ra imm)

/-- CC_SLLI (R149). -/
def execCcSlli (c : Fin 96) (rd ra : Fin 32) (imm : W16) (s : State) : Host.Outcome State Fault Refusal :=
  runLive s (doCcSlli c rd ra imm)

/-- CC_SRLI (R149). -/
def execCcSrli (c : Fin 96) (rd ra : Fin 32) (imm : W16) (s : State) : Host.Outcome State Fault Refusal :=
  runLive s (doCcSrli c rd ra imm)

/-- CC_SRAI (R149). -/
def execCcSrai (c : Fin 96) (rd ra : Fin 32) (imm : W16) (s : State) : Host.Outcome State Fault Refusal :=
  runLive s (doCcSrai c rd ra imm)

/-- CC_LUI (R149). -/
def execCcLui (c : Fin 96) (rd : Fin 32) (imm : W16) (s : State) : Host.Outcome State Fault Refusal :=
  runLive s (doCcLui c rd imm)

/-- CC_SHLORI (R149). -/
def execCcShlori (c : Fin 96) (rd ra : Fin 32) (imm : W16) (s : State) : Host.Outcome State Fault Refusal :=
  runLive s (doCcShlori c rd ra imm)

/-- CC_LD (R163). -/
def execCcLd (c : Fin 96) (rd ra : Fin 32) (imm : W16) (bad : Bool) (s : State) : Host.Outcome State Fault Refusal :=
  runLive s (doCcLd c rd ra imm bad)

/-- CC_LW (R163). -/
def execCcLw (c : Fin 96) (rd ra : Fin 32) (imm : W16) (bad : Bool) (s : State) : Host.Outcome State Fault Refusal :=
  runLive s (doCcLw c rd ra imm bad)

/-- CC_SD (R163). -/
def execCcSd (c : Fin 96) (rd ra : Fin 32) (imm : W16) (bad : Bool) (s : State) : Host.Outcome State Fault Refusal :=
  runLive s (doCcSd c rd ra imm bad)

/-- CC_SW (R163). -/
def execCcSw (c : Fin 96) (rd ra : Fin 32) (imm : W16) (bad : Bool) (s : State) : Host.Outcome State Fault Refusal :=
  runLive s (doCcSw c rd ra imm bad)

/-- CC_FLT (R149). -/
def execCcFlt (c : Fin 96) (rd ra rb : Fin 32) (s : State) : Host.Outcome State Fault Refusal :=
  runLive s (doCcFlt c rd ra rb)

/-- CC_FLE (R149). -/
def execCcFle (c : Fin 96) (rd ra rb : Fin 32) (s : State) : Host.Outcome State Fault Refusal :=
  runLive s (doCcFle c rd ra rb)

/-- CC_FEQ (R149). -/
def execCcFeq (c : Fin 96) (rd ra rb : Fin 32) (s : State) : Host.Outcome State Fault Refusal :=
  runLive s (doCcFeq c rd ra rb)

/-- CC_BEQ (R149). -/
def execCcBeq (c : Fin 96) (ra rb : Fin 32) (off : W16) (s : State) : Host.Outcome State Fault Refusal :=
  runLive s (doCcBeq c ra rb off)

/-- CC_BNE (R149). -/
def execCcBne (c : Fin 96) (ra rb : Fin 32) (off : W16) (s : State) : Host.Outcome State Fault Refusal :=
  runLive s (doCcBne c ra rb off)

/-- CC_BLT (R149). -/
def execCcBlt (c : Fin 96) (ra rb : Fin 32) (off : W16) (s : State) : Host.Outcome State Fault Refusal :=
  runLive s (doCcBlt c ra rb off)

/-- CC_BGE (R149). -/
def execCcBge (c : Fin 96) (ra rb : Fin 32) (off : W16) (s : State) : Host.Outcome State Fault Refusal :=
  runLive s (doCcBge c ra rb off)

/-- CC_BLTU (R149). -/
def execCcBltu (c : Fin 96) (ra rb : Fin 32) (off : W16) (s : State) : Host.Outcome State Fault Refusal :=
  runLive s (doCcBltu c ra rb off)

/-- CC_BGEU (R149). -/
def execCcBgeu (c : Fin 96) (ra rb : Fin 32) (off : W16) (s : State) : Host.Outcome State Fault Refusal :=
  runLive s (doCcBgeu c ra rb off)

/-- CC_JMP (R149). -/
def execCcJmp (c : Fin 96) (off : W16) (s : State) : Host.Outcome State Fault Refusal :=
  runLive s (doCcJmp c off)

/-- CC_LOOP (R149). -/
def execCcLoop (c : Fin 96) (count : Fin 4096) (body : BitVec 14) (s : State) : Host.Outcome State Fault Refusal :=
  runLive s (doCcLoop c count body)

/-- CC_FLAG (R156). -/
def execCcFlag (c : Fin 96) (imm : W16) (s : State) : Host.Outcome State Fault Refusal :=
  runLive s (doCcFlag c imm)

/-- CC_TMAX (R156). -/
def execCcTmax (c : Fin 96) (rd ra rb : Fin 32) (s : State) : Host.Outcome State Fault Refusal :=
  runLive s (doCcTmax c rd ra rb)

/-- CC_RDSP (R150). -/
def execCcRdsp (c : Fin 96) (rd ra : Fin 32) (imm : W16) (s : State) : Host.Outcome State Fault Refusal :=
  runLive s (doCcRdsp c rd ra imm)

end Sys2Proof.Machine
end

