-- ==== Sys2Proof/Machine/Dispatch.lean ====
section
/-! DEFINITION. One arm for each command: its meaning. -/

namespace Sys2Proof.Machine

def exec (i : Instr) (s : State) : Host.Outcome State Fault Refusal :=
  match i with
  | .identify h => Sys2Proof.Machine.execIdentify h s
  | .readReg h => Sys2Proof.Machine.execReadReg h s
  | .writeReg h => Sys2Proof.Machine.execWriteReg h s
  | .reset h => Sys2Proof.Machine.execReset h s
  | .attest h => Sys2Proof.Machine.execAttest h s
  | .sensorRead h => Sys2Proof.Machine.execSensorRead h s
  | .ctxCreate h => Sys2Proof.Machine.execCtxCreate h s
  | .ctxLoadTab h => Sys2Proof.Machine.execCtxLoadTab h s
  | .ctxStart h => Sys2Proof.Machine.execCtxStart h s
  | .ctxPark h => Sys2Proof.Machine.execCtxPark h s
  | .ctxResume h => Sys2Proof.Machine.execCtxResume h s
  | .ctxDestroy h => Sys2Proof.Machine.execCtxDestroy h s
  | .ctxQuery h => Sys2Proof.Machine.execCtxQuery h s
  | .memWrite h => Sys2Proof.Machine.execMemWrite h s
  | .memRead h bad => Sys2Proof.Machine.execMemRead h bad s
  | .memFill h => Sys2Proof.Machine.execMemFill h s
  | .memCopy h => Sys2Proof.Machine.execMemCopy h s
  | .farMap h => Sys2Proof.Machine.execFarMap h s
  | .hedgeJoin h => Sys2Proof.Machine.execHedgeJoin h s
  | .hedgeLeave h => Sys2Proof.Machine.execHedgeLeave h s
  | .fretConfig h => Sys2Proof.Machine.execFretConfig h s
  | .routeLoad h => Sys2Proof.Machine.execRouteLoad h s
  | .droneRaise h => Sys2Proof.Machine.execDroneRaise h s
  | .fwStage h => Sys2Proof.Machine.execFwStage h s
  | .fwVerify h => Sys2Proof.Machine.execFwVerify h s
  | .fwCommitAt h => Sys2Proof.Machine.execFwCommitAt h s
  | .fwAbort h => Sys2Proof.Machine.execFwAbort h s
  | .fwStatus h => Sys2Proof.Machine.execFwStatus h s
  | .svcStart h => Sys2Proof.Machine.execSvcStart h s
  | .svcQuery h => Sys2Proof.Machine.execSvcQuery h s
  | .svcStop h => Sys2Proof.Machine.execSvcStop h s
  | .checkpoint h => Sys2Proof.Machine.execCheckpoint h s
  | .bistRun h => Sys2Proof.Machine.execBistRun h s
  | .towerFence h => Sys2Proof.Machine.execTowerFence h s
  | .towerRestore h => Sys2Proof.Machine.execTowerRestore h s
  | .logRead h => Sys2Proof.Machine.execLogRead h s
  | .commandDone port tag bad => Sys2Proof.Machine.execCommandDone port tag bad s
  | .retrainFull port => Sys2Proof.Machine.execRetrainFull port s
  | .portDisable port on => Sys2Proof.Machine.execPortDisable port on s
  | .quarterRetrainFull q => Sys2Proof.Machine.execQuarterRetrainFull q s
  | .quarterDisable q on => Sys2Proof.Machine.execQuarterDisable q on s
  | .flush t => Sys2Proof.Machine.execFlush t s
  | .memFarBudgetWrite v => Sys2Proof.Machine.execMemFarBudgetWrite v s
  | .fhCtrlWrite v => Sys2Proof.Machine.execFhCtrlWrite v s
  | .fhWindowWrite v => Sys2Proof.Machine.execFhWindowWrite v s
  | .fretStart => Sys2Proof.Machine.execFretStart s
  | .holdLatch => Sys2Proof.Machine.execHoldLatch s
  | .settlePoint => Sys2Proof.Machine.execSettlePoint s
  | .guardBandStart damaged => Sys2Proof.Machine.execGuardBandStart damaged s
  | .droneFrameSend => Sys2Proof.Machine.execDroneFrameSend s
  | .fretMarkerSend copy => Sys2Proof.Machine.execFretMarkerSend copy s
  | .droneFrameRx port frame => Sys2Proof.Machine.execDroneFrameRx port frame s
  | .fretMarkerRx port m => Sys2Proof.Machine.execFretMarkerRx port m s
  | .leaderTakeover => Sys2Proof.Machine.execLeaderTakeover s
  | .leaderRealigned => Sys2Proof.Machine.execLeaderRealigned s
  | .fretConfigApply => Sys2Proof.Machine.execFretConfigApply s
  | .ctxStartFret ctx => Sys2Proof.Machine.execCtxStartFret ctx s
  | .lineLaunch c line => Sys2Proof.Machine.execLineLaunch c line s
  | .lineLateLaunch c line => Sys2Proof.Machine.execLineLateLaunch c line s
  | .lineComplete c line => Sys2Proof.Machine.execLineComplete c line s
  | .maProduct w => Sys2Proof.Machine.execMaProduct w s
  | .drain w => Sys2Proof.Machine.execDrain w s
  | .importNode w => Sys2Proof.Machine.execImportNode w s
  | .abSave w => Sys2Proof.Machine.execAbSave w s
  | .abRestore w => Sys2Proof.Machine.execAbRestore w s
  | .setPred c line => Sys2Proof.Machine.execSetPred c line s
  | .ccRoutine w => Sys2Proof.Machine.execCcRoutine w s
  | .ccHalt c => Sys2Proof.Machine.execCcHalt c s
  | .ccAdd c rd ra rb => Sys2Proof.Machine.execCcAdd c rd ra rb s
  | .ccSub c rd ra rb => Sys2Proof.Machine.execCcSub c rd ra rb s
  | .ccAnd c rd ra rb => Sys2Proof.Machine.execCcAnd c rd ra rb s
  | .ccOr c rd ra rb => Sys2Proof.Machine.execCcOr c rd ra rb s
  | .ccXor c rd ra rb => Sys2Proof.Machine.execCcXor c rd ra rb s
  | .ccSll c rd ra rb => Sys2Proof.Machine.execCcSll c rd ra rb s
  | .ccSrl c rd ra rb => Sys2Proof.Machine.execCcSrl c rd ra rb s
  | .ccSra c rd ra rb => Sys2Proof.Machine.execCcSra c rd ra rb s
  | .ccSlt c rd ra rb => Sys2Proof.Machine.execCcSlt c rd ra rb s
  | .ccSltu c rd ra rb => Sys2Proof.Machine.execCcSltu c rd ra rb s
  | .ccMul c rd ra rb => Sys2Proof.Machine.execCcMul c rd ra rb s
  | .ccMulhu c rd ra rb => Sys2Proof.Machine.execCcMulhu c rd ra rb s
  | .ccMin c rd ra rb => Sys2Proof.Machine.execCcMin c rd ra rb s
  | .ccMax c rd ra rb => Sys2Proof.Machine.execCcMax c rd ra rb s
  | .ccAddi c rd ra imm => Sys2Proof.Machine.execCcAddi c rd ra imm s
  | .ccAndi c rd ra imm => Sys2Proof.Machine.execCcAndi c rd ra imm s
  | .ccOri c rd ra imm => Sys2Proof.Machine.execCcOri c rd ra imm s
  | .ccXori c rd ra imm => Sys2Proof.Machine.execCcXori c rd ra imm s
  | .ccSlli c rd ra imm => Sys2Proof.Machine.execCcSlli c rd ra imm s
  | .ccSrli c rd ra imm => Sys2Proof.Machine.execCcSrli c rd ra imm s
  | .ccSrai c rd ra imm => Sys2Proof.Machine.execCcSrai c rd ra imm s
  | .ccLui c rd imm => Sys2Proof.Machine.execCcLui c rd imm s
  | .ccShlori c rd ra imm => Sys2Proof.Machine.execCcShlori c rd ra imm s
  | .ccLd c rd ra imm bad => Sys2Proof.Machine.execCcLd c rd ra imm bad s
  | .ccLw c rd ra imm bad => Sys2Proof.Machine.execCcLw c rd ra imm bad s
  | .ccSd c rd ra imm bad => Sys2Proof.Machine.execCcSd c rd ra imm bad s
  | .ccSw c rd ra imm bad => Sys2Proof.Machine.execCcSw c rd ra imm bad s
  | .ccFlt c rd ra rb => Sys2Proof.Machine.execCcFlt c rd ra rb s
  | .ccFle c rd ra rb => Sys2Proof.Machine.execCcFle c rd ra rb s
  | .ccFeq c rd ra rb => Sys2Proof.Machine.execCcFeq c rd ra rb s
  | .ccBeq c ra rb off => Sys2Proof.Machine.execCcBeq c ra rb off s
  | .ccBne c ra rb off => Sys2Proof.Machine.execCcBne c ra rb off s
  | .ccBlt c ra rb off => Sys2Proof.Machine.execCcBlt c ra rb off s
  | .ccBge c ra rb off => Sys2Proof.Machine.execCcBge c ra rb off s
  | .ccBltu c ra rb off => Sys2Proof.Machine.execCcBltu c ra rb off s
  | .ccBgeu c ra rb off => Sys2Proof.Machine.execCcBgeu c ra rb off s
  | .ccJmp c off => Sys2Proof.Machine.execCcJmp c off s
  | .ccLoop c count body => Sys2Proof.Machine.execCcLoop c count body s
  | .ccFlag c imm => Sys2Proof.Machine.execCcFlag c imm s
  | .ccTmax c rd ra rb => Sys2Proof.Machine.execCcTmax c rd ra rb s
  | .ccRdsp c rd ra imm => Sys2Proof.Machine.execCcRdsp c rd ra imm s
  | .veCopy w => Sys2Proof.Machine.execVeCopy w s
  | .veFill w => Sys2Proof.Machine.execVeFill w s
  | .veAdd w => Sys2Proof.Machine.execVeAdd w s
  | .veSub w => Sys2Proof.Machine.execVeSub w s
  | .veMul w => Sys2Proof.Machine.execVeMul w s
  | .veFma w => Sys2Proof.Machine.execVeFma w s
  | .veMin w => Sys2Proof.Machine.execVeMin w s
  | .veMax w => Sys2Proof.Machine.execVeMax w s
  | .veAbs w => Sys2Proof.Machine.execVeAbs w s
  | .veNeg w => Sys2Proof.Machine.execVeNeg w s
  | .veDiv w => Sys2Proof.Machine.execVeDiv w s
  | .veSqrt w => Sys2Proof.Machine.execVeSqrt w s
  | .veExp2 w => Sys2Proof.Machine.execVeExp2 w s
  | .veLog2 w => Sys2Proof.Machine.execVeLog2 w s
  | .veRecip w => Sys2Proof.Machine.execVeRecip w s
  | .veRsqrt w => Sys2Proof.Machine.execVeRsqrt w s
  | .veTanh w => Sys2Proof.Machine.execVeTanh w s
  | .veExp w => Sys2Proof.Machine.execVeExp w s
  | .veSilu w => Sys2Proof.Machine.execVeSilu w s
  | .veGelu w => Sys2Proof.Machine.execVeGelu w s
  | .veCmp w => Sys2Proof.Machine.execVeCmp w s
  | .veSelect w => Sys2Proof.Machine.execVeSelect w s
  | .veIadd w => Sys2Proof.Machine.execVeIadd w s
  | .veIsub w => Sys2Proof.Machine.execVeIsub w s
  | .veImul w => Sys2Proof.Machine.execVeImul w s
  | .veMaskgen w => Sys2Proof.Machine.execVeMaskgen w s
  | .veRsum w => Sys2Proof.Machine.execVeRsum w s
  | .veRmean w => Sys2Proof.Machine.execVeRmean w s
  | .veRmax w => Sys2Proof.Machine.execVeRmax w s
  | .veRmin w => Sys2Proof.Machine.execVeRmin w s
  | .veRsumsq w => Sys2Proof.Machine.execVeRsumsq w s
  | .veRargmax w => Sys2Proof.Machine.execVeRargmax w s
  | .veRargmin w => Sys2Proof.Machine.execVeRargmin w s
  | .veRlse w => Sys2Proof.Machine.execVeRlse w s
  | .veRmsStats w => Sys2Proof.Machine.execVeRmsStats w s
  | .veLnStats w => Sys2Proof.Machine.execVeLnStats w s
  | .veNormApply w => Sys2Proof.Machine.execVeNormApply w s
  | .veSmStats w => Sys2Proof.Machine.execVeSmStats w s
  | .veSmApply w => Sys2Proof.Machine.execVeSmApply w s
  | .veSmMerge w => Sys2Proof.Machine.execVeSmMerge w s
  | .veTopk w => Sys2Proof.Machine.execVeTopk w s
  | .veGather w => Sys2Proof.Machine.execVeGather w s
  | .veScatter w => Sys2Proof.Machine.execVeScatter w s
  | .moverCopy w => Sys2Proof.Machine.execMoverCopy w s
  | .moverCopy2d w => Sys2Proof.Machine.execMoverCopy2d w s
  | .moverFill w => Sys2Proof.Machine.execMoverFill w s
  | .moverScrub w => Sys2Proof.Machine.execMoverScrub w s
  | .p2pSend w => Sys2Proof.Machine.execP2pSend w s
  | .reduceScatter w => Sys2Proof.Machine.execReduceScatter w s
  | .allGather w => Sys2Proof.Machine.execAllGather w s
  | .allReduce w => Sys2Proof.Machine.execAllReduce w s
  | .allToAll w => Sys2Proof.Machine.execAllToAll w s
  | .scalarCollective w => Sys2Proof.Machine.execScalarCollective w s
  | .normCollective w => Sys2Proof.Machine.execNormCollective w s
  | .ueOpen w => Sys2Proof.Machine.execUeOpen w s
  | .ueUpdate w => Sys2Proof.Machine.execUeUpdate w s
  | .trustP1 w => Sys2Proof.Machine.execTrustP1 w s
  | .trustP2 w => Sys2Proof.Machine.execTrustP2 w s
  | .ueDigest w => Sys2Proof.Machine.execUeDigest w s
  | .steer w => Sys2Proof.Machine.execSteer w s
  | .flitDataRx link flit => Sys2Proof.Machine.execFlitDataRx link flit s
  | .flitLinkRx link flit m => Sys2Proof.Machine.execFlitLinkRx link flit m s
  | .flitScalarRx link flit m => Sys2Proof.Machine.execFlitScalarRx link flit m s
  | .flitTrainRx link flit => Sys2Proof.Machine.execFlitTrainRx link flit s
  | .flitIdleRx link flit => Sys2Proof.Machine.execFlitIdleRx link flit s
  | .portTrainDone link r => Sys2Proof.Machine.execPortTrainDone link r s
  | .portRetrainDone link failed => Sys2Proof.Machine.execPortRetrainDone link failed s
  | .laneLossOfLock link lane => Sys2Proof.Machine.execLaneLossOfLock link lane s
  | .cableConnect link => Sys2Proof.Machine.execCableConnect link s
  | .cableDisconnect link => Sys2Proof.Machine.execCableDisconnect link s
  | .readData r => Sys2Proof.Machine.execReadData r s
  | .writeAck r => Sys2Proof.Machine.execWriteAck r s
  | .streamAck r => Sys2Proof.Machine.execStreamAck r s
  | .checkpointStreamStart ctx => Sys2Proof.Machine.execCheckpointStreamStart ctx s
  | .blockRereadDone block ok => Sys2Proof.Machine.execBlockRereadDone block ok s
  | .ladderVerdict block rereadOk => Sys2Proof.Machine.execLadderVerdict block rereadOk s
  | .bundleFlitRx b flit framing => Sys2Proof.Machine.execBundleFlitRx b flit framing s
  | .blockAckRx b block => Sys2Proof.Machine.execBlockAckRx b block s
  | .bundleTestDone b failed => Sys2Proof.Machine.execBundleTestDone b failed s
  | .bundleRemapDone b => Sys2Proof.Machine.execBundleRemapDone b s
  | .fieldTestPassStart t => Sys2Proof.Machine.execFieldTestPassStart t s
  | .fenceStart t => Sys2Proof.Machine.execFenceStart t s
  | .coreResetAssert t => Sys2Proof.Machine.execCoreResetAssert t s
  | .coreResetRelease t => Sys2Proof.Machine.execCoreResetRelease t s
  | .bundleRetrainDone t => Sys2Proof.Machine.execBundleRetrainDone t s
  | .coreResetWaitTimeout t => Sys2Proof.Machine.execCoreResetWaitTimeout t s
  | .coreEscalation t unit => Sys2Proof.Machine.execCoreEscalation t unit s
  | .progressTimeout c line => Sys2Proof.Machine.execProgressTimeout c line s
  | .powerOnReset => Sys2Proof.Machine.execPowerOnReset s
  | .undervoltage => Sys2Proof.Machine.execUndervoltage s
  | .regulatorShutdown => Sys2Proof.Machine.execRegulatorShutdown s
  | .clockLoss => Sys2Proof.Machine.execClockLoss s
  | .powerOnResetRelease r => Sys2Proof.Machine.execPowerOnResetRelease r s
  | .sysRstPin => Sys2Proof.Machine.execSysRstPin s
  | .systemResetRelease r => Sys2Proof.Machine.execSystemResetRelease r s
  | .watchdogExpiry wd => Sys2Proof.Machine.execWatchdogExpiry wd s
  | .wardenReady wd => Sys2Proof.Machine.execWardenReady wd s
  | .bootRetry => Sys2Proof.Machine.execBootRetry s
  | .heartbeatSend wd => Sys2Proof.Machine.execHeartbeatSend wd s
  | .heartbeatRx wd epoch seq restarting crc => Sys2Proof.Machine.execHeartbeatRx wd epoch seq restarting crc s
  | .custodyClaim wd => Sys2Proof.Machine.execCustodyClaim wd s
  | .managementTransaction wd epoch addr value => Sys2Proof.Machine.execManagementTransaction wd epoch addr value s
  | .soundpostTimeout wd => Sys2Proof.Machine.execSoundpostTimeout wd s
  | .fwUnitLoad => Sys2Proof.Machine.execFwUnitLoad s
  | .wardenRestartDone wd => Sys2Proof.Machine.execWardenRestartDone wd s
  | .fwSelfCheckDone ok => Sys2Proof.Machine.execFwSelfCheckDone ok s
  | .housekeepingRound r => Sys2Proof.Machine.execHousekeepingRound r s
  | .tripHoldRelease => Sys2Proof.Machine.execTripHoldRelease s
  | .wearRecordWrite => Sys2Proof.Machine.execWearRecordWrite s
  | .dramRefresh t die => Sys2Proof.Machine.execDramRefresh t die s
  | .patrolScrub t corrected bad => Sys2Proof.Machine.execPatrolScrub t corrected bad s
  | .eventSend => Sys2Proof.Machine.execEventSend s
  | .digestCompare differs => Sys2Proof.Machine.execDigestCompare differs s
  | .retrievalBatchDone inst bad => Sys2Proof.Machine.execRetrievalBatchDone inst bad s
  | .leak => Sys2Proof.Machine.execLeak s
  | .smbIdent => Sys2Proof.Machine.execSmbIdent s
  | .smbStatus => Sys2Proof.Machine.execSmbStatus s
  | .smbInput => Sys2Proof.Machine.execSmbInput s
  | .smbCause => Sys2Proof.Machine.execSmbCause s
  | .jtagBypass tdi => Sys2Proof.Machine.execJtagBypass tdi s
  | .jtagIdcode => Sys2Proof.Machine.execJtagIdcode s
  | .jtagSamplePreload bits => Sys2Proof.Machine.execJtagSamplePreload bits s
  | .jtagExtest => Sys2Proof.Machine.execJtagExtest s
  | .jtagTrst => Sys2Proof.Machine.execJtagTrst s
  | .badControlPacket quarter bytes => Sys2Proof.Machine.execBadControlPacket quarter bytes s
  | .unlistedFlitType link flit => Sys2Proof.Machine.execUnlistedFlitType link flit s
  | .heartbeatMissed wd => Sys2Proof.Machine.execHeartbeatMissed wd s
  | .stagedSlotReverified wd => Sys2Proof.Machine.execStagedSlotReverified wd s

end Sys2Proof.Machine
end

