-- ==== Sys2Proof/WellFormed.lean ====
section
/-! DEFINITION. Which commands the outside world can send: the sizes that the spec fixes for what they carry. A command that is
not well formed still has its meaning; the checks say what no link, sensor or unit delivers. -/

namespace Sys2Proof

/-- A payload block has 512 data bytes (R281). -/
def Blk.wf (b : Blk) : Bool := b.data.length == 512

/-- The payload of a command packet is whole blocks; at most 2^20 of them fit the length field (R424). -/
def HostCmd.wf (h : HostCmd) : Bool := h.payload.all Blk.wf

/-- A block address. -/
def blockAddr (a : Nat) : Bool := a % 512 == 0 && decide (a < 2 ^ 64)

/-- A line of the line buffer, which holds up to 255 lines (R138). -/
def lineNo (n : Nat) : Bool := decide (n < 255)

def Work.wf (w : Work) : Bool := lineNo w.line && w.bad.all blockAddr

/-- The bundles that a tower registers, by CLASS (R476). -/
def BundleId.wf (b : BundleId) : Bool :=
  match b.cls.val with
  | 1 => decide (b.index.val < 448)
  | 2 => decide (b.index.val < 72)
  | 3 => decide (b.index.val < 32)
  | 4 => decide (b.index.val < 16) && decide (b.tower.val < 7)
  | _ => false

/-- The lanes of a bundle: data, spare and framing lanes (R476). -/
def BundleId.lanes (b : BundleId) : Nat := if b.cls.val = 1 then 296 else 148

/-- A link flit is 256 bytes (R338). -/
def flitWf (f : List Byte) : Bool := f.length == 256

/-- A drone frame or fret marker is 32 bytes (R342). -/
def frameWf (f : List Byte) : Bool := f.length == 32

def FarResp.wf (r : FarResp) : Bool := r.payload.all Blk.wf && decide (r.payload.length ≤ 32)

/-- A round reads 368 sensors, 48 rails, and the clock sites of four layers of eight towers (R485, R517, R520). -/
def RoundInput.wf (r : RoundInput) : Bool :=
  r.sensors.length == 368 && r.railMv.length == 48 && r.railCur.length == 48 && r.sites.length == 32

def ReleaseInput.wf (r : ReleaseInput) : Bool :=
  r.sites.length == 32 && r.lanes.all (fun e => e.1.wf && e.2.all (fun l => decide (l < e.1.lanes)))

def ScalarMsg.wf (m : ScalarMsg) : Bool := decide (m.values.length ≤ 60)

def DigestDiff.wf (e : DigestDiff) : Bool := decide (e.run < 16)

/-- The check of a command, constructor by constructor. -/
def Instr.wf : Instr → Bool
  | .identify h => h.wf
  | .readReg h => h.wf
  | .writeReg h => h.wf
  | .reset h => h.wf
  | .attest h => h.wf
  | .sensorRead h => h.wf
  | .ctxCreate h => h.wf
  | .ctxLoadTab h => h.wf
  | .ctxStart h => h.wf
  | .ctxPark h => h.wf
  | .ctxResume h => h.wf
  | .ctxDestroy h => h.wf
  | .ctxQuery h => h.wf
  | .memWrite h => h.wf
  | .memRead h bad => h.wf && bad.all blockAddr
  | .memFill h => h.wf
  | .memCopy h => h.wf
  | .farMap h => h.wf
  | .hedgeJoin h => h.wf
  | .hedgeLeave h => h.wf
  | .fretConfig h => h.wf
  | .routeLoad h => h.wf
  | .droneRaise h => h.wf
  | .fwStage h => h.wf
  | .fwVerify h => h.wf
  | .fwCommitAt h => h.wf
  | .fwAbort h => h.wf
  | .fwStatus h => h.wf
  | .svcStart h => h.wf
  | .svcQuery h => h.wf
  | .svcStop h => h.wf
  | .checkpoint h => h.wf
  | .bistRun h => h.wf
  | .towerFence h => h.wf
  | .towerRestore h => h.wf
  | .logRead h => h.wf
  | .commandDone _ _ bad => bad.all blockAddr
  | .retrainFull _ => true
  | .portDisable _ _ => true
  | .quarterRetrainFull _ => true
  | .quarterDisable _ _ => true
  | .flush _ => true
  | .memFarBudgetWrite _ => true
  | .fhCtrlWrite _ => true
  | .fhWindowWrite _ => true
  | .fretStart => true
  | .holdLatch => true
  | .settlePoint => true
  | .guardBandStart damaged => damaged.all blockAddr
  | .droneFrameSend => true
  | .fretMarkerSend copy => decide (copy < 4)
  | .droneFrameRx _ frame => frameWf frame
  | .fretMarkerRx _ m => frameWf m.bytes
  | .leaderTakeover => true
  | .leaderRealigned => true
  | .fretConfigApply => true
  | .ctxStartFret ctx => decide (ctx < 10240)
  | .lineLaunch _ line => lineNo line
  | .lineLateLaunch _ line => lineNo line
  | .lineComplete _ line => lineNo line
  | .maProduct w => w.wf
  | .drain w => w.wf
  | .importNode w => w.wf
  | .abSave w => w.wf
  | .abRestore w => w.wf
  | .setPred _ line => lineNo line
  | .ccRoutine w => w.wf
  | .ccHalt _ => true
  | .ccAdd _ _ _ _ => true
  | .ccSub _ _ _ _ => true
  | .ccAnd _ _ _ _ => true
  | .ccOr _ _ _ _ => true
  | .ccXor _ _ _ _ => true
  | .ccSll _ _ _ _ => true
  | .ccSrl _ _ _ _ => true
  | .ccSra _ _ _ _ => true
  | .ccSlt _ _ _ _ => true
  | .ccSltu _ _ _ _ => true
  | .ccMul _ _ _ _ => true
  | .ccMulhu _ _ _ _ => true
  | .ccMin _ _ _ _ => true
  | .ccMax _ _ _ _ => true
  | .ccAddi _ _ _ _ => true
  | .ccAndi _ _ _ _ => true
  | .ccOri _ _ _ _ => true
  | .ccXori _ _ _ _ => true
  | .ccSlli _ _ _ _ => true
  | .ccSrli _ _ _ _ => true
  | .ccSrai _ _ _ _ => true
  | .ccLui _ _ _ => true
  | .ccShlori _ _ _ _ => true
  | .ccLd _ _ _ _ _ => true
  | .ccLw _ _ _ _ _ => true
  | .ccSd _ _ _ _ _ => true
  | .ccSw _ _ _ _ _ => true
  | .ccFlt _ _ _ _ => true
  | .ccFle _ _ _ _ => true
  | .ccFeq _ _ _ _ => true
  | .ccBeq _ _ _ _ => true
  | .ccBne _ _ _ _ => true
  | .ccBlt _ _ _ _ => true
  | .ccBge _ _ _ _ => true
  | .ccBltu _ _ _ _ => true
  | .ccBgeu _ _ _ _ => true
  | .ccJmp _ _ => true
  | .ccLoop _ _ body => decide (body.toNat ≠ 0)
  | .ccFlag _ _ => true
  | .ccTmax _ _ _ _ => true
  | .ccRdsp _ _ _ _ => true
  | .veCopy w => w.wf
  | .veFill w => w.wf
  | .veAdd w => w.wf
  | .veSub w => w.wf
  | .veMul w => w.wf
  | .veFma w => w.wf
  | .veMin w => w.wf
  | .veMax w => w.wf
  | .veAbs w => w.wf
  | .veNeg w => w.wf
  | .veDiv w => w.wf
  | .veSqrt w => w.wf
  | .veExp2 w => w.wf
  | .veLog2 w => w.wf
  | .veRecip w => w.wf
  | .veRsqrt w => w.wf
  | .veTanh w => w.wf
  | .veExp w => w.wf
  | .veSilu w => w.wf
  | .veGelu w => w.wf
  | .veCmp w => w.wf
  | .veSelect w => w.wf
  | .veIadd w => w.wf
  | .veIsub w => w.wf
  | .veImul w => w.wf
  | .veMaskgen w => w.wf
  | .veRsum w => w.wf
  | .veRmean w => w.wf
  | .veRmax w => w.wf
  | .veRmin w => w.wf
  | .veRsumsq w => w.wf
  | .veRargmax w => w.wf
  | .veRargmin w => w.wf
  | .veRlse w => w.wf
  | .veRmsStats w => w.wf
  | .veLnStats w => w.wf
  | .veNormApply w => w.wf
  | .veSmStats w => w.wf
  | .veSmApply w => w.wf
  | .veSmMerge w => w.wf
  | .veTopk w => w.wf
  | .veGather w => w.wf
  | .veScatter w => w.wf
  | .moverCopy w => w.wf
  | .moverCopy2d w => w.wf
  | .moverFill w => w.wf
  | .moverScrub w => w.wf
  | .p2pSend w => w.wf
  | .reduceScatter w => w.wf
  | .allGather w => w.wf
  | .allReduce w => w.wf
  | .allToAll w => w.wf
  | .scalarCollective w => w.wf
  | .normCollective w => w.wf
  | .ueOpen w => w.wf
  | .ueUpdate w => w.wf
  | .trustP1 w => w.wf
  | .trustP2 w => w.wf
  | .ueDigest w => w.wf
  | .steer w => w.wf
  | .flitDataRx _ flit => flitWf flit
  | .flitLinkRx _ flit _ => flitWf flit
  | .flitScalarRx _ flit m => flitWf flit && m.wf
  | .flitTrainRx _ flit => flitWf flit
  | .flitIdleRx _ flit => flitWf flit
  | .portTrainDone _ _ => true
  | .portRetrainDone _ _ => true
  | .laneLossOfLock _ _ => true
  | .cableConnect _ => true
  | .cableDisconnect _ => true
  | .readData r => r.wf
  | .writeAck r => r.wf
  | .streamAck r => r.wf
  | .checkpointStreamStart ctx => decide (ctx < 10240)
  | .blockRereadDone block _ => blockAddr block
  | .ladderVerdict block _ => blockAddr block
  | .bundleFlitRx b flit _ => b.wf && decide (flit.length = 64)
  | .blockAckRx b block => b.wf && blockAddr block
  | .bundleTestDone b failed => b.wf && failed.all (fun l => decide (l < b.lanes))
  | .bundleRemapDone b => b.wf
  | .fieldTestPassStart _ => true
  | .fenceStart _ => true
  | .coreResetAssert _ => true
  | .coreResetRelease _ => true
  | .bundleRetrainDone _ => true
  | .coreResetWaitTimeout _ => true
  | .coreEscalation _ _ => true
  | .progressTimeout _ line => lineNo line
  | .powerOnReset => true
  | .undervoltage => true
  | .regulatorShutdown => true
  | .clockLoss => true
  | .powerOnResetRelease r => r.wf
  | .sysRstPin => true
  | .systemResetRelease r => r.wf
  | .watchdogExpiry _ => true
  | .wardenReady _ => true
  | .bootRetry => true
  | .heartbeatSend _ => true
  | .heartbeatRx _ _ _ _ _ => true
  | .custodyClaim _ => true
  | .managementTransaction _ _ _ _ => true
  | .soundpostTimeout _ => true
  | .fwUnitLoad => true
  | .wardenRestartDone _ => true
  | .fwSelfCheckDone _ => true
  | .housekeepingRound r => r.wf
  | .tripHoldRelease => true
  | .wearRecordWrite => true
  | .dramRefresh _ _ => true
  | .patrolScrub _ _ bad => bad.all blockAddr
  | .eventSend => true
  | .digestCompare differs => differs.all DigestDiff.wf
  | .retrievalBatchDone inst bad => decide (8 ≤ inst) && decide (inst < 16) && bad.all blockAddr
  | .leak => true
  | .smbIdent => true
  | .smbStatus => true
  | .smbInput => true
  | .smbCause => true
  | .jtagBypass _ => true
  | .jtagIdcode => true
  | .jtagSamplePreload _ => true
  | .jtagExtest => true
  | .jtagTrst => true
  | .badControlPacket _ bytes => decide (bytes.length = 32)
  | .unlistedFlitType _ flit => flitWf flit
  | .heartbeatMissed _ => true
  | .stagedSlotReverified _ => true

end Sys2Proof
end

