-- ==== Sys2Proof/Safety.lean ====
section
/-! DEFINITION. What a safe run is, and the terms the claims are written in: the stores keep their canonical form, only
well-formed commands wait, when a host command is admitted, and what an answer adds to the device. -/

namespace Sys2Proof.Machine

/-- The outcome is a next state. -/
def answers (o : Host.Outcome State Fault Refusal) : Prop := ∃ t, o = .next t

/-- The stores are in their canonical form (log 1). -/
def State.memInv (s : State) : Prop := s.mem.wf = true

/-- Every command that waits is well formed. -/
def State.queueInv (s : State) : Prop := ∀ c ∈ s.pending, c.wf = true

/-- A state from which a step is safe. -/
def State.safe (s : State) : Prop := s.memInv ∧ s.queueInv

/-- The device is out of reset (R503, R511). -/
def State.live (s : State) : Prop := s.dev.level = .run

/-- What a command starts from: the stores and the device, no effect on the stores yet. -/
def State.world (s : State) : World := { mem := s.mem, d := s.dev, wr := [] }

/-! ## Host commands -/

/-- A host command passes the checks of R426 to R434: it arrives on a QUARTER_0 that carries packets, its LENGTH and payload are
good, its tag is not outstanding on the port, fewer than 64 commands are, the warden is ready and custody held where they are asked
for, CTX names what the command needs, its unused parameters are zero, and no earlier command that it must wait for runs (R431). -/
structure Admitted (d : Dev) (h : HostCmd) (c : OpSpec) : Prop where
  port : d.quarter0 h.port.val = true
  whole : h.len.toNat = 512 * h.payload.length
  length : c.lenOk h.payload.length = true
  checks : c.op = 0x201 ∨ firstBadBlock h.payload = none
  fresh : (h.port.val, h.tag) ∉ d.hl.outstanding
  room : (d.hl.outstanding.filter (fun e => e.1 == h.port.val)).length < 64
  ready : d.fld HL_STATUS 9 9 ≠ 0 ∨ c.early = true
  custody : c.custody = true → d.custodyWarden ≠ none
  ctx : (c.ctx = true → h.ctx.toNat < 10240 ∧ reservedCtx h.ctx.toNat = false) ∧ (c.ctx = false → h.ctx = 0xFFFF)
  unused : ∀ i ∈ c.unused, param h i = 0
  awake : c.custody = true → d.restarting = false
  starts : d.mustWait d.hl.held c.op h = false

/-- A live device admits a host command. -/
def State.admits (s : State) (h : HostCmd) (c : OpSpec) : Prop := s.live ∧ Admitted s.dev h c

/-- The specification of a command that the custody warden need not take and that names no context. -/
def plainOp (op : Nat) (unused : List Nat) : OpSpec :=
  { op := op, ctx := false, unused := unused, lenOk := noPayload, custody := false, early := false }

/-- The specification of a command that names no context and that the custody warden admits (R430). -/
def wardenOp (op : Nat) (unused : List Nat) : OpSpec :=
  { op := op, ctx := false, unused := unused, lenOk := noPayload, custody := true, early := false }

/-- The reply packet of R425. -/
def replyPacket (d : Dev) (h : HostCmd) (op : Nat) (st det : W16) (p : W32) (bl : List Blk) : Pkt :=
  { typ := 2, opcode := BitVec.ofNat 16 op, ctx := h.ctx, tag := h.tag, status := st, detail := det,
    fret := BitVec.ofNat 64 d.fretNum, param := p, p0 := 0, p1 := 0, p2 := 0, p3 := 0, payload := bl }

/-- The reply packet as it is handed to the link layer. -/
def replyOf (d : Dev) (h : HostCmd) (op : Nat) (st det : W16) (p : W32) (bl : List Blk) : Out :=
  .reply h.port.val (replyPacket d h op st det p bl)

/-- Whether an output is a flit on a link, which carries what was handed to the link layer before (R337, R419). -/
def Out.isFlit : Out → Bool
  | .flit .. | .scalar .. | .link .. => true
  | _ => false

/-- What has left the device, the flits that carry it aside. -/
def Dev.said (d : Dev) : List Out := d.out.filter (fun o => !o.isFlit)

/-- HL_COMMANDS counts a command that passed its header checks. -/
def Dev.counted (d : Dev) : Dev := { d with regs := rcount d.regs HL_COMMANDS 63 0 1 }

/-- One more reply has left the device: it is handed to the link layer of its QUARTER_0 among the control packets, which sends its flits as
far as buffers are advertised (R422, R428). -/
def Dev.replied (d : Dev) (h : HostCmd) (op : Nat) (st det : W16) (p : W32) (bl : List Blk) : Dev :=
  Dev.sendPacket { d with out := d.out ++ [replyOf d h op st det p bl] } (24 + 4 * h.port.val) false (replyPacket d h op st det p bl).bytes

/-- The reply OK and nothing else. -/
def Dev.repliedOk (d : Dev) (h : HostCmd) (op : Nat) : Dev := d.replied h op stOk 0 0 []

/-- The command has been answered ACCEPTED: it stays outstanding and its work goes on (R433). -/
def Dev.accepted (d : Dev) (h : HostCmd) (op : Nat) : Dev :=
  { d.replied h op stAccepted 0 0 [] with
    hl := { d.hl with outstanding := d.hl.outstanding ++ [(h.port.val, h.tag)],
                      jobs := d.hl.jobs ++ [{ h := h, opcode := op, result := none }] } }

/-- The device after a command has been counted and entered among the outstanding ones. -/
def Dev.taken (d : Dev) (h : HostCmd) : Dev :=
  { d.counted with hl := { d.hl with outstanding := d.hl.outstanding ++ [(h.port.val, h.tag)] } }

/-- The commands that reset, boot, the pins, the cables and housekeeping give the device, and that act in reset too. -/
def actsInReset : Instr → Bool
  | .powerOnReset | .undervoltage | .regulatorShutdown | .clockLoss | .powerOnResetRelease _ | .sysRstPin
  | .systemResetRelease _ | .tripHoldRelease | .housekeepingRound _ | .leak | .cableConnect _ | .cableDisconnect _
  | .jtagBypass _ | .jtagIdcode | .jtagSamplePreload _ | .jtagExtest | .jtagTrst => true
  | _ => false

/-- The change CTX_LOAD_TAB makes to a context before the validation of its image. -/
def loadedCtx (b : List Byte) (x : Ctx) : Ctx :=
  let hd := tabHdr (b.take 256)
  { x with
    tabValid := false, kind := if 1 < hd.size then 1 else 0, tabMask := BitVec.ofNat 96 hd.mask &&& x.mask,
    pos := if x.st = .loaded then 0 else x.pos, hwStatus := 0,
    tabDigest := shake256 32 (b.take (512 * ceilDiv hd.imageLen 512)) }

/-- What MEM_WRITE asks of its payload. -/
def memWriteOp : OpSpec :=
  { op := 0x201, ctx := false, unused := [2, 3], lenOk := fun n => decide (1 ≤ n) && decide (n ≤ 65536), custody := false, early := false }

/-- A memory command may run on `n` blocks at `a`: the run is aligned and mapped, in no fenced tower, in no tower in core reset. -/
def Dev.runFree (d : Dev) (a n : Nat) : Prop := d.memRunOk a n = true ∧ d.runFenced a = false ∧ d.runHeld a = false

/-- No block of the run is on the re-read ladder: the run may be written (R301). -/
def Dev.runOffLadder (d : Dev) (a n : Nat) : Prop :=
  ∀ l ∈ d.ladders, l.after = false → overlaps (farCanon a) (512 * n) (farCanon l.block) 512 = false

/-- The accepted command that a COMMAND_DONE of a port and tag concludes. -/
def Dev.jobNamed (d : Dev) (port : Fin 2) (tag : W16) : Option HostJob :=
  d.hl.jobs.find? (fun j => j.h.port == port && j.h.tag == tag && j.opcode != 0x104 && j.opcode != 0x201 && j.opcode != 0x202)

/-- A line of a course's buffer that has reached its OFFSET in a fret that is not a hold fret. -/
def State.offsetReached (s : State) (c line : Nat) (l : LineSt) : Prop :=
  s.live ∧ lineAt (s.dev.course c) line = some l ∧ l.phase = .waiting ∧ s.dev.ft.latched = true ∧ s.dev.fld FT_HOLD_STATUS 17 17 = 0 ∧
  s.dev.ft.guard = false ∧ s.dev.ft.launchStop = false ∧ 256 ≤ l.ln.offset ∧ s.dev.ft.cycle ≤ l.ln.offset ∧ l.ln.offset < s.dev.deadline ∧
  (s.dev.ft.settled = true ∨ l.ln.offset < s.dev.settleLen)

/-- A three-register instruction: its command, its opcode, and the number rd takes from ra and rb (R149). -/
abbrev CcT := (Fin 96 → Fin 32 → Fin 32 → Fin 32 → Instr) × Nat × (W64 → W64 → Nat)

/-- The three-register instructions of R149, results as numbers. -/
def ccTTable : List CcT :=
  [ (.ccAdd, 0x01, fun a b => (a.toNat + b.toNat) % 2 ^ 64),
    (.ccSub, 0x02, fun a b => (2 ^ 64 + a.toNat - b.toNat) % 2 ^ 64),
    (.ccAnd, 0x03, fun a b => a.toNat &&& b.toNat),
    (.ccOr, 0x04, fun a b => a.toNat ||| b.toNat),
    (.ccXor, 0x05, fun a b => a.toNat ^^^ b.toNat),
    (.ccSll, 0x06, fun a b => a.toNat * 2 ^ (b.toNat % 64) % 2 ^ 64),
    (.ccSrl, 0x07, fun a b => a.toNat / 2 ^ (b.toNat % 64)),
    (.ccSra, 0x08, fun a b => ((a.toInt / 2 ^ (b.toNat % 64)) % 2 ^ 64).toNat),
    (.ccSlt, 0x09, fun a b => if a.toInt < b.toInt then 1 else 0),
    (.ccSltu, 0x0A, fun a b => if a.toNat < b.toNat then 1 else 0),
    (.ccMul, 0x0B, fun a b => a.toNat * b.toNat % 2 ^ 64),
    (.ccMulhu, 0x0C, fun a b => a.toNat * b.toNat / 2 ^ 64),
    (.ccMin, 0x0D, fun a b => if a.toInt < b.toInt then a.toNat else b.toNat),
    (.ccMax, 0x0E, fun a b => if a.toInt < b.toInt then b.toNat else a.toNat),
    (.ccFlt, 0x28, fun a b => if fp32Lt (a.toNat % 2 ^ 32) (b.toNat % 2 ^ 32) then 1 else 0),
    (.ccFle, 0x29, fun a b => if fp32Le (a.toNat % 2 ^ 32) (b.toNat % 2 ^ 32) then 1 else 0),
    (.ccFeq, 0x2A, fun a b => if fp32Eq (a.toNat % 2 ^ 32) (b.toNat % 2 ^ 32) then 1 else 0) ]

/-- A register-immediate instruction: its command, its opcode, and the number rd takes from ra and imm16 (R149). -/
abbrev CcI := (Fin 96 → Fin 32 → Fin 32 → W16 → Instr) × Nat × (W64 → W16 → Nat)

/-- The register-immediate instructions of R149. -/
def ccITable : List CcI :=
  [ (.ccAddi, 0x10, fun a i => ((a.toInt + i.toInt) % 2 ^ 64).toNat),
    (.ccAndi, 0x11, fun a i => a.toNat &&& i.toNat),
    (.ccOri, 0x12, fun a i => a.toNat ||| i.toNat),
    (.ccXori, 0x13, fun a i => a.toNat ^^^ i.toNat),
    (.ccSlli, 0x14, fun a i => a.toNat * 2 ^ (i.toNat % 64) % 2 ^ 64),
    (.ccSrli, 0x15, fun a i => a.toNat / 2 ^ (i.toNat % 64)),
    (.ccSrai, 0x16, fun a i => ((a.toInt / 2 ^ (i.toNat % 64)) % 2 ^ 64).toNat),
    (.ccShlori, 0x18, fun a i => (a.toNat * 2 ^ 16 % 2 ^ 64) ||| i.toNat) ]

/-- A branch: its command, its opcode, its test (R149). -/
abbrev CcBr := (Fin 96 → Fin 32 → Fin 32 → W16 → Instr) × Nat × (W64 → W64 → Bool)

/-- The branches of R149. -/
def ccBTable : List CcBr :=
  [ (.ccBeq, 0x30, fun a b => a == b), (.ccBne, 0x31, fun a b => a != b),
    (.ccBlt, 0x32, fun a b => decide (a.toInt < b.toInt)), (.ccBge, 0x33, fun a b => decide (b.toInt ≤ a.toInt)),
    (.ccBltu, 0x34, fun a b => decide (a.toNat < b.toNat)), (.ccBgeu, 0x35, fun a b => decide (b.toNat ≤ a.toNat)) ]

/-- The routine of course c stands at an instruction of the given word, on a live device. -/
def State.ccAt (s : State) (c word : Nat) (r : Routine) : Prop := s.live ∧ s.dev.ccAt c word = some r

/-- What an instruction that gives rd a value leaves: rd holds it (s0 stays 0), the other scalar registers of the set, every other register but
CC_FAULT and CC_FAULT_INFO of the course, and the stores are as before. -/
def wroteReg (s t : State) (c n : Nat) (rd : Fin 32) (v : Nat) : Prop :=
  (t.dev.sreg c n rd.val).toNat = (if rd.val = 0 then 0 else v) ∧
  (∀ k : Fin 32, k ≠ rd → t.dev.sreg c n k.val = s.dev.sreg c n k.val) ∧
  (∀ a, a ≠ CC_SREG c n rd.val → a ≠ CC_FAULT c → a ≠ CC_FAULT_INFO c → rget t.dev.regs a = rget s.dev.regs a) ∧
  t.mem = s.mem

/-- The address of a routine's load or store (R163). -/
def ccAddr (s : State) (c : Nat) (r : Routine) (ra : Fin 32) (imm : W16) : Nat := (s.dev.sreg c r.set ra.val + imm.signExtend 64).toNat

/-- No block that the work of a unit's command writes has to wait for its ladder, for another line or for a tower in core reset (R28, R301). -/
def State.writesGo (s : State) (k : Work) (w : World) : Prop :=
  ∀ a ∈ w.wrote s.world, s.dev.writeWaits (whoLine k.course.val k.line) a = false

/-- No block of `n` bytes at an address has to wait before the line of a command writes it. -/
def State.blocksGo (s : State) (k : Work) (a n : Nat) : Prop :=
  ∀ b ∈ blocksOf a n, s.dev.writeWaits (whoLine k.course.val k.line) b = false

/-- What a unit's command leaves when its work goes on: the effects of the work, and the count of the single-bit errors that the deep store
corrected on its reads (R274). -/
def State.workDone (s : State) (k : Work) (w : World) : State := commit s (w.deepCorrected k.corrected)

/-- A launched line that its unit may work on now, on a live device. -/
def State.lineReady (s : State) (c : Fin 96) (line unit : Nat) (j : Job) : Prop := s.live ∧ s.world.ready c.val line unit = some j

/-- The blocks of a descriptor pass their checks and none is poisoned: the unit reads its bytes. -/
def State.reads (s : State) (j : Job) (bad : List Nat) (a n : Nat) (b : List Byte) : Prop := s.world.fetch j bad a n = .got b false

/-- The conditions under which a product issues (R189, R205, R566): descriptors readable and kept, WC_COMPUTE within the cost's bound, the group of
its context, and an accumulation that it may enter. -/
structure ProductReady (s : State) (k : Work) (j : Job) (p : MaDesc) (g : Nat) (q : AccDesc) : Prop where
  line : s.lineReady k.course k.line unitMa j
  desc : ∃ b, s.reads j k.bad j.ln.desc 64 b ∧ p = maDesc b
  kept : descOk j.ln.desc 64 j.course = true ∧ p.ok j.course = true
  cost : p.cost ≤ j.ln.wcCompute
  group : s.dev.groupOf j.course j.ctx = some g
  acc : ∃ b, s.reads j k.bad p.abDesc 128 b ∧ q = accDesc b
  same : (s.dev.accum j.course g).open_ = true → (s.dev.accum j.course g).acc = p.abDesc ∧ q.finish = false ∧
    ((s.dev.accum j.course g).lastM ≠ 0 → (s.dev.fld (abGroup j.course g) 62 62 == 1) = p.int8)
  accKept : descOk p.abDesc 128 j.course = true ∧ q.ok j.course (s.dev.abPartition j.course) p.int8 = true ∧ q.productOk p = true
  out : q.finish = true → q.tied = true ∨ q.outOk j.course p.m p.n = true
  first : (s.dev.accum j.course g).open_ = false → q.finish = false → p.leafBase - q.root = 0

/-- The blocks a product reads: its operands, and those its epilogue, tie or merge stack needs. -/
def productReads (w : World) (j : Job) (g : Nat) (p : MaDesc) (q : AccDesc) : List Nat :=
  p.blocksRead ++
  (if q.finish && !q.tied then
      (List.range p.tiles).flatMap (fun t => (p.tileBlocks t).flatMap (fun e => q.readsOf e.2.2.1 e.2.2.2.1 e.2.2.2.2.1 e.2.2.2.2.2 p.n))
    else if q.tied then [q.tie] else (w.d.groupStack j.course g q).spillBlocks)

/-- The type of the nodes that an AB command works on: those of the tie area, of the open accumulation, or of R196 before there are any (log 111). -/
def State.abInt (s : State) (op : Nat) (j : Job) (cmd : AbCmd) (g : Nat) (q : AccDesc) : Bool :=
  if q.tied && decide (op = 1 ∨ cmd.tieU ≠ 0) then s.world.tieType j.course cmd.acc q
  else if (s.dev.accum j.course g).open_ then s.dev.fld (abGroup j.course g) 62 62 == 1
  else s.world.typeOf j.course cmd.acc q

/-- What DRAIN and IMPORT need before they work: the command and accumulation descriptors readable and kept (R208, R566). -/
structure AbReady (s : State) (k : Work) (op : Nat) (j : Job) (cmd : AbCmd) (g : Nat) (q : AccDesc) : Prop where
  line : s.lineReady k.course k.line unitAb j
  desc : ∃ b, s.reads j k.bad j.ln.desc 32 b ∧ cmd = abCmd b
  oper : (op = 1 ↔ cmd.op ≠ 2) ∧ (op = 1 ∨ op = 2)
  group : s.dev.groupOf j.course j.ctx = some g
  place : descOk j.ln.desc 32 j.course = true ∧ descOk cmd.acc 128 j.course = true
  acc : ∃ b, s.reads j k.bad cmd.acc 128 b ∧ q = accDesc b
  same : (s.dev.accum j.course g).open_ = true → (s.dev.accum j.course g).acc = cmd.acc
  kept : q.ok j.course (s.dev.abPartition j.course) (s.abInt op j cmd g q) = true ∧ cmd.ok q j.course = true
  out : op = 1 → (if q.tied then q.outOk j.course q.outM q.outN
    else q.outOk j.course (drainDims q (s.dev.accum j.course g)).1 (drainDims q (s.dev.accum j.course g)).2) = true
  pending : op = 1 → s.world.maPending j cmd.acc = false

/-- The vector-engine commands and the opcodes of their descriptors (R244, R245, R248). -/
def veTable : List ((Work → Instr) × Nat) :=
  [ (.veCopy, 0x01), (.veFill, 0x02), (.veAdd, 0x10), (.veSub, 0x11), (.veMul, 0x12), (.veFma, 0x13), (.veMin, 0x14), (.veMax, 0x15),
    (.veAbs, 0x16), (.veNeg, 0x17), (.veDiv, 0x18), (.veSqrt, 0x19), (.veExp2, 0x20), (.veLog2, 0x21), (.veRecip, 0x22),
    (.veRsqrt, 0x23), (.veTanh, 0x24), (.veExp, 0x25), (.veSilu, 0x26), (.veGelu, 0x27), (.veCmp, 0x30), (.veSelect, 0x31),
    (.veIadd, 0x38), (.veIsub, 0x39), (.veImul, 0x3A), (.veMaskgen, 0x40), (.veRsum, 0x50), (.veRmean, 0x51), (.veRmax, 0x52),
    (.veRmin, 0x53), (.veRsumsq, 0x54), (.veRargmax, 0x55), (.veRargmin, 0x56), (.veRlse, 0x57), (.veRmsStats, 0x60),
    (.veLnStats, 0x61), (.veNormApply, 0x62), (.veSmStats, 0x68), (.veSmApply, 0x69), (.veSmMerge, 0x6A), (.veTopk, 0x70),
    (.veGather, 0x78), (.veScatter, 0x79) ]

/-- What the unit has done for its line: the line is worked and waits for LINE_COMPLETE (R97). -/
def lineWorked (s t : State) (j : Job) : Prop :=
  ∃ l, lineAt (s.dev.course j.course) j.idx = some l ∧
    lineAt (t.dev.course j.course) j.idx = some { l with phase := .worked, idle := 0 }

/-- An address outside every run of bytes of a list. -/
def outsideRuns (runs : List (Nat × List Byte)) (x : Nat) : Prop := ∀ r ∈ runs, x < r.1 ∨ r.1 + r.2.length ≤ x

/-- The route of a mover descriptor (R294). -/
def moverRoute (s : State) (j : Job) (m : MoverDesc) : Route :=
  (m.route s.dev.farBound j.course).getD { path := 0, num := 1, den := 1, lat := 0 }

/-- A mover line that may work: its descriptor is readable and kept, holds the command's operation, its route is that of the line's PATH and its cost within the line's
budget. -/
structure MoverReady (s : State) (k : Work) (op : Nat) (j : Job) (m : MoverDesc) : Prop where
  line : s.lineReady k.course k.line unitMover j
  desc : ∃ b, s.reads j k.bad j.ln.desc 64 b ∧ m = moverDesc b
  kept : descOk j.ln.desc 64 j.course = true ∧ m.ok (farBytes s.dev) j.course = true
  op_ : m.op = op
  path : (moverRoute s j m).path = j.ln.path
  cost : j.prog = 0 → 64 + (moverRoute s j m).lat + m.cycles (moverRoute s j m) ≤ j.ln.wcCompute + j.ln.wcXfer

/-- The address of the counter of blocks that a course's mover has moved (R297). -/
def moverCounter (c : Nat) : Nat := MEMR (c / 12) + 0x100 + 8 * (c % 12)

/-- The collective line of a command may take its next step: the device `w` is as the checks of R373 leave it, `p` its plan. -/
def State.collGoes (s : State) (k : Work) (kind : Nat) (j : Job) (w : World) (p : EfPlan) : Prop :=
  s.lineReady k.course k.line unitColl j ∧ s.world.efStart j k.bad kind = .go w p

/-- A pass of the update engine that passes every check of its start: descriptor `d`, within its budgets, its slot free or its context's (R321, R322). -/
structure PassReady (s : State) (k : Work) (kind : Nat) (j : Job) (d : UeDesc) : Prop where
  line : s.lineReady k.course k.line unitUe j
  desc : ∃ b, s.reads j k.bad j.ln.desc 128 b ∧ d = ueDesc b
  kind_ : d.kind = kind
  kept : d.bad s.mem (farBytes s.dev) j.course j.ln.desc = none
  compute : (d.least s.mem).1 ≤ j.ln.wcCompute
  xfer : (d.least s.mem).2.1 ≤ j.ln.wcXfer
  owner : s.dev.slotState d.slot = slotFree ∨ s.dev.slotCtx d.slot = j.ctx

/-- The update-engine commands other than OPEN, the KIND of their descriptors, and the work of their passes. -/
def passTable : List ((Work → Instr) × Nat × (World → Job → UeDesc → List Nat → World)) :=
  [(.ueUpdate, 2, World.ueUpdatePass), (.trustP1, 3, World.trust1), (.trustP2, 4, World.trust2), (.ueDigest, 5, World.digestPass),
   (.steer, 6, World.steerPass)]

/-- Whether a DIGEST pass of a slot has nothing to build at its T (R330). -/
def Dev.digestIdle (d : Dev) (n : Nat) : Bool :=
  d.fld (slotBase n + 8) 63 0 % max 1 (parDigestEvery (d.slot n).param) != 0

/-- A flit of its TYPE that its link takes and whose link CRC holds (R337, R338). -/
def State.flitGood (s : State) (l typ : Nat) (flit : List Byte) : Prop :=
  s.live ∧ s.dev.takesFlits l typ = true ∧ flitOk flit = true ∧ bitsOf (flitHdr flit) 3 0 = typ

/-- A link in service that does not retrain: it sends. -/
def Dev.sends (d : Dev) (l : Nat) : Bool := d.linkUp l && !(d.link l).retraining

/-- A flit has failed the link CRC: counted, and NAKed by a link that sends (R340, R343). -/
def Dev.nakked (d : Dev) (l : Nat) : Dev :=
  let c := { d with regs := rcount d.regs (linkCrcs l) 63 0 1 }
  if d.sends l then c.sendLink l { ack := none, nak := some (Fin.ofNat 512 (d.link l).expect), credit := none } else c

/-- A flit of an unlisted TYPE (R338, R419). -/
def flitUnlisted (l : Nat) (flit : List Byte) : Bool :=
  let typ := bitsOf (flitHdr flit) 3 0
  decide (4 < typ) || (decide (24 ≤ l) && typ == 3)

/-- The flit is the next one of its link in order (R340). -/
def State.flitNext (s : State) (l typ : Nat) (flit : List Byte) : Prop :=
  s.flitGood l typ flit ∧ bitsOf (flitHdr flit) 12 4 = (s.dev.link l).expect

/-- The four causes of power-on reset: their commands, and what RST_CAUSE holds after each (R503, R512). -/
def powerOnTable : List (Instr × Nat) := [(.powerOnReset, 1), (.undervoltage, 5), (.regulatorShutdown, 5), (.clockLoss, 3)]

/-- The commands that read the management bus, and what each answers but SMB_STATUS (R558). -/
def smbTable : List (Instr × (Dev → List Byte)) :=
  [ (.smbIdent, fun d => leBytes 8 (rget d.regs IDENT_DEVICE).toNat ++ d.serial),
    (.smbInput, fun d => leBytes 2 (d.fld PWR_INPUT 47 32) ++ leBytes 2 (d.fld PWR_INPUT 31 16) ++ leBytes 2 (d.fld PWR_INPUT 15 0)),
    (.smbCause, fun d => leBytes 2 (if d.fld HL_STATUS 9 9 = 1 then d.fld (WD d.custodyTower + 0x18) 15 0 else 0) ++ leBytes 4 d.allCauses) ]

end Sys2Proof.Machine
end

