-- ==== Sys2Proof/Certificates/Slice0/Obligations.lean ====
section
/-! DEFINITION. The statements for the provers. Each formalises rules of spec/ that OBLIGATIONS.json cites. -/

open Sys2Proof Sys2Proof.Machine

/-! ## The block as a whole -/

/-- The command at the front of the queue runs on the rest of it.
MODEL'S CHOICE (log 7): with no command waiting the block idles. -/
def Obligations.StepRunsTheFrontCommandOrIdles : Prop :=
  (
  ∀ (c : Instr) (rest : List Instr) (s : State), s.pending = c :: rest → step s = exec c { s with pending := rest }) ∧
  (
  ∀ s : State, s.pending = [] → step s = .next s)

/-- No command stops the block, and none touches the queue. -/
def Obligations.EveryCommandAnswers : Prop :=
  ∀ (c : Instr) (s : State), ∃ t, exec c s = .next t ∧ t.pending = s.pending

/-- INVARIANT. Whatever command runs, the stores keep their canonical form. -/
def Obligations.StoresStayCanonical : Prop :=
  ∀ s t : State, s.memInv → step s = .next t → t.memInv

/-- The state after power-on reset: the stores list nothing, no command waits, nothing is resident, every register reads the value of
its table (R13), and the device is in reset (R503, R511).
MODEL'S CHOICE (log 1): a byte of the stores that nothing has written reads 0; R504 calls their contents undefined. The values of the registers for which no table
gives a number are the model's too (log 2). -/
def Obligations.ResetState : Prop :=
  State.reset.safe ∧ State.reset.pending = [] ∧ State.reset.dev.level = .powerOn ∧
  (∀ a, rget State.reset.dev.regs a = resetWord a) ∧
  (∀ a, readByte State.reset.mem a = 0) ∧
  (∀ i, (State.reset.dev.ctx i).st = .free) ∧ (∀ c, (State.reset.dev.course c).lines = [])

/-- MODEL'S CHOICE (log 8): while a reset holds the device every other command leaves it as it is. -/
def Obligations.InResetOnlyResetActs : Prop :=
  ∀ (c : Instr) (s : State), s.dev.level ≠ .run → actsInReset c = false → exec c s = .next s



/-! ## Host commands (12, 13, 14) -/

/-- The read-only commands answer once, with the contents the spec gives the reply, and change nothing but HL_COMMANDS.
ATTEST answers the report of R458 over the requester's nonce, signed with a fresh signing number. -/
def Obligations.QueriesAndAttestReply : Prop :=
  (
  (∀ h s, s.admits h { plainOp 0x001 [0, 1, 2, 3] with early := true } →
    let d := s.dev.counted
    let b := leBytes 8 (rget d.regs IDENT_DEVICE).toNat ++ leBytes 8 (rget d.regs IDENT_BUILD).toNat ++ d.serial ++
      leBytes 2 (if d.hedge.joined then d.hedge.rank else 0xFFFF) ++ leBytes 2 d.hedge.size ++ leBytes 1 d.custodyTower ++
      leBytes 1 d.board.clkMode.toNat ++ leBytes 1 d.board.bootSrc.toNat ++ leBytes 1 0 ++ leBytes 8 (farBytes d)
    exec (.identify h) s = .next { s with dev := d.replied h 0x001 stOk 0 0 [mkBlk b] }) ∧
  (∀ h s v, s.admits h { plainOp 0x002 [1, 2, 3] with early := earlyReg h.p0.toNat } →
    s.dev.counted.readReg h.p0.toNat = some v →
    exec (.readReg h) s = .next { s with dev := s.dev.counted.replied h 0x002 stOk 0 0 [mkBlk (leBytes 8 v.toNat)] }) ∧
  (∀ h s, s.admits h (plainOp 0x006 [3]) →
    (h.p0 = 0 ∧ h.p1.toNat < 368 ∧ h.p1.toNat + h.p2.toNat ≤ 368 ∨ h.p0 = 1 ∧ h.p1.toNat < 49 ∧ h.p1.toNat + h.p2.toNat ≤ 49) →
    let d := s.dev.counted
    let b := (List.range h.p2.toNat).flatMap (fun k =>
      if h.p0 = 0 then d.sensorWord (h.p1.toNat + k) else d.railWord (h.p1.toNat + k))
    exec (.sensorRead h) s = .next { s with dev := d.replied h 0x006 stOk 0 0 (mkBlks b) }) ∧
  (∀ h s, s.admits h (ctxSpec 0x107 [0, 1, 2, 3] noPayload) →
    let b := [mkBlk ((s.dev.taken h).descriptor h.ctx.toNat)]
    exec (.ctxQuery h) s = .next { s with dev := s.dev.counted.replied h 0x107 stOk 0 0 b }) ∧
  (∀ h s, s.admits h (wardenOp 0x405 [0, 1, 2, 3]) →
    let b := [mkBlk (s.dev.taken h).fwStatusBytes]
    exec (.fwStatus h) s = .next { s with dev := s.dev.counted.replied h 0x405 stOk 0 0 b }) ∧
  (∀ h s, s.admits h { plainOp 0x604 [2, 3] with custody := s.dev.fld HL_STATUS 9 9 == 1, early := true } → 1 ≤ h.p1.toNat → h.p1.toNat ≤ 1024 →
    let es := (List.range h.p1.toNat).map (fun k => (s.dev.taken h).logEntry ((h.p0.toNat + k) % 2 ^ 32))
    let n := sat16 (es.filter (fun e => e.any (· != 0))).length
    let d := s.dev.counted.replied h 0x604 stOk n (BitVec.ofNat 32 s.dev.log.next) (mkBlks es.flatten)
    exec (.logRead h) s = .next { s with dev := d })) ∧
  (
  ∀ h s, s.admits h { wardenOp 0x005 [1, 2, 3] with lenOk := oneBlock } → h.p0.toNat < 2 →
    let d := s.dev.counted.replied h 0x005 stOk 0 0 (mkBlks ((s.dev.taken h).report (h.p0 == 1) (payloadBytes h.payload)))
    exec (.attest h) s = .next { s with dev := { d with fw := { s.dev.fw with signs := s.dev.fw.signs + 1 } } })

/-- WRITE_REG on a listed register with no action of its own: its word takes the new value under the access codes of its fields, no
other register but HL_COMMANDS changes, and one OK leaves. -/
def Obligations.WriteRegWritesOneRegister : Prop :=
  ∀ h s r, s.admits h { plainOp 0x003 [3] with custody := wardenReg h.p0.toNat } → regRow h.p0.toNat = some r →
    (r.wide = false → h.p2 = 0) → h.p0.toNat ≠ FH_CTRL → h.p0.toNat ≠ FH_WINDOW → h.p0.toNat ≠ MEM_FAR_BUDGET →
    ctrlLink h.p0.toNat = none → ¬ (h.p0.toNat % 0x1000000 = 0x90040 ∧ h.p0.toNat < 0x08000000) → regHome h.p0.toNat ≠ HL_CTRL →
    regHome h.p0.toNat ≠ HL_COMMANDS →
    ¬ (regHome h.p0.toNat % 0x1000000 = 0x60048 ∧ regHome h.p0.toNat < 0x08000000) →
    ¬ ((regHome h.p0.toNat / 0x10000) % 256 = 2 ∧ regHome h.p0.toNat < 0x08000000) →
    let a := regHome h.p0.toNat
    let v := rowWrite r (rget s.dev.regs a) (BitVec.ofNat 64 (pair h.p1 h.p2))
    ∃ t, exec (.writeReg h) s = .next t ∧ rget t.dev.regs a = v ∧
      (∀ b, b ≠ a → rget t.dev.regs b = rget s.dev.counted.regs b) ∧
      t.dev.said = s.dev.said ++ [replyOf s.dev.counted h 0x003 stOk 0 0 []] ∧ t.mem = s.mem

/-- RESET: KIND 1 answers OK and the whole device enters system reset; KIND 2 answers ACCEPTED and asks for the core reset of the towers. -/
def Obligations.ResetCommandResets : Prop :=
  (∀ h s, s.admits h (wardenOp 0x004 [1, 2, 3]) → h.p0 = 1 →
    ∃ t, exec (.reset h) s = .next t ∧ t.dev.level = .system ∧
      s.dev.out ++ [replyOf s.dev.counted h 0x004 stOk 0 0 []] <+: t.dev.out ∧ (∀ i, (t.dev.ctx i).st = .free)) ∧
  (∀ h s, s.admits h (wardenOp 0x004 [2, 3]) → h.p0 = 2 → h.p1 ≠ 0 → h.p1.toNat < 256 →
    (∀ e ∈ s.dev.ctxs, e.2.active = true → e.2.kind ≠ 2 → ∀ c ∈ maskCourses e.2.mask.toNat, bitOf h.p1.toNat (c / 12) = false) →
    let ts := (List.range 8).filter (bitOf h.p1.toNat)
    let w : World := { s.world with d := s.dev.counted.accepted h 0x004 }
    exec (.reset h) s = .next (commit s (World.onDev (ts.foldl (fun w k => if w.d.fenced k then w else w.askCoreReset k 0 false)
      (ts.foldl World.stopServices w)) Dev.resetJobs)))

/-- CTX_CREATE: the context takes the fields of its block and is LOADED at position 0 without a valid tab; every other context stays. -/
def Obligations.CtxCreateLoadsAContext : Prop :=
  ∀ h s, s.admits h (ctxSpec 0x101 [0, 1, 2, 3] oneBlock) → 16 ≤ h.ctx.toNat → (s.dev.ctx h.ctx.toNat).st = .free →
    s.dev.createBad (payloadBytes h.payload) = none →
    (∀ c ∈ maskCourses (createdCtx (payloadBytes h.payload)).mask.toNat, s.dev.fenced (c / 12) = false) →
    ∃ t, exec (.ctxCreate h) s = .next t ∧ t.dev.ctx h.ctx.toNat = createdCtx (payloadBytes h.payload) ∧
      (t.dev.ctx h.ctx.toNat).st = .loaded ∧ (t.dev.ctx h.ctx.toNat).tabValid = false ∧ (t.dev.ctx h.ctx.toNat).pos = 0 ∧
      (∀ i, i ≠ h.ctx.toNat → t.dev.ctx i = s.dev.ctx i) ∧ t.mem = s.mem ∧ t.dev.courses = s.dev.courses ∧
      t.dev.said = s.dev.said ++ [replyOf s.dev h 0x101 stOk 0 0 []] ∧ t.dev.hl = s.dev.hl

/-- A command that names a FREE context completes with NO_CONTEXT and changes nothing (R391); CTX_CREATE on one that is not FREE is
refused with CONTEXT_STATE. -/
def Obligations.FreeContextIsNoContext : Prop :=
  (∀ h s, s.admits h (ctxSpec 0x102 [0, 1, 2, 3] (fun n => decide (1 ≤ n))) → 16 ≤ h.ctx.toNat → (s.dev.ctx h.ctx.toNat).st = .free →
    exec (.ctxLoadTab h) s = .next { s with dev := s.dev.counted.replied h 0x102 stNoContext 0 0 [] }) ∧
  (∀ h s, s.admits h (ctxSpec 0x103 [2, 3] noPayload) → (s.dev.ctx h.ctx.toNat).st = .free →
    exec (.ctxStart h) s = .next { s with dev := s.dev.counted.replied h 0x103 stNoContext 0 0 [] }) ∧
  (∀ h s, s.admits h (ctxSpec 0x104 [2, 3] noPayload) → (s.dev.ctx h.ctx.toNat).st = .free →
    exec (.ctxPark h) s = .next { s with dev := s.dev.counted.replied h 0x104 stNoContext 0 0 [] }) ∧
  (∀ h s, s.admits h (ctxSpec 0x105 [2, 3] noPayload) → (s.dev.ctx h.ctx.toNat).st = .free →
    exec (.ctxResume h) s = .next { s with dev := s.dev.counted.replied h 0x105 stNoContext 0 0 [] }) ∧
  (∀ h s, s.admits h (ctxSpec 0x106 [0, 1, 2, 3] noPayload) → (s.dev.ctx h.ctx.toNat).st = .free →
    exec (.ctxDestroy h) s = .next { s with dev := s.dev.counted.replied h 0x106 stNoContext 0 0 [] }) ∧
  (∀ h s, s.admits h (ctxSpec 0x101 [0, 1, 2, 3] oneBlock) → 16 ≤ h.ctx.toNat → (s.dev.ctx h.ctx.toNat).st ≠ .free →
    exec (.ctxCreate h) s = .next { s with dev := s.dev.counted.replied h 0x101 stContextState 4 0 [] })

/-- CTX_LOAD_TAB on a LOADED context: the image stands in the tab region of each of its towers, KIND and TAB_DIGEST are those of the
image, the position is 0 and the tab is valid; one OK leaves. A service context, which has no tab, is refused with CONTEXT_STATE.
DEDUCED (log 125): the status of a service context. -/
def Obligations.CtxLoadTabLoadsTheImage : Prop :=
  (∀ h s, s.admits h (ctxSpec 0x102 [0, 1, 2, 3] (fun n => decide (1 ≤ n))) → (s.dev.ctx h.ctx.toNat).st ≠ .free →
    (s.dev.ctx h.ctx.toNat).kind = 2 →
    exec (.ctxLoadTab h) s = .next { s with dev := s.dev.counted.replied h 0x102 stContextState 4 0 [] }) ∧
  ∀ h s, s.admits h (ctxSpec 0x102 [0, 1, 2, 3] (fun n => decide (1 ≤ n))) → (s.dev.ctx h.ctx.toNat).kind ≠ 2 →
    (s.dev.ctx h.ctx.toNat).st = .loaded →
    let x := s.dev.ctx h.ctx.toNat
    let b := payloadBytes h.payload
    loadRefusal x b = none →
    let w := (World.putImage { s.world with d := s.dev.taken h } x (h.payload.take (ceilDiv (tabHdr (b.take 256)).imageLen 512))).onDev
      (fun d => d.onCtx h.ctx.toNat (loadedCtx b))
    w.validate (w.d.ctx h.ctx.toNat) (fun a k => slice b a k) = none →
    ∃ t, exec (.ctxLoadTab h) s = .next t ∧ t.dev.ctx h.ctx.toNat = { loadedCtx b x with tabValid := true } ∧
      (∀ i, i ≠ h.ctx.toNat → t.dev.ctx i = s.dev.ctx i) ∧
      t.mem = (commit s w).mem ∧
      t.dev.said = s.dev.said ++ [replyOf s.dev h 0x102 stOk 0 0 []] ∧ t.dev.hl = s.dev.hl

/-- CTX_START makes a loaded context runnable at position 0 with the given start fret and takes its resident sets away; CTX_RESUME makes a
parked context runnable at the position it holds. Both validate first, and answer OK.
CTX_PARK and CTX_DESTROY answer ACCEPTED; the park position is recorded, and the destruction takes place at once unless the context runs. -/
def Obligations.CtxStartResumeParkDestroy : Prop :=
  (
  (∀ h s n, s.admits h (ctxSpec 0x103 [2, 3] noPayload) →
    let i := h.ctx.toNat
    let x := s.dev.ctx i
    x.st = .loaded → x.tabValid = true → (s.dev.taken h).startFretOf x (pair h.p0 h.p1) = some n → (s.dev.taken h).rival i = false →
    (x.kind = 2 ∨ World.validateLoaded { s.world with d := s.dev.taken h } x = none) →
    ∃ t, exec (.ctxStart h) s = .next t ∧ (t.dev.ctx i).st = .runnable ∧ (t.dev.ctx i).pos = 0 ∧ (t.dev.ctx i).passes = 0 ∧
      (t.dev.ctx i).startFret = n ∧ (t.dev.ctx i).win = [] ∧ t.mem = s.mem ∧
      t.dev.said = s.dev.said ++ [replyOf s.dev h 0x103 stOk 0 0 []] ∧ t.dev.hl.outstanding = s.dev.hl.outstanding) ∧
  (∀ h s n, s.admits h (ctxSpec 0x105 [2, 3] noPayload) →
    let i := h.ctx.toNat
    let x := s.dev.ctx i
    x.st = .parked → x.tabValid = true → (s.dev.taken h).startFretOf x (pair h.p0 h.p1) = some n → (s.dev.taken h).rival i = false →
    (x.kind = 2 ∨ World.validateLoaded { s.world with d := s.dev.taken h } x = none) →
    ∃ t, exec (.ctxResume h) s = .next t ∧
      t.dev.ctx i = { x with st := .runnable, startFret := n, parkPos := none, stop := none, begun := false, posOpen := false,
                             ran := false } ∧
      (∀ j, j ≠ i → t.dev.ctx j = s.dev.ctx j) ∧ t.dev.courses = s.dev.courses ∧ t.mem = s.mem ∧
      t.dev.said = s.dev.said ++ [replyOf s.dev h 0x105 stOk 0 0 []] ∧ t.dev.hl = s.dev.hl)) ∧
  (
  (∀ h s, s.admits h (ctxSpec 0x104 [2, 3] noPayload) →
    let i := h.ctx.toNat
    let x := s.dev.ctx i
    let p := pair h.p0 h.p1
    x.st ≠ .free → x.active = true → ¬ (p = 0 ∧ x.kind = 1) → (p = 0 ∨ x.pos < p) →
    exec (.ctxPark h) s = .next { s with dev := (s.dev.counted.accepted h 0x104).onCtx i (fun x => { x with parkPos := some p }) }) ∧
  (∀ h s, s.admits h (ctxSpec 0x106 [0, 1, 2, 3] noPayload) →
    let i := h.ctx.toNat
    let x := s.dev.ctx i
    x.st ≠ .free → x.kind ≠ 2 →
    let d := (s.dev.counted.accepted h 0x106).onCtx i (fun x => { x with destroy := some (h.port, h.tag) })
    exec (.ctxDestroy h) s = .next { s with dev := if x.active then d else d.destroyCtx i }) ∧
  (∀ h s, s.admits h (ctxSpec 0x106 [0, 1, 2, 3] noPayload) →
    let i := h.ctx.toNat
    let x := s.dev.ctx i
    x.st ≠ .free → x.kind = 2 →
    let d := (s.dev.counted.accepted h 0x106).onCtx i (fun x => { x with destroy := some (h.port, h.tag) })
    let w := World.endService { s.world with d := d } i stContextState
    exec (.ctxDestroy h) s = .next (commit s (if x.active then w else w.onDev (fun d => d.destroyCtx i)))))

/-- MEM_WRITE to a store of the device: every block of the payload stands in the store with its check, a poisoned one in poison form;
every other byte and every other check is as before; one OK leaves. -/
def Obligations.MemWriteStoresItsBlocks : Prop :=
  ∀ h s, s.memInv → s.admits h memWriteOp →
    let a := pair h.p0 h.p1
    Dev.runFree s.dev.counted a h.payload.length → Dev.runOffLadder s.dev a h.payload.length → tierOf a ≠ 3 → (∀ b ∈ h.payload, blkSyn b = 0 ∨ blkSyn b = poisonMark) →
    ∃ t, exec (.memWrite h) s = .next t ∧
      (∀ k b, h.payload[k]? = some b → readBytes t.mem (a + 512 * k) 512 = padTo 512 b.data ∧ tget 0 t.mem.syn (a + 512 * k) = blkSyn b) ∧
      (∀ x, x < a ∨ a + 512 * h.payload.length ≤ x → readByte t.mem x = readByte s.mem x ∧ tget 0 t.mem.syn x = tget 0 s.mem.syn x) ∧
      t.dev.said = s.dev.said ++ [replyOf s.dev h 0x201 stOk 0 0 []] ∧ t.dev.hl = s.dev.hl

/-- MEM_READ of a store of the device, no block failing its check: the blocks leave as they stand, with OK, or with POISONED and their
number where some are in poison form; the stores are as before.
MEM_FILL and MEM_COPY answer ACCEPTED and leave the stores as they are: their work ends with COMMAND_DONE. -/
def Obligations.MemReadReturnsFillAndCopyAreAccepted : Prop :=
  (
  ∀ h bad s, s.admits h (plainOp 0x202 [3]) → 1 ≤ h.p2.toNat → h.p2.toNat ≤ 65536 →
    let a := pair h.p0 h.p1
    let bl := (runBlocks a h.p2.toNat).map s.world.carry
    let n := (bl.filter (fun b => blkSyn b == poisonMark)).length
    Dev.runFree s.dev.counted a h.p2.toNat → tierOf a ≠ 3 →
    (∀ x ∈ runBlocks a h.p2.toNat, s.world.failing bad x = false) →
    ∃ t, exec (.memRead h bad) s = .next t ∧ t.mem = s.mem ∧ t.dev.hl = s.dev.hl ∧
      t.dev.said = s.dev.said ++ [if n = 0 then replyOf s.dev h 0x202 stOk 0 0 bl else replyOf s.dev h 0x202 stPoisoned (sat16 n) 0 bl]) ∧
  (
  (∀ h s, s.admits h (plainOp 0x203 []) → 1 ≤ h.p2.toNat → h.p2.toNat ≤ 2 ^ 24 →
    s.dev.counted.memRunOk (pair h.p0 h.p1) h.p2.toNat = true → s.dev.counted.runFenced (pair h.p0 h.p1) = false →
    exec (.memFill h) s = .next { s with dev := s.dev.counted.accepted h 0x203 }) ∧
  (∀ h s, s.admits h { plainOp 0x204 [0, 1, 2, 3] with lenOk := oneBlock } →
    let src := (copyArgs h).1
    let dst := (copyArgs h).2.1
    let n := (copyArgs h).2.2
    1 ≤ n → n ≤ 2 ^ 24 → s.dev.counted.memRunOk src n = true → s.dev.counted.runFenced src = false →
    s.dev.counted.memRunOk dst n = true → s.dev.counted.runFenced dst = false →
    let d := s.dev.counted.accepted h 0x204
    let ask := (runBlocks src n).map (fun x => (bitsOf x 41 0, none))
    exec (.memCopy h) s =
      .next { s with dev := if tierOf src = 3 then d.farAsk h.port.val (hostWho h) 0xFFFF 1 false false ask else d }))

/-- COMMAND_DONE of a command whose work has ended sends the event COMMAND_DONE with its status and takes the command out of the outstanding
ones; for MEM_FILL it first writes the pattern to every block of the run and to no other byte; HEDGE_JOIN is done after 4 aligned frets. The
commands that wait then go on; where none waits, nothing else happens.
DEDUCED (log 83): the frets a leader or a device alone counts for HEDGE_JOIN are its own. -/
def Obligations.CommandDoneConcludes : Prop :=
  (∀ port tag bad s j st det, s.live → s.dev.jobNamed port tag = some j →
    (j.result = some (st, det) ∧ s.dev.farBusy (hostWho j.h) = false ∨
      j.result = none ∧ j.opcode = 0x301 ∧ 4 ≤ s.dev.ft.aligned ∧ st = stOk ∧ det = 0) →
    s.dev.hl.events.length < 1024 →
    let w := s.world.concludeJob j st det
    let t := commit s w
    exec (.commandDone port tag bad) s = .next (commit s w.retry) ∧ t.mem = s.mem ∧ t.dev.out = s.dev.out ∧
      t.dev.hl.outstanding = s.dev.hl.outstanding.erase (j.h.port.val, j.h.tag) ∧
      (∃ e, t.dev.hl.events = s.dev.hl.events ++ [e] ∧ e.opcode = 0x804 ∧ e.status = st ∧ e.detail = det ∧ e.tag = j.h.tag) ∧
      (s.dev.hl.jobs = [j] → s.dev.hl.held = [] → s.dev.ckpts = [] → exec (.commandDone port tag bad) s = .next t)) ∧
  (∀ port tag bad s j, s.live → s.memInv → s.dev.jobNamed port tag = some j → j.result = none → j.opcode = 0x203 →
    let a := pair j.h.p0 j.h.p1
    s.dev.runClosed a j.h.p2.toNat = false → tierOf a ≠ 3 → s.dev.farBusy (hostWho j.h) = false → s.dev.hl.events.length < 1024 →
    ∃ w, exec (.commandDone port tag bad) s = .next (commit s w.retry) ∧
      (∀ k i, k < j.h.p2.toNat → i < 128 → readBytes (commit s w).mem (a + 512 * k + 4 * i) 4 = leBytes 4 j.h.p3.toNat) ∧
      (∀ x, x < a ∨ a + 512 * j.h.p2.toNat ≤ x → readByte (commit s w).mem x = readByte s.mem x) ∧
      (∃ e, w.d.hl.events = s.dev.hl.events ++ [e] ∧ e.opcode = 0x804 ∧ e.status = stOk ∧ e.tag = j.h.tag) ∧
      (s.dev.hl.jobs = [j] → s.dev.hl.held = [] → s.dev.ckpts = [] → exec (.commandDone port tag bad) s = .next (commit s w)))

/-- FAR_MAP gives HL_FAR_MAP its capacity and bandwidth, answers OK and changes nothing else where MEM_FAR_BUDGET covers the new bandwidth;
where it does not, the budget becomes the bandwidth + 144 and every loaded context is validated again. A smaller capacity is refused while a
context runs.
HEDGE_JOIN that passes its checks answers ACCEPTED, stays outstanding with its job, and gives the hedge state and registers their
values; HEDGE_LEAVE makes the device stand alone: FT_LEADER and FT_DIAMETER read their reset values again. -/
def Obligations.FarMapHedgeJoinAndLeave : Prop :=
  (∀ h s, s.admits h (plainOp 0x205 [2, 3]) → 1 ≤ h.p0.toNat → h.p0.toNat ≤ 4096 → h.p1.toNat ≤ 0xFFF6F →
    let d := (s.dev.counted.setFld HL_FAR_MAP 12 0 h.p0.toNat).setFld HL_FAR_MAP 51 32 h.p1.toNat
    let fits := s.dev.fld HL_FAR_MAP 12 0 ≤ h.p0.toNat ∨ ∀ e ∈ s.dev.ctxs, e.2.active = false
    (d.fld HL_FAR_MAP 12 0 = h.p0.toNat ∧ d.fld HL_FAR_MAP 51 32 = h.p1.toNat ∧
      ∀ b, b ≠ HL_FAR_MAP → rget d.regs b = rget s.dev.counted.regs b) ∧
    (fits → h.p1.toNat + 144 ≤ s.dev.fld MEM_FAR_BUDGET 19 0 →
      exec (.farMap h) s = .next { s with dev := d.repliedOk h 0x205 }) ∧
    (fits → s.dev.fld MEM_FAR_BUDGET 19 0 < h.p1.toNat + 144 →
      let e := (d.setFld MEM_FAR_BUDGET 19 0 (h.p1.toNat + 144))
      e.fld MEM_FAR_BUDGET 19 0 = h.p1.toNat + 144 ∧
      exec (.farMap h) s = .next (commit s (World.answer (World.revalidate { s.world with d :=
        { e with hl := (s.dev.taken h).hl } } stPlanOverrun) h 0x205 stOk 0))) ∧
    (¬ fits → exec (.farMap h) s = .next { s with dev := s.dev.counted.replied h 0x205 stContextState 12 0 [] })) ∧
  (∀ h s, s.admits h (wardenOp 0x301 []) →
    let size := h.p0.toNat
    let rank := h.p1.toNat
    let img := s.dev.hedge.route
    let dia := diameter img
    1 ≤ size → size ≤ 1024 → rank < size → h.p2.toNat < size →
    (h.p3.toNat = 0xFFFF ∨ (h.p3.toNat < size ∧ h.p3.toNat ≠ h.p2.toNat)) → s.dev.board.clkMode ≠ 3 →
    (s.dev.board.clkMode ≠ 0 ∨ size = 1) → (img = [] ∧ size = 1 ∨ img ≠ [] ∧ routeN img = size) →
    (s.dev.taken h).wrongPort img rank = none → dia ≤ 16 → settleMin dia ≤ s.dev.settleLen →
    ∃ t, exec (.hedgeJoin h) s = .next t ∧
      t = { s with dev := (s.dev.counted.accepted h 0x301).join size rank h.p2.toNat h.p3.toNat dia } ∧
      t.dev.hedge = { s.dev.hedge with joined := true, size := size, rank := rank } ∧
      t.dev.fld FT_LEADER 9 0 = rank ∧ t.dev.fld FT_LEADER 25 16 = h.p2.toNat ∧
      t.dev.fld FT_LEADER 42 32 = (if h.p3.toNat = 0xFFFF then 0x7FF else h.p3.toNat) ∧
      t.dev.fld FT_LEADER 49 48 = (if rank = h.p2.toNat then 1 else if rank = h.p3.toNat then 2 else 0) ∧ t.dev.fld FT_LEADER 63 56 = 0 ∧
      t.dev.fld FT_DIAMETER 10 0 = dia ∧ t.dev.fld FT_DIAMETER 31 16 = settleMin dia ∧
      rget t.dev.regs FT_POS = 0 ∧ rget t.dev.regs FT_HOLD_FRETS = 0 ∧ t.dev.fld FT_HOLD_STATUS 18 18 = 0 ∧ t.dev.fld FT_HOLD_STATUS 19 19 = 0 ∧
      t.dev.ft = { s.dev.ft with adopt := decide (rank ≠ h.p2.toNat), aligned := 0, leaderHold := false, markerSeen := false } ∧
      t.dev.hl.outstanding = s.dev.hl.outstanding ++ [(h.port.val, h.tag)] ∧
      t.dev.hl.jobs = s.dev.hl.jobs ++ [{ h := h, opcode := 0x301, result := none }] ∧
      t.dev.said = s.dev.said ++ [replyOf s.dev h 0x301 stAccepted 0 0 []]) ∧
  (∀ h s, s.admits h (wardenOp 0x302 [0, 1, 2, 3]) →
    ∃ t, exec (.hedgeLeave h) s = .next t ∧ t.mem = s.mem ∧
      t.dev.hedge = { s.dev.hedge with joined := false, size := 1, rank := 0 } ∧
      rget t.dev.regs FT_LEADER = resetWord FT_LEADER ∧ rget t.dev.regs FT_DIAMETER = resetWord FT_DIAMETER ∧
      t.dev.fld FT_HOLD_STATUS 18 18 = 0 ∧ t.dev.fld FT_HOLD_STATUS 19 19 = 0 ∧
      (∀ b, b ≠ FT_LEADER → b ≠ FT_DIAMETER → b ≠ FT_HOLD_STATUS → rget t.dev.regs b = rget s.dev.counted.regs b) ∧
      t.dev.ft = { s.dev.ft with adopt := false, aligned := 0, leaderHold := false } ∧
      t.dev.ctxs = s.dev.ctxs ∧ t.dev.courses = s.dev.courses ∧ t.dev.hl = s.dev.hl ∧
      t.dev.said = s.dev.said ++ [replyOf s.dev h 0x302 stOk 0 0 []])

/-- FRET_CONFIG with values in range keeps them for their apply fret; DRONE_RAISE raises ABORT, a hold of its length or a user flag;
ROUTE_LOAD takes the image and shows its digest. Each answers OK. -/
def Obligations.FretConfigDroneRaiseRouteLoad : Prop :=
  (∀ h s, s.admits h (wardenOp 0x303 []) →
    let p := 1024 * bitsOf h.p0.toNat 10 0
    let g := 256 * bitsOf h.p0.toNat 21 11
    let l := 256 * bitsOf h.p1.toNat 12 0
    let a := pair h.p2 h.p3
    h.p0.toNat < 2 ^ 22 → 4096 ≤ p → p ≤ 1048576 → max 512 (p / 256) ≤ g → g ≤ p / 4 → h.p1.toNat < 2 ^ 13 →
    s.dev.fld FT_DIAMETER 31 16 ≤ l → l + g + 256 ≤ p → s.dev.fretNum + 8 < a → (∀ e ∈ s.dev.ctxs, e.2.active = false) →
    let d := s.dev.counted.setFt (fun f => { f with pendingCfg := some (a, p, g, l) })
    exec (.fretConfig h) s = .next { s with dev := d.repliedOk h 0x303 }) ∧
  (∀ h s, s.admits h (wardenOp 0x305 [1, 2, 3]) → h.p0 = 1 →
    exec (.droneRaise h) s = .next { s with dev := (s.dev.counted.raise flagAbort).repliedOk h 0x305 }) ∧
  (∀ h s, s.admits h (wardenOp 0x305 [2, 3]) → h.p0 = 2 → 1 ≤ h.p1.toNat → h.p1.toNat ≤ 65535 →
    let d := s.dev.counted.setFt (fun f => { f with hostHold := BitVec.ofNat 16 (max f.hostHold.toNat h.p1.toNat) })
    exec (.droneRaise h) s = .next { s with dev := (d.setBit FT_HOLD_CAUSE 7).repliedOk h 0x305 }) ∧
  (∀ h s, s.admits h (wardenOp 0x305 [2, 3]) → h.p0 = 3 → h.p1.toNat ≤ 7 →
    exec (.droneRaise h) s = .next { s with dev := (s.dev.counted.raise (24 + h.p1.toNat)).repliedOk h 0x305 }) ∧
  (∀ h s, s.admits h { wardenOp 0x304 [0, 1, 2, 3] with lenOk := fun n => decide (1 ≤ n) } →
    let b := payloadBytes h.payload
    let len := numAt b 12 4
    let dig := shake256 32 (b.take len)
    len ≤ b.length → 512 + 96 * numAt b 6 2 + numAt b 6 2 * numAt b 6 2 ≤ len → (∀ e ∈ s.dev.ctxs, e.2.active = false) →
    routeBad b = none →
    ∃ t, exec (.routeLoad h) s = .next t ∧ t.mem = s.mem ∧ t.dev.hedge.route = b.take len ∧
      (∀ k, k < 4 → rget t.dev.regs (EF_ROUTE_DIGEST k) = BitVec.ofNat 64 (numAt dig (8 * k) 8)) ∧
      t.dev.said = s.dev.said ++ [replyOf s.dev h 0x304 stOk 0 0 []])



/-- FW_STAGE stages its blocks, FW_VERIFY and FW_COMMIT_AT answer ACCEPTED, a commit is recorded with its fret, and FW_ABORT of an update that has
not been committed clears what was staged. -/
def Obligations.FirmwareCommandsRun : Prop :=
  (∀ h s, s.admits h { wardenOp 0x401 [3] with lenOk := fun n => decide (1 ≤ n) } →
    let comp := bitsOf h.p0.toNat 7 0
    let delta := bitOf h.p0.toNat 8
    let d := s.dev.taken h
    let len := if comp = 0 then 8 else (manEntry (d.image d.inactive 0) comp).length / 512
    s.dev.fw.state < 3 → h.p0.toNat < 512 → comp ≤ 7 → ¬ (comp = 0 ∧ delta = true) →
    (comp = 0 ∨ allBlocks (d.stagedOf 0) 8 = true) → (delta = true ∨ h.p2.toNat = len) →
    h.p1.toNat + h.payload.length ≤ h.p2.toNat →
    exec (.fwStage h) s = .next { s with dev := { (d.stage comp delta h.p1.toNat (payloadBytes h.payload)).repliedOk h 0x401 with hl := s.dev.hl } }) ∧
  (∀ h s, s.admits h (wardenOp 0x402 [0, 1, 2, 3]) →
    exec (.fwVerify h) s = .next { s with dev := s.dev.counted.accepted h 0x402 }) ∧
  (∀ h s, s.admits h (wardenOp 0x403 [2, 3]) → s.dev.fld FT_HOLD_STATUS 15 14 ≠ 2 → s.dev.fretNum + 64 < pair h.p0 h.p1 →
    s.dev.fw.state = 2 →
    ∃ t, exec (.fwCommitAt h) s = .next t ∧ t.mem = s.mem ∧ t.dev.fw = { s.dev.fw with state := 3, commit := pair h.p0 h.p1 } ∧
      t.dev.said = s.dev.said ++ [replyOf s.dev h 0x403 stAccepted 0 0 []]) ∧
  (∀ h s, s.admits h (wardenOp 0x404 [0, 1, 2, 3]) → s.dev.fw.state < 3 →
    ∃ t, exec (.fwAbort h) s = .next t ∧ t.mem = s.mem ∧ t.dev.fw = { s.dev.fw with state := 0, staged := [], deltas := [] } ∧
      t.dev.said = s.dev.said ++ [replyOf s.dev h 0x404 stOk 0 0 []]) ∧
  (∀ h s, s.admits h (wardenOp 0x404 [0, 1, 2, 3]) → s.dev.fw.state = 3 →
    ∃ t, exec (.fwAbort h) s = .next t ∧ t.mem = s.mem ∧ t.dev.fw.state = 2 ∧ t.dev.fw.commit = 0)

/-- FW_COMMIT_AT and BIST_RUN are refused with THERMAL while the latched THERMAL_LEVEL is 2, and nothing else happens.
A control packet that cannot run is answered or counted, and executes nothing: one on any quarter but QUARTER_0 of a port is discarded and counted in HL_STRAY (R428); on
QUARTER_0 a bad header CRC is counted and answered, a packet that is no command is counted in HL_STRAY, and a wrong version or an unlisted opcode is answered. -/
def Obligations.RefusedCommandsAndPackets : Prop :=
  (∀ h s, s.admits h (wardenOp 0x403 [2, 3]) → s.dev.fld FT_HOLD_STATUS 15 14 = 2 →
    exec (.fwCommitAt h) s = .next { s with dev := s.dev.counted.replied h 0x403 stThermal 0 0 [] }) ∧
  (∀ h s, s.admits h (wardenOp 0x601 [2, 3]) → s.dev.fld FT_HOLD_STATUS 15 14 = 2 →
    exec (.bistRun h) s = .next { s with dev := s.dev.counted.replied h 0x601 stThermal 0 0 [] }) ∧
  (∀ (q : Fin 8) bytes s, State.live s → s.dev.linkUp (24 + q.val) = true →
    let b := padTo 32 bytes
    let main := q.val % 4 = 0
    (numAt b 28 4 ≠ (crc32c (b.take 28)).toNat → main →
      exec (.badControlPacket q bytes) s = .next { s with dev := Dev.echoReply { s.dev with regs := rcount s.dev.regs HL_HDR_CRC 63 0 1 } (q.val / 4) b stBadHeaderCrc 28 }) ∧
    (numAt b 28 4 ≠ (crc32c (b.take 28)).toNat → ¬ main →
      exec (.badControlPacket q bytes) s = .next { s with dev := { s.dev with regs := rcount (rcount s.dev.regs HL_HDR_CRC 63 0 1) HL_STRAY 63 0 1 } }) ∧
    (numAt b 28 4 = (crc32c (b.take 28)).toNat → (¬ main ∨ numAt b 0 1 ≠ 1) →
      exec (.badControlPacket q bytes) s = .next { s with dev := { s.dev with regs := rcount s.dev.regs HL_STRAY 63 0 1 } }) ∧
    (numAt b 28 4 = (crc32c (b.take 28)).toNat → main → numAt b 0 1 = 1 → numAt b 1 1 ≠ 1 →
      exec (.badControlPacket q bytes) s = .next { s with dev := s.dev.echoReply (q.val / 4) b stBadParam 1 }) ∧
    (numAt b 28 4 = (crc32c (b.take 28)).toNat → main → numAt b 0 1 = 1 → numAt b 1 1 = 1 → listedOpcodes.contains (numAt b 2 2) = false →
      exec (.badControlPacket q bytes) s = .next { s with dev := s.dev.echoReply (q.val / 4) b stBadOpcode 2 }))

/-- SVC_START of a service that does not run sets it up: its configuration and share, and a context of KIND 2 that is to be resident on its
courses; one that runs takes the new block at the next fret boundary. SVC_QUERY queues its batch, still outstanding; SVC_STOP ends the
service and its context is FREE; CHECKPOINT is accepted and waits for its position. -/
def Obligations.ServiceCommandsRun : Prop :=
  (∀ h s, s.admits h { wardenOp 0x501 [0, 1, 2, 3] with lenOk := oneBlock } →
    let b := payloadBytes h.payload
    let i := numAt b 2 2
    let m := BitVec.ofNat 96 (numAt b 4 12)
    World.svcBad { s.world with d := s.dev.taken h } b = none → (∀ c ∈ maskCourses m.toNat, s.dev.fenced (c / 12) = false) →
    ((s.dev.svc i).active = true → (s.dev.ctx i).active = true →
      exec (.svcStart h) s = .next { s with dev := (s.dev.counted.onSvc i (fun v => { v with next := some b })).repliedOk h 0x501 }) ∧
    ((s.dev.svc i).active = false ∨ (s.dev.ctx i).active = false →
      ∃ t, exec (.svcStart h) s = .next t ∧ t = { s with dev := (s.dev.counted.configure i b).repliedOk h 0x501 } ∧
        (t.dev.svc i).active = true ∧ (t.dev.svc i).share = numAt b 1 1 ∧ (t.dev.svc i).config = b ∧ (t.dev.svc i).next = none ∧
        (t.dev.ctx i).kind = 2 ∧ (t.dev.ctx i).mask = m ∧ (t.dev.ctx i).begun = true ∧ (t.dev.ctx i).tabValid = true ∧
        ((s.dev.ctx i).active = false ∨ (s.dev.ctx i).mask ≠ m → (t.dev.ctx i).st = .runnable) ∧
        ((s.dev.ctx i).active = true → (s.dev.ctx i).mask = m → (t.dev.ctx i).st = (s.dev.ctx i).st) ∧
        t.dev.fld (CTX_SVC i) 63 63 = 1 ∧ t.dev.fld (CTX_SVC i) 55 48 = numAt b 1 1 ∧
        (∀ k, k ≠ i → t.dev.ctx k = s.dev.ctx k ∧ t.dev.svc k = s.dev.svc k) ∧
        t.dev.said = s.dev.said ++ [replyOf s.dev h 0x501 stOk 0 0 []])) ∧
  (∀ h s, s.admits h { plainOp 0x502 [0, 1, 2, 3] with lenOk := fun n => decide (2 ≤ n) } →
    let b := payloadBytes h.payload
    let q := batchOf b
    let v := s.dev.svc q.inst
    s.dev.batchBad (b.take 512) = none → v.active = true →
    h.payload.length = 1 + ceilDiv (q.queries * bytesFor (numAt v.config 32 1) (numAt v.config 34 2)) 512 → v.queue.length < 4 →
    exec (.svcQuery h) s = .next { s with dev := (s.dev.taken h).onSvc q.inst (fun x => { x with queue := x.queue ++ [h] }) }) ∧
  (∀ h s, s.admits h { plainOp 0x503 [0, 1, 2, 3] with ctx := true } → h.ctx.toNat < 16 → (s.dev.svc h.ctx.toNat).active = true →
    let w := World.onDev (World.endService { s.world with d := s.dev.taken h } h.ctx.toNat stContextState)
      (fun d => (d.dropResident h.ctx.toNat).onCtx h.ctx.toNat (fun _ => .init))
    exec (.svcStop h) s = .next (commit s (w.answer h 0x503 stOk 0)) ∧ w.d.ctx h.ctx.toNat = .init ∧
      w.d.svc h.ctx.toNat = .init ∧ w.d.fld (CTX_SVC h.ctx.toNat) 63 63 = 0 ∧ w.mem = s.mem) ∧
  (∀ h s, s.admits h { plainOp 0x504 [0, 1, 2, 3] with ctx := true, lenOk := oneBlock } →
    let b := payloadBytes h.payload
    let r := slice b 128 384
    numAt b 8 1 ≤ 3 → numAt b 9 1 ≤ 1 → (numAt b 9 1 = 0 → s.dev.counted.farDestOk (numAt b 16 8) (streamLen r) = true) →
    s.dev.counted.regionsBad r = none → (s.dev.ctx h.ctx.toNat).st ≠ .free →
    let k : Ckpt :=
      { ctx := h.ctx.toNat, slot := numAt b 8 1, pos := numAt b 0 8, dest := numAt b 9 1, far := numAt b 16 8, regions := r,
        job := some (h.port, h.tag), running := false, sent := false, total := 0, digest := [] }
    exec (.checkpoint h) s = .next { s with dev := { s.dev.counted.accepted h 0x504 with ckpts := s.dev.ckpts ++ [k] } })

/-- BIST_RUN, TOWER_FENCE and TOWER_RESTORE answer ACCEPTED and start their work: tests entered, the tower fenced, the tower let go. A
fence of a fenced tower answers OK at once. -/
def Obligations.TowerCommandsRun : Prop :=
  (∀ h s, s.admits h (wardenOp 0x601 [2, 3]) → s.dev.fld FT_HOLD_STATUS 15 14 ≠ 2 → h.p0 ≠ 0 → h.p0.toNat < 256 → 1 ≤ h.p1.toNat →
    h.p1.toNat ≤ 3 → (∀ k, k < 8 → bitOf h.p0.toNat k = true → s.dev.fenced k = false) →
    ∃ t, exec (.bistRun h) s = .next t ∧ t.mem = s.mem ∧
      (∀ k, k < 8 → bitOf h.p0.toNat k = true → (t.dev.tower k).bist = true ∧ (t.dev.tower k).lasting = 0 ∧ (t.dev.tower k).narrowings = 0) ∧
      (∀ k, bitOf h.p0.toNat k = false → t.dev.tower k = s.dev.tower k) ∧
      t.dev.said = s.dev.said ++ [replyOf s.dev h 0x601 stAccepted 0 0 []]) ∧
  (∀ h s, s.admits h (wardenOp 0x602 [1, 2, 3]) → h.p0.toNat < 8 → s.dev.fenced h.p0.toNat = false →
    exec (.towerFence h) s = .next (commit s (World.fenceTower { s.world with d := s.dev.counted.accepted h 0x602 } h.p0.toNat))) ∧
  (∀ h s, s.admits h (wardenOp 0x602 [1, 2, 3]) → h.p0.toNat < 8 → s.dev.fenced h.p0.toNat = true →
    exec (.towerFence h) s = .next { s with dev := s.dev.counted.repliedOk h 0x602 }) ∧
  (∀ h s, s.admits h (wardenOp 0x603 [1, 2, 3]) → h.p0.toNat < 8 → s.dev.fenced h.p0.toNat = true →
    exec (.towerRestore h) s = .next { s with dev :=
      (s.dev.counted.accepted h 0x603).onTower h.p0.toNat (fun x => { x with held := false, restore := true }) })

/-- The registers with an action of their own, written directly: the budget and the format-health words take the value (the window starts
over at the next position), FLUSH and the wear record write the wear words, RETRAIN_FULL retrains a narrowed link under a hold and does nothing to
one at full width, DISABLE takes a link down, and clearing it trains one whose cable is there. -/
def Obligations.RegisterActionsAct : Prop :=
  (∀ v s, s.live → exec (.memFarBudgetWrite v) s = .next (commit s (World.revalidate
    { s.world with d := s.dev.setFld MEM_FAR_BUDGET 19 0 (v.toNat % 2 ^ 20) } stPlanOverrun))) ∧
  (∀ v s, s.live → ∃ t r, exec (.fhCtrlWrite v) s = .next t ∧ regRow FH_CTRL = some r ∧
    rget t.dev.regs FH_CTRL = rowWrite r (rget s.dev.regs FH_CTRL) (v.zeroExtend 64) ∧ t.dev.fhRestart = true ∧ t.mem = s.mem) ∧
  (∀ v s, s.live → ∃ t r, exec (.fhWindowWrite v) s = .next t ∧ regRow FH_WINDOW = some r ∧
    rget t.dev.regs FH_WINDOW = rowWrite r (rget s.dev.regs FH_WINDOW) (v.zeroExtend 64) ∧ t.dev.fhRestart = true ∧ t.mem = s.mem) ∧
  (∀ k s, s.live → exec (.flush k) s = .next { s with dev := s.dev.writeWear }) ∧
  (∀ s, s.live → exec .wearRecordWrite s = .next { s with dev := s.dev.writeWear.drainLog }) ∧
  (∀ p s, s.live → (s.dev.linkState p.val = 3 ∨ s.dev.linkState p.val = 4) → (s.dev.link p.val).retraining = false →
    ∃ t, exec (.retrainFull p) s = .next t ∧ t.mem = s.mem ∧ t.dev.linkState p.val = 1 ∧ (t.dev.link p.val).retraining = true ∧
      (t.dev.link p.val).full = true ∧ t.dev.fld FT_HOLD_CAUSE 3 3 = 1) ∧
  (∀ q s, s.live → (s.dev.linkState (24 + q.val) = 3 ∨ s.dev.linkState (24 + q.val) = 4) → (s.dev.link (24 + q.val)).retraining = false →
    ∃ t, exec (.quarterRetrainFull q) s = .next t ∧ t.mem = s.mem ∧ t.dev.linkState (24 + q.val) = 1 ∧
      (t.dev.link (24 + q.val)).retraining = true ∧ (t.dev.link (24 + q.val)).full = true) ∧
  (∀ p s, s.live → s.dev.linkState p.val = 2 → exec (.retrainFull p) s = .next s) ∧
  (∀ p s, s.live → ∃ t, exec (.portDisable p true) s = .next t ∧ t.mem = s.mem ∧ t.dev.linkState p.val = 0 ∧ t.dev.linkDisabled p.val = true) ∧
  (∀ q s, s.live → ∃ t, exec (.quarterDisable q true) s = .next t ∧ t.mem = s.mem ∧ t.dev.linkState (24 + q.val) = 0 ∧
    t.dev.linkDisabled (24 + q.val) = true) ∧
  (∀ p s, s.live → s.dev.linkState p.val = 0 → (s.dev.link p.val).cable = true →
    ∃ t, exec (.portDisable p false) s = .next t ∧ t.mem = s.mem ∧ t.dev.linkState p.val = 1 ∧ t.dev.linkDisabled p.val = false) ∧
  (∀ q s, s.live → s.dev.linkState (24 + q.val) = 0 → (s.dev.link (24 + q.val)).cable = true →
    ∃ t, exec (.quarterDisable q false) s = .next t ∧ t.mem = s.mem ∧ t.dev.linkState (24 + q.val) = 1 ∧
      t.dev.linkDisabled (24 + q.val) = false)



/-! ## The fret (02) -/

/-- FRET_START: FT_FRET_NUM rises by one and stays at its greatest value (R16), the new fret has neither latched, settled nor reached its guard band, and IN_HOLD is cleared until the
hold latch; the drone word of the fret begins as the sample taken. -/
def Obligations.FretStartBeginsTheNextFret : Prop :=
  ∀ s, s.live → ∃ t, exec .fretStart s = .next t ∧
    (rget t.dev.regs FT_FRET_NUM).toNat = min (2 ^ 64 - 1) ((rget s.dev.regs FT_FRET_NUM).toNat + 1) ∧
    t.dev.ft.cycle = 0 ∧ t.dev.ft.latched = false ∧ t.dev.ft.settled = false ∧ t.dev.ft.guard = false ∧ t.dev.ft.launchStop = false ∧
    t.dev.ft.word = t.dev.ft.sample ∧ t.dev.fld FT_HOLD_STATUS 17 17 = 0

/-- The hold decision of cycle 240 (R51 to R53).
In a hold fret no position starts: every context keeps whether a position of it is open, and every line buffer its lines. -/
def Obligations.HoldLatchDecidesAndHoldFretStartsNothing : Prop :=
  (
  (∀ s, s.live → s.dev.ft.latched = false →
    let f := s.dev.ft
    let lvl := min 2 f.voteTherm.toNat
    let cnt := if lvl = s.dev.fld FT_HOLD_STATUS 15 14 then s.dev.fld FT_HOLD_STATUS 23 20 else 0
    let hold := f.voteReq || decide (0 < f.remain) || (lvl == 1 && cnt == 7) || (lvl == 2 && cnt == 1)
    ∃ t, exec .holdLatch s = .next t ∧ t.dev.ft.latched = true ∧ t.dev.ft.latchedReq = f.voteReq ∧
      t.dev.ft.remain = (if f.voteReq then max f.remain (max 1 f.voteLen.toNat) else f.remain) ∧
      t.dev.fld FT_HOLD_STATUS 15 14 = lvl ∧ t.dev.fld FT_HOLD_STATUS 17 17 = (if hold then 1 else 0) ∧
      rget t.dev.regs FT_FRET_NUM = rget s.dev.regs FT_FRET_NUM) ∧
  (∀ s, s.live → s.dev.ft.latched = true → exec .holdLatch s = .next s)) ∧
  (
  ∀ s, s.live → s.dev.ft.latched = false → s.dev.ft.voteReq = true →
    ∃ t, exec .holdLatch s = .next t ∧ t.dev.courses = s.dev.courses ∧ ∀ i, (t.dev.ctx i).posOpen = (s.dev.ctx i).posOpen)

/-- SETTLE_POINT: the drone word folded so far is latched into the two latch registers (R66). A latched ABORT stops every running context (R68). -/
def Obligations.SettlePointLatchesTheWord : Prop :=
  (∀ s, s.live → s.dev.ft.latched = true → s.dev.ft.settled = false →
    ∃ t, exec .settlePoint s = .next t ∧ t.dev.ft.settled = true ∧
      rget t.dev.regs FT_LATCH_LO = BitVec.ofNat 64 (s.dev.ft.word.toNat % 2 ^ 64) ∧
      rget t.dev.regs FT_LATCH_HI = BitVec.ofNat 64 (s.dev.ft.word.toNat / 2 ^ 64) ∧
      (wordFlag s.dev.ft.word flagAbort = true → ∀ e ∈ s.dev.ctxs, (s.dev.ctx e.1).active = true → (t.dev.ctx e.1).stop ≠ none)) ∧
  (∀ s, s.live → s.dev.ft.settled = true → exec .settlePoint s = .next s)

/-- GUARD_BAND_START: the guard band begins, and the trim of the fret stays within the bound of R49 and R75; without a leader to follow
it is 0. -/
def Obligations.GuardBandTrimsWithinTheBound : Prop :=
  ∀ damaged s, s.live → s.dev.ft.guard = false →
    ∃ t, exec (.guardBandStart damaged) s = .next t ∧ t.dev.ft.guard = true ∧
      -(s.dev.trimBound : Int) ≤ t.dev.ft.trim ∧ t.dev.ft.trim ≤ s.dev.trimBound

/-- A drone frame of the word folded so far leaves on every peer port in service, and nothing else changes; a good frame received is folded
into the word, a bad or stale one is counted (R62, R341). -/
def Obligations.DroneFramesCarryTheWord : Prop :=
  (∀ s, s.live → s.dev.ft.settled = false →
    exec .droneFrameSend s = .next { s with dev := { s.dev with
      out := s.dev.out ++ s.dev.portsUp.map (fun l => .drone l (s.dev.droneBytes s.dev.ft.frames s.dev.ft.word))
      ft := { s.dev.ft with frames := s.dev.ft.frames + 1 } } }) ∧
  (∀ (p : Fin 24) f s, s.live → s.dev.linkUp p.val = true → frameOk 1 f = true → numAt f 2 2 = s.dev.fretNum % 65536 →
    s.dev.ft.settled = false →
    ∃ t, exec (.droneFrameRx p f) s = .next t ∧ t.dev.ft.word = foldWord s.dev.ft.word (BitVec.ofNat 128 (numAt f 4 16)) ∧
      t.mem = s.mem ∧ t.dev.regs = s.dev.regs ∧ t.dev.ft.sample = s.dev.ft.sample) ∧
  (∀ (p : Fin 24) f s, s.live → s.dev.linkUp p.val = true → (frameOk 1 f = false ∨ numAt f 2 2 ≠ s.dev.fretNum % 65536) →
    exec (.droneFrameRx p f) s = .next { s with dev := { s.dev with regs := rcount s.dev.regs (portDrop p.val) 31 0 1 } })

/-- A marker copy leaves on every peer port in service in the guard band, with what the device announces; a follower that has no leader's
marker to pass on sends none. A follower takes one good marker of the leader it heeds, on the port toward it, in the guard band or while it
has still to adopt the leader's count: the offset is recorded; a leader lost comes back where the hedge has a successor. A bad marker
is counted.
DEDUCED (log 65): what a follower passes on. -/
def Obligations.MarkersAlignFollowers : Prop :=
  (∀ copy m s, s.live → s.dev.ft.guard = true → copy < 4 → s.dev.announced = some m →
    exec (.fretMarkerSend copy) s = .next { s with dev := { s.dev with
      out := s.dev.out ++ s.dev.portsUp.map (fun l => .marker l (s.dev.markerBytes m copy)) } }) ∧
  (∀ copy s, s.live → s.dev.announced = none → exec (.fretMarkerSend copy) s = .next s) ∧
  (∀ (p : Fin 24) (m : Marker) s, s.live → s.dev.linkUp p.val = true → frameOk 2 m.bytes = true → s.dev.hedge.joined = true →
    s.dev.follows = true → s.dev.ft.markerSeen = false → numAt m.bytes 24 2 = s.dev.fld FT_LEADER 25 16 →
    s.dev.markerPort (numAt m.bytes 24 2) = some p.val → (s.dev.ft.guard = true ∨ s.dev.ft.adopt = true) →
    let off := markerOffset (numAt m.bytes 1 1) (numAt m.bytes 12 4) (numAt m.bytes 16 4) m.offset
    ∃ t, exec (.fretMarkerRx p m) s = .next t ∧ t.mem = s.mem ∧ t.dev.ft.markerSeen = s.dev.ft.guard ∧
      t.dev.ft.marker = some (numAt m.bytes 4 8, numAt m.bytes 12 4, numAt m.bytes 16 4, numAt m.bytes 20 4) ∧
      t.dev.fld FT_ALIGN 15 0 = (off % 65536).toNat ∧
      (s.dev.ft.adopt = true ∨ s.dev.fld FT_LEADER 42 32 ≠ 0x7FF → t.dev.fld FT_HOLD_STATUS 18 18 = 0) ∧
      (s.dev.ft.adopt = false → s.dev.fld FT_LEADER 42 32 = 0x7FF → t.dev.fld FT_HOLD_STATUS 18 18 = s.dev.fld FT_HOLD_STATUS 18 18) ∧
      (s.dev.ft.adopt = true → rget t.dev.regs FT_FRET_NUM = BitVec.ofNat 64 (numAt m.bytes 4 8) - 1) ∧
      t.dev.ft.aligned = (if -8000 ≤ off ∧ off ≤ 8000 then s.dev.ft.aligned + 1 else 0)) ∧
  (∀ (p : Fin 24) (m : Marker) s, s.live → s.dev.linkUp p.val = true → frameOk 2 m.bytes = false →
    exec (.fretMarkerRx p m) s = .next { s with dev := { s.dev with regs := rcount s.dev.regs (portDrop p.val) 31 0 1 } })

/-- The successor leads after 64 frets of loss (R73); a device that was out of bound stops holding after 4 aligned frets (R71); a changed fret
configuration takes effect at the start of its fret (R47); a context begins at its start fret, with the checkpoint that the service asks for
there (R392, R411). -/
def Obligations.LeaderAndFretEventsAct : Prop :=
  (∀ s, s.live → s.dev.hedge.joined = true → s.dev.role = 2 → 64 ≤ s.dev.fld FT_LEADER 63 56 → s.dev.hedge.rank < 1024 →
    ∃ t, exec .leaderTakeover s = .next t ∧ t.mem = s.mem ∧ t.dev.fld FT_LEADER 49 48 = 1 ∧ t.dev.fld FT_LEADER 25 16 = s.dev.hedge.rank ∧
      t.dev.fld FT_LEADER 42 32 = 0x7FF ∧ t.dev.fld FT_HOLD_STATUS 18 18 = 0) ∧
  (∀ s, s.live → s.dev.ft.leaderHold = true → 4 ≤ s.dev.ft.aligned → s.dev.fld FT_HOLD_STATUS 18 18 = 0 →
    exec .leaderRealigned s = .next { s with dev := s.dev.setFt (fun f => { f with leaderHold := false }) }) ∧
  (∀ s n p g l, s.live → s.dev.ft.pendingCfg = some (n, p, g, l) → n ≤ s.dev.fretNum → s.dev.ft.latched = false →
    p < 2 ^ 21 → g < 2 ^ 19 → l < 2 ^ 20 →
    ∃ t, exec .fretConfigApply s = .next t ∧ t.mem = s.mem ∧ t.dev.fld FT_FRET_PERIOD 20 0 = p ∧ t.dev.fld FT_GUARD 18 0 = g ∧
      t.dev.fld FT_DRONE_SETTLE 19 0 = l ∧ t.dev.ft.pendingCfg = none) ∧
  (∀ i s, s.live → (s.dev.ctx i).active = true → (s.dev.ctx i).begun = false → (s.dev.ctx i).startFret ≤ s.dev.fretNum →
    s.dev.ft.latched = false →
    let d := s.dev.onCtx i (fun x => { x with begun := true })
    exec (.ctxStartFret i) s = .next (commit s (World.ckptByService { s.world with d := d } i)) ∧
    ((s.dev.svc 1).active = false → exec (.ctxStartFret i) s = .next { s with dev := d }))

/-- A line at its OFFSET whose predicate holds and whose unit is free launches and is counted; it sees the drone word latched by then. One whose
predicate does not hold is skipped; one whose unit is busy, or whose predicate a SET_PRED line before it has still to give, is held back,
and launches in the cycle in which neither stands in its way, counted as late if its unit was busy (R83, R94 to R96).
DEDUCED (log 75, log 97): a line held back for a predicate alone is not late, and it sees the word
latched at its OFFSET however late it launches. -/
def Obligations.LinesLaunchSkipOrWait : Prop :=
  (∀ (c : Fin 96) line s l, State.offsetReached s c.val line l → ¬ (bitOf l.ln.pred 2 = true ∧ s.dev.predsOpen c.val line = true) →
    launches l.ln (s.dev.preds c.val line) = true →
    let ctx := ((s.dev.course c.val).runner).getD 0
    s.world.unitBusy ctx c.val l.ln = false → s.world.heldBefore ctx c.val line l.ln = false →
    ∃ t, exec (.lineLaunch c line) s = .next t ∧ t.mem = s.mem ∧
      lineAt (t.dev.course c.val) line = some { l with phase := .launched, prog := 0, idle := 0, read := [], word := s.dev.latchedWord } ∧
      (∀ k, k ≠ line → lineAt (t.dev.course c.val) k = lineAt (s.dev.course c.val) k) ∧
      rget t.dev.regs (CC_LAUNCHED c.val) = rget (rcount s.dev.regs (CC_LAUNCHED c.val) 63 0 1) (CC_LAUNCHED c.val) ∧
      (l.late = false → ∀ a, a ≠ CC_LAUNCHED c.val → rget t.dev.regs a = rget s.dev.regs a)) ∧
  (∀ (c : Fin 96) line s l, State.offsetReached s c.val line l → ¬ (bitOf l.ln.pred 2 = true ∧ s.dev.predsOpen c.val line = true) →
    launches l.ln (s.dev.preds c.val line) = false →
    ∃ t, exec (.lineLaunch c line) s = .next t ∧ t.mem = s.mem ∧ t.dev.regs = s.dev.regs ∧
      lineAt (t.dev.course c.val) line = some { l with phase := .skipped, prog := 0, idle := 0, read := [], word := s.dev.latchedWord }) ∧
  (∀ (c : Fin 96) line s l, State.offsetReached s c.val line l → ¬ (bitOf l.ln.pred 2 = true ∧ s.dev.predsOpen c.val line = true) →
    launches l.ln (s.dev.preds c.val line) = true →
    let ctx := ((s.dev.course c.val).runner).getD 0
    (s.world.unitBusy ctx c.val l.ln = true ∨ s.world.heldBefore ctx c.val line l.ln = true) →
    ∃ t, exec (.lineLaunch c line) s = .next t ∧ t.mem = s.mem ∧ t.dev.regs = s.dev.regs ∧
      lineAt (t.dev.course c.val) line =
        some { l with phase := .held, prog := 0, idle := 0, read := [], word := s.dev.latchedWord, late := true }) ∧
  (∀ (c : Fin 96) line s l, State.offsetReached s c.val line l → bitOf l.ln.pred 2 = true → s.dev.predsOpen c.val line = true →
    ∃ t, exec (.lineLaunch c line) s = .next t ∧ t.mem = s.mem ∧ t.dev.regs = s.dev.regs ∧
      lineAt (t.dev.course c.val) line = some { l with phase := .held, prog := 0, idle := 0, read := [], word := s.dev.latchedWord }) ∧
  (∀ (c : Fin 96) line s l, s.live → lineAt (s.dev.course c.val) line = some l → l.phase = .held → s.dev.ft.launchStop = false →
    ¬ (bitOf l.ln.pred 2 = true ∧ s.dev.predsOpen c.val line = true) → launches l.ln (s.dev.preds c.val line) = true →
    let ctx := ((s.dev.course c.val).runner).getD 0
    s.world.unitBusy ctx c.val l.ln = false → s.world.heldBefore ctx c.val line l.ln = false →
    ∃ t, exec (.lineLateLaunch c line) s = .next t ∧ t.mem = s.mem ∧
      lineAt (t.dev.course c.val) line = some { l with phase := .launched, prog := 0, idle := 0, read := [] } ∧
      rget t.dev.regs (CC_LAUNCHED c.val) = rget (rcount s.dev.regs (CC_LAUNCHED c.val) 63 0 1) (CC_LAUNCHED c.val) ∧
      rget t.dev.regs (CC_LATE c.val) =
        (if l.late then rget (rcount s.dev.regs (CC_LATE c.val) 63 0 1) (CC_LATE c.val) else rget s.dev.regs (CC_LATE c.val)))

/-- A line whose unit has done its work, with nothing of it still on its way, completes: its unit counts it and shows no work; in a hold fret no
line launches at its OFFSET. -/
def Obligations.LinesCompleteAndHoldsStop : Prop :=
  (∀ (c : Fin 96) line s l, s.live → lineAt (s.dev.course c.val) line = some l → l.phase = .worked →
    s.world.lineQuiet c.val line l.ln = true →
    ∃ t, exec (.lineComplete c line) s = .next t ∧ t.mem = s.mem ∧ lineAt (t.dev.course c.val) line = some { l with phase := .done } ∧
      t.dev.regs = ((s.world.lineCounted c.val l.ln.unit).d.unitIdle c.val l.ln.unit).regs ∧
      (∀ k, k ≠ line → lineAt (t.dev.course c.val) k = lineAt (s.dev.course c.val) k) ∧ t.dev.ctxs = s.dev.ctxs) ∧
  (∀ (c : Fin 96) line s, s.live → s.dev.fld FT_HOLD_STATUS 17 17 = 1 → exec (.lineLaunch c line) s = .next s)



/-! ## Routines and predicates (02, 04) -/

/-- Every three-register instruction gives rd its result and changes no other scalar register and no byte of memory. -/
def Obligations.RegisterInstructionsCompute : Prop :=
  ∀ e ∈ ccTTable, ∀ (c : Fin 96) (rd ra rb : Fin 32) (s : State) (r : Routine), s.ccAt c.val (encT e.2.1 rd ra rb) r →
    ∃ t, exec (e.1 c rd ra rb) s = .next t ∧
      wroteReg s t c.val r.set rd (e.2.2 (s.dev.sreg c.val r.set ra.val) (s.dev.sreg c.val r.set rb.val))

/-- Every register-immediate instruction, LUI and RDSP give rd their result and change no other scalar register and no byte of memory. -/
def Obligations.ImmediateInstructionsCompute : Prop :=
  (∀ e ∈ ccITable, ∀ (c : Fin 96) (rd ra : Fin 32) (imm : W16) (s : State) (r : Routine), s.ccAt c.val (encI e.2.1 rd ra imm) r →
    ∃ t, exec (e.1 c rd ra imm) s = .next t ∧ wroteReg s t c.val r.set rd (e.2.2 (s.dev.sreg c.val r.set ra.val) imm)) ∧
  (∀ (c : Fin 96) (rd : Fin 32) (imm : W16) s r, State.ccAt s c.val (encI 0x17 rd 0 imm) r →
    ∃ t, exec (.ccLui c rd imm) s = .next t ∧ wroteReg s t c.val r.set rd ((imm.toInt * 2 ^ 16) % 2 ^ 64).toNat) ∧
  (∀ (c : Fin 96) (rd ra : Fin 32) (imm : W16) s r, State.ccAt s c.val (encI 0x3A rd ra imm) r →
    ∃ t, exec (.ccRdsp c rd ra imm) s = .next t ∧
      wroteReg s t c.val r.set rd (s.dev.special c.val r (imm.toNat % 8) % 2 ^ 64))

/-- Scalar register s0 reads zero in every state, and an instruction whose rd is s0 leaves it and every other scalar register as it was. -/
def Obligations.S0ReadsZero : Prop :=
  (∀ (s : State) c n, s.dev.sreg c n 0 = 0) ∧
  (∀ e ∈ ccTTable, ∀ (c : Fin 96) (ra rb k : Fin 32) (s t : State) (r : Routine), s.ccAt c.val (encT e.2.1 0 ra rb) r →
    exec (e.1 c 0 ra rb) s = .next t → t.dev.sreg c.val r.set k.val = s.dev.sreg c.val r.set k.val)

/-- A branch goes on at its target if its test holds and at the next instruction if not; JMP always at its target. The scalar registers, every
register but CC_FAULT and CC_FAULT_INFO, and the stores are as before. -/
def Obligations.BranchesChooseTheNextInstruction : Prop :=
  (∀ e ∈ ccBTable, ∀ (c : Fin 96) (ra rb : Fin 32) (off : W16) (s : State) (r : Routine), s.ccAt c.val (encI e.2.1 ra rb off) r →
    let pc := if e.2.2 (s.dev.sreg c.val r.set ra.val) (s.dev.sreg c.val r.set rb.val) then r.pc + off.toNat else r.pc + 1
    ∃ t, exec (e.1 c ra rb off) s = .next t ∧ t = commit s (s.world.ccNext c.val r pc r.loops) ∧ t.mem = s.mem ∧
      (∀ a, a ≠ CC_FAULT c.val → a ≠ CC_FAULT_INFO c.val → rget t.dev.regs a = rget s.dev.regs a) ∧
      (r.loops = [] → ccInstrOk r.code r.wmask r.rmask pc = true →
        r.cost + 2 + ((ccOp (ccOpcode (ccWord r.code pc))).map (·.cost)).getD 0 ≤ r.wc →
        (t.dev.course c.val).routine = some { r with pc := pc, cost := r.cost + 2 })) ∧
  (∀ (c : Fin 96) (off : W16) s r, State.ccAt s c.val (encI 0x36 0 0 off) r →
    exec (.ccJmp c off) s = .next (commit s (s.world.ccNext c.val r (r.pc + off.toNat) r.loops)))

/-- LOOP opens its body; FLAG raises its user flag, TMAX raises TAB_MAX to at least ra[15:0]; HALT ends the routine and its line has done its
work. Each then goes on to the next instruction, but HALT. -/
def Obligations.LoopFlagTmaxHalt : Prop :=
  (∀ (c : Fin 96) (n : Fin 4096) (body : BitVec 14) s r, State.ccAt s c.val (encL 0x37 n body) r →
    exec (.ccLoop c n body) s = .next (commit s (s.world.ccNext c.val r (r.pc + 1)
      ({ first := r.pc + 1, after := r.pc + 1 + body.toNat, count := n.val + 1, iter := 0 } :: r.loops)))) ∧
  (∀ (c : Fin 96) (imm : W16) s r, State.ccAt s c.val (encI 0x38 0 0 imm) r →
    ∃ t, exec (.ccFlag c imm) s = .next t ∧ t.mem = s.mem ∧ (t.dev.ft.posFlags.getLsbD (24 + imm.toNat % 8)) = true ∧
      (t.dev.ft.freshPos.getLsbD (24 + imm.toNat % 8)) = true) ∧
  (∀ (c : Fin 96) (rd ra rb : Fin 32) s r, State.ccAt s c.val (encT 0x39 rd ra rb) r →
    ∃ t, exec (.ccTmax c rd ra rb) s = .next t ∧ t.mem = s.mem ∧
      t.dev.ft.tabMax.toNat = max s.dev.ft.tabMax.toNat ((s.dev.sreg c.val r.set ra.val).toNat % 2 ^ 16)) ∧
  (∀ (c : Fin 96) s r l, State.ccAt s c.val 0 r → lineAt (s.dev.course c.val) r.line = some l →
    (s.dev.course c.val).runner ≠ none →
    ∃ t, exec (.ccHalt c) s = .next t ∧ t.mem = s.mem ∧ t.dev.regs = s.dev.regs ∧ (t.dev.course c.val).routine = none ∧
      lineAt (t.dev.course c.val) r.line = some { l with phase := .worked, idle := 0 })

/-- LD and LW in the own course store, block good, give rd the bytes at ra + imm16; SD and SW write the low bytes of rd there and no other
byte. In the register window a load gives rd the register. -/
def Obligations.LoadsAndStoresMoveBytes : Prop :=
  (∀ (c : Fin 96) (rd ra : Fin 32) (imm : W16) (bad : Bool) s r n, ((n = 8 ∧ State.ccAt s c.val (encI 0x20 rd ra imm) r) ∨
      (n = 4 ∧ State.ccAt s c.val (encI 0x21 rd ra imm) r)) →
    let a := ccAddr s c.val r ra imm
    ccPlace c.val r.ctx a n = .store → s.world.failing (if bad then [blockOf a] else []) (blockOf a) = false →
    s.world.poisoned (blockOf a) = false →
    ∃ t, exec (if n = 8 then .ccLd c rd ra imm bad else .ccLw c rd ra imm bad) s = .next t ∧
      wroteReg s t c.val r.set rd (leNat (readBytes s.mem a n) % 2 ^ 64)) ∧
  (∀ (c : Fin 96) (rd ra : Fin 32) (imm : W16) (bad : Bool) s r n, ((n = 8 ∧ State.ccAt s c.val (encI 0x22 rd ra imm) r) ∨
      (n = 4 ∧ State.ccAt s c.val (encI 0x23 rd ra imm) r)) → s.memInv →
    let a := ccAddr s c.val r ra imm
    ccPlace c.val r.ctx a n = .store → s.world.failing (if bad then [blockOf a] else []) (blockOf a) = false →
    s.world.poisoned (blockOf a) = false →
    ∃ t, exec (if n = 8 then .ccSd c rd ra imm bad else .ccSw c rd ra imm bad) s = .next t ∧
      readBytes t.mem a n = leBytes n (s.dev.sreg c.val r.set rd.val).toNat ∧
      (∀ x, x < a ∨ a + n ≤ x → readByte t.mem x = readByte s.mem x) ∧
      (∀ k : Fin 32, t.dev.sreg c.val r.set k.val = s.dev.sreg c.val r.set k.val)) ∧
  (∀ (c : Fin 96) (rd ra : Fin 32) (imm : W16) (bad : Bool) s r x, State.ccAt s c.val (encI 0x20 rd ra imm) r →
    ccPlace c.val r.ctx (ccAddr s c.val r ra imm) 8 = .window → s.dev.readReg (offOf (ccAddr s c.val r ra imm)) = some x →
    ∃ t, exec (.ccLd c rd ra imm bad) s = .next t ∧ wroteReg s t c.val r.set rd x.toNat)

/-- A load or store that reaches neither the own course store nor a window open to the context stops the routine: nothing is loaded or stored,
ADDR_REFUSED is set, and the context enters FAULTED with PLAN_MISMATCH unless a stop already waits (R153, R299). -/
def Obligations.RefusedAccessStopsTheRoutine : Prop :=
  ∀ (c : Fin 96) (rd ra : Fin 32) (imm : W16) (bad : Bool) s r, State.ccAt s c.val (encI 0x22 rd ra imm) r →
    ccPlace c.val r.ctx (ccAddr s c.val r ra imm) 8 = .refused →
    ∃ t, exec (.ccSd c rd ra imm bad) s = .next t ∧ t.mem = s.mem ∧ (t.dev.course c.val).routine = none ∧
      t.dev.fld (CC_FAULT c.val) 1 1 = 1 ∧ (∀ k : Fin 32, t.dev.sreg c.val r.set k.val = s.dev.sreg c.val r.set k.val)

/-- A CC routine line starts its code: the engine stands at instruction 0 with the masks of its header, and the cost within WC_COMPUTE. A SET_PRED
line gives its predicate the condition's value and has then done its work. -/
def Obligations.RoutineAndPredicateLines : Prop :=
  (∀ (k : Work) s j, s.live → s.world.ready k.course.val k.line unitCc = some j → (s.dev.course j.course).routine = none →
    let a := j.ln.desc
    let h := ccHdr (s.world.seenBytes a 16)
    let n := min h.len 4096
    let bl := blocksOf a (16 + 4 * n)
    tierOf a = 0 → addrOk 0 a = true → courseOf a = j.course →
    s.world.checkBlocks j k.bad (blocksOf a 16) = none → s.world.checkBlocks j k.bad bl = none →
    let r := ccStart j (ccWords n (s.world.seenBytes (a + 16) (4 * n))) h
    exec (.ccRoutine k) s = .next (s.workDone k (World.ccCheck
      (World.progress (s.world.consumed (j.course / 12) (s.world.poisonCount bl) unitCc j.ctx) j 1) j.course r)) ∧
    r.pc = 0 ∧ r.wmask = h.wmask ∧ r.rmask = h.rmask ∧ r.wc = j.ln.wcCompute ∧ r.loops = []) ∧
  (∀ (c : Fin 96) line s j l, s.live → s.world.ready c.val line unitSetPred = some j → lineAt (s.dev.course c.val) line = some l →
    ∃ t, exec (.setPred c line) s = .next t ∧ t.mem = s.mem ∧
      t.dev.fld (CC_SET j.course j.set) (16 + j.ln.pred % 4) (16 + j.ln.pred % 4) =
        (if s.dev.condition j.word j.course j.set j.ln.desc then 1 else 0) ∧
      (∀ a, a ≠ CC_SET j.course j.set → rget t.dev.regs a = rget s.dev.regs a) ∧
      lineAt (t.dev.course c.val) line =
        some { l with phase := .worked, idle := 0, wrote := some (s.dev.condition j.word j.course j.set j.ln.desc) })



/-! ## Lines of the units (05 to 10) -/

/-- A product that may issue, its blocks good: with FINISH set each of its tiles is folded and drained, or written to its tie slot; with FINISH clear
its leaf enters the group's merge stack, opened if it was not. Either way the product's cycles and cells are counted and the line has done its work. -/
def Obligations.MatrixProductsIssue : Prop :=
  (∀ k s j p g q, ProductReady s k j p g q → s.world.checkBlocks j k.bad (productReads s.world j g p q) = none → q.finish = true →
    let va := s.world.operandA p
    let vb := s.world.operandB p
    let r := s.world.finishTiles j p q va vb
    r.ok = true →
    let w := World.finish (World.maStatus (World.maCount (if q.tied then r.w else r.w.writeAmax j q r.amax) j p va vb) j p false) j
    s.writesGo k w → exec (.maProduct k) s = .next (s.workDone k w) ∧ lineWorked s (s.workDone k w) j) ∧
  (∀ k s j p g q, ProductReady s k j p g q → s.world.checkBlocks j k.bad (productReads s.world j g p q) = none → q.finish = false →
    let va := s.world.operandA p
    let vb := s.world.operandB p
    let o := if (s.dev.accum j.course g).open_ then s.world.onDev (fun d => d.setFld (abGroup j.course g) 62 62 (if p.int8 then 1 else 0))
      else s.world.onDev (fun d => d.openAccum j.course g p.abDesc q p.int8)
    let r := o.openTile j g p q va vb
    r.ok = true →
    let w := World.finish (World.maStatus (World.maCount r.w j p va vb) j p false) j
    s.writesGo k w → exec (.maProduct k) s = .next (s.workDone k w) ∧ lineWorked s (s.workDone k w) j ∧
      ((s.workDone k w).dev.accum j.course g).open_ = true ∧ ((s.workDone k w).dev.accum j.course g).acc = p.abDesc)

/-- DRAIN folds the merge stack of its group, or each tile of its tie slots, writes it through the epilogue and closes the accumulation; IMPORT
brings a node into the merge stack or a free tie slot. AB_SAVE writes the group's control block and the cells of every slot, and no other
byte, and closes the group; AB_RESTORE brings the record's state and the nodes of its occupied levels back. Each line has then done its
work; a save or restore waits while an earlier product of the course still issues.
The cells of a slot that holds no node are free values (log 112), and DEDUCED (log 34, log 111): the type of an imported accumulation and of a
tie area is that of the model's reading. -/
def Obligations.AccumulatorLinesRun : Prop :=
  (∀ k s j cmd g q, AbReady s k 1 j cmd g q → q.tied = false →
    let a := s.dev.accum j.course g
    let st := if a.open_ then s.dev.groupStack j.course g q
      else freshStack (s.abInt 1 j cmd g q) q.span (s.dev.abPartition j.course) q.spill
    let mn := drainDims q a
    let parts := drainParts a.lastQuad mn.1 mn.2
    s.world.checkBlocks j k.bad (st.spillBlocks ++
      parts.flatMap (fun e => q.readsOf e.2.2.1 e.2.2.2.1 e.2.2.2.2.1 e.2.2.2.2.2 mn.2)) = none →
    let f := s.world.foldOrZero j st
    let o := parts.foldl (fun (b : World × Nat) e =>
      b.1.epilogue j q st.int f.2 e.1 e.2.1 e.2.2.1 e.2.2.2.1 e.2.2.2.2.1 e.2.2.2.2.2 mn.2 b.2) (f.1, a.amax)
    let w := World.abBusy (World.keepDesc (World.finish ((o.1.writeAmax j q o.2).onDev (fun d => d.closeAccum j.course g)) j) j
      [(j.ln.desc, 32), (cmd.acc, 128)]) j 5
    s.writesGo k w → exec (.drain k) s = .next (s.workDone k w) ∧ lineWorked s (s.workDone k w) j ∧
      (s.workDone k w).dev.accum j.course g = .init ∧ (s.workDone k w).dev.fld (AB j.course) 5 5 = 1) ∧
  (∀ k s j cmd g q, AbReady s k 1 j cmd g q → q.tied = true →
    let int := s.abInt 1 j cmd g q
    let tn := ceilDiv q.outN 128
    let tiles := (List.range q.tieTiles).map (fun t =>
      (t, 128 * (t / tn), 128 * (t % tn), min 128 (q.outM - 128 * (t / tn)), min 128 (q.outN - 128 * (t % tn))))
    let slots := tiles.flatMap (fun e => (List.range 8).flatMap (fun i =>
      if bitOf (s.world.tieBits q e.1) i then blocksOf (q.tieSlot e.1 (i + 1)) 65536 else []))
    s.world.checkBlocks j k.bad (q.tie :: slots ++ tiles.flatMap (fun e => q.readsOf e.2.1 e.2.2.1 e.2.2.2.1 e.2.2.2.2 q.outN)) = none →
    let o := tiles.foldl (fun (b : World × Nat) e =>
      let r := b.1.tieFold j q int e.1
      r.1.epilogue j q int r.2 0 128 e.2.1 e.2.2.1 e.2.2.2.1 e.2.2.2.2 q.outN b.2) (s.world, 0)
    let z := ((o.1.writeAmax j q o.2).putBlk q.tie (List.replicate 512 0) 0).onDev (fun d =>
      (d.closeAccum j.course g).onCourse j.course (fun x => { x with ties := tdel x.ties q.tie }))
    let w := World.abBusy (World.keepDesc (World.finish z j) j [(j.ln.desc, 32), (cmd.acc, 128)]) j 5
    s.writesGo k w → exec (.drain k) s = .next (s.workDone k w) ∧ lineWorked s (s.workDone k w) j ∧
      (s.workDone k w).dev.accum j.course g = .init ∧ (s.workDone k w).dev.fld (AB j.course) 5 5 = 1 ∧
      (s.memInv → readBytes (s.workDone k w).mem q.tie 512 = List.replicate 512 0)) ∧
  (∀ k s j cmd g q, AbReady s k 2 j cmd g q → cmd.tieU = 0 →
    let int := s.abInt 2 j cmd g q
    let o := if (s.dev.accum j.course g).open_ then s.world else s.world.onDev (fun d => d.openAccum j.course g cmd.acc q int)
    let st := o.d.groupStack j.course g q
    ((s.dev.accum j.course g).open_ = true ∨ cmd.offset = 0) → cmd.offset = st.next → cmd.offset % 2 ^ cmd.level = 0 →
    cmd.offset + 2 ^ cmd.level ≤ 2 ^ st.span →
    s.world.checkBlocks j k.bad (blocksOf cmd.src 65536 ++ st.spillBlocks) = none →
    ∃ i, (o.abPoison j (o.readNode int cmd.src).2 cmd.offset).insertNode j st (o.readNode int cmd.src).1 cmd.offset cmd.level = some i ∧
      (let w := World.abBusy (World.keepDesc (World.finish (i.1.onDev (fun d => d.keepStack j.course g i.2)) j) j
        [(j.ln.desc, 32), (cmd.acc, 128)]) j 4
      s.writesGo k w → exec (.importNode k) s = .next (s.workDone k w) ∧ lineWorked s (s.workDone k w) j ∧
        ((s.workDone k w).dev.accum j.course g).open_ = true ∧ ((s.workDone k w).dev.accum j.course g).acc = cmd.acc ∧
        ((s.workDone k w).dev.accum j.course g).next = cmd.offset + 2 ^ cmd.level ∧ (s.workDone k w).dev.fld (AB j.course) 4 4 = 1)) ∧
  (∀ k s j cmd g q, AbReady s k 2 j cmd g q → cmd.tieU ≠ 0 → s.world.checkBlocks j k.bad (q.tie :: blocksOf cmd.src 65536) = none →
    let int := s.abInt 2 j cmd g q
    let n := s.world.readNode int cmd.src
    bitOf (s.world.tieBits q cmd.offset) (cmd.tieU - 1) = false →
    ∃ v, (s.world.abPoison j n.2 cmd.offset).writeTie j q int cmd.offset cmd.tieU n.1 = some v ∧
      (let w := World.abBusy (World.keepDesc (World.finish v j) j [(j.ln.desc, 32), (cmd.acc, 128)]) j 4
      s.writesGo k w → exec (.importNode k) s = .next (s.workDone k w) ∧ lineWorked s (s.workDone k w) j ∧
        (s.workDone k w).dev.fld (AB j.course) 4 4 = 1)) ∧
  (∀ k s j g, s.lineReady k.course k.line unitSave j → s.memInv → s.dev.groupOf j.course j.ctx = some g → s.world.maIssuing j = false →
    let a := j.ln.desc
    let p := s.dev.abPartition j.course
    let len := 512 + 65536 * groupSlots p
    a % 512 = 0 → maRegion j.course a len = true → s.blocksGo k a len →
    ∃ t, exec (.abSave k) s = .next t ∧ lineWorked s t j ∧ readBytes t.mem a 512 = padTo 512 (s.world.saveControl j g) ∧
      (∀ n i v, n < groupSlots p → i < slotCells →
        (s.dev.savedSlot j.course (s.dev.accum j.course g).levels n).cells[i]? = some (some v) →
        readBytes t.mem (a + 512 + 65536 * n + 4 * i) 4 = leBytes 4 v.toNat) ∧
      (∀ x, x < a ∨ a + len ≤ x → readByte t.mem x = readByte s.mem x) ∧
      t.dev.accum j.course g = .init ∧ t.dev.fld (AB j.course) 7 7 = 1) ∧
  (∀ k s j g, s.lineReady k.course k.line unitSave j → s.dev.groupOf j.course j.ctx = some g → s.world.maIssuing j = true →
    exec (.abSave k) s = .next (s.workDone k (s.world.abBusy j 7))) ∧
  (∀ k s j g b, s.lineReady k.course k.line unitRestore j → s.dev.groupOf j.course j.ctx = some g → s.world.maIssuing j = false →
    let a := j.ln.desc
    let p := s.dev.abPartition j.course
    let occ := numAt b 12 4 % 2 ^ 17
    a % 512 = 0 → maRegion j.course a (512 + 65536 * groupSlots p) = true → s.reads j k.bad a 512 b →
    numAt b 0 4 = 0x56534241 → numAt b 4 1 = 1 → numAt b 5 1 = p → numAt b 7 1 = j.course → numAt b 8 2 = j.ctx →
    (s.dev.accum j.course g).open_ = false →
    let lv := (List.range (bufLevels p)).filter (bitOf occ) ++ (if bitOf occ 16 then [16] else [])
    let pos := fun l => a + 512 + 65536 * (if l = 16 then 0 else 2 + l)
    s.world.checkBlocks j k.bad (lv.flatMap (fun l => blocksOf (pos l) 65536)) = none →
    ∃ t, exec (.abRestore k) s = .next t ∧ t.mem = s.mem ∧ lineWorked s t j ∧
      (let x := t.dev.accum j.course g
      x.open_ = bitOf (numAt b 10 1) 0 ∧ x.held = bitOf (numAt b 10 1) 1 ∧ x.acc = numAt b 24 8 ∧ x.next = numAt b 16 4 ∧
        x.amax = numAt b 36 4 ∧ ∀ l ∈ lv, tfind x.levels l = some (s.world.readNode (bitOf (numAt b 10 1) 2) (pos l)).1) ∧
      t.dev.fld (abGroup j.course g) 62 62 = (if bitOf (numAt b 10 1) 2 then 1 else 0) ∧
      t.dev.fld (abGroup j.course g) 26 22 = numAt b 11 1 % 32 ∧ t.dev.fld (abGroup j.course g) 16 0 = occ ∧
      t.dev.fld (abNext j.course g) 63 32 = numAt b 20 4 ∧ t.dev.fld (AB j.course) 6 6 = 1) ∧
  (∀ k s j g, s.lineReady k.course k.line unitRestore j → s.dev.groupOf j.course j.ctx = some g → s.world.maIssuing j = true →
    exec (.abRestore k) s = .next (s.workDone k (s.world.abBusy j 6)))

/-- Every vector-engine command whose line is ready, whose descriptors are readable and kept and whose cost is within WC_COMPUTE issues its
operation, whatever the operands hold. -/
def Obligations.VectorLinesIssue : Prop :=
  ∀ e ∈ veTable, ∀ (k : Work) (s : State) (j : Job) (b : List Byte), s.lineReady k.course k.line unitVe j →
    s.reads j k.bad j.ln.desc 64 b → (veOp b).op = e.2 →
    let p := vePlan (s.world.descMem j) j.ln.desc
    s.world.veFetch j k.bad p = .got [] false → (p.bad j.course).isNone → p.cost ≤ j.ln.wcCompute →
    let w := s.world.veIssue j p k.bad
    s.writesGo k w → exec (e.1 k) s = .next (s.workDone k w)



/-- Every vector-engine command changes no byte outside the runs that its operation stores to, none at all while one of their blocks has to wait, and
leaves the hedge, the wardens, the firmware, the links, the services and the step slots as they are. -/
def Obligations.VectorLinesStoreOnlyTheirResult : Prop :=
  ∀ e ∈ veTable, ∀ (k : Work) (s t : State) (j : Job), s.lineReady k.course k.line unitVe j →
    exec (e.1 k) s = .next t →
    let runs := s.world.veStores j (vePlan (s.world.descMem j) j.ln.desc)
    (∀ x, outsideRuns runs x → readByte t.mem x = readByte s.mem x) ∧
    (∀ r ∈ runs, r.2 ≠ [] → ¬ s.blocksGo k r.1 r.2.length → t.mem = s.mem) ∧
    t.dev.hedge = s.dev.hedge ∧ t.dev.wardens = s.dev.wardens ∧ t.dev.fw = s.dev.fw ∧ t.dev.links = s.dev.links ∧
    t.dev.svcs = s.dev.svcs ∧ t.dev.slots = s.dev.slots ∧ t.dev.level = s.dev.level

/-- COPY and COPY2D between stores of the device: each destination block takes the source block last copied to it, with its stored check; every
other byte is unchanged; the blocks are counted and the line is worked. -/
def Obligations.MoverCopiesBlocks : Prop :=
  ∀ (k : Work) (s : State) (j : Job) (m : MoverDesc) (cmd : Instr), (cmd = .moverCopy k ∧ MoverReady s k 1 j m) ∨ (cmd = .moverCopy2d k ∧ MoverReady s k 2 j m) →
    s.memInv → tierOf m.src ≠ 3 → tierOf m.dst ≠ 3 → s.world.checkBlocks j k.bad (m.pairs.map (·.1)) = none →
    (∀ e ∈ m.pairs, s.blocksGo k e.2 512) →
    ∃ t, exec cmd s = .next t ∧ lineWorked s t j ∧
      (∀ (i : Nat) (e : Nat × Nat), m.pairs[i]? = some e → (∀ (n : Nat) (e' : Nat × Nat), i < n → m.pairs[n]? = some e' → e'.2 ≠ e.2) →
        readBytes t.mem e.2 512 = readBytes s.mem e.1 512 ∧ tget 0 t.mem.syn e.2 = s.world.synOf e.1) ∧
      (∀ x, (∀ e ∈ m.pairs, x < e.2 ∨ e.2 + 512 ≤ x) → readByte t.mem x = readByte s.mem x) ∧
      rget t.dev.regs (moverCounter j.course) = rget (rcount s.dev.regs (moverCounter j.course) 63 0 (m.run * m.rows)) (moverCounter j.course)

/-- FILL writes its pattern, SCRUB writes nothing; a copy to the far store sends its blocks as requests; a copy or scrub from the far store asks
for its blocks and goes on when they have all arrived. -/
def Obligations.MoverFillsScrubsAndAsks : Prop :=
  (∀ (k : Work) s j m, MoverReady s k 3 j m → s.memInv → (∀ e ∈ m.pairs, s.blocksGo k e.2 512) →
    ∃ t, exec (.moverFill k) s = .next t ∧ lineWorked s t j ∧
      (∀ i, i < 64 * m.run → readBytes t.mem (m.dst + 8 * i) 8 = leBytes 8 m.pattern) ∧
      (∀ x, x < m.dst ∨ m.dst + 512 * m.run ≤ x → readByte t.mem x = readByte s.mem x)) ∧
  (∀ (k : Work) s j m, MoverReady s k 4 j m → tierOf m.src ≠ 3 → s.world.checkBlocks j k.bad (m.pairs.map (·.1)) = none →
    ∃ t, exec (.moverScrub k) s = .next t ∧ lineWorked s t j ∧ t.mem = s.mem ∧
      rget t.dev.regs (moverCounter j.course) = rget (rcount s.dev.regs (moverCounter j.course) 63 0 (m.run * m.rows)) (moverCounter j.course)) ∧
  (∀ (k : Work) s j m (cmd : Instr), (cmd = .moverCopy k ∧ MoverReady s k 1 j m) ∨ (cmd = .moverCopy2d k ∧ MoverReady s k 2 j m) →
    tierOf m.src ≠ 3 → tierOf m.dst = 3 → s.world.checkBlocks j k.bad (m.pairs.map (·.1)) = none →
    ∃ t, exec cmd s = .next t ∧ lineWorked s t j ∧ t.mem = s.mem) ∧
  (∀ (k : Work) s j m (cmd : Instr), (cmd = .moverCopy k ∧ MoverReady s k 1 j m) ∨ (cmd = .moverCopy2d k ∧ MoverReady s k 2 j m) ∨
      (cmd = .moverScrub k ∧ MoverReady s k 4 j m) → tierOf m.src = 3 →
    let who := whoLine j.course j.idx
    (j.prog = 0 → ∃ t l l', exec cmd s = .next t ∧ t.mem = s.mem ∧
      lineAt (s.dev.course j.course) j.idx = some l ∧ lineAt (t.dev.course j.course) j.idx = some l' ∧
      l' = { l with prog := 1, idle := 0, read := l'.read } ∧ tfind l'.read j.ln.desc ≠ none) ∧
    (j.prog ≠ 0 → s.dev.farBusy who = true → exec cmd s = .next (s.workDone k (s.world.keepDesc j [(j.ln.desc, 64)]))) ∧
    (j.prog ≠ 0 → s.dev.farBusy who = false →
      let got := m.pairs.filterMap (fun e => (s.dev.farBlk who e.1).map (fun b => (e.2, b)))
      got.length = m.pairs.length → tierOf m.dst ≠ 3 → (∀ e ∈ m.pairs, s.blocksGo k e.2 512) →
      ∃ t, exec cmd s = .next t ∧ lineWorked s t j ∧
        t.mem = if m.op = 4 then s.mem else (got.foldl (fun w e => w.putBlk e.1 e.2.data (blkSyn e.2)) s.world).mem))

/-! ## Collectives (10) -/

/-- P2P_SEND sends its blocks toward the destination rank and the line is worked; ALL_TO_ALL sends to every position from the next one on, lays its own
blocks, and places those that have arrived. -/
def Obligations.SendsLeaveTheDevice : Prop :=
  (∀ (k : Work) s j w p, s.lineReady k.course k.line unitP2p j → s.world.efStart j k.bad 7 = .go w p →
    w.checkBlocks j k.bad (blocksOf p.send.src (512 * p.send.blocks)) = none →
    exec (.p2pSend k) s = .next (s.workDone k (World.efShown
      (World.efDone (w.sendBlocks j 1 p.send.dest p.send.ctx p.send.window 0 p.send.dst (w.runItems p.send.src (512 * p.send.blocks))) j) j 7)) ∧
    ∃ t, exec (.p2pSend k) s = .next t ∧ t.mem = s.mem ∧ lineWorked s t j) ∧
  (∀ (k : Work) s j w p, s.collGoes k 4 j w p → j.prog ≠ 0 →
    let v := (w.a2aFinish j p.coll p.g).efShown j 4
    s.writesGo k v → exec (.allToAll k) s = .next (s.workDone k v)) ∧
  (∀ (k : Work) s j w p, s.collGoes k 4 j w p → j.prog = 0 →
    w.checkBlocks j k.bad (p.g.a2a.flatMap (fun e => blocksOf e.sendAddr (512 * e.sendBlocks))) = none →
    let own := p.g.entry p.g.p
    let items := w.runItems own.sendAddr (512 * own.sendBlocks)
    let w1 := w.carried (j.course / 12) (items.filter (fun e => blkSyn e.2 == poisonMark)).length
    let w2 := w1.layItems j own.recvAddr (512 * own.sendBlocks) (items.map (·.2))
    let tgt (i : Nat) := (p.g.p + i + 1) % p.g.size
    let w3 := (List.range (p.g.size - 1)).foldl (fun v i => v.sendBlocks j 3 (p.g.rankOf (tgt i)) j.ctx p.coll.tag 0 0
      (v.runItems (p.g.entry (tgt i)).sendAddr (512 * (p.g.entry (tgt i)).sendBlocks))) w2
    let v := ((w3.progress j 1).a2aFinish j p.coll p.g).efShown j 4
    s.writesGo k v → exec (.allToAll k) s = .next (s.workDone k v))

/-- A reduce-scatter, and the first half of an all-reduce, without compression: the first step gives half of the nodes away; a step whose blocks are
missing waits and changes no byte; one whose blocks are there merges them, gives half of the rest away, and after the last step converts and writes the own shard.
A compressed reduce-scatter packs its bucket at the first step, sends on what it holds at the later ones, and sums the dense blocks of every position at the
end. -/
def Obligations.ReduceScatterStepsHalve : Prop :=
  (
  ∀ (k : Work) s j w p (cmd : Instr), (cmd = .reduceScatter k ∧ s.collGoes k 1 j w p ∧ p.coll.kind = 1) ∨
      (cmd = .allReduce k ∧ s.collGoes k 3 j w p ∧ p.coll.kind = 3 ∧ j.prog ≤ p.g.k) →
    let x := p.coll
    let g := p.g
    let q := g.rankOf (g.p ^^^ 2 ^ (j.prog - 1))
    let l := j.prog - 1
    let n := ceilDiv (x.nodeBytes g l (g.keep (l + 1))) 512
    x.mode = 0 →
    (j.prog = 0 → w.checkBlocks j k.bad (blocksOf x.src (g.total * elemBits x.fmtIn / 8)) = none → g.k ≠ 0 →
      ∃ t, exec cmd s = .next t ∧ t = s.workDone k ((w.rsSend j x g 0).efShown j x.kind) ∧ t.mem = s.mem) ∧
    (j.prog = 0 → w.checkBlocks j k.bad (blocksOf x.src (g.total * elemBits x.fmtIn / 8)) = none → g.k = 0 →
      let v := (w.rsLast j x g).efShown j x.kind
      s.writesGo k v → exec cmd s = .next (s.workDone k v)) ∧
    (j.prog ≠ 0 → w.checkBlocks j k.bad (if l = 0 then [] else x.nodeBlocks g l (g.keep (l + 1))) = none →
      w.d.rxBlocks j.ctx x.tag q l n = none →
      ∃ t, exec cmd s = .next t ∧ t = s.workDone k ((w.efStatus j x.kind true).efShown j x.kind) ∧ t.mem = s.mem) ∧
    (∀ bl, j.prog ≠ 0 → w.checkBlocks j k.bad (if l = 0 then [] else x.nodeBlocks g l (g.keep (l + 1))) = none →
      w.d.rxBlocks j.ctx x.tag q l n = some bl →
      let u := ((w.efMerging j x.kind).rsMerge j x g l bl).onDev (fun d => d.rxDrop j.ctx x.tag q l)
      let v := World.efShown (if j.prog < g.k then u.rsSend j x g j.prog else u.rsLast j x g) j x.kind
      s.writesGo k v → exec cmd s = .next (s.workDone k v))) ∧
  (
  ∀ (k : Work) s j w p, s.collGoes k 1 j w p → p.coll.mode ≠ 0 →
    let x := p.coll
    let g := p.g
    let l := j.prog - 1
    let q := g.rankOf (g.p ^^^ 2 ^ l)
    (j.prog = 0 → w.checkBlocks j k.bad (blocksOf x.src (g.total * elemBits x.fmtIn / 8) ++
        blocksOf (x.res + 4 * g.total * w.d.resPhase x.slot) (4 * g.total)) = none →
      let v := World.efShown (if g.k = 0 then (w.packOwn j x g).packEnd j x g else (w.packOwn j x g).packSend j x g 0) j 1
      s.writesGo k v → exec (.reduceScatter k) s = .next (s.workDone k v)) ∧
    (j.prog ≠ 0 → w.d.rxBlocks j.ctx x.tag q l (ceilDiv (x.nodeBytes g l (g.keep (l + 1))) 512) = none →
      ∃ t, exec (.reduceScatter k) s = .next t ∧ t = s.workDone k ((w.efStatus j x.kind true).efShown j 1) ∧ t.mem = s.mem) ∧
    (∀ bl, j.prog ≠ 0 → w.d.rxBlocks j.ctx x.tag q l (ceilDiv (x.nodeBytes g l (g.keep (l + 1))) 512) = some bl →
      let u := w.efStatus j x.kind false
      let v := World.efShown (if j.prog < g.k then u.packSend j x g j.prog else u.packEnd j x g) j 1
      s.writesGo k v → exec (.reduceScatter k) s = .next (s.workDone k v)))

/-- An all-gather, and the second half of an all-reduce: the own shard is laid in its place and sent; each step lays what has come from the partner and
sends what is held; the last ends the line. -/
def Obligations.AllGatherStepsDouble : Prop :=
  (∀ (k : Work) s j w p, s.collGoes k 2 j w p → j.prog = 0 →
    let x := p.coll
    let g := p.g
    let n := g.shard g.p * elemBits x.fmtOut / 8
    let at_ := x.dst + g.offset g.p * elemBits x.fmtOut / 8
    w.checkBlocks j k.bad (blocksOf x.src n ++ partialBlocks at_ n).eraseDups = none →
    let v := World.efShown (World.agStart ((w.carried (j.course / 12) (w.poisonedIn x.src n).length).layItems j at_ n
      ((w.cutItems x.src n).map (·.2))) j x g 0) j 2
    s.writesGo k v → exec (.allGather k) s = .next (s.workDone k v)) ∧
  (∀ (k : Work) s j w p (cmd : Instr) (kind base : Nat), (cmd = .allGather k ∧ s.collGoes k 2 j w p ∧ kind = 2 ∧ base = 0) ∨
      (cmd = .allReduce k ∧ s.collGoes k 3 j w p ∧ kind = 3 ∧ base = p.g.k) → base < j.prog →
    let x := p.coll
    let g := p.g
    let l := j.prog - base - 1
    let q := g.p ^^^ 2 ^ l
    let h := x.held g l q
    let own := x.held g l g.p
    w.checkBlocks j k.bad (partialBlocks (x.dst + h.1) h.2 ++ (if l + 1 < g.k then blocksOf (x.dst + own.1) own.2 else [])).eraseDups = none →
    (w.d.rxBlocks j.ctx x.tag (g.rankOf q) (base + l) (ceilDiv h.2 512) = none →
      ∃ t, exec cmd s = .next t ∧ t = s.workDone k ((w.efStatus j x.kind true).efShown j kind) ∧ t.mem = s.mem) ∧
    (∀ bl, w.d.rxBlocks j.ctx x.tag (g.rankOf q) (base + l) (ceilDiv h.2 512) = some bl →
      let u := ((w.carried (j.course / 12) (bl.filter (fun b => blkSyn b == poisonMark)).length).layItems j (x.dst + h.1) h.2 bl).onDev
        (fun d => d.rxDrop j.ctx x.tag (g.rankOf q) (base + l))
      let v := World.efShown (if l + 1 < g.k then (u.agSend j x g base (l + 1)).efStatus j x.kind false else u.efDone j) j kind
      s.writesGo k v → exec cmd s = .next (s.workDone k v)))

/-- The scalar lane: a collective of one rank writes its values at once; one of several sends them, waits for each partner and writes the values of
the last step; NORM does so with the device's sum and gives its step the norm, and is refused with STEP_STATE where its bucket is not the next
of its step. -/
def Obligations.ScalarLaneReduces : Prop :=
  (∀ (k : Work) s j w p, s.collGoes k 5 j w p →
    let x := p.coll
    let n := 4 * x.count
    let int := x.op == 2 || x.op == 5
    let own := w.redRun int (if int then 0xA else 0) x.src x.count
    let words (vs : List Nat) : List W32 := vs.map (BitVec.ofNat 32)
    let fin (v : World) (vs : List Nat) := let r := v.mergeWrite x.dst (packCodes 32 vs); (r.1.efPoison j r.2).efDone j
    (j.prog = 0 → w.checkBlocks j k.bad ((blocksOf x.src n ++ partialBlocks x.dst n).eraseDups) = none →
      let v := World.efShown
        (if p.g.k = 0 then fin (w.efPoison j own.2) own.1 else (w.efPoison j own.2).laneSend j x p.g 0 (words own.1)) j 5
      s.writesGo k v → exec (.scalarCollective k) s = .next (s.workDone k v)) ∧
    (j.prog ≠ 0 → w.laneStep x p.g x.op (j.prog - 1) ((tget [] w.d.efVals (whoLine j.course j.idx)).map (·.toNat)) = none →
      ∃ t, exec (.scalarCollective k) s = .next t ∧ t = s.workDone k ((w.efStatus j x.kind true).efShown j 5) ∧ t.mem = s.mem) ∧
    (∀ u zs, j.prog ≠ 0 → w.laneStep x p.g x.op (j.prog - 1) ((tget [] w.d.efVals (whoLine j.course j.idx)).map (·.toNat)) = some (u, zs) →
      let v := World.efShown
        (if j.prog < p.g.k then (u.efMerging j x.kind).laneSend j x p.g j.prog (words zs) else fin (u.efMerging j x.kind) zs) j 5
      s.writesGo k v → exec (.scalarCollective k) s = .next (s.workDone k v))) ∧
  (∀ (k : Work) s j w p, s.collGoes k 6 j w p → w.d.slotOpenFor p.coll.slot j.ctx = true →
    let x := p.coll
    (j.prog = 0 → x.bucket = (w.d.slot x.slot).normNext → ∃ t, exec (.normCollective k) s = .next t ∧ t.mem = s.mem ∧
      t = s.workDone k (World.efShown (if p.g.k = 0 then World.efDone (w.onDev (fun d => d.stepNormed x.slot (w.d.deviceSum x.slot x.flush))) j
        else w.laneSend j x p.g 0 [BitVec.ofNat 32 (w.d.deviceSum x.slot x.flush)]) j 6)) ∧
    (j.prog = 0 → x.bucket ≠ (w.d.slot x.slot).normNext →
      ∃ t, exec (.normCollective k) s = .next t ∧ t.mem = s.mem ∧ t = s.workDone k ((w.efStepState j).efShown j 6) ∧
        t.dev.fld (EFR (j.course / 12) + 0x10) 4 4 = 1) ∧
    (∀ u zs, j.prog = p.g.k → j.prog ≠ 0 →
      w.laneStep x p.g 1 (j.prog - 1) ((tget [] w.d.efVals (whoLine j.course j.idx)).map (·.toNat)) = some (u, zs) →
      ∃ t, exec (.normCollective k) s = .next t ∧ t.mem = s.mem ∧
        t = s.workDone k (World.efShown (World.efDone ((u.efMerging j x.kind).onDev (fun d => d.stepNormed x.slot (zs.headD 0))) j) j 6)))



/-! ## The update engine (09) -/

/-- OPEN on a slot that takes it leaves the slot OPEN for its context with its parameters. A pass of a CLEAN step does its work, and UE_STATUS shows it;
one of a SKIPPED step writes nothing and is shown as skipping; a DIGEST whose T is not due writes nothing. -/
def Obligations.UpdatePassesRun : Prop :=
  (∀ (k : Work) s j d b, PassReady s k 1 j d → s.dev.slotState d.slot ≠ slotOpen → s.dev.slotState d.slot ≠ slotNormed →
    s.reads j k.bad d.aux 256 b → paramOk b (s.dev.slotState d.slot == slotFree) = true → parRecord b % 512 = 0 → parRecord b + 512 ≤ 2 ^ 31 →
    ∃ t, exec (.ueOpen k) s = .next t ∧ t.mem = s.mem ∧ lineWorked s t j ∧ t.dev.slotState d.slot = slotOpen ∧
      t.dev.slotCtx d.slot = j.ctx % 2 ^ 14 ∧ (t.dev.slot d.slot).param = b ∧ (t.dev.slot d.slot).normStack = [] ∧ (t.dev.slot d.slot).normNext = 0) ∧
  (∀ e ∈ passTable, ∀ (k : Work) s j d, PassReady s k e.2.1 j d → s.dev.slotState d.slot = slotSkipped →
    ∃ t, exec (e.1 k) s = .next t ∧ t.mem = s.mem ∧ lineWorked s t j ∧ t.dev.slots = s.dev.slots ∧
      (rget t.dev.regs (UER (j.course / 12))).toNat = e.2.1 * 256 + d.slot * 64 + 5) ∧
  (∀ (k : Work) s j d, PassReady s k 5 j d → s.dev.slotState d.slot = slotClean → s.dev.digestIdle d.slot = true →
    ∃ t, exec (.ueDigest k) s = .next t ∧ t.mem = s.mem ∧ lineWorked s t j ∧ t.dev.slots = s.dev.slots) ∧
  (∀ e ∈ passTable, ∀ (k : Work) s j d, PassReady s k e.2.1 j d → s.dev.slotState d.slot = slotClean →
    (e.2.1 = 5 → s.dev.digestIdle d.slot = false) →
    let v := ((e.2.2 s.world j d k.bad).ueShown j e.2.1 d.slot).keepDesc j [(j.ln.desc, 128)]
    s.writesGo k v → exec (e.1 k) s = .next (s.workDone k v))

/-! ## Links (10, 11, 18) -/

/-- A flit that fails the link CRC, of any type, is counted, and a link that sends NAKs the next SEQ expected; one of an unlisted type is counted and discarded. A good
TRAIN or IDLE flit changes the hold vote of a peer port alone. A numbered flit that is the next in order is taken, any other is not: a DATA flit continues the
packets of its port, a SCALAR flit for this rank and a running line is kept. A LINK flit frees the flits it acknowledges, or sends again
from the SEQ it NAKs; the eighth NAK of one SEQ begins a retraining.
DEDUCED (log 32): how packets follow each other in the stream. -/
def Obligations.FlitsAdvanceTheLink : Prop :=
  (∀ (l : Fin 32) flit (cmd : Instr) typ m n s, (cmd = .flitDataRx l flit ∧ typ = 1 ∨ cmd = .flitLinkRx l flit m ∧ typ = 2 ∨
      cmd = .flitScalarRx l flit n ∧ typ = 3 ∧ l.val < 24 ∨ cmd = .flitTrainRx l flit ∧ typ = 4 ∨ cmd = .flitIdleRx l flit ∧ typ = 0) →
    State.live s → s.dev.takesFlits l.val typ = true →
    (flitOk flit = false → exec cmd s = .next { s with dev := s.dev.nakked l.val }) ∧
    (flitOk flit = true → bitsOf (flitHdr flit) 3 0 ≠ typ → exec cmd s = .next s)) ∧
  (∀ (l : Fin 32) flit s, State.live s → s.dev.sends l.val = true → flitUnlisted l.val flit = true →
    (flitOk flit = true → exec (.unlistedFlitType l flit) s =
      .next { s with dev := { s.dev with regs := rcount s.dev.regs (linkCrcs l.val) 63 0 1 } }) ∧
    (flitOk flit = false → exec (.unlistedFlitType l flit) s = .next { s with dev := s.dev.nakked l.val })) ∧
  (∀ (l : Fin 32) flit (cmd : Instr) typ s, (cmd = .flitTrainRx l flit ∧ typ = 4 ∨ cmd = .flitIdleRx l flit ∧ typ = 0) → State.flitGood s l.val typ flit →
    ∃ t, exec cmd s = .next t ∧ t.mem = s.mem ∧ t.dev.regs = s.dev.regs ∧ t.dev.links = s.dev.links ∧ t.dev.said = s.dev.said ∧
      t.dev.ft = (if l.val < 24 then s.dev.ft.vote (bitOf (flitHdr flit) 13) (bitsOf (flitHdr flit) 31 16) (bitsOf (flitHdr flit) 15 14)
        else s.dev.ft) ∧ (t.dev.ft = s.dev.ft → t = s)) ∧
  (∀ (l : Fin 32) flit s, State.flitNext s l.val 1 flit →
    let buf := (s.dev.link l.val).rx ++ slice flit 4 248
    let h := pktHdr buf
    let need := 32 + 516 * min 32 h.blocks
    let w := (s.world.numberedFlit l.val 1 flit).1
    (l.val < 24 → exec (.flitDataRx l flit) s = .next (commit s (World.rxStream 9 w l.val buf))) ∧
    (l.val < 24 → buf.all (· == 0) = false → buf.length < need →
      ∃ t, exec (.flitDataRx l flit) s = .next t ∧ t.mem = s.mem ∧ (t.dev.link l.val).rx = buf ∧
        (t.dev.link l.val).expect = ((s.dev.link l.val).expect + 1) % 512) ∧
    (l.val < 24 → buf.all (· == 0) = false → need ≤ buf.length → pktHdrOk (buf.take need) = true → h.blocks ≤ 32 → (buf.drop need).all (· == 0) = true →
      exec (.flitDataRx l flit) s = .next (commit s
        (((w.onDev (fun d => d.onLink l.val (fun x => x.goodHeader h))).rxPacket l.val h (buf.take need)).onDev
          (fun d => d.onLink l.val (fun x => { x with rx := [] }))))) ∧
    (24 ≤ l.val → ∃ t, exec (.flitDataRx l flit) s = .next t ∧ t.mem = s.mem ∧ (t.dev.link l.val).rx = (s.dev.link l.val).rx ∧
      (t.dev.link l.val).expect = ((s.dev.link l.val).expect + 1) % 512)) ∧
  (∀ (l : Fin 32) flit (cmd : Instr) typ n s, (cmd = .flitDataRx l flit ∧ typ = 1 ∨ cmd = .flitScalarRx l flit n ∧ typ = 3 ∧ l.val < 24) →
    State.flitGood s l.val typ flit → bitsOf (flitHdr flit) 12 4 ≠ (s.dev.link l.val).expect →
    ∃ t, exec cmd s = .next t ∧ t.mem = s.mem ∧ t.dev.links = s.dev.links ∧ t.dev.regs = s.dev.regs ∧ t.dev.srx = s.dev.srx) ∧
  (∀ (l : Fin 32) flit m s, State.flitNext s l.val 3 flit → l.val < 24 → m.dest.toNat = s.dev.hedge.rank →
    (s.world.numberedFlit l.val 3 flit).1.tagDiffers none m.src.toNat m.step.toNat m.tag.toNat = [] →
    ∃ t, exec (.flitScalarRx l flit m) s = .next t ∧ t.mem = s.mem ∧ t.dev.srx = s.dev.srx ++ [m] ∧
      (t.dev.link l.val).expect = ((s.dev.link l.val).expect + 1) % 512) ∧
  (∀ (l : Fin 32) flit (a : Fin 512) c s, State.flitGood s l.val 2 flit → (s.dev.link l.val).txq = [] → (s.dev.link l.val).txq2 = [] →
    (s.dev.link l.val).replay.any (fun e => e.1 == a.val) = true →
    ∃ t, exec (.flitLinkRx l flit { ack := some a, nak := none, credit := some c }) s = .next t ∧ t.mem = s.mem ∧ t.dev.said = s.dev.said ∧
      (t.dev.link l.val).replay = ((s.dev.link l.val).replay.dropWhile (fun e => decide (e.1 ≠ a.val))).drop 1 ∧
      (t.dev.link l.val).credit = c.toNat) ∧
  (∀ (l : Fin 32) flit (n : Fin 512) s, State.flitGood s l.val 2 flit →
    let x := s.dev.link l.val
    let run := if x.nakSeq = n.val then x.nakRun + 1 else 1
    let w := ((s.world.flitVote l.val (flitHdr flit)).onDev (fun d => d.onLink l.val (fun x => { x with nakSeq := n.val, nakRun := run })))
    (run < 8 → exec (.flitLinkRx l flit { ack := none, nak := some n, credit := none }) s =
      .next (commit s ((w.onDev (fun d => d.resendFrom l.val n.val)).onDev (fun d => d.pump l.val)))) ∧
    (8 ≤ run → ∃ t, exec (.flitLinkRx l flit { ack := none, nak := some n, credit := none }) s = .next t ∧ t.mem = s.mem ∧
      t.dev.linkState l.val = 1 ∧ (t.dev.link l.val).retraining = true))

/-- A link that has trained comes up at the width its lanes leave it, or FAILED; a flight time above 8 makes a port TOO_LONG; one whose lanes arrive in an order it does not take
stays in TRAINING. A retraining ends the same way. A lane lost starts a retraining while half of the lanes is whole, and fails the link when none is. A cable brings its link from
DOWN to TRAINING, and its removal takes it DOWN.
MODEL'S CHOICE (log 105): a peer port whose lanes arrive neither straight nor reversed stays in TRAINING, as R552 says of a quarter. -/
def Obligations.LinksTrainAndFail : Prop :=
  (∀ (l : Fin 32) (r : TrainResult) s, State.live s → s.dev.linkState l.val = 1 → (s.dev.link l.val).retraining = false →
    let f := s.dev.lanesFailed l.val ||| r.failed.toNat % 2 ^ laneCount l.val
    (trainOrderOk r l.val = true → ∃ t, exec (.portTrainDone l r) s = .next t ∧ t.mem = s.mem ∧ t.dev.lanesFailed l.val = f ∧
      t.dev.linkState l.val = (if l.val < 24 ∧ 8 < r.flight.toNat then 6 else widthState l.val f) ∧
      (t.dev.link l.val).reversed = (r.order == [7, 6, 5, 4, 3, 2, 1, 0]) ∧ (t.dev.link l.val).inverted = r.invert.toNat) ∧
    (trainOrderOk r l.val = false → exec (.portTrainDone l r) s = .next s)) ∧
  (∀ (l : Fin 32) (failed : BitVec 8) s, State.live s → (s.dev.link l.val).retraining = true →
    let bad := failed.toNat % 2 ^ laneCount l.val
    let lanes := if (s.dev.link l.val).full then bad else s.dev.lanesFailed l.val ||| bad
    ∃ t, exec (.portRetrainDone l failed) s = .next t ∧ t.mem = s.mem ∧ t.dev.lanesFailed l.val = lanes ∧
      t.dev.linkState l.val = widthState l.val lanes ∧ (t.dev.link l.val).retraining = false) ∧
  (∀ (l : Fin 32) (lane : Fin 8) s, State.live s → s.dev.linkUp l.val = true → lane.val < laneCount l.val →
    bitOf (s.dev.lanesFailed l.val) lane.val = false →
    let lanes := s.dev.lanesFailed l.val ||| 2 ^ lane.val
    ∃ t, exec (.laneLossOfLock l lane) s = .next t ∧ t.mem = s.mem ∧ t.dev.lanesFailed l.val = lanes ∧
      (widthState l.val lanes = 5 → t.dev.linkState l.val = 5) ∧
      (widthState l.val lanes ≠ 5 → t.dev.linkState l.val = 1 ∧ (t.dev.link l.val).retraining = true)) ∧
  (∀ (l : Fin 32) s, State.live s → s.dev.linkState l.val = 0 → s.dev.linkDisabled l.val = false →
    ∃ t, exec (.cableConnect l) s = .next t ∧ t.mem = s.mem ∧ t.dev.linkState l.val = 1 ∧ (t.dev.link l.val).cable = true) ∧
  (∀ (l : Fin 32) s, ∃ t, exec (.cableConnect l) s = .next t ∧ (t.dev.link l.val).cable = true ∧
    (s.dev.level ≠ .run → t.dev.regs = s.dev.regs)) ∧
  (∀ (l : Fin 32) s, ∃ t, exec (.cableDisconnect l) s = .next t ∧ t.mem = s.mem ∧ (t.dev.link l.val).cable = false ∧
    (s.live → t.dev.linkState l.val = 0))

/-! ## The far store, the stream and the ladder (08, 13) -/

/-- A response that answers no outstanding request is discarded and reported. A good read brings its blocks to the client that asked, a good write
acknowledgement is counted, and the last acknowledgement of a stream ends it. A stream begins at the boundary its checkpoint names. An attempt of the re-read ladder passes or fails; its
step-2 verdict says whether the path or the store failed. What waited for blocks then goes on.
DEDUCED (log 106): the segments tested of a block in flight. -/
def Obligations.FarResponsesAndReReads : Prop :=
  (∀ r s, State.live s → s.dev.farMatch r [0x01, 0x10] = none →
    exec (.readData r) s = .next (commit s (World.retry (s.world.stray r 0 stBlockCrc)))) ∧
  (∀ r s q, State.live s → s.dev.farMatch r [0x01, 0x10] = some q → q.who ≠ whoBoot → q.who ≠ whoLadder → r.status ≠ 2 →
    exec (.readData r) s = .next (commit s (World.retry ((List.range q.count).foldl (fun w i => w.farBlock q.who (q.addr i) r.payload[i]?)
      (((s.world.onDev (fun d => d.farDone q)).farLatency r.latency).count HL_FAR_READS 63 0 q.count))))) ∧
  (∀ r s q, State.live s → s.dev.farMatch r [0x01, 0x10] = some q → q.who = whoBoot → r.status = 0 → r.payload.length = q.count →
    r.payload.all (fun b => blkSyn b == 0) = true →
    exec (.readData r) s = .next (commit s (World.retry ((s.world.onDev (fun d => d.farDone q)).onDev (fun d => d.bootBlocks r.payload))))) ∧
  (∀ r s q, State.live s → s.dev.farMatch r [0x02] = some q → r.status ≠ 2 →
    exec (.writeAck r) s = .next (commit s
      (World.retry (World.streamAcked (((s.world.onDev (fun d => d.farDone q)).farLatency r.latency).count HL_FAR_WRITES 63 0 q.count))))) ∧
  (∀ r s q, State.live s → s.dev.farMatch r [0x03] = some q → r.status ≠ 2 →
    exec (.streamAck r) s = .next (commit s (World.streamAcked ((s.world.onDev (fun d => d.farDone q)).farLatency r.latency)))) ∧
  (∀ ctx s k, State.live s → s.dev.ckpts = [k] → k.running = false → k.sent = false → k.ctx = ctx → k.pos = (s.dev.ctx ctx).pos → (s.dev.ctx ctx).posOpen = false →
    ((s.dev.ctx ctx).active = true ∨ (s.dev.ctx ctx).st = .parked) →
    (∀ a ∈ k.blocks, tierOf a ≠ 3 ∧ s.world.failing [] a = false) →
    ∃ t e, exec (.checkpointStreamStart ctx) s = .next t ∧ t.mem = s.mem ∧ t.dev.ckpts = [e] ∧ e.running = true ∧ e.sent = true ∧
      e.total = streamLen k.regions) ∧
  (∀ block ok s l, State.live s →
    s.dev.ladders.find? (fun l => l.block == block && l.step == 1 && !l.after && tierOf l.block != 3) = some l →
    let w := if l.unit = 8 ∧ (s.dev.course l.course).routine.isSome = true then s.world.count (CC_LD_RETRY l.course) 31 0 1 else s.world
    exec (.blockRereadDone block ok) s = .next (commit s (World.retry
      (if ok && (s.world.synOf block == 0 || s.world.poisoned block) then w.attemptPasses l else w.attemptFails l)))) ∧
  (∀ block ok s l, State.live s → s.dev.ladderReady block = some l → l.after = false → block < 2 ^ 64 →
    (l.store = some true → l.pathFailed = true → tierOf block ≠ 3 → ok = true →
      exec (.ladderVerdict block ok) s = .next (commit s (World.retry
        (((s.world.count (MEMR l.tower + 0x20) 63 0 1).setBit (MEMR l.tower + 0x58) 2).verdict l 1)))) ∧
    (l.store = some true → l.pathFailed = true → tierOf block = 3 →
      exec (.ladderVerdict block ok) s = .next (commit s (World.retry (s.world.onDev (fun d =>
        Dev.farAsk { d with ladders := d.ladders.map (fun m => if m.block = block then { m with step := 3 } else m) }
          (l.course / 48) whoLadder 0xFFFF 1 true false [(bitsOf block 41 0, none)])))) ) ∧
    (l.store ≠ some true ∨ l.pathFailed = false ∨ (tierOf block ≠ 3 ∧ ok = false) →
      exec (.ladderVerdict block ok) s = .next (commit s (World.retry (s.world.poisonEnd l))))) ∧
  (∀ block ok s l x, State.live s → s.dev.ladderReady block = some l → l.after = false → 2 ^ 64 ≤ block →
    s.dev.wants.find? (fun x => x.key == block) = some x →
    (l.pathFailed = true → exec (.ladderVerdict block ok) s = .next (commit s (World.retry (s.world.onDev (fun d =>
      Dev.askAgain { d with ladders := d.ladders.map (fun m => if m.block = block then { m with step := 3 } else m) }
        x.src x.ctx x.tag x.step x.index)))) ) ∧
    (l.pathFailed = false → exec (.ladderVerdict block ok) s = .next (commit s (World.retry (s.world.wantPoisoned x l))))) ∧
  (∀ block ok s l, State.live s → s.dev.ladderReady block = some l → l.after = true →
    exec (.ladderVerdict block ok) s = .next (commit s (World.retry
      (s.world.onDev (fun d => { d with ladders := d.ladders.filter (fun m => m.block != block) })))))

/-! ## Bundles and core reset (14, 15) -/

/-- A bundle flit whose CRC-16 fails is NAKed, counted and enters its bundle for a test; the fourth such of one SEQ retrains the bundle. A numbered one with the SEQ
expected is taken and acknowledged, at every eighth at the latest; any other is NAKed. A flit of the other direction turns the bundle, after the acknowledgement that is
pending has gone, unless the bundle holds its direction (R479). A quiet tower discards flits. An acknowledged block is no longer kept. A test that finds no lane failing counts a transient; one
that finds a lane a spare covers remaps it; a bundle that fails is out of service. A remap that ends gives the bundle its new state. A field pass enters every bundle at its timing points.
DEDUCED (log 23, log 120): which flit is acknowledged, and when a bundle holds its direction. -/
def Obligations.BundlesReplayAndRepair : Prop :=
  (∀ (b : BundleId) flit framing s, State.live s → (s.dev.quiet b.tower.val && b.cls.val != 4) = false →
    flitCrc16 flit framing = bitsOf framing.toNat 31 16 →
    let k := bundleIdKey b
    let x := s.dev.bundle k
    let dir := bitOf framing.toNat 2
    let turns := x.turns b.cls.val dir
    let y := if turns then x.turned dir else x
    let seq := bitsOf framing.toNat 10 6
    let turnAck := (if turns then x.pend.toList else []).map (Out.bundleAck b)
    (turns = true → x.holdsDir = true → exec (.bundleFlitRx b flit framing) s = .next s) ∧
    (turns = false ∨ x.holdsDir = false → bitsOf framing.toNat 5 4 = 1 →
      (seq = y.expectSeq → ∃ t, exec (.bundleFlitRx b flit framing) s = .next t ∧ t.mem = s.mem ∧
        t.dev.out = s.dev.out ++ turnAck ++ (if 7 ≤ y.heard then [.bundleAck b seq] else []) ∧
        (t.dev.bundle k).expectSeq = (seq + 1) % 32 ∧ (t.dev.bundle k).dir = y.dir ∧ (t.dev.bundle k).run = min 128 (y.run + 1) ∧
        (t.dev.bundle k).pend = (if 7 ≤ y.heard then none else some seq)) ∧
      (seq ≠ y.expectSeq → ∃ t, exec (.bundleFlitRx b flit framing) s = .next t ∧ t.mem = s.mem ∧
        t.dev.out = s.dev.out ++ turnAck ++ [.bundleNak b y.expectSeq] ∧ (t.dev.bundle k).expectSeq = y.expectSeq)) ∧
    (turns = false ∨ x.holdsDir = false → bitsOf framing.toNat 5 4 ≠ 1 →
      ∃ t, exec (.bundleFlitRx b flit framing) s = .next t ∧ t.mem = s.mem ∧ t.dev.out = s.dev.out ++ turnAck ∧
        (t.dev.bundle k).expectSeq = y.expectSeq ∧ (t.dev.bundle k).run = min 128 (y.run + 1))) ∧
  (∀ (b : BundleId) flit framing s, State.live s → s.dev.quiet b.tower.val = true → b.cls.val ≠ 4 → exec (.bundleFlitRx b flit framing) s = .next s) ∧
  (∀ (b : BundleId) flit framing s, State.live s → (s.dev.quiet b.tower.val && b.cls.val != 4) = false →
    flitCrc16 flit framing ≠ bitsOf framing.toNat 31 16 →
    let k := bundleIdKey b
    let x := s.dev.bundle k
    let run := if x.nakSeq = x.expectSeq then x.nakRun + 1 else 1
    ∃ t, exec (.bundleFlitRx b flit framing) s = .next t ∧ t.mem = s.mem ∧ t.dev.out = s.dev.out ++ [.bundleNak b x.expectSeq] ∧
      (t.dev.bundle k).replays = x.replays + 1 ∧ (t.dev.bundle k).expectSeq = x.expectSeq ∧
      (run ≠ 4 → ((t.dev.tower b.tower.val).queue.contains k = true ∨ x.underTest ≠ 0) ∧ (t.dev.bundle k).remapping = x.remapping) ∧
      (run = 4 → (t.dev.bundle k).remapping = true ∧ (t.dev.bundle k).next = x.state ∧ t.dev.fld FT_HOLD_CAUSE 2 2 = 1)) ∧
  (∀ (b : BundleId) block s, State.live s →
    exec (.blockAckRx b block) s = .next { s with dev := s.dev.onBundle (bundleIdKey b) (fun y => { y with resend := y.resend.erase block }) }) ∧
  (∀ (b : BundleId) failed s, State.live s →
    let k := bundleIdKey b
    let x := s.dev.bundle k
    let r := failed.foldl (laneFails b.cls.val) ({ x with underTest := 0, next := x.state }, none)
    x.underTest ≠ 0 →
    (r.2 = none → ∃ t, exec (.bundleTestDone b failed) s = .next t ∧ (t.dev.bundle k).underTest = 0 ∧
      (t.dev.bundle k).transients = x.transients + 1 ∧ (t.dev.bundle k).state = x.state) ∧
    (∀ v, r.2 = some v → x.underTest < 3 → ∃ t, exec (.bundleTestDone b failed) s = .next t ∧ (t.dev.bundle k).underTest = 0 ∧
      (t.dev.bundle k).lasting = x.lasting + 1 ∧ (t.dev.bundle k).spares = r.1.spares ∧
      (v ≠ 3 → (t.dev.bundle k).remapping = true ∧ (t.dev.bundle k).state = x.state) ∧ (v = 3 → (t.dev.bundle k).state = 4)) ∧
    (∀ v, r.2 = some v → 3 ≤ x.underTest → ∃ t, exec (.bundleTestDone b failed) s = .next t ∧ (t.dev.bundle k).underTest = 0 ∧
      (t.dev.bundle k).lasting = x.lasting + 1 ∧ (t.dev.bundle k).state = x.state)) ∧
  (∀ (b : BundleId) s, State.live s → (s.dev.bundle (bundleIdKey b)).remapping = true →
    ∃ t, exec (.bundleRemapDone b) s = .next t ∧ t.mem = s.mem ∧ (t.dev.bundle (bundleIdKey b)).remapping = false ∧
      (t.dev.bundle (bundleIdKey b)).state = (s.dev.bundle (bundleIdKey b)).next) ∧
  (∀ (t : Fin 8) s, State.live s → s.dev.fld (STK t.val + 0x28) 31 31 = 1 → (s.dev.tower t.val).field = [] →
    exec (.fieldTestPassStart t) s = .next { s with dev := s.dev.onTower t.val (fun x => { x with field := fieldPass t.val }) })

/-- Core reset of a tower (R504, R508 to R510): the fence begins once nothing of the tower runs and its collective engine is idle; the assertion clears its courses and counts; the release and the
retraining of its bundles end it, unless the tower is held; lines that run on are abandoned; an escalation asks for it. -/
def Obligations.CoreResetRuns : Prop :=
  (∀ (t : Fin 8) s, State.live s → (s.dev.tower t.val).step = .waiting →
    (s.dev.towerRunning t.val = false → s.dev.engineBusy s.mem t.val = false → s.dev.towerToEvict t.val = false →
      ∃ u, exec (.fenceStart t) s = .next u ∧ u.mem = s.mem ∧ (u.dev.tower t.val).step = .fenced ∧ u.dev.fld (STK t.val) 2 2 = 1) ∧
    (s.dev.towerRunning t.val = true ∨ s.dev.engineBusy s.mem t.val = true ∨ s.dev.towerToEvict t.val = true → exec (.fenceStart t) s = .next s)) ∧
  (∀ (t : Fin 8) s, State.live s → (s.dev.tower t.val).step = .fenced → (s.dev.tower t.val).why ≤ 2 →
    ∃ u, exec (.coreResetAssert t) s = .next u ∧ u.mem = s.mem ∧ (u.dev.tower t.val).step = .asserted ∧
      (∀ c ∈ towerCourses t.val, u.dev.course c = .init) ∧ u.dev.fld (RST t.val) (7 + (s.dev.tower t.val).why) (7 + (s.dev.tower t.val).why) = 1 ∧
      rget u.dev.regs (RST t.val + 0x10) = rget (rcount s.dev.regs (RST t.val + 0x10) 63 0 1) (RST t.val + 0x10)) ∧
  (∀ (t : Fin 8) s, State.live s → (s.dev.tower t.val).step = .asserted →
    ((s.dev.tower t.val).held = false → ∃ u, exec (.coreResetRelease t) s = .next u ∧ u.mem = s.mem ∧
      (u.dev.tower t.val).step = .retraining ∧ u.dev.fld (RST t.val + 8) 0 0 = 0) ∧
    ((s.dev.tower t.val).held = true → exec (.coreResetRelease t) s = .next s)) ∧
  (∀ (t : Fin 8) s, State.live s → (s.dev.tower t.val).step = .retraining →
    ∃ u, exec (.bundleRetrainDone t) s = .next u ∧ (u.dev.tower t.val).step = .none ∧ u.dev.fld (STK t.val) 2 2 = 0) ∧
  (∀ (t : Fin 8) s, State.live s → (s.dev.tower t.val).step = .waiting → 64 ≤ (s.dev.tower t.val).waited →
    ∃ u, exec (.coreResetWaitTimeout t) s = .next u ∧ u.mem = s.mem ∧ u.dev.towerRunning t.val = false) ∧
  (∀ (t : Fin 8) (unit : BitVec 4) s, State.live s →
    ∃ u, exec (.coreEscalation t unit) s = .next u ∧ u.mem = s.mem ∧ u.dev.fld (RST t.val + 8) 11 8 = unit.toNat ∧
      ((s.dev.tower t.val).step = .none → (u.dev.tower t.val).step = .waiting ∧ (u.dev.tower t.val).why = 1 ∧
        (u.dev.tower t.val).held = false ∧ u.dev.fld FT_HOLD_CAUSE 4 4 = 1) ∧
      ((s.dev.tower t.val).step ≠ .none → u.dev.tower t.val = s.dev.tower t.val)) ∧
  (∀ (c : Fin 96) line s l j, State.live s → lineAt (s.dev.course c.val) line = some l → s.dev.jobOf c.val line = some j → l.phase = .launched →
    1024 ≤ l.idle → s.dev.depOver c.val l.ln = true → s.world.windowOver j.ctx c.val l.ln = true →
    exec (.progressTimeout c line) s = .next (commit s (s.world.escalate (c.val / 12) l.ln.unit)))

/-! ## Resets and their release (15) -/

/-- Power-on reset leaves POWER_ON and its cause, and nothing resident; SYS_RST_N held low brings system reset, unless power-on reset holds the device. Each release
ends its level and samples the straps, CLK_MODE 0b11 running as 0b00 with STRAP_REFUSED under TEST_LOCK, and core reset samples none (R513); the trip-held reset ends after 1,000 cool rounds. The watchdog of the warden that is alone resets the system, that of another its warden. -/
def Obligations.ResetsAndReleases : Prop :=
  (∀ e ∈ powerOnTable, ∀ s, ∃ t, exec e.1 s = .next t ∧ t.dev.level = .powerOn ∧
    (∀ n, n < 8 → (rget t.dev.regs (RST n)).toNat = e.2) ∧ t.dev.fw.images = s.dev.fw.images ∧ t.dev.fw.burnt = s.dev.fw.burnt ∧
    t.dev.log.flash = s.dev.log.flash ∧ t.dev.ctxs = [] ∧ t.dev.courses = [] ∧ t.dev.hl = .init) ∧
  (∀ s, s.dev.level ≠ .powerOn → ∃ t, exec .sysRstPin s = .next t ∧ t.dev.level = .system ∧
    (∀ n, n < 8 → t.dev.fld (RST n) 3 3 = 1 ∧ rget t.dev.regs (RST n + 0x18) = rget (rcount s.dev.regs (RST n + 0x18) 31 0 1) (RST n + 0x18)) ∧
    t.dev.fld IDENT_DEVICE 15 8 = s.dev.fld IDENT_DEVICE 15 8 ∧ t.dev.log = s.dev.log ∧ t.dev.ctxs = []) ∧
  (∀ s, s.dev.level = .powerOn → exec .sysRstPin s = .next s) ∧
  (∀ (r : ReleaseInput) s (cmd : Instr), (cmd = .powerOnResetRelease r ∧ s.dev.level = .powerOn ∨ cmd = .systemResetRelease r ∧ s.dev.level = .system) →
    ∃ t, exec cmd s = .next t ∧ t.mem = s.mem ∧ t.dev.level = .run ∧ t.dev.board.bootSrc = r.bootSrc ∧
      t.dev.board.clkMode = (if s.dev.otpTestLock = true ∧ r.clkMode = 3 then 0 else r.clkMode) ∧
      (∀ n, n < 8 → t.dev.fld (RST n + 0xC) 4 4 = (if s.dev.otpTestLock = true ∧ r.clkMode = 3 then 1 else 0)) ∧
      t.dev.fw.powerCycles = s.dev.fw.powerCycles + 1) ∧
  (∀ (n : Fin 8) s (cmd : Instr), (cmd = .coreResetAssert n ∨ cmd = .coreResetRelease n) →
    ∃ t, exec cmd s = .next t ∧ t.dev.board = s.dev.board ∧ ∀ k, k < 8 → rget t.dev.regs (RST k + 0xC) = rget s.dev.regs (RST k + 0xC)) ∧
  (∀ s, s.dev.level = .tripHold → 1000 ≤ s.dev.board.coolRounds →
    exec .tripHoldRelease s = .next { s with dev := { s.dev with level := .system, board := { s.dev.board with tripN := true } } }) ∧
  (∀ (i : Fin 2) s, State.live s →
    let o := s.dev.warden (1 - i.val)
    let ost := (rget s.dev.regs (WD (wardenTower (1 - i.val)))).toNat
    let alone := (match o.dog with | some n => decide (n ≤ 1000) | none => false) || bitOf ost 7 || bitOf ost 6 || !o.everReady
    (alone = true → ∃ t, exec (.watchdogExpiry i) s = .next t ∧ t.dev.level = .system ∧ ∀ n, n < 8 → t.dev.fld (RST n) 5 5 = 1) ∧
    (alone = false → ∃ t, exec (.watchdogExpiry i) s = .next t ∧ t.mem = s.mem ∧ t.dev.level = .run ∧ (t.dev.warden i.val).ready = false ∧
      (t.dev.warden i.val).custody = false ∧ (t.dev.warden i.val).dog = some 0 ∧ t.dev.warden (1 - i.val) = o ∧
      t.dev.fld (RST (wardenTower i.val)) 10 10 = 1 ∧ (rget t.dev.regs (WD (wardenTower i.val) + 0x18)).toNat = 0x15))

/-! ## The wardens and firmware (14) -/

/-- Boot makes a warden ready from the image it finds and fails without one; heartbeats leave a ready warden, a good one ends the run of misses at its
hearer, a bad or missing one lengthens it; the standby that has missed enough claims custody with the next epoch; the arbiter grants or refuses; a warden that hears nothing after it rejoins says so. -/
def Obligations.WardensBootAndKeepCustody : Prop :=
  (∀ (i : Fin 2) s, State.live s → (s.dev.warden i.val).ready = false →
    (∀ c, s.dev.bootChoice = some c → ∃ t, exec (.wardenReady i) s = .next t ∧ t.mem = s.mem ∧ (t.dev.warden i.val).ready = true ∧
      (t.dev.warden i.val).everReady = true ∧ t.dev.fld (WD (wardenTower i.val)) 0 0 = 1 ∧
      ((s.dev.warden i.val).custody = true → t.dev.fld HL_STATUS 9 9 = 1)) ∧
    (s.dev.bootChoice = none → ∃ t, exec (.wardenReady i) s = .next t ∧ t.mem = s.mem ∧ (t.dev.warden i.val).ready = false ∧
      t.dev.fld (WD (wardenTower i.val)) 6 6 = 1 ∧
      (rget t.dev.regs (WD (wardenTower i.val) + 0x18)).toNat = (if s.dev.board.bootSrc = 3 then 0x21 else 0x20))) ∧
  (∀ (i : Fin 2) s, State.live s → (s.dev.warden i.val).ready = true → exec (.wardenReady i) s = .next s) ∧
  (∀ s, State.live s → s.dev.hostBoot = true → s.dev.fld HL_STATUS 9 9 = 0 →
    ∃ t, exec .bootRetry s = .next t ∧ t.mem = s.mem ∧ t.dev.fw.bootImg = [] ∧
      ∃ q ∈ t.dev.hl.far, q.who = whoBoot ∧ q.off = 0 ∧ q.count = 8 ∧ q.opcode = 0x10) ∧
  (∀ (i : Fin 2) s, State.live s →
    let x := s.dev.warden i.val
    (x.ready = true → exec (.heartbeatSend i) s = .next { s with dev :=
      { s.dev.onWarden i.val (fun y => { y with seq := (x.seq + 1) % 2 ^ 16 }) with
        out := s.dev.out ++ [.heartbeat (wardenTower i.val) (BitVec.ofNat 64 x.epoch) (BitVec.ofNat 16 ((x.seq + 1) % 2 ^ 16))
          (s.dev.fld (WD (wardenTower i.val)) 4 4 == 1)] } }) ∧
    (x.ready = false → exec (.heartbeatSend i) s = .next s)) ∧
  (∀ (i : Fin 2) epoch seq re (crc : Byte) s, State.live s → crc8 (beatBytes epoch seq re) = crc.toNat →
    ∃ t, exec (.heartbeatRx i epoch seq re crc) s = .next t ∧ t.mem = s.mem ∧ (t.dev.warden i.val).run = 0 ∧ (t.dev.warden i.val).gotBeat = true ∧
      t.dev.fld (WD (wardenTower i.val) + 0x10) 31 16 = seq.toNat ∧ t.dev.fld (WD (wardenTower i.val) + 0x10) 3 0 = 0 ∧
      ((s.dev.warden i.val).custody = false → (t.dev.warden i.val).epoch = epoch.toNat)) ∧
  (∀ (i : Fin 2) epoch seq re (crc : Byte) s, crc8 (beatBytes epoch seq re) ≠ crc.toNat →
    exec (.heartbeatRx i epoch seq re crc) s = exec (.heartbeatMissed i) s) ∧
  (∀ (i : Fin 2) s, State.live s → ∃ t, exec (.heartbeatMissed i) s = .next t ∧ t.mem = s.mem ∧
    (t.dev.warden i.val).run = (s.dev.warden i.val).run + 1 ∧ (t.dev.warden i.val).custody = (s.dev.warden i.val).custody) ∧
  (∀ (i : Fin 2) s, State.live s →
    let x := s.dev.warden i.val
    x.ready = true → x.custody = false → x.limit ≤ x.run → (x.lostOnce = false ∨ x.gotBeat = true) →
    ∃ t, exec (.custodyClaim i) s = .next t ∧ t.mem = s.mem ∧ (t.dev.warden i.val).custody = true ∧ (t.dev.warden i.val).epoch = x.epoch + 1 ∧
      x.epoch + 1 ≤ t.dev.fw.arbEpoch ∧ t.dev.warden (1 - i.val) = s.dev.warden (1 - i.val)) ∧
  (∀ (i : Fin 2) s, State.live s → (s.dev.warden i.val).run < (s.dev.warden i.val).limit → exec (.custodyClaim i) s = .next s) ∧
  (∀ (i : Fin 2) (epoch : W64) addr value s, State.live s →
    (s.dev.fw.arbEpoch < epoch.toNat → ∀ w, World.writeReg (s.world.onDev (fun d => { d with fw := { d.fw with arbEpoch := epoch.toNat } })) (addr : W32).toNat value = some w →
      exec (.managementTransaction i epoch addr value) s = .next (commit s w)) ∧
    (epoch.toNat < s.dev.fw.arbEpoch → ∃ t, exec (.managementTransaction i epoch addr value) s = .next t ∧ t.mem = s.mem ∧
      (t.dev.warden i.val).ready = false ∧ (t.dev.warden i.val).custody = false ∧ t.dev.fw.arbEpoch = s.dev.fw.arbEpoch)) ∧
  (∀ (i : Fin 2) s, State.live s → (s.dev.warden i.val).lostOnce = true → (s.dev.warden i.val).gotBeat = false → (s.dev.warden i.val).custody = false →
    ∃ t, exec (.soundpostTimeout i) s = .next t ∧ t.mem = s.mem ∧ t.dev.fld (WD (wardenTower i.val)) 7 7 = 1)

/-- A committed activation (R464): at the activation fret, once nothing that uses replaced microcode runs, the units load and the standby begins to restart; the standby has
restarted first, then the custody warden; a good self-check makes the new slot the active one, raises the floors and completes the command, a bad one goes back to the old
images. A slot that the custody warden has verified again no longer holds the commit back. -/
def Obligations.FirmwareActivates : Prop :=
  (∀ s, State.live s → s.dev.fw.state = 4 → s.dev.fw.loaded = false → s.dev.fw.commit ≤ s.dev.fretNum →
    let users := (s.dev.replaces 4 || s.dev.replaces 5) && s.dev.ctxs.any (fun e => e.2.active)
    let m := s.dev.image s.dev.inactive 0
    let standby := match s.dev.custodyWarden with
      | some i => 1 - i
      | none => 1
    (users = false → ∃ t, exec .fwUnitLoad s = .next t ∧ t.mem = s.mem ∧ t.dev.fw = { s.dev.fw with loaded := true, hold := false } ∧
      t.dev.fld IDENT_BUILD 47 32 = (manEntry m 4).release % 2 ^ 16 ∧ t.dev.fld IDENT_BUILD 31 16 = (manEntry m 5).release % 2 ^ 16 ∧
      t.dev.fld IDENT_BUILD 63 48 = s.dev.fld IDENT_BUILD 63 48 ∧ t.dev.fld IDENT_BUILD 15 0 = s.dev.fld IDENT_BUILD 15 0 ∧
      t.dev.fld (WD (wardenTower standby)) 4 4 = 1 ∧ t.dev.ctxs = s.dev.ctxs ∧ t.dev.out = s.dev.out) ∧
    (users = true → exec .fwUnitLoad s = .next s)) ∧
  (∀ s, State.live s → (s.dev.fw.state ≠ 4 ∨ s.dev.fw.loaded = true ∨ s.dev.fretNum < s.dev.fw.commit) → exec .fwUnitLoad s = .next s) ∧
  (∀ (i : Fin 2) s, State.live s →
    let cust := s.dev.custodyWarden == some i.val
    let due := s.dev.fw.state == 4 && s.dev.fw.loaded && !s.dev.fw.restarted.contains i.val && (!cust || s.dev.fw.restarted.contains (1 - i.val))
    let t0 := WD (wardenTower i.val)
    (due = true → ∃ t, exec (.wardenRestartDone i) s = .next t ∧ t.mem = s.mem ∧
      t.dev.fw = { s.dev.fw with restarted := i.val :: s.dev.fw.restarted, state := if cust then 5 else 4 } ∧
      (rget t.dev.regs (t0 + 0x18)).toNat = 0x14 ∧ t.dev.fld (RST (wardenTower i.val)) 10 10 = 1 ∧ t.dev.fld t0 4 4 = 0 ∧
      t.dev.fld t0 5 5 = (if (manEntry (s.dev.image s.dev.inactive 0) 2).length = 0 then 0 else 1) ∧
      (cust = false → t.dev.fld (WD (wardenTower (1 - i.val))) 4 4 = 1) ∧ t.dev.wardens = s.dev.wardens ∧ t.dev.out = s.dev.out) ∧
    (due = false → exec (.wardenRestartDone i) s = .next s)) ∧
  (∀ s, State.live s → s.dev.fw.state = 5 →
    let m := s.dev.image s.dev.inactive 0
    ∃ t, exec (.fwSelfCheckDone true) s = .next t ∧ t.mem = s.mem ∧ t.dev.fw.active = s.dev.inactive ∧ t.dev.fw.state = 0 ∧
      t.dev.fw.recordSeq = s.dev.fw.recordSeq + 1 ∧ t.dev.fw.commit = 0 ∧ t.dev.fw.lastStatus = stOk ∧ t.dev.fw.lastDetail = 0 ∧
      t.dev.fw.images = s.dev.fw.images ∧ t.dev.fw.staged = [] ∧ t.dev.fw.deltas = [] ∧ (∀ b ∈ s.dev.fw.burnt, b ∈ t.dev.fw.burnt) ∧
      (∀ n, n < 7 → (manEntry m (n + 1)).svn ≤ 63 → (manEntry m (n + 1)).svn ≤ t.dev.floor (n + 1)) ∧
      t.dev.fld IDENT_BUILD 63 48 = (manEntry m 1).release % 2 ^ 16 ∧ t.dev.fld IDENT_BUILD 15 8 = s.dev.inactive % 2 ^ 8 ∧
      t.dev.out = s.dev.out) ∧
  (∀ s, State.live s → s.dev.fw.state = 5 →
    let old := s.dev.image s.dev.fw.active 0
    ∃ t, exec (.fwSelfCheckDone false) s = .next t ∧ t.mem = s.mem ∧ t.dev.fw.active = s.dev.fw.active ∧ t.dev.fw.state = 2 ∧
      t.dev.fw.burnt = s.dev.fw.burnt ∧ t.dev.fw.images = s.dev.fw.images ∧ t.dev.fw.recordSeq = s.dev.fw.recordSeq ∧ t.dev.fw.commit = 0 ∧
      t.dev.fw.hold = true ∧ t.dev.fw.lastStatus = stAuthFail ∧ t.dev.fw.lastDetail = 0x0A00 ∧
      t.dev.fld IDENT_BUILD 47 32 = (manEntry old 4).release % 2 ^ 16 ∧ t.dev.fld IDENT_BUILD 31 16 = (manEntry old 5).release % 2 ^ 16 ∧
      (∀ i, i < 2 → t.dev.fld (RST (wardenTower i)) 10 10 = 1 ∧ (rget t.dev.regs (WD (wardenTower i) + 0x18)).toNat = 0x14) ∧
      t.dev.out = s.dev.out) ∧
  (∀ ok s, State.live s → s.dev.fw.state ≠ 5 → exec (.fwSelfCheckDone ok) s = .next s) ∧
  (∀ (i : Fin 2) s, State.live s → s.dev.custodyWarden = some i.val →
    exec (.stagedSlotReverified i) s = .next { s with dev := { s.dev with fw := { s.dev.fw with reverify := false } } }) ∧
  (∀ (i : Fin 2) s, State.live s → s.dev.custodyWarden ≠ some i.val → exec (.stagedSlotReverified i) s = .next s)

/-! ## Housekeeping, events, services, the board (08, 13, 16, 17, 18) -/

/-- A housekeeping round has no effect in power-on reset; outside it measures, and trips the device or goes on. A refresh changes nothing. Patrol scrub counts, and a word it
cannot correct turns its block's check over. The first event that does not wait for a command's reply leaves with its sequence number. The digest service's comparison keeps the repairs it can make, for
a hold that it asks for, and stops the context when it cannot make them all; a retrieval batch whose index is good stages it and answers its query.
DEDUCED (log 84) is what the staging area keeps; MODEL'S CHOICE (log 110, log 126): SCRUB_ACTIVE, and what the
replicas hold is an operand. -/
def Obligations.HousekeepingAndServiceRuns : Prop :=
  (∀ r s, (s.dev.level = .powerOn → exec (.housekeepingRound r) s = .next s) ∧
    (s.dev.level = .system ∨ s.dev.level = .tripHold → exec (.housekeepingRound r) s = .next (commit s (s.world.measure r))) ∧
    (s.live → (s.world.measure r).d.tripped = true →
      ∃ t, exec (.housekeepingRound r) s = .next t ∧ t.dev.level = .tripHold ∧ ∀ n, n < 8 → t.dev.fld (RST n) 6 6 = 1) ∧
    (s.live → (s.world.measure r).d.tripped = false →
      ∃ t, exec (.housekeepingRound r) s = .next t ∧ t.dev.board.rounds = s.dev.board.rounds + 1 ∧
        (rget t.dev.regs PWR_INPUT).toNat = r.vin.toNat * 2 ^ 32 + r.iin.toNat * 2 ^ 16 + r.pin.toNat)) ∧
  (∀ (t : Fin 8) (die : Fin 2) s, exec (.dramRefresh t die) s = .next s) ∧
  (∀ (t : Fin 8) n bad s, State.live s → s.dev.fld (MEMR t.val + 0x48) 31 31 ≠ 1 → exec (.patrolScrub t n bad) s = .next s) ∧
  (∀ (t : Fin 8) n a s, State.live s → s.dev.fld (MEMR t.val + 0x48) 31 31 = 1 → tierOf a = 2 → towerOf a = t.val → a % 512 = 0 → addrOk 0 a = true →
    s.world.synOf a = 0 →
    ∃ u, exec (.patrolScrub t n [a]) s = .next u ∧ u.mem.bytes = s.mem.bytes ∧ tget 0 u.mem.syn a = 0xFFFFFFFF ∧ u.dev.fld (MEMR t.val + 0x58) 4 4 = 1 ∧
      u.dev.fld (MEMR t.val) 1 1 = 1) ∧
  (∀ s, State.live s → (s.dev.eventPort = none ∨ s.dev.hl.events.find? (fun e => !s.dev.eventWaits e) = none) → exec .eventSend s = .next s) ∧
  (∀ s p e, State.live s → s.dev.eventPort = some p → s.dev.hl.events.find? (fun e => !s.dev.eventWaits e) = some e → s.dev.hl.lost = 0 →
    ∃ t, exec .eventSend s = .next t ∧ t.mem = s.mem ∧ t.dev.hl.events = s.dev.hl.events.erase e ∧
      t.dev.said = s.dev.said ++ [.event p { e with param := BitVec.ofNat 32 (s.dev.fld HL_EVENT_SEQ 31 0) }] ∧
      t.dev.fld HL_EVENT_SEQ 31 0 = (s.dev.fld HL_EVENT_SEQ 31 0 + 1) % 2 ^ 32) ∧
  (∀ differs s, State.live s → (s.dev.svc 2).active = true → (s.dev.svc 2).due ≠ [] → (s.dev.ctx 2).ran = true →
    let v := s.dev.svc 2
    let mine := differs.filter (fun e => v.due.contains e.run && s.world.digestDiffers v.config e)
    let ok := mine.filter (fun e => (s.world.digestFix v.config e).isSome)
    ∃ t, exec (.digestCompare differs) s = .next t ∧ t.mem = s.mem ∧ (t.dev.svc 2).due = [] ∧ (t.dev.svc 2).repairs = v.repairs ++ ok ∧
      (ok ≠ [] → t.dev.ft.wardenHold = (if s.dev.ft.wardenHold = 0 then 1 else s.dev.ft.wardenHold) ∧ t.dev.fld FT_HOLD_CAUSE 5 5 = 1) ∧
      (ok = [] → t.dev.ft.wardenHold = s.dev.ft.wardenHold) ∧
      (ok.length = mine.length → t.dev.ctxs = s.dev.ctxs) ∧ (ok.length ≠ mine.length → t.dev.ft.posFlags.getLsbD flagMismatch = true)) ∧
  (∀ inst bad s h rest, State.live s → (s.dev.svc inst).queue = h :: rest → 8 ≤ inst → inst < 16 → (s.dev.svc inst).active = true → (s.dev.ctx inst).ran = true →
    (((List.range 8).flatMap (indexBlocks (s.dev.svc inst).config)).filter (s.world.failing bad)) = [] →
    let cfg := (s.dev.svc inst).config
    let b := payloadBytes h.payload
    let q := batchOf b
    let rs := (queryRows cfg b q.queries).map (fun v => s.world.scan cfg v q.k)
    let nans := BitVec.ofNat 32 (rs.foldl (fun n r => n + r.2) 0)
    let bl := mkBlks (rs.flatMap (fun r => resultBytes (numAt cfg 32 1 == 9) q.k r.1))
    let w := World.onDev (World.stageIndex ((List.range 8).foldl
      (fun w t => w.consumed t (w.poisonCount (indexBlocks cfg t)) 1 inst) s.world) cfg) (fun d => d.onSvc inst (fun s => { s with queue := rest }))
    (q.dest ≠ 1 → ∃ t, exec (.retrievalBatchDone inst bad) s = .next t ∧ t = commit s (w.reply h 0x502 stOk 0 nans bl) ∧
      (t.dev.svc inst).queue = rest ∧ t.dev.said = s.dev.said ++ [replyOf s.dev h 0x502 stOk 0 nans bl]) ∧
    (q.dest = 1 → exec (.retrievalBatchDone inst bad) s = .next (commit s (World.reply
      (w.sendBlocks (svcJob inst (firstCourse (s.dev.ctx inst).mask.toNat)) 1 q.rank q.ctx q.window 0 q.addr (bl.map (fun x => (0, x))))
      h 0x502 stOk 0 nans []))))

/-- The leak pin is seen in every level, and reported outside power-on reset. The management bus and the boundary-scan port answer and change nothing else of the device.
MODEL'S CHOICE (log 3): what a boundary-scan capture reads of a pin is a free value; the statement gives only how many bits leave. -/
def Obligations.BoardPinsAndPortsAnswer : Prop :=
  (∀ s, ∃ t, exec .leak s = .next t ∧ t.mem = s.mem ∧ t.dev.board.leak = true ∧
    (s.dev.level ≠ .powerOn → t.dev.fld THM_DEVICE 8 8 = 1) ∧ (s.dev.level = .powerOn → t.dev.regs = s.dev.regs)) ∧
  (∀ e ∈ smbTable, ∀ s, State.live s → exec e.1 s = .next { s with dev := { s.dev with out := s.dev.out ++ [.smb (e.2 s.dev)] } }) ∧
  (∀ s, State.live s → ∃ t b, exec .smbStatus s = .next t ∧ t.mem = s.mem ∧ t.dev.out = s.dev.out ++ [.smb b] ∧ t.dev.regs = s.dev.regs ∧
    b.take 4 = leBytes 1 (s.dev.fld THM_DEVICE 5 4) ++ leBytes 1 (s.dev.fld THM_DEVICE 3 2) ++
      leBytes 1 (s.dev.fld HL_STATUS 9 9 + (if s.dev.board.leak then 2 else 0) + (if s.dev.railAlert then 4 else 0)) ++ leBytes 1 0) ∧
  (∀ tdi s, ∃ t, exec (.jtagBypass tdi) s = .next t ∧ t.mem = s.mem ∧
    t.dev.out = s.dev.out ++ [.jtag ((List.replicate 8 false ++ tdi).take tdi.length)] ∧ t.dev.regs = s.dev.regs) ∧
  (∀ s, ∃ t, exec .jtagIdcode s = .next t ∧ t.mem = s.mem ∧ t.dev.out = s.dev.out ++ [.jtag ((List.replicate 8 idcodeBits).flatten)] ∧
    t.dev.board.tapInstr = 1 ∧ t.dev.regs = s.dev.regs) ∧
  (∀ bits s, ∃ t out, exec (.jtagSamplePreload bits) s = .next t ∧ t.mem = s.mem ∧ t.dev.board.cells = bits ∧ out.length = bits.length ∧
    t.dev.out = s.dev.out ++ [.jtag out] ∧ t.dev.regs = s.dev.regs) ∧
  (∀ s, ∃ t out, exec .jtagExtest s = .next t ∧ t.mem = s.mem ∧ t.dev.board.tapInstr = 3 ∧ out.length = s.dev.board.cells.length ∧
    t.dev.out = s.dev.out ++ [.jtag out] ∧ t.dev.regs = s.dev.regs) ∧
  (∀ s, exec .jtagTrst s = .next { s with dev := { s.dev with board := { s.dev.board with tapInstr := 1, bypass := [] } } })
end

