-- ==== Sys2Proof/Laws/State.lean ====
section
/-! SUPPORT. What each update of the device leaves unchanged and what it writes: one lemma per field per update. -/

namespace Sys2Proof.Machine

@[simp] theorem Dev.setReg_level (d : Dev) (a : Nat) (v : W64) : (d.setReg a v).level = d.level := rfl
@[simp] theorem Dev.setReg_regs (d : Dev) (a : Nat) (v : W64) : (d.setReg a v).regs = rput d.regs a v := rfl
@[simp] theorem Dev.setReg_ft (d : Dev) (a : Nat) (v : W64) : (d.setReg a v).ft = d.ft := rfl
@[simp] theorem Dev.setReg_courses (d : Dev) (a : Nat) (v : W64) : (d.setReg a v).courses = d.courses := rfl
@[simp] theorem Dev.setReg_ctxs (d : Dev) (a : Nat) (v : W64) : (d.setReg a v).ctxs = d.ctxs := rfl
@[simp] theorem Dev.setReg_towers (d : Dev) (a : Nat) (v : W64) : (d.setReg a v).towers = d.towers := rfl
@[simp] theorem Dev.setReg_bundles (d : Dev) (a : Nat) (v : W64) : (d.setReg a v).bundles = d.bundles := rfl
@[simp] theorem Dev.setReg_links (d : Dev) (a : Nat) (v : W64) : (d.setReg a v).links = d.links := rfl
@[simp] theorem Dev.setReg_hl (d : Dev) (a : Nat) (v : W64) : (d.setReg a v).hl = d.hl := rfl
@[simp] theorem Dev.setReg_hedge (d : Dev) (a : Nat) (v : W64) : (d.setReg a v).hedge = d.hedge := rfl
@[simp] theorem Dev.setReg_wardens (d : Dev) (a : Nat) (v : W64) : (d.setReg a v).wardens = d.wardens := rfl
@[simp] theorem Dev.setReg_fw (d : Dev) (a : Nat) (v : W64) : (d.setReg a v).fw = d.fw := rfl
@[simp] theorem Dev.setReg_svcs (d : Dev) (a : Nat) (v : W64) : (d.setReg a v).svcs = d.svcs := rfl
@[simp] theorem Dev.setReg_ckpts (d : Dev) (a : Nat) (v : W64) : (d.setReg a v).ckpts = d.ckpts := rfl
@[simp] theorem Dev.setReg_ladders (d : Dev) (a : Nat) (v : W64) : (d.setReg a v).ladders = d.ladders := rfl
@[simp] theorem Dev.setReg_rx (d : Dev) (a : Nat) (v : W64) : (d.setReg a v).rx = d.rx := rfl
@[simp] theorem Dev.setReg_sent (d : Dev) (a : Nat) (v : W64) : (d.setReg a v).sent = d.sent := rfl
@[simp] theorem Dev.setReg_wants (d : Dev) (a : Nat) (v : W64) : (d.setReg a v).wants = d.wants := rfl
@[simp] theorem Dev.setReg_waits (d : Dev) (a : Nat) (v : W64) : (d.setReg a v).waits = d.waits := rfl
@[simp] theorem Dev.setReg_srx (d : Dev) (a : Nat) (v : W64) : (d.setReg a v).srx = d.srx := rfl
@[simp] theorem Dev.setReg_efVals (d : Dev) (a : Nat) (v : W64) : (d.setReg a v).efVals = d.efVals := rfl
@[simp] theorem Dev.setReg_slots (d : Dev) (a : Nat) (v : W64) : (d.setReg a v).slots = d.slots := rfl
@[simp] theorem Dev.setReg_fh (d : Dev) (a : Nat) (v : W64) : (d.setReg a v).fh = d.fh := rfl
@[simp] theorem Dev.setReg_fhPositions (d : Dev) (a : Nat) (v : W64) : (d.setReg a v).fhPositions = d.fhPositions := rfl
@[simp] theorem Dev.setReg_fhRestart (d : Dev) (a : Nat) (v : W64) : (d.setReg a v).fhRestart = d.fhRestart := rfl
@[simp] theorem Dev.setReg_log (d : Dev) (a : Nat) (v : W64) : (d.setReg a v).log = d.log := rfl
@[simp] theorem Dev.setReg_board (d : Dev) (a : Nat) (v : W64) : (d.setReg a v).board = d.board := rfl
@[simp] theorem Dev.setReg_out (d : Dev) (a : Nat) (v : W64) : (d.setReg a v).out = d.out := rfl
@[simp] theorem Dev.setReg_turn (d : Dev) (a : Nat) (v : W64) : (d.setReg a v).turn = d.turn := rfl
@[simp] theorem Dev.setReg_free (d : Dev) (a : Nat) (v : W64) : (d.setReg a v).free = d.free := rfl

@[simp] theorem Dev.setFld_level (d : Dev) (a hi lo x : Nat) : (d.setFld a hi lo x).level = d.level := rfl
@[simp] theorem Dev.setFld_regs (d : Dev) (a hi lo x : Nat) : (d.setFld a hi lo x).regs = rset d.regs a hi lo x := rfl
@[simp] theorem Dev.setFld_ft (d : Dev) (a hi lo x : Nat) : (d.setFld a hi lo x).ft = d.ft := rfl
@[simp] theorem Dev.setFld_courses (d : Dev) (a hi lo x : Nat) : (d.setFld a hi lo x).courses = d.courses := rfl
@[simp] theorem Dev.setFld_ctxs (d : Dev) (a hi lo x : Nat) : (d.setFld a hi lo x).ctxs = d.ctxs := rfl
@[simp] theorem Dev.setFld_towers (d : Dev) (a hi lo x : Nat) : (d.setFld a hi lo x).towers = d.towers := rfl
@[simp] theorem Dev.setFld_bundles (d : Dev) (a hi lo x : Nat) : (d.setFld a hi lo x).bundles = d.bundles := rfl
@[simp] theorem Dev.setFld_links (d : Dev) (a hi lo x : Nat) : (d.setFld a hi lo x).links = d.links := rfl
@[simp] theorem Dev.setFld_hl (d : Dev) (a hi lo x : Nat) : (d.setFld a hi lo x).hl = d.hl := rfl
@[simp] theorem Dev.setFld_hedge (d : Dev) (a hi lo x : Nat) : (d.setFld a hi lo x).hedge = d.hedge := rfl
@[simp] theorem Dev.setFld_wardens (d : Dev) (a hi lo x : Nat) : (d.setFld a hi lo x).wardens = d.wardens := rfl
@[simp] theorem Dev.setFld_fw (d : Dev) (a hi lo x : Nat) : (d.setFld a hi lo x).fw = d.fw := rfl
@[simp] theorem Dev.setFld_svcs (d : Dev) (a hi lo x : Nat) : (d.setFld a hi lo x).svcs = d.svcs := rfl
@[simp] theorem Dev.setFld_ckpts (d : Dev) (a hi lo x : Nat) : (d.setFld a hi lo x).ckpts = d.ckpts := rfl
@[simp] theorem Dev.setFld_ladders (d : Dev) (a hi lo x : Nat) : (d.setFld a hi lo x).ladders = d.ladders := rfl
@[simp] theorem Dev.setFld_rx (d : Dev) (a hi lo x : Nat) : (d.setFld a hi lo x).rx = d.rx := rfl
@[simp] theorem Dev.setFld_sent (d : Dev) (a hi lo x : Nat) : (d.setFld a hi lo x).sent = d.sent := rfl
@[simp] theorem Dev.setFld_wants (d : Dev) (a hi lo x : Nat) : (d.setFld a hi lo x).wants = d.wants := rfl
@[simp] theorem Dev.setFld_waits (d : Dev) (a hi lo x : Nat) : (d.setFld a hi lo x).waits = d.waits := rfl
@[simp] theorem Dev.setFld_srx (d : Dev) (a hi lo x : Nat) : (d.setFld a hi lo x).srx = d.srx := rfl
@[simp] theorem Dev.setFld_efVals (d : Dev) (a hi lo x : Nat) : (d.setFld a hi lo x).efVals = d.efVals := rfl
@[simp] theorem Dev.setFld_slots (d : Dev) (a hi lo x : Nat) : (d.setFld a hi lo x).slots = d.slots := rfl
@[simp] theorem Dev.setFld_fh (d : Dev) (a hi lo x : Nat) : (d.setFld a hi lo x).fh = d.fh := rfl
@[simp] theorem Dev.setFld_fhPositions (d : Dev) (a hi lo x : Nat) : (d.setFld a hi lo x).fhPositions = d.fhPositions := rfl
@[simp] theorem Dev.setFld_fhRestart (d : Dev) (a hi lo x : Nat) : (d.setFld a hi lo x).fhRestart = d.fhRestart := rfl
@[simp] theorem Dev.setFld_log (d : Dev) (a hi lo x : Nat) : (d.setFld a hi lo x).log = d.log := rfl
@[simp] theorem Dev.setFld_board (d : Dev) (a hi lo x : Nat) : (d.setFld a hi lo x).board = d.board := rfl
@[simp] theorem Dev.setFld_out (d : Dev) (a hi lo x : Nat) : (d.setFld a hi lo x).out = d.out := rfl
@[simp] theorem Dev.setFld_turn (d : Dev) (a hi lo x : Nat) : (d.setFld a hi lo x).turn = d.turn := rfl
@[simp] theorem Dev.setFld_free (d : Dev) (a hi lo x : Nat) : (d.setFld a hi lo x).free = d.free := rfl

@[simp] theorem Dev.setBit_level (d : Dev) (a n : Nat) : (d.setBit a n).level = d.level := rfl
@[simp] theorem Dev.setBit_regs (d : Dev) (a n : Nat) : (d.setBit a n).regs = rset d.regs a n n 1 := rfl
@[simp] theorem Dev.setBit_ft (d : Dev) (a n : Nat) : (d.setBit a n).ft = d.ft := rfl
@[simp] theorem Dev.setBit_courses (d : Dev) (a n : Nat) : (d.setBit a n).courses = d.courses := rfl
@[simp] theorem Dev.setBit_ctxs (d : Dev) (a n : Nat) : (d.setBit a n).ctxs = d.ctxs := rfl
@[simp] theorem Dev.setBit_towers (d : Dev) (a n : Nat) : (d.setBit a n).towers = d.towers := rfl
@[simp] theorem Dev.setBit_bundles (d : Dev) (a n : Nat) : (d.setBit a n).bundles = d.bundles := rfl
@[simp] theorem Dev.setBit_links (d : Dev) (a n : Nat) : (d.setBit a n).links = d.links := rfl
@[simp] theorem Dev.setBit_hl (d : Dev) (a n : Nat) : (d.setBit a n).hl = d.hl := rfl
@[simp] theorem Dev.setBit_hedge (d : Dev) (a n : Nat) : (d.setBit a n).hedge = d.hedge := rfl
@[simp] theorem Dev.setBit_wardens (d : Dev) (a n : Nat) : (d.setBit a n).wardens = d.wardens := rfl
@[simp] theorem Dev.setBit_fw (d : Dev) (a n : Nat) : (d.setBit a n).fw = d.fw := rfl
@[simp] theorem Dev.setBit_svcs (d : Dev) (a n : Nat) : (d.setBit a n).svcs = d.svcs := rfl
@[simp] theorem Dev.setBit_ckpts (d : Dev) (a n : Nat) : (d.setBit a n).ckpts = d.ckpts := rfl
@[simp] theorem Dev.setBit_ladders (d : Dev) (a n : Nat) : (d.setBit a n).ladders = d.ladders := rfl
@[simp] theorem Dev.setBit_rx (d : Dev) (a n : Nat) : (d.setBit a n).rx = d.rx := rfl
@[simp] theorem Dev.setBit_sent (d : Dev) (a n : Nat) : (d.setBit a n).sent = d.sent := rfl
@[simp] theorem Dev.setBit_wants (d : Dev) (a n : Nat) : (d.setBit a n).wants = d.wants := rfl
@[simp] theorem Dev.setBit_waits (d : Dev) (a n : Nat) : (d.setBit a n).waits = d.waits := rfl
@[simp] theorem Dev.setBit_srx (d : Dev) (a n : Nat) : (d.setBit a n).srx = d.srx := rfl
@[simp] theorem Dev.setBit_efVals (d : Dev) (a n : Nat) : (d.setBit a n).efVals = d.efVals := rfl
@[simp] theorem Dev.setBit_slots (d : Dev) (a n : Nat) : (d.setBit a n).slots = d.slots := rfl
@[simp] theorem Dev.setBit_fh (d : Dev) (a n : Nat) : (d.setBit a n).fh = d.fh := rfl
@[simp] theorem Dev.setBit_fhPositions (d : Dev) (a n : Nat) : (d.setBit a n).fhPositions = d.fhPositions := rfl
@[simp] theorem Dev.setBit_fhRestart (d : Dev) (a n : Nat) : (d.setBit a n).fhRestart = d.fhRestart := rfl
@[simp] theorem Dev.setBit_log (d : Dev) (a n : Nat) : (d.setBit a n).log = d.log := rfl
@[simp] theorem Dev.setBit_board (d : Dev) (a n : Nat) : (d.setBit a n).board = d.board := rfl
@[simp] theorem Dev.setBit_out (d : Dev) (a n : Nat) : (d.setBit a n).out = d.out := rfl
@[simp] theorem Dev.setBit_turn (d : Dev) (a n : Nat) : (d.setBit a n).turn = d.turn := rfl
@[simp] theorem Dev.setBit_free (d : Dev) (a n : Nat) : (d.setBit a n).free = d.free := rfl

@[simp] theorem Dev.setCourse_level (d : Dev) (c : Nat) (x : Course) : (d.setCourse c x).level = d.level := rfl
@[simp] theorem Dev.setCourse_regs (d : Dev) (c : Nat) (x : Course) : (d.setCourse c x).regs = d.regs := rfl
@[simp] theorem Dev.setCourse_ft (d : Dev) (c : Nat) (x : Course) : (d.setCourse c x).ft = d.ft := rfl
@[simp] theorem Dev.setCourse_courses (d : Dev) (c : Nat) (x : Course) : (d.setCourse c x).courses = tput d.courses c x := rfl
@[simp] theorem Dev.setCourse_ctxs (d : Dev) (c : Nat) (x : Course) : (d.setCourse c x).ctxs = d.ctxs := rfl
@[simp] theorem Dev.setCourse_towers (d : Dev) (c : Nat) (x : Course) : (d.setCourse c x).towers = d.towers := rfl
@[simp] theorem Dev.setCourse_bundles (d : Dev) (c : Nat) (x : Course) : (d.setCourse c x).bundles = d.bundles := rfl
@[simp] theorem Dev.setCourse_links (d : Dev) (c : Nat) (x : Course) : (d.setCourse c x).links = d.links := rfl
@[simp] theorem Dev.setCourse_hl (d : Dev) (c : Nat) (x : Course) : (d.setCourse c x).hl = d.hl := rfl
@[simp] theorem Dev.setCourse_hedge (d : Dev) (c : Nat) (x : Course) : (d.setCourse c x).hedge = d.hedge := rfl
@[simp] theorem Dev.setCourse_wardens (d : Dev) (c : Nat) (x : Course) : (d.setCourse c x).wardens = d.wardens := rfl
@[simp] theorem Dev.setCourse_fw (d : Dev) (c : Nat) (x : Course) : (d.setCourse c x).fw = d.fw := rfl
@[simp] theorem Dev.setCourse_svcs (d : Dev) (c : Nat) (x : Course) : (d.setCourse c x).svcs = d.svcs := rfl
@[simp] theorem Dev.setCourse_ckpts (d : Dev) (c : Nat) (x : Course) : (d.setCourse c x).ckpts = d.ckpts := rfl
@[simp] theorem Dev.setCourse_ladders (d : Dev) (c : Nat) (x : Course) : (d.setCourse c x).ladders = d.ladders := rfl
@[simp] theorem Dev.setCourse_rx (d : Dev) (c : Nat) (x : Course) : (d.setCourse c x).rx = d.rx := rfl
@[simp] theorem Dev.setCourse_sent (d : Dev) (c : Nat) (x : Course) : (d.setCourse c x).sent = d.sent := rfl
@[simp] theorem Dev.setCourse_wants (d : Dev) (c : Nat) (x : Course) : (d.setCourse c x).wants = d.wants := rfl
@[simp] theorem Dev.setCourse_waits (d : Dev) (c : Nat) (x : Course) : (d.setCourse c x).waits = d.waits := rfl
@[simp] theorem Dev.setCourse_srx (d : Dev) (c : Nat) (x : Course) : (d.setCourse c x).srx = d.srx := rfl
@[simp] theorem Dev.setCourse_efVals (d : Dev) (c : Nat) (x : Course) : (d.setCourse c x).efVals = d.efVals := rfl
@[simp] theorem Dev.setCourse_slots (d : Dev) (c : Nat) (x : Course) : (d.setCourse c x).slots = d.slots := rfl
@[simp] theorem Dev.setCourse_fh (d : Dev) (c : Nat) (x : Course) : (d.setCourse c x).fh = d.fh := rfl
@[simp] theorem Dev.setCourse_fhPositions (d : Dev) (c : Nat) (x : Course) : (d.setCourse c x).fhPositions = d.fhPositions := rfl
@[simp] theorem Dev.setCourse_fhRestart (d : Dev) (c : Nat) (x : Course) : (d.setCourse c x).fhRestart = d.fhRestart := rfl
@[simp] theorem Dev.setCourse_log (d : Dev) (c : Nat) (x : Course) : (d.setCourse c x).log = d.log := rfl
@[simp] theorem Dev.setCourse_board (d : Dev) (c : Nat) (x : Course) : (d.setCourse c x).board = d.board := rfl
@[simp] theorem Dev.setCourse_out (d : Dev) (c : Nat) (x : Course) : (d.setCourse c x).out = d.out := rfl
@[simp] theorem Dev.setCourse_turn (d : Dev) (c : Nat) (x : Course) : (d.setCourse c x).turn = d.turn := rfl
@[simp] theorem Dev.setCourse_free (d : Dev) (c : Nat) (x : Course) : (d.setCourse c x).free = d.free := rfl

@[simp] theorem Dev.onCourse_level (d : Dev) (c : Nat) (f : Course → Course) : (d.onCourse c f).level = d.level := rfl
@[simp] theorem Dev.onCourse_regs (d : Dev) (c : Nat) (f : Course → Course) : (d.onCourse c f).regs = d.regs := rfl
@[simp] theorem Dev.onCourse_ft (d : Dev) (c : Nat) (f : Course → Course) : (d.onCourse c f).ft = d.ft := rfl
@[simp] theorem Dev.onCourse_courses (d : Dev) (c : Nat) (f : Course → Course) : (d.onCourse c f).courses = tput d.courses c (f (d.course c)) := rfl
@[simp] theorem Dev.onCourse_ctxs (d : Dev) (c : Nat) (f : Course → Course) : (d.onCourse c f).ctxs = d.ctxs := rfl
@[simp] theorem Dev.onCourse_towers (d : Dev) (c : Nat) (f : Course → Course) : (d.onCourse c f).towers = d.towers := rfl
@[simp] theorem Dev.onCourse_bundles (d : Dev) (c : Nat) (f : Course → Course) : (d.onCourse c f).bundles = d.bundles := rfl
@[simp] theorem Dev.onCourse_links (d : Dev) (c : Nat) (f : Course → Course) : (d.onCourse c f).links = d.links := rfl
@[simp] theorem Dev.onCourse_hl (d : Dev) (c : Nat) (f : Course → Course) : (d.onCourse c f).hl = d.hl := rfl
@[simp] theorem Dev.onCourse_hedge (d : Dev) (c : Nat) (f : Course → Course) : (d.onCourse c f).hedge = d.hedge := rfl
@[simp] theorem Dev.onCourse_wardens (d : Dev) (c : Nat) (f : Course → Course) : (d.onCourse c f).wardens = d.wardens := rfl
@[simp] theorem Dev.onCourse_fw (d : Dev) (c : Nat) (f : Course → Course) : (d.onCourse c f).fw = d.fw := rfl
@[simp] theorem Dev.onCourse_svcs (d : Dev) (c : Nat) (f : Course → Course) : (d.onCourse c f).svcs = d.svcs := rfl
@[simp] theorem Dev.onCourse_ckpts (d : Dev) (c : Nat) (f : Course → Course) : (d.onCourse c f).ckpts = d.ckpts := rfl
@[simp] theorem Dev.onCourse_ladders (d : Dev) (c : Nat) (f : Course → Course) : (d.onCourse c f).ladders = d.ladders := rfl
@[simp] theorem Dev.onCourse_rx (d : Dev) (c : Nat) (f : Course → Course) : (d.onCourse c f).rx = d.rx := rfl
@[simp] theorem Dev.onCourse_sent (d : Dev) (c : Nat) (f : Course → Course) : (d.onCourse c f).sent = d.sent := rfl
@[simp] theorem Dev.onCourse_wants (d : Dev) (c : Nat) (f : Course → Course) : (d.onCourse c f).wants = d.wants := rfl
@[simp] theorem Dev.onCourse_waits (d : Dev) (c : Nat) (f : Course → Course) : (d.onCourse c f).waits = d.waits := rfl
@[simp] theorem Dev.onCourse_srx (d : Dev) (c : Nat) (f : Course → Course) : (d.onCourse c f).srx = d.srx := rfl
@[simp] theorem Dev.onCourse_efVals (d : Dev) (c : Nat) (f : Course → Course) : (d.onCourse c f).efVals = d.efVals := rfl
@[simp] theorem Dev.onCourse_slots (d : Dev) (c : Nat) (f : Course → Course) : (d.onCourse c f).slots = d.slots := rfl
@[simp] theorem Dev.onCourse_fh (d : Dev) (c : Nat) (f : Course → Course) : (d.onCourse c f).fh = d.fh := rfl
@[simp] theorem Dev.onCourse_fhPositions (d : Dev) (c : Nat) (f : Course → Course) : (d.onCourse c f).fhPositions = d.fhPositions := rfl
@[simp] theorem Dev.onCourse_fhRestart (d : Dev) (c : Nat) (f : Course → Course) : (d.onCourse c f).fhRestart = d.fhRestart := rfl
@[simp] theorem Dev.onCourse_log (d : Dev) (c : Nat) (f : Course → Course) : (d.onCourse c f).log = d.log := rfl
@[simp] theorem Dev.onCourse_board (d : Dev) (c : Nat) (f : Course → Course) : (d.onCourse c f).board = d.board := rfl
@[simp] theorem Dev.onCourse_out (d : Dev) (c : Nat) (f : Course → Course) : (d.onCourse c f).out = d.out := rfl
@[simp] theorem Dev.onCourse_turn (d : Dev) (c : Nat) (f : Course → Course) : (d.onCourse c f).turn = d.turn := rfl
@[simp] theorem Dev.onCourse_free (d : Dev) (c : Nat) (f : Course → Course) : (d.onCourse c f).free = d.free := rfl

@[simp] theorem Dev.onLine_level (d : Dev) (c i : Nat) (f : LineSt → LineSt) : (d.onLine c i f).level = d.level := rfl
@[simp] theorem Dev.onLine_regs (d : Dev) (c i : Nat) (f : LineSt → LineSt) : (d.onLine c i f).regs = d.regs := rfl
@[simp] theorem Dev.onLine_ft (d : Dev) (c i : Nat) (f : LineSt → LineSt) : (d.onLine c i f).ft = d.ft := rfl
@[simp] theorem Dev.onLine_ctxs (d : Dev) (c i : Nat) (f : LineSt → LineSt) : (d.onLine c i f).ctxs = d.ctxs := rfl
@[simp] theorem Dev.onLine_towers (d : Dev) (c i : Nat) (f : LineSt → LineSt) : (d.onLine c i f).towers = d.towers := rfl
@[simp] theorem Dev.onLine_bundles (d : Dev) (c i : Nat) (f : LineSt → LineSt) : (d.onLine c i f).bundles = d.bundles := rfl
@[simp] theorem Dev.onLine_links (d : Dev) (c i : Nat) (f : LineSt → LineSt) : (d.onLine c i f).links = d.links := rfl
@[simp] theorem Dev.onLine_hl (d : Dev) (c i : Nat) (f : LineSt → LineSt) : (d.onLine c i f).hl = d.hl := rfl
@[simp] theorem Dev.onLine_hedge (d : Dev) (c i : Nat) (f : LineSt → LineSt) : (d.onLine c i f).hedge = d.hedge := rfl
@[simp] theorem Dev.onLine_wardens (d : Dev) (c i : Nat) (f : LineSt → LineSt) : (d.onLine c i f).wardens = d.wardens := rfl
@[simp] theorem Dev.onLine_fw (d : Dev) (c i : Nat) (f : LineSt → LineSt) : (d.onLine c i f).fw = d.fw := rfl
@[simp] theorem Dev.onLine_svcs (d : Dev) (c i : Nat) (f : LineSt → LineSt) : (d.onLine c i f).svcs = d.svcs := rfl
@[simp] theorem Dev.onLine_ckpts (d : Dev) (c i : Nat) (f : LineSt → LineSt) : (d.onLine c i f).ckpts = d.ckpts := rfl
@[simp] theorem Dev.onLine_ladders (d : Dev) (c i : Nat) (f : LineSt → LineSt) : (d.onLine c i f).ladders = d.ladders := rfl
@[simp] theorem Dev.onLine_rx (d : Dev) (c i : Nat) (f : LineSt → LineSt) : (d.onLine c i f).rx = d.rx := rfl
@[simp] theorem Dev.onLine_sent (d : Dev) (c i : Nat) (f : LineSt → LineSt) : (d.onLine c i f).sent = d.sent := rfl
@[simp] theorem Dev.onLine_wants (d : Dev) (c i : Nat) (f : LineSt → LineSt) : (d.onLine c i f).wants = d.wants := rfl
@[simp] theorem Dev.onLine_waits (d : Dev) (c i : Nat) (f : LineSt → LineSt) : (d.onLine c i f).waits = d.waits := rfl
@[simp] theorem Dev.onLine_srx (d : Dev) (c i : Nat) (f : LineSt → LineSt) : (d.onLine c i f).srx = d.srx := rfl
@[simp] theorem Dev.onLine_efVals (d : Dev) (c i : Nat) (f : LineSt → LineSt) : (d.onLine c i f).efVals = d.efVals := rfl
@[simp] theorem Dev.onLine_slots (d : Dev) (c i : Nat) (f : LineSt → LineSt) : (d.onLine c i f).slots = d.slots := rfl
@[simp] theorem Dev.onLine_fh (d : Dev) (c i : Nat) (f : LineSt → LineSt) : (d.onLine c i f).fh = d.fh := rfl
@[simp] theorem Dev.onLine_fhPositions (d : Dev) (c i : Nat) (f : LineSt → LineSt) : (d.onLine c i f).fhPositions = d.fhPositions := rfl
@[simp] theorem Dev.onLine_fhRestart (d : Dev) (c i : Nat) (f : LineSt → LineSt) : (d.onLine c i f).fhRestart = d.fhRestart := rfl
@[simp] theorem Dev.onLine_log (d : Dev) (c i : Nat) (f : LineSt → LineSt) : (d.onLine c i f).log = d.log := rfl
@[simp] theorem Dev.onLine_board (d : Dev) (c i : Nat) (f : LineSt → LineSt) : (d.onLine c i f).board = d.board := rfl
@[simp] theorem Dev.onLine_out (d : Dev) (c i : Nat) (f : LineSt → LineSt) : (d.onLine c i f).out = d.out := rfl
@[simp] theorem Dev.onLine_turn (d : Dev) (c i : Nat) (f : LineSt → LineSt) : (d.onLine c i f).turn = d.turn := rfl
@[simp] theorem Dev.onLine_free (d : Dev) (c i : Nat) (f : LineSt → LineSt) : (d.onLine c i f).free = d.free := rfl

@[simp] theorem Dev.setCtx_level (d : Dev) (i : Nat) (x : Ctx) : (d.setCtx i x).level = d.level := rfl
@[simp] theorem Dev.setCtx_regs (d : Dev) (i : Nat) (x : Ctx) : (d.setCtx i x).regs = d.regs := rfl
@[simp] theorem Dev.setCtx_ft (d : Dev) (i : Nat) (x : Ctx) : (d.setCtx i x).ft = d.ft := rfl
@[simp] theorem Dev.setCtx_courses (d : Dev) (i : Nat) (x : Ctx) : (d.setCtx i x).courses = d.courses := rfl
@[simp] theorem Dev.setCtx_ctxs (d : Dev) (i : Nat) (x : Ctx) : (d.setCtx i x).ctxs = tput d.ctxs i x := rfl
@[simp] theorem Dev.setCtx_towers (d : Dev) (i : Nat) (x : Ctx) : (d.setCtx i x).towers = d.towers := rfl
@[simp] theorem Dev.setCtx_bundles (d : Dev) (i : Nat) (x : Ctx) : (d.setCtx i x).bundles = d.bundles := rfl
@[simp] theorem Dev.setCtx_links (d : Dev) (i : Nat) (x : Ctx) : (d.setCtx i x).links = d.links := rfl
@[simp] theorem Dev.setCtx_hl (d : Dev) (i : Nat) (x : Ctx) : (d.setCtx i x).hl = d.hl := rfl
@[simp] theorem Dev.setCtx_hedge (d : Dev) (i : Nat) (x : Ctx) : (d.setCtx i x).hedge = d.hedge := rfl
@[simp] theorem Dev.setCtx_wardens (d : Dev) (i : Nat) (x : Ctx) : (d.setCtx i x).wardens = d.wardens := rfl
@[simp] theorem Dev.setCtx_fw (d : Dev) (i : Nat) (x : Ctx) : (d.setCtx i x).fw = d.fw := rfl
@[simp] theorem Dev.setCtx_svcs (d : Dev) (i : Nat) (x : Ctx) : (d.setCtx i x).svcs = d.svcs := rfl
@[simp] theorem Dev.setCtx_ckpts (d : Dev) (i : Nat) (x : Ctx) : (d.setCtx i x).ckpts = d.ckpts := rfl
@[simp] theorem Dev.setCtx_ladders (d : Dev) (i : Nat) (x : Ctx) : (d.setCtx i x).ladders = d.ladders := rfl
@[simp] theorem Dev.setCtx_rx (d : Dev) (i : Nat) (x : Ctx) : (d.setCtx i x).rx = d.rx := rfl
@[simp] theorem Dev.setCtx_sent (d : Dev) (i : Nat) (x : Ctx) : (d.setCtx i x).sent = d.sent := rfl
@[simp] theorem Dev.setCtx_wants (d : Dev) (i : Nat) (x : Ctx) : (d.setCtx i x).wants = d.wants := rfl
@[simp] theorem Dev.setCtx_waits (d : Dev) (i : Nat) (x : Ctx) : (d.setCtx i x).waits = d.waits := rfl
@[simp] theorem Dev.setCtx_srx (d : Dev) (i : Nat) (x : Ctx) : (d.setCtx i x).srx = d.srx := rfl
@[simp] theorem Dev.setCtx_efVals (d : Dev) (i : Nat) (x : Ctx) : (d.setCtx i x).efVals = d.efVals := rfl
@[simp] theorem Dev.setCtx_slots (d : Dev) (i : Nat) (x : Ctx) : (d.setCtx i x).slots = d.slots := rfl
@[simp] theorem Dev.setCtx_fh (d : Dev) (i : Nat) (x : Ctx) : (d.setCtx i x).fh = d.fh := rfl
@[simp] theorem Dev.setCtx_fhPositions (d : Dev) (i : Nat) (x : Ctx) : (d.setCtx i x).fhPositions = d.fhPositions := rfl
@[simp] theorem Dev.setCtx_fhRestart (d : Dev) (i : Nat) (x : Ctx) : (d.setCtx i x).fhRestart = d.fhRestart := rfl
@[simp] theorem Dev.setCtx_log (d : Dev) (i : Nat) (x : Ctx) : (d.setCtx i x).log = d.log := rfl
@[simp] theorem Dev.setCtx_board (d : Dev) (i : Nat) (x : Ctx) : (d.setCtx i x).board = d.board := rfl
@[simp] theorem Dev.setCtx_out (d : Dev) (i : Nat) (x : Ctx) : (d.setCtx i x).out = d.out := rfl
@[simp] theorem Dev.setCtx_turn (d : Dev) (i : Nat) (x : Ctx) : (d.setCtx i x).turn = d.turn := rfl
@[simp] theorem Dev.setCtx_free (d : Dev) (i : Nat) (x : Ctx) : (d.setCtx i x).free = d.free := rfl

@[simp] theorem Dev.onCtx_level (d : Dev) (i : Nat) (f : Ctx → Ctx) : (d.onCtx i f).level = d.level := rfl
@[simp] theorem Dev.onCtx_regs (d : Dev) (i : Nat) (f : Ctx → Ctx) : (d.onCtx i f).regs = d.regs := rfl
@[simp] theorem Dev.onCtx_ft (d : Dev) (i : Nat) (f : Ctx → Ctx) : (d.onCtx i f).ft = d.ft := rfl
@[simp] theorem Dev.onCtx_courses (d : Dev) (i : Nat) (f : Ctx → Ctx) : (d.onCtx i f).courses = d.courses := rfl
@[simp] theorem Dev.onCtx_ctxs (d : Dev) (i : Nat) (f : Ctx → Ctx) : (d.onCtx i f).ctxs = tput d.ctxs i (f (d.ctx i)) := rfl
@[simp] theorem Dev.onCtx_towers (d : Dev) (i : Nat) (f : Ctx → Ctx) : (d.onCtx i f).towers = d.towers := rfl
@[simp] theorem Dev.onCtx_bundles (d : Dev) (i : Nat) (f : Ctx → Ctx) : (d.onCtx i f).bundles = d.bundles := rfl
@[simp] theorem Dev.onCtx_links (d : Dev) (i : Nat) (f : Ctx → Ctx) : (d.onCtx i f).links = d.links := rfl
@[simp] theorem Dev.onCtx_hl (d : Dev) (i : Nat) (f : Ctx → Ctx) : (d.onCtx i f).hl = d.hl := rfl
@[simp] theorem Dev.onCtx_hedge (d : Dev) (i : Nat) (f : Ctx → Ctx) : (d.onCtx i f).hedge = d.hedge := rfl
@[simp] theorem Dev.onCtx_wardens (d : Dev) (i : Nat) (f : Ctx → Ctx) : (d.onCtx i f).wardens = d.wardens := rfl
@[simp] theorem Dev.onCtx_fw (d : Dev) (i : Nat) (f : Ctx → Ctx) : (d.onCtx i f).fw = d.fw := rfl
@[simp] theorem Dev.onCtx_svcs (d : Dev) (i : Nat) (f : Ctx → Ctx) : (d.onCtx i f).svcs = d.svcs := rfl
@[simp] theorem Dev.onCtx_ckpts (d : Dev) (i : Nat) (f : Ctx → Ctx) : (d.onCtx i f).ckpts = d.ckpts := rfl
@[simp] theorem Dev.onCtx_ladders (d : Dev) (i : Nat) (f : Ctx → Ctx) : (d.onCtx i f).ladders = d.ladders := rfl
@[simp] theorem Dev.onCtx_rx (d : Dev) (i : Nat) (f : Ctx → Ctx) : (d.onCtx i f).rx = d.rx := rfl
@[simp] theorem Dev.onCtx_sent (d : Dev) (i : Nat) (f : Ctx → Ctx) : (d.onCtx i f).sent = d.sent := rfl
@[simp] theorem Dev.onCtx_wants (d : Dev) (i : Nat) (f : Ctx → Ctx) : (d.onCtx i f).wants = d.wants := rfl
@[simp] theorem Dev.onCtx_waits (d : Dev) (i : Nat) (f : Ctx → Ctx) : (d.onCtx i f).waits = d.waits := rfl
@[simp] theorem Dev.onCtx_srx (d : Dev) (i : Nat) (f : Ctx → Ctx) : (d.onCtx i f).srx = d.srx := rfl
@[simp] theorem Dev.onCtx_efVals (d : Dev) (i : Nat) (f : Ctx → Ctx) : (d.onCtx i f).efVals = d.efVals := rfl
@[simp] theorem Dev.onCtx_slots (d : Dev) (i : Nat) (f : Ctx → Ctx) : (d.onCtx i f).slots = d.slots := rfl
@[simp] theorem Dev.onCtx_fh (d : Dev) (i : Nat) (f : Ctx → Ctx) : (d.onCtx i f).fh = d.fh := rfl
@[simp] theorem Dev.onCtx_fhPositions (d : Dev) (i : Nat) (f : Ctx → Ctx) : (d.onCtx i f).fhPositions = d.fhPositions := rfl
@[simp] theorem Dev.onCtx_fhRestart (d : Dev) (i : Nat) (f : Ctx → Ctx) : (d.onCtx i f).fhRestart = d.fhRestart := rfl
@[simp] theorem Dev.onCtx_log (d : Dev) (i : Nat) (f : Ctx → Ctx) : (d.onCtx i f).log = d.log := rfl
@[simp] theorem Dev.onCtx_board (d : Dev) (i : Nat) (f : Ctx → Ctx) : (d.onCtx i f).board = d.board := rfl
@[simp] theorem Dev.onCtx_out (d : Dev) (i : Nat) (f : Ctx → Ctx) : (d.onCtx i f).out = d.out := rfl
@[simp] theorem Dev.onCtx_turn (d : Dev) (i : Nat) (f : Ctx → Ctx) : (d.onCtx i f).turn = d.turn := rfl
@[simp] theorem Dev.onCtx_free (d : Dev) (i : Nat) (f : Ctx → Ctx) : (d.onCtx i f).free = d.free := rfl

@[simp] theorem Dev.stopCtx_level (d : Dev) (i : Nat) (tgt : CtxSt) (st det : W16) (p : W32) : (d.stopCtx i tgt st det p).level = d.level := rfl
@[simp] theorem Dev.stopCtx_regs (d : Dev) (i : Nat) (tgt : CtxSt) (st det : W16) (p : W32) : (d.stopCtx i tgt st det p).regs = d.regs := rfl
@[simp] theorem Dev.stopCtx_ft (d : Dev) (i : Nat) (tgt : CtxSt) (st det : W16) (p : W32) : (d.stopCtx i tgt st det p).ft = d.ft := rfl
@[simp] theorem Dev.stopCtx_courses (d : Dev) (i : Nat) (tgt : CtxSt) (st det : W16) (p : W32) : (d.stopCtx i tgt st det p).courses = d.courses := rfl
@[simp] theorem Dev.stopCtx_towers (d : Dev) (i : Nat) (tgt : CtxSt) (st det : W16) (p : W32) : (d.stopCtx i tgt st det p).towers = d.towers := rfl
@[simp] theorem Dev.stopCtx_bundles (d : Dev) (i : Nat) (tgt : CtxSt) (st det : W16) (p : W32) : (d.stopCtx i tgt st det p).bundles = d.bundles := rfl
@[simp] theorem Dev.stopCtx_links (d : Dev) (i : Nat) (tgt : CtxSt) (st det : W16) (p : W32) : (d.stopCtx i tgt st det p).links = d.links := rfl
@[simp] theorem Dev.stopCtx_hl (d : Dev) (i : Nat) (tgt : CtxSt) (st det : W16) (p : W32) : (d.stopCtx i tgt st det p).hl = d.hl := rfl
@[simp] theorem Dev.stopCtx_hedge (d : Dev) (i : Nat) (tgt : CtxSt) (st det : W16) (p : W32) : (d.stopCtx i tgt st det p).hedge = d.hedge := rfl
@[simp] theorem Dev.stopCtx_wardens (d : Dev) (i : Nat) (tgt : CtxSt) (st det : W16) (p : W32) : (d.stopCtx i tgt st det p).wardens = d.wardens := rfl
@[simp] theorem Dev.stopCtx_fw (d : Dev) (i : Nat) (tgt : CtxSt) (st det : W16) (p : W32) : (d.stopCtx i tgt st det p).fw = d.fw := rfl
@[simp] theorem Dev.stopCtx_svcs (d : Dev) (i : Nat) (tgt : CtxSt) (st det : W16) (p : W32) : (d.stopCtx i tgt st det p).svcs = d.svcs := rfl
@[simp] theorem Dev.stopCtx_ckpts (d : Dev) (i : Nat) (tgt : CtxSt) (st det : W16) (p : W32) : (d.stopCtx i tgt st det p).ckpts = d.ckpts := rfl
@[simp] theorem Dev.stopCtx_ladders (d : Dev) (i : Nat) (tgt : CtxSt) (st det : W16) (p : W32) : (d.stopCtx i tgt st det p).ladders = d.ladders := rfl
@[simp] theorem Dev.stopCtx_rx (d : Dev) (i : Nat) (tgt : CtxSt) (st det : W16) (p : W32) : (d.stopCtx i tgt st det p).rx = d.rx := rfl
@[simp] theorem Dev.stopCtx_sent (d : Dev) (i : Nat) (tgt : CtxSt) (st det : W16) (p : W32) : (d.stopCtx i tgt st det p).sent = d.sent := rfl
@[simp] theorem Dev.stopCtx_wants (d : Dev) (i : Nat) (tgt : CtxSt) (st det : W16) (p : W32) : (d.stopCtx i tgt st det p).wants = d.wants := rfl
@[simp] theorem Dev.stopCtx_waits (d : Dev) (i : Nat) (tgt : CtxSt) (st det : W16) (p : W32) : (d.stopCtx i tgt st det p).waits = d.waits := rfl
@[simp] theorem Dev.stopCtx_srx (d : Dev) (i : Nat) (tgt : CtxSt) (st det : W16) (p : W32) : (d.stopCtx i tgt st det p).srx = d.srx := rfl
@[simp] theorem Dev.stopCtx_efVals (d : Dev) (i : Nat) (tgt : CtxSt) (st det : W16) (p : W32) : (d.stopCtx i tgt st det p).efVals = d.efVals := rfl
@[simp] theorem Dev.stopCtx_slots (d : Dev) (i : Nat) (tgt : CtxSt) (st det : W16) (p : W32) : (d.stopCtx i tgt st det p).slots = d.slots := rfl
@[simp] theorem Dev.stopCtx_fh (d : Dev) (i : Nat) (tgt : CtxSt) (st det : W16) (p : W32) : (d.stopCtx i tgt st det p).fh = d.fh := rfl
@[simp] theorem Dev.stopCtx_fhPositions (d : Dev) (i : Nat) (tgt : CtxSt) (st det : W16) (p : W32) : (d.stopCtx i tgt st det p).fhPositions = d.fhPositions := rfl
@[simp] theorem Dev.stopCtx_fhRestart (d : Dev) (i : Nat) (tgt : CtxSt) (st det : W16) (p : W32) : (d.stopCtx i tgt st det p).fhRestart = d.fhRestart := rfl
@[simp] theorem Dev.stopCtx_log (d : Dev) (i : Nat) (tgt : CtxSt) (st det : W16) (p : W32) : (d.stopCtx i tgt st det p).log = d.log := rfl
@[simp] theorem Dev.stopCtx_board (d : Dev) (i : Nat) (tgt : CtxSt) (st det : W16) (p : W32) : (d.stopCtx i tgt st det p).board = d.board := rfl
@[simp] theorem Dev.stopCtx_out (d : Dev) (i : Nat) (tgt : CtxSt) (st det : W16) (p : W32) : (d.stopCtx i tgt st det p).out = d.out := rfl
@[simp] theorem Dev.stopCtx_turn (d : Dev) (i : Nat) (tgt : CtxSt) (st det : W16) (p : W32) : (d.stopCtx i tgt st det p).turn = d.turn := rfl
@[simp] theorem Dev.stopCtx_free (d : Dev) (i : Nat) (tgt : CtxSt) (st det : W16) (p : W32) : (d.stopCtx i tgt st det p).free = d.free := rfl

@[simp] theorem Dev.onTower_level (d : Dev) (t : Nat) (f : Tower → Tower) : (d.onTower t f).level = d.level := rfl
@[simp] theorem Dev.onTower_regs (d : Dev) (t : Nat) (f : Tower → Tower) : (d.onTower t f).regs = d.regs := rfl
@[simp] theorem Dev.onTower_ft (d : Dev) (t : Nat) (f : Tower → Tower) : (d.onTower t f).ft = d.ft := rfl
@[simp] theorem Dev.onTower_courses (d : Dev) (t : Nat) (f : Tower → Tower) : (d.onTower t f).courses = d.courses := rfl
@[simp] theorem Dev.onTower_ctxs (d : Dev) (t : Nat) (f : Tower → Tower) : (d.onTower t f).ctxs = d.ctxs := rfl
@[simp] theorem Dev.onTower_towers (d : Dev) (t : Nat) (f : Tower → Tower) : (d.onTower t f).towers = tput d.towers t (f (d.tower t)) := rfl
@[simp] theorem Dev.onTower_bundles (d : Dev) (t : Nat) (f : Tower → Tower) : (d.onTower t f).bundles = d.bundles := rfl
@[simp] theorem Dev.onTower_links (d : Dev) (t : Nat) (f : Tower → Tower) : (d.onTower t f).links = d.links := rfl
@[simp] theorem Dev.onTower_hl (d : Dev) (t : Nat) (f : Tower → Tower) : (d.onTower t f).hl = d.hl := rfl
@[simp] theorem Dev.onTower_hedge (d : Dev) (t : Nat) (f : Tower → Tower) : (d.onTower t f).hedge = d.hedge := rfl
@[simp] theorem Dev.onTower_wardens (d : Dev) (t : Nat) (f : Tower → Tower) : (d.onTower t f).wardens = d.wardens := rfl
@[simp] theorem Dev.onTower_fw (d : Dev) (t : Nat) (f : Tower → Tower) : (d.onTower t f).fw = d.fw := rfl
@[simp] theorem Dev.onTower_svcs (d : Dev) (t : Nat) (f : Tower → Tower) : (d.onTower t f).svcs = d.svcs := rfl
@[simp] theorem Dev.onTower_ckpts (d : Dev) (t : Nat) (f : Tower → Tower) : (d.onTower t f).ckpts = d.ckpts := rfl
@[simp] theorem Dev.onTower_ladders (d : Dev) (t : Nat) (f : Tower → Tower) : (d.onTower t f).ladders = d.ladders := rfl
@[simp] theorem Dev.onTower_rx (d : Dev) (t : Nat) (f : Tower → Tower) : (d.onTower t f).rx = d.rx := rfl
@[simp] theorem Dev.onTower_sent (d : Dev) (t : Nat) (f : Tower → Tower) : (d.onTower t f).sent = d.sent := rfl
@[simp] theorem Dev.onTower_wants (d : Dev) (t : Nat) (f : Tower → Tower) : (d.onTower t f).wants = d.wants := rfl
@[simp] theorem Dev.onTower_waits (d : Dev) (t : Nat) (f : Tower → Tower) : (d.onTower t f).waits = d.waits := rfl
@[simp] theorem Dev.onTower_srx (d : Dev) (t : Nat) (f : Tower → Tower) : (d.onTower t f).srx = d.srx := rfl
@[simp] theorem Dev.onTower_efVals (d : Dev) (t : Nat) (f : Tower → Tower) : (d.onTower t f).efVals = d.efVals := rfl
@[simp] theorem Dev.onTower_slots (d : Dev) (t : Nat) (f : Tower → Tower) : (d.onTower t f).slots = d.slots := rfl
@[simp] theorem Dev.onTower_fh (d : Dev) (t : Nat) (f : Tower → Tower) : (d.onTower t f).fh = d.fh := rfl
@[simp] theorem Dev.onTower_fhPositions (d : Dev) (t : Nat) (f : Tower → Tower) : (d.onTower t f).fhPositions = d.fhPositions := rfl
@[simp] theorem Dev.onTower_fhRestart (d : Dev) (t : Nat) (f : Tower → Tower) : (d.onTower t f).fhRestart = d.fhRestart := rfl
@[simp] theorem Dev.onTower_log (d : Dev) (t : Nat) (f : Tower → Tower) : (d.onTower t f).log = d.log := rfl
@[simp] theorem Dev.onTower_board (d : Dev) (t : Nat) (f : Tower → Tower) : (d.onTower t f).board = d.board := rfl
@[simp] theorem Dev.onTower_out (d : Dev) (t : Nat) (f : Tower → Tower) : (d.onTower t f).out = d.out := rfl
@[simp] theorem Dev.onTower_turn (d : Dev) (t : Nat) (f : Tower → Tower) : (d.onTower t f).turn = d.turn := rfl
@[simp] theorem Dev.onTower_free (d : Dev) (t : Nat) (f : Tower → Tower) : (d.onTower t f).free = d.free := rfl

@[simp] theorem Dev.onLink_level (d : Dev) (l : Nat) (f : Link → Link) : (d.onLink l f).level = d.level := rfl
@[simp] theorem Dev.onLink_regs (d : Dev) (l : Nat) (f : Link → Link) : (d.onLink l f).regs = d.regs := rfl
@[simp] theorem Dev.onLink_ft (d : Dev) (l : Nat) (f : Link → Link) : (d.onLink l f).ft = d.ft := rfl
@[simp] theorem Dev.onLink_courses (d : Dev) (l : Nat) (f : Link → Link) : (d.onLink l f).courses = d.courses := rfl
@[simp] theorem Dev.onLink_ctxs (d : Dev) (l : Nat) (f : Link → Link) : (d.onLink l f).ctxs = d.ctxs := rfl
@[simp] theorem Dev.onLink_towers (d : Dev) (l : Nat) (f : Link → Link) : (d.onLink l f).towers = d.towers := rfl
@[simp] theorem Dev.onLink_bundles (d : Dev) (l : Nat) (f : Link → Link) : (d.onLink l f).bundles = d.bundles := rfl
@[simp] theorem Dev.onLink_links (d : Dev) (l : Nat) (f : Link → Link) : (d.onLink l f).links = tput d.links l (f (d.link l)) := rfl
@[simp] theorem Dev.onLink_hl (d : Dev) (l : Nat) (f : Link → Link) : (d.onLink l f).hl = d.hl := rfl
@[simp] theorem Dev.onLink_hedge (d : Dev) (l : Nat) (f : Link → Link) : (d.onLink l f).hedge = d.hedge := rfl
@[simp] theorem Dev.onLink_wardens (d : Dev) (l : Nat) (f : Link → Link) : (d.onLink l f).wardens = d.wardens := rfl
@[simp] theorem Dev.onLink_fw (d : Dev) (l : Nat) (f : Link → Link) : (d.onLink l f).fw = d.fw := rfl
@[simp] theorem Dev.onLink_svcs (d : Dev) (l : Nat) (f : Link → Link) : (d.onLink l f).svcs = d.svcs := rfl
@[simp] theorem Dev.onLink_ckpts (d : Dev) (l : Nat) (f : Link → Link) : (d.onLink l f).ckpts = d.ckpts := rfl
@[simp] theorem Dev.onLink_ladders (d : Dev) (l : Nat) (f : Link → Link) : (d.onLink l f).ladders = d.ladders := rfl
@[simp] theorem Dev.onLink_rx (d : Dev) (l : Nat) (f : Link → Link) : (d.onLink l f).rx = d.rx := rfl
@[simp] theorem Dev.onLink_sent (d : Dev) (l : Nat) (f : Link → Link) : (d.onLink l f).sent = d.sent := rfl
@[simp] theorem Dev.onLink_wants (d : Dev) (l : Nat) (f : Link → Link) : (d.onLink l f).wants = d.wants := rfl
@[simp] theorem Dev.onLink_waits (d : Dev) (l : Nat) (f : Link → Link) : (d.onLink l f).waits = d.waits := rfl
@[simp] theorem Dev.onLink_srx (d : Dev) (l : Nat) (f : Link → Link) : (d.onLink l f).srx = d.srx := rfl
@[simp] theorem Dev.onLink_efVals (d : Dev) (l : Nat) (f : Link → Link) : (d.onLink l f).efVals = d.efVals := rfl
@[simp] theorem Dev.onLink_slots (d : Dev) (l : Nat) (f : Link → Link) : (d.onLink l f).slots = d.slots := rfl
@[simp] theorem Dev.onLink_fh (d : Dev) (l : Nat) (f : Link → Link) : (d.onLink l f).fh = d.fh := rfl
@[simp] theorem Dev.onLink_fhPositions (d : Dev) (l : Nat) (f : Link → Link) : (d.onLink l f).fhPositions = d.fhPositions := rfl
@[simp] theorem Dev.onLink_fhRestart (d : Dev) (l : Nat) (f : Link → Link) : (d.onLink l f).fhRestart = d.fhRestart := rfl
@[simp] theorem Dev.onLink_log (d : Dev) (l : Nat) (f : Link → Link) : (d.onLink l f).log = d.log := rfl
@[simp] theorem Dev.onLink_board (d : Dev) (l : Nat) (f : Link → Link) : (d.onLink l f).board = d.board := rfl
@[simp] theorem Dev.onLink_out (d : Dev) (l : Nat) (f : Link → Link) : (d.onLink l f).out = d.out := rfl
@[simp] theorem Dev.onLink_turn (d : Dev) (l : Nat) (f : Link → Link) : (d.onLink l f).turn = d.turn := rfl
@[simp] theorem Dev.onLink_free (d : Dev) (l : Nat) (f : Link → Link) : (d.onLink l f).free = d.free := rfl

@[simp] theorem Dev.onWarden_level (d : Dev) (i : Nat) (f : Warden → Warden) : (d.onWarden i f).level = d.level := rfl
@[simp] theorem Dev.onWarden_regs (d : Dev) (i : Nat) (f : Warden → Warden) : (d.onWarden i f).regs = d.regs := rfl
@[simp] theorem Dev.onWarden_ft (d : Dev) (i : Nat) (f : Warden → Warden) : (d.onWarden i f).ft = d.ft := rfl
@[simp] theorem Dev.onWarden_courses (d : Dev) (i : Nat) (f : Warden → Warden) : (d.onWarden i f).courses = d.courses := rfl
@[simp] theorem Dev.onWarden_ctxs (d : Dev) (i : Nat) (f : Warden → Warden) : (d.onWarden i f).ctxs = d.ctxs := rfl
@[simp] theorem Dev.onWarden_towers (d : Dev) (i : Nat) (f : Warden → Warden) : (d.onWarden i f).towers = d.towers := rfl
@[simp] theorem Dev.onWarden_bundles (d : Dev) (i : Nat) (f : Warden → Warden) : (d.onWarden i f).bundles = d.bundles := rfl
@[simp] theorem Dev.onWarden_links (d : Dev) (i : Nat) (f : Warden → Warden) : (d.onWarden i f).links = d.links := rfl
@[simp] theorem Dev.onWarden_hl (d : Dev) (i : Nat) (f : Warden → Warden) : (d.onWarden i f).hl = d.hl := rfl
@[simp] theorem Dev.onWarden_hedge (d : Dev) (i : Nat) (f : Warden → Warden) : (d.onWarden i f).hedge = d.hedge := rfl
@[simp] theorem Dev.onWarden_wardens (d : Dev) (i : Nat) (f : Warden → Warden) : (d.onWarden i f).wardens = tput d.wardens i (f (d.warden i)) := rfl
@[simp] theorem Dev.onWarden_fw (d : Dev) (i : Nat) (f : Warden → Warden) : (d.onWarden i f).fw = d.fw := rfl
@[simp] theorem Dev.onWarden_svcs (d : Dev) (i : Nat) (f : Warden → Warden) : (d.onWarden i f).svcs = d.svcs := rfl
@[simp] theorem Dev.onWarden_ckpts (d : Dev) (i : Nat) (f : Warden → Warden) : (d.onWarden i f).ckpts = d.ckpts := rfl
@[simp] theorem Dev.onWarden_ladders (d : Dev) (i : Nat) (f : Warden → Warden) : (d.onWarden i f).ladders = d.ladders := rfl
@[simp] theorem Dev.onWarden_rx (d : Dev) (i : Nat) (f : Warden → Warden) : (d.onWarden i f).rx = d.rx := rfl
@[simp] theorem Dev.onWarden_sent (d : Dev) (i : Nat) (f : Warden → Warden) : (d.onWarden i f).sent = d.sent := rfl
@[simp] theorem Dev.onWarden_wants (d : Dev) (i : Nat) (f : Warden → Warden) : (d.onWarden i f).wants = d.wants := rfl
@[simp] theorem Dev.onWarden_waits (d : Dev) (i : Nat) (f : Warden → Warden) : (d.onWarden i f).waits = d.waits := rfl
@[simp] theorem Dev.onWarden_srx (d : Dev) (i : Nat) (f : Warden → Warden) : (d.onWarden i f).srx = d.srx := rfl
@[simp] theorem Dev.onWarden_efVals (d : Dev) (i : Nat) (f : Warden → Warden) : (d.onWarden i f).efVals = d.efVals := rfl
@[simp] theorem Dev.onWarden_slots (d : Dev) (i : Nat) (f : Warden → Warden) : (d.onWarden i f).slots = d.slots := rfl
@[simp] theorem Dev.onWarden_fh (d : Dev) (i : Nat) (f : Warden → Warden) : (d.onWarden i f).fh = d.fh := rfl
@[simp] theorem Dev.onWarden_fhPositions (d : Dev) (i : Nat) (f : Warden → Warden) : (d.onWarden i f).fhPositions = d.fhPositions := rfl
@[simp] theorem Dev.onWarden_fhRestart (d : Dev) (i : Nat) (f : Warden → Warden) : (d.onWarden i f).fhRestart = d.fhRestart := rfl
@[simp] theorem Dev.onWarden_log (d : Dev) (i : Nat) (f : Warden → Warden) : (d.onWarden i f).log = d.log := rfl
@[simp] theorem Dev.onWarden_board (d : Dev) (i : Nat) (f : Warden → Warden) : (d.onWarden i f).board = d.board := rfl
@[simp] theorem Dev.onWarden_out (d : Dev) (i : Nat) (f : Warden → Warden) : (d.onWarden i f).out = d.out := rfl
@[simp] theorem Dev.onWarden_turn (d : Dev) (i : Nat) (f : Warden → Warden) : (d.onWarden i f).turn = d.turn := rfl
@[simp] theorem Dev.onWarden_free (d : Dev) (i : Nat) (f : Warden → Warden) : (d.onWarden i f).free = d.free := rfl

@[simp] theorem Dev.onSvc_level (d : Dev) (i : Nat) (f : Service → Service) : (d.onSvc i f).level = d.level := rfl
@[simp] theorem Dev.onSvc_regs (d : Dev) (i : Nat) (f : Service → Service) : (d.onSvc i f).regs = d.regs := rfl
@[simp] theorem Dev.onSvc_ft (d : Dev) (i : Nat) (f : Service → Service) : (d.onSvc i f).ft = d.ft := rfl
@[simp] theorem Dev.onSvc_courses (d : Dev) (i : Nat) (f : Service → Service) : (d.onSvc i f).courses = d.courses := rfl
@[simp] theorem Dev.onSvc_ctxs (d : Dev) (i : Nat) (f : Service → Service) : (d.onSvc i f).ctxs = d.ctxs := rfl
@[simp] theorem Dev.onSvc_towers (d : Dev) (i : Nat) (f : Service → Service) : (d.onSvc i f).towers = d.towers := rfl
@[simp] theorem Dev.onSvc_bundles (d : Dev) (i : Nat) (f : Service → Service) : (d.onSvc i f).bundles = d.bundles := rfl
@[simp] theorem Dev.onSvc_links (d : Dev) (i : Nat) (f : Service → Service) : (d.onSvc i f).links = d.links := rfl
@[simp] theorem Dev.onSvc_hl (d : Dev) (i : Nat) (f : Service → Service) : (d.onSvc i f).hl = d.hl := rfl
@[simp] theorem Dev.onSvc_hedge (d : Dev) (i : Nat) (f : Service → Service) : (d.onSvc i f).hedge = d.hedge := rfl
@[simp] theorem Dev.onSvc_wardens (d : Dev) (i : Nat) (f : Service → Service) : (d.onSvc i f).wardens = d.wardens := rfl
@[simp] theorem Dev.onSvc_fw (d : Dev) (i : Nat) (f : Service → Service) : (d.onSvc i f).fw = d.fw := rfl
@[simp] theorem Dev.onSvc_svcs (d : Dev) (i : Nat) (f : Service → Service) : (d.onSvc i f).svcs = tput d.svcs i (f (d.svc i)) := rfl
@[simp] theorem Dev.onSvc_ckpts (d : Dev) (i : Nat) (f : Service → Service) : (d.onSvc i f).ckpts = d.ckpts := rfl
@[simp] theorem Dev.onSvc_ladders (d : Dev) (i : Nat) (f : Service → Service) : (d.onSvc i f).ladders = d.ladders := rfl
@[simp] theorem Dev.onSvc_rx (d : Dev) (i : Nat) (f : Service → Service) : (d.onSvc i f).rx = d.rx := rfl
@[simp] theorem Dev.onSvc_sent (d : Dev) (i : Nat) (f : Service → Service) : (d.onSvc i f).sent = d.sent := rfl
@[simp] theorem Dev.onSvc_wants (d : Dev) (i : Nat) (f : Service → Service) : (d.onSvc i f).wants = d.wants := rfl
@[simp] theorem Dev.onSvc_waits (d : Dev) (i : Nat) (f : Service → Service) : (d.onSvc i f).waits = d.waits := rfl
@[simp] theorem Dev.onSvc_srx (d : Dev) (i : Nat) (f : Service → Service) : (d.onSvc i f).srx = d.srx := rfl
@[simp] theorem Dev.onSvc_efVals (d : Dev) (i : Nat) (f : Service → Service) : (d.onSvc i f).efVals = d.efVals := rfl
@[simp] theorem Dev.onSvc_slots (d : Dev) (i : Nat) (f : Service → Service) : (d.onSvc i f).slots = d.slots := rfl
@[simp] theorem Dev.onSvc_fh (d : Dev) (i : Nat) (f : Service → Service) : (d.onSvc i f).fh = d.fh := rfl
@[simp] theorem Dev.onSvc_fhPositions (d : Dev) (i : Nat) (f : Service → Service) : (d.onSvc i f).fhPositions = d.fhPositions := rfl
@[simp] theorem Dev.onSvc_fhRestart (d : Dev) (i : Nat) (f : Service → Service) : (d.onSvc i f).fhRestart = d.fhRestart := rfl
@[simp] theorem Dev.onSvc_log (d : Dev) (i : Nat) (f : Service → Service) : (d.onSvc i f).log = d.log := rfl
@[simp] theorem Dev.onSvc_board (d : Dev) (i : Nat) (f : Service → Service) : (d.onSvc i f).board = d.board := rfl
@[simp] theorem Dev.onSvc_out (d : Dev) (i : Nat) (f : Service → Service) : (d.onSvc i f).out = d.out := rfl
@[simp] theorem Dev.onSvc_turn (d : Dev) (i : Nat) (f : Service → Service) : (d.onSvc i f).turn = d.turn := rfl
@[simp] theorem Dev.onSvc_free (d : Dev) (i : Nat) (f : Service → Service) : (d.onSvc i f).free = d.free := rfl

@[simp] theorem Dev.onSlot_level (d : Dev) (i : Nat) (f : Slot → Slot) : (d.onSlot i f).level = d.level := rfl
@[simp] theorem Dev.onSlot_regs (d : Dev) (i : Nat) (f : Slot → Slot) : (d.onSlot i f).regs = d.regs := rfl
@[simp] theorem Dev.onSlot_ft (d : Dev) (i : Nat) (f : Slot → Slot) : (d.onSlot i f).ft = d.ft := rfl
@[simp] theorem Dev.onSlot_courses (d : Dev) (i : Nat) (f : Slot → Slot) : (d.onSlot i f).courses = d.courses := rfl
@[simp] theorem Dev.onSlot_ctxs (d : Dev) (i : Nat) (f : Slot → Slot) : (d.onSlot i f).ctxs = d.ctxs := rfl
@[simp] theorem Dev.onSlot_towers (d : Dev) (i : Nat) (f : Slot → Slot) : (d.onSlot i f).towers = d.towers := rfl
@[simp] theorem Dev.onSlot_bundles (d : Dev) (i : Nat) (f : Slot → Slot) : (d.onSlot i f).bundles = d.bundles := rfl
@[simp] theorem Dev.onSlot_links (d : Dev) (i : Nat) (f : Slot → Slot) : (d.onSlot i f).links = d.links := rfl
@[simp] theorem Dev.onSlot_hl (d : Dev) (i : Nat) (f : Slot → Slot) : (d.onSlot i f).hl = d.hl := rfl
@[simp] theorem Dev.onSlot_hedge (d : Dev) (i : Nat) (f : Slot → Slot) : (d.onSlot i f).hedge = d.hedge := rfl
@[simp] theorem Dev.onSlot_wardens (d : Dev) (i : Nat) (f : Slot → Slot) : (d.onSlot i f).wardens = d.wardens := rfl
@[simp] theorem Dev.onSlot_fw (d : Dev) (i : Nat) (f : Slot → Slot) : (d.onSlot i f).fw = d.fw := rfl
@[simp] theorem Dev.onSlot_svcs (d : Dev) (i : Nat) (f : Slot → Slot) : (d.onSlot i f).svcs = d.svcs := rfl
@[simp] theorem Dev.onSlot_ckpts (d : Dev) (i : Nat) (f : Slot → Slot) : (d.onSlot i f).ckpts = d.ckpts := rfl
@[simp] theorem Dev.onSlot_ladders (d : Dev) (i : Nat) (f : Slot → Slot) : (d.onSlot i f).ladders = d.ladders := rfl
@[simp] theorem Dev.onSlot_rx (d : Dev) (i : Nat) (f : Slot → Slot) : (d.onSlot i f).rx = d.rx := rfl
@[simp] theorem Dev.onSlot_sent (d : Dev) (i : Nat) (f : Slot → Slot) : (d.onSlot i f).sent = d.sent := rfl
@[simp] theorem Dev.onSlot_wants (d : Dev) (i : Nat) (f : Slot → Slot) : (d.onSlot i f).wants = d.wants := rfl
@[simp] theorem Dev.onSlot_waits (d : Dev) (i : Nat) (f : Slot → Slot) : (d.onSlot i f).waits = d.waits := rfl
@[simp] theorem Dev.onSlot_srx (d : Dev) (i : Nat) (f : Slot → Slot) : (d.onSlot i f).srx = d.srx := rfl
@[simp] theorem Dev.onSlot_efVals (d : Dev) (i : Nat) (f : Slot → Slot) : (d.onSlot i f).efVals = d.efVals := rfl
@[simp] theorem Dev.onSlot_slots (d : Dev) (i : Nat) (f : Slot → Slot) : (d.onSlot i f).slots = tput d.slots i (f (d.slot i)) := rfl
@[simp] theorem Dev.onSlot_fh (d : Dev) (i : Nat) (f : Slot → Slot) : (d.onSlot i f).fh = d.fh := rfl
@[simp] theorem Dev.onSlot_fhPositions (d : Dev) (i : Nat) (f : Slot → Slot) : (d.onSlot i f).fhPositions = d.fhPositions := rfl
@[simp] theorem Dev.onSlot_fhRestart (d : Dev) (i : Nat) (f : Slot → Slot) : (d.onSlot i f).fhRestart = d.fhRestart := rfl
@[simp] theorem Dev.onSlot_log (d : Dev) (i : Nat) (f : Slot → Slot) : (d.onSlot i f).log = d.log := rfl
@[simp] theorem Dev.onSlot_board (d : Dev) (i : Nat) (f : Slot → Slot) : (d.onSlot i f).board = d.board := rfl
@[simp] theorem Dev.onSlot_out (d : Dev) (i : Nat) (f : Slot → Slot) : (d.onSlot i f).out = d.out := rfl
@[simp] theorem Dev.onSlot_turn (d : Dev) (i : Nat) (f : Slot → Slot) : (d.onSlot i f).turn = d.turn := rfl
@[simp] theorem Dev.onSlot_free (d : Dev) (i : Nat) (f : Slot → Slot) : (d.onSlot i f).free = d.free := rfl

@[simp] theorem Dev.onBundle_level (d : Dev) (k : Nat) (f : Bundle → Bundle) : (d.onBundle k f).level = d.level := rfl
@[simp] theorem Dev.onBundle_regs (d : Dev) (k : Nat) (f : Bundle → Bundle) : (d.onBundle k f).regs = d.regs := rfl
@[simp] theorem Dev.onBundle_ft (d : Dev) (k : Nat) (f : Bundle → Bundle) : (d.onBundle k f).ft = d.ft := rfl
@[simp] theorem Dev.onBundle_courses (d : Dev) (k : Nat) (f : Bundle → Bundle) : (d.onBundle k f).courses = d.courses := rfl
@[simp] theorem Dev.onBundle_ctxs (d : Dev) (k : Nat) (f : Bundle → Bundle) : (d.onBundle k f).ctxs = d.ctxs := rfl
@[simp] theorem Dev.onBundle_towers (d : Dev) (k : Nat) (f : Bundle → Bundle) : (d.onBundle k f).towers = d.towers := rfl
@[simp] theorem Dev.onBundle_bundles (d : Dev) (k : Nat) (f : Bundle → Bundle) : (d.onBundle k f).bundles = tput d.bundles k (f (d.bundle k)) := rfl
@[simp] theorem Dev.onBundle_links (d : Dev) (k : Nat) (f : Bundle → Bundle) : (d.onBundle k f).links = d.links := rfl
@[simp] theorem Dev.onBundle_hl (d : Dev) (k : Nat) (f : Bundle → Bundle) : (d.onBundle k f).hl = d.hl := rfl
@[simp] theorem Dev.onBundle_hedge (d : Dev) (k : Nat) (f : Bundle → Bundle) : (d.onBundle k f).hedge = d.hedge := rfl
@[simp] theorem Dev.onBundle_wardens (d : Dev) (k : Nat) (f : Bundle → Bundle) : (d.onBundle k f).wardens = d.wardens := rfl
@[simp] theorem Dev.onBundle_fw (d : Dev) (k : Nat) (f : Bundle → Bundle) : (d.onBundle k f).fw = d.fw := rfl
@[simp] theorem Dev.onBundle_svcs (d : Dev) (k : Nat) (f : Bundle → Bundle) : (d.onBundle k f).svcs = d.svcs := rfl
@[simp] theorem Dev.onBundle_ckpts (d : Dev) (k : Nat) (f : Bundle → Bundle) : (d.onBundle k f).ckpts = d.ckpts := rfl
@[simp] theorem Dev.onBundle_ladders (d : Dev) (k : Nat) (f : Bundle → Bundle) : (d.onBundle k f).ladders = d.ladders := rfl
@[simp] theorem Dev.onBundle_rx (d : Dev) (k : Nat) (f : Bundle → Bundle) : (d.onBundle k f).rx = d.rx := rfl
@[simp] theorem Dev.onBundle_sent (d : Dev) (k : Nat) (f : Bundle → Bundle) : (d.onBundle k f).sent = d.sent := rfl
@[simp] theorem Dev.onBundle_wants (d : Dev) (k : Nat) (f : Bundle → Bundle) : (d.onBundle k f).wants = d.wants := rfl
@[simp] theorem Dev.onBundle_waits (d : Dev) (k : Nat) (f : Bundle → Bundle) : (d.onBundle k f).waits = d.waits := rfl
@[simp] theorem Dev.onBundle_srx (d : Dev) (k : Nat) (f : Bundle → Bundle) : (d.onBundle k f).srx = d.srx := rfl
@[simp] theorem Dev.onBundle_efVals (d : Dev) (k : Nat) (f : Bundle → Bundle) : (d.onBundle k f).efVals = d.efVals := rfl
@[simp] theorem Dev.onBundle_slots (d : Dev) (k : Nat) (f : Bundle → Bundle) : (d.onBundle k f).slots = d.slots := rfl
@[simp] theorem Dev.onBundle_fh (d : Dev) (k : Nat) (f : Bundle → Bundle) : (d.onBundle k f).fh = d.fh := rfl
@[simp] theorem Dev.onBundle_fhPositions (d : Dev) (k : Nat) (f : Bundle → Bundle) : (d.onBundle k f).fhPositions = d.fhPositions := rfl
@[simp] theorem Dev.onBundle_fhRestart (d : Dev) (k : Nat) (f : Bundle → Bundle) : (d.onBundle k f).fhRestart = d.fhRestart := rfl
@[simp] theorem Dev.onBundle_log (d : Dev) (k : Nat) (f : Bundle → Bundle) : (d.onBundle k f).log = d.log := rfl
@[simp] theorem Dev.onBundle_board (d : Dev) (k : Nat) (f : Bundle → Bundle) : (d.onBundle k f).board = d.board := rfl
@[simp] theorem Dev.onBundle_out (d : Dev) (k : Nat) (f : Bundle → Bundle) : (d.onBundle k f).out = d.out := rfl
@[simp] theorem Dev.onBundle_turn (d : Dev) (k : Nat) (f : Bundle → Bundle) : (d.onBundle k f).turn = d.turn := rfl
@[simp] theorem Dev.onBundle_free (d : Dev) (k : Nat) (f : Bundle → Bundle) : (d.onBundle k f).free = d.free := rfl

@[simp] theorem Dev.raise_level (d : Dev) (n : Nat) : (d.raise n).level = d.level := rfl
@[simp] theorem Dev.raise_regs (d : Dev) (n : Nat) : (d.raise n).regs = d.regs := rfl
@[simp] theorem Dev.raise_courses (d : Dev) (n : Nat) : (d.raise n).courses = d.courses := rfl
@[simp] theorem Dev.raise_ctxs (d : Dev) (n : Nat) : (d.raise n).ctxs = d.ctxs := rfl
@[simp] theorem Dev.raise_towers (d : Dev) (n : Nat) : (d.raise n).towers = d.towers := rfl
@[simp] theorem Dev.raise_bundles (d : Dev) (n : Nat) : (d.raise n).bundles = d.bundles := rfl
@[simp] theorem Dev.raise_links (d : Dev) (n : Nat) : (d.raise n).links = d.links := rfl
@[simp] theorem Dev.raise_hl (d : Dev) (n : Nat) : (d.raise n).hl = d.hl := rfl
@[simp] theorem Dev.raise_hedge (d : Dev) (n : Nat) : (d.raise n).hedge = d.hedge := rfl
@[simp] theorem Dev.raise_wardens (d : Dev) (n : Nat) : (d.raise n).wardens = d.wardens := rfl
@[simp] theorem Dev.raise_fw (d : Dev) (n : Nat) : (d.raise n).fw = d.fw := rfl
@[simp] theorem Dev.raise_svcs (d : Dev) (n : Nat) : (d.raise n).svcs = d.svcs := rfl
@[simp] theorem Dev.raise_ckpts (d : Dev) (n : Nat) : (d.raise n).ckpts = d.ckpts := rfl
@[simp] theorem Dev.raise_ladders (d : Dev) (n : Nat) : (d.raise n).ladders = d.ladders := rfl
@[simp] theorem Dev.raise_rx (d : Dev) (n : Nat) : (d.raise n).rx = d.rx := rfl
@[simp] theorem Dev.raise_sent (d : Dev) (n : Nat) : (d.raise n).sent = d.sent := rfl
@[simp] theorem Dev.raise_wants (d : Dev) (n : Nat) : (d.raise n).wants = d.wants := rfl
@[simp] theorem Dev.raise_waits (d : Dev) (n : Nat) : (d.raise n).waits = d.waits := rfl
@[simp] theorem Dev.raise_srx (d : Dev) (n : Nat) : (d.raise n).srx = d.srx := rfl
@[simp] theorem Dev.raise_efVals (d : Dev) (n : Nat) : (d.raise n).efVals = d.efVals := rfl
@[simp] theorem Dev.raise_slots (d : Dev) (n : Nat) : (d.raise n).slots = d.slots := rfl
@[simp] theorem Dev.raise_fh (d : Dev) (n : Nat) : (d.raise n).fh = d.fh := rfl
@[simp] theorem Dev.raise_fhPositions (d : Dev) (n : Nat) : (d.raise n).fhPositions = d.fhPositions := rfl
@[simp] theorem Dev.raise_fhRestart (d : Dev) (n : Nat) : (d.raise n).fhRestart = d.fhRestart := rfl
@[simp] theorem Dev.raise_log (d : Dev) (n : Nat) : (d.raise n).log = d.log := rfl
@[simp] theorem Dev.raise_board (d : Dev) (n : Nat) : (d.raise n).board = d.board := rfl
@[simp] theorem Dev.raise_out (d : Dev) (n : Nat) : (d.raise n).out = d.out := rfl
@[simp] theorem Dev.raise_turn (d : Dev) (n : Nat) : (d.raise n).turn = d.turn := rfl
@[simp] theorem Dev.raise_free (d : Dev) (n : Nat) : (d.raise n).free = d.free := rfl

@[simp] theorem Dev.setFt_level (d : Dev) (f : Ft → Ft) : (d.setFt f).level = d.level := rfl
@[simp] theorem Dev.setFt_regs (d : Dev) (f : Ft → Ft) : (d.setFt f).regs = d.regs := rfl
@[simp] theorem Dev.setFt_ft (d : Dev) (f : Ft → Ft) : (d.setFt f).ft = f d.ft := rfl
@[simp] theorem Dev.setFt_courses (d : Dev) (f : Ft → Ft) : (d.setFt f).courses = d.courses := rfl
@[simp] theorem Dev.setFt_ctxs (d : Dev) (f : Ft → Ft) : (d.setFt f).ctxs = d.ctxs := rfl
@[simp] theorem Dev.setFt_towers (d : Dev) (f : Ft → Ft) : (d.setFt f).towers = d.towers := rfl
@[simp] theorem Dev.setFt_bundles (d : Dev) (f : Ft → Ft) : (d.setFt f).bundles = d.bundles := rfl
@[simp] theorem Dev.setFt_links (d : Dev) (f : Ft → Ft) : (d.setFt f).links = d.links := rfl
@[simp] theorem Dev.setFt_hl (d : Dev) (f : Ft → Ft) : (d.setFt f).hl = d.hl := rfl
@[simp] theorem Dev.setFt_hedge (d : Dev) (f : Ft → Ft) : (d.setFt f).hedge = d.hedge := rfl
@[simp] theorem Dev.setFt_wardens (d : Dev) (f : Ft → Ft) : (d.setFt f).wardens = d.wardens := rfl
@[simp] theorem Dev.setFt_fw (d : Dev) (f : Ft → Ft) : (d.setFt f).fw = d.fw := rfl
@[simp] theorem Dev.setFt_svcs (d : Dev) (f : Ft → Ft) : (d.setFt f).svcs = d.svcs := rfl
@[simp] theorem Dev.setFt_ckpts (d : Dev) (f : Ft → Ft) : (d.setFt f).ckpts = d.ckpts := rfl
@[simp] theorem Dev.setFt_ladders (d : Dev) (f : Ft → Ft) : (d.setFt f).ladders = d.ladders := rfl
@[simp] theorem Dev.setFt_rx (d : Dev) (f : Ft → Ft) : (d.setFt f).rx = d.rx := rfl
@[simp] theorem Dev.setFt_sent (d : Dev) (f : Ft → Ft) : (d.setFt f).sent = d.sent := rfl
@[simp] theorem Dev.setFt_wants (d : Dev) (f : Ft → Ft) : (d.setFt f).wants = d.wants := rfl
@[simp] theorem Dev.setFt_waits (d : Dev) (f : Ft → Ft) : (d.setFt f).waits = d.waits := rfl
@[simp] theorem Dev.setFt_srx (d : Dev) (f : Ft → Ft) : (d.setFt f).srx = d.srx := rfl
@[simp] theorem Dev.setFt_efVals (d : Dev) (f : Ft → Ft) : (d.setFt f).efVals = d.efVals := rfl
@[simp] theorem Dev.setFt_slots (d : Dev) (f : Ft → Ft) : (d.setFt f).slots = d.slots := rfl
@[simp] theorem Dev.setFt_fh (d : Dev) (f : Ft → Ft) : (d.setFt f).fh = d.fh := rfl
@[simp] theorem Dev.setFt_fhPositions (d : Dev) (f : Ft → Ft) : (d.setFt f).fhPositions = d.fhPositions := rfl
@[simp] theorem Dev.setFt_fhRestart (d : Dev) (f : Ft → Ft) : (d.setFt f).fhRestart = d.fhRestart := rfl
@[simp] theorem Dev.setFt_log (d : Dev) (f : Ft → Ft) : (d.setFt f).log = d.log := rfl
@[simp] theorem Dev.setFt_board (d : Dev) (f : Ft → Ft) : (d.setFt f).board = d.board := rfl
@[simp] theorem Dev.setFt_out (d : Dev) (f : Ft → Ft) : (d.setFt f).out = d.out := rfl
@[simp] theorem Dev.setFt_turn (d : Dev) (f : Ft → Ft) : (d.setFt f).turn = d.turn := rfl
@[simp] theorem Dev.setFt_free (d : Dev) (f : Ft → Ft) : (d.setFt f).free = d.free := rfl

@[simp] theorem Dev.emit_level (d : Dev) (o : Out) : (d.emit o).level = d.level := rfl
@[simp] theorem Dev.emit_regs (d : Dev) (o : Out) : (d.emit o).regs = d.regs := rfl
@[simp] theorem Dev.emit_ft (d : Dev) (o : Out) : (d.emit o).ft = d.ft := rfl
@[simp] theorem Dev.emit_courses (d : Dev) (o : Out) : (d.emit o).courses = d.courses := rfl
@[simp] theorem Dev.emit_ctxs (d : Dev) (o : Out) : (d.emit o).ctxs = d.ctxs := rfl
@[simp] theorem Dev.emit_towers (d : Dev) (o : Out) : (d.emit o).towers = d.towers := rfl
@[simp] theorem Dev.emit_bundles (d : Dev) (o : Out) : (d.emit o).bundles = d.bundles := rfl
@[simp] theorem Dev.emit_links (d : Dev) (o : Out) : (d.emit o).links = d.links := rfl
@[simp] theorem Dev.emit_hl (d : Dev) (o : Out) : (d.emit o).hl = d.hl := rfl
@[simp] theorem Dev.emit_hedge (d : Dev) (o : Out) : (d.emit o).hedge = d.hedge := rfl
@[simp] theorem Dev.emit_wardens (d : Dev) (o : Out) : (d.emit o).wardens = d.wardens := rfl
@[simp] theorem Dev.emit_fw (d : Dev) (o : Out) : (d.emit o).fw = d.fw := rfl
@[simp] theorem Dev.emit_svcs (d : Dev) (o : Out) : (d.emit o).svcs = d.svcs := rfl
@[simp] theorem Dev.emit_ckpts (d : Dev) (o : Out) : (d.emit o).ckpts = d.ckpts := rfl
@[simp] theorem Dev.emit_ladders (d : Dev) (o : Out) : (d.emit o).ladders = d.ladders := rfl
@[simp] theorem Dev.emit_rx (d : Dev) (o : Out) : (d.emit o).rx = d.rx := rfl
@[simp] theorem Dev.emit_sent (d : Dev) (o : Out) : (d.emit o).sent = d.sent := rfl
@[simp] theorem Dev.emit_wants (d : Dev) (o : Out) : (d.emit o).wants = d.wants := rfl
@[simp] theorem Dev.emit_waits (d : Dev) (o : Out) : (d.emit o).waits = d.waits := rfl
@[simp] theorem Dev.emit_srx (d : Dev) (o : Out) : (d.emit o).srx = d.srx := rfl
@[simp] theorem Dev.emit_efVals (d : Dev) (o : Out) : (d.emit o).efVals = d.efVals := rfl
@[simp] theorem Dev.emit_slots (d : Dev) (o : Out) : (d.emit o).slots = d.slots := rfl
@[simp] theorem Dev.emit_fh (d : Dev) (o : Out) : (d.emit o).fh = d.fh := rfl
@[simp] theorem Dev.emit_fhPositions (d : Dev) (o : Out) : (d.emit o).fhPositions = d.fhPositions := rfl
@[simp] theorem Dev.emit_fhRestart (d : Dev) (o : Out) : (d.emit o).fhRestart = d.fhRestart := rfl
@[simp] theorem Dev.emit_log (d : Dev) (o : Out) : (d.emit o).log = d.log := rfl
@[simp] theorem Dev.emit_board (d : Dev) (o : Out) : (d.emit o).board = d.board := rfl
@[simp] theorem Dev.emit_out (d : Dev) (o : Out) : (d.emit o).out = d.out ++ [o] := rfl
@[simp] theorem Dev.emit_turn (d : Dev) (o : Out) : (d.emit o).turn = d.turn := rfl
@[simp] theorem Dev.emit_free (d : Dev) (o : Out) : (d.emit o).free = d.free := rfl

/-! ## The link layer: sending changes the links and the outputs alone -/

/-- A device changed in its links and its outputs alone. -/
def Dev.LinksOnly (d d' : Dev) : Prop := d' = { d with links := d'.links, out := d'.out }

theorem Dev.LinksOnly.refl (d : Dev) : d.LinksOnly d := rfl
theorem Dev.LinksOnly.trans {a b c : Dev} (h : a.LinksOnly b) (k : b.LinksOnly c) : a.LinksOnly c := by
  unfold Dev.LinksOnly at *; rw [k, h]
theorem Dev.emit_linksOnly (d : Dev) (o : Out) : d.LinksOnly (d.emit o) := rfl
theorem Dev.onLink_linksOnly (d : Dev) (l : Nat) (f : Link → Link) : d.LinksOnly (d.onLink l f) := rfl

theorem iter_linksOnly {f : Dev → Dev} (h : ∀ d : Dev, d.LinksOnly (f d)) : ∀ (n : Nat) (d : Dev), d.LinksOnly (iter f n d)
  | 0, d => .refl d
  | n + 1, d => (h d).trans (iter_linksOnly h n (f d))

theorem Dev.sendOne_linksOnly (d : Dev) (l : Nat) : d.LinksOnly (d.sendOne l) := by
  simp only [Dev.sendOne]
  split
  · split
    · exact .refl d
    · rename_i f a b _
      cases f <;> exact (Dev.emit_linksOnly d _).trans (Dev.onLink_linksOnly _ l _)
  · exact .refl d

theorem Dev.pump_linksOnly (d : Dev) (l : Nat) : d.LinksOnly (d.pump l) := iter_linksOnly (fun d => d.sendOne_linksOnly l) _ d

theorem Dev.sendPacket_linksOnly (d : Dev) (l : Nat) (b : Bool) (bs : List Byte) : d.LinksOnly (d.sendPacket l b bs) :=
  (Dev.onLink_linksOnly d l _).trans (Dev.pump_linksOnly _ l)

theorem Dev.sendHost_linksOnly (d : Dev) (q : Nat) (p : Pkt) : d.LinksOnly (d.sendHost q p) := Dev.sendPacket_linksOnly d _ _ _

theorem Dev.replyPkt_linksOnly (d : Dev) (h : HostCmd) (op : Nat) (st det : W16) (p : W32) (bl : List Blk) :
    d.LinksOnly (d.replyPkt h op st det p bl) := (Dev.emit_linksOnly d _).trans (Dev.sendHost_linksOnly _ _ _)

/-- A reply changes the links and the outputs of the device alone. -/
theorem Dev.replyPkt_eq (d : Dev) (h : HostCmd) (op : Nat) (st det : W16) (p : W32) (bl : List Blk) :
    d.replyPkt h op st det p bl = { d with links := (d.replyPkt h op st det p bl).links, out := (d.replyPkt h op st det p bl).out } :=
  d.replyPkt_linksOnly h op st det p bl

@[simp] theorem Dev.replyPkt_level (d : Dev) (h : HostCmd) (op : Nat) (st det : W16) (p : W32) (bl : List Blk) : (d.replyPkt h op st det p bl).level = d.level := by rw [Dev.replyPkt_eq]
@[simp] theorem Dev.replyPkt_regs (d : Dev) (h : HostCmd) (op : Nat) (st det : W16) (p : W32) (bl : List Blk) : (d.replyPkt h op st det p bl).regs = d.regs := by rw [Dev.replyPkt_eq]
@[simp] theorem Dev.replyPkt_ft (d : Dev) (h : HostCmd) (op : Nat) (st det : W16) (p : W32) (bl : List Blk) : (d.replyPkt h op st det p bl).ft = d.ft := by rw [Dev.replyPkt_eq]
@[simp] theorem Dev.replyPkt_courses (d : Dev) (h : HostCmd) (op : Nat) (st det : W16) (p : W32) (bl : List Blk) : (d.replyPkt h op st det p bl).courses = d.courses := by rw [Dev.replyPkt_eq]
@[simp] theorem Dev.replyPkt_ctxs (d : Dev) (h : HostCmd) (op : Nat) (st det : W16) (p : W32) (bl : List Blk) : (d.replyPkt h op st det p bl).ctxs = d.ctxs := by rw [Dev.replyPkt_eq]
@[simp] theorem Dev.replyPkt_towers (d : Dev) (h : HostCmd) (op : Nat) (st det : W16) (p : W32) (bl : List Blk) : (d.replyPkt h op st det p bl).towers = d.towers := by rw [Dev.replyPkt_eq]
@[simp] theorem Dev.replyPkt_bundles (d : Dev) (h : HostCmd) (op : Nat) (st det : W16) (p : W32) (bl : List Blk) : (d.replyPkt h op st det p bl).bundles = d.bundles := by rw [Dev.replyPkt_eq]
@[simp] theorem Dev.replyPkt_hl (d : Dev) (h : HostCmd) (op : Nat) (st det : W16) (p : W32) (bl : List Blk) : (d.replyPkt h op st det p bl).hl = d.hl := by rw [Dev.replyPkt_eq]
@[simp] theorem Dev.replyPkt_hedge (d : Dev) (h : HostCmd) (op : Nat) (st det : W16) (p : W32) (bl : List Blk) : (d.replyPkt h op st det p bl).hedge = d.hedge := by rw [Dev.replyPkt_eq]
@[simp] theorem Dev.replyPkt_wardens (d : Dev) (h : HostCmd) (op : Nat) (st det : W16) (p : W32) (bl : List Blk) : (d.replyPkt h op st det p bl).wardens = d.wardens := by rw [Dev.replyPkt_eq]
@[simp] theorem Dev.replyPkt_fw (d : Dev) (h : HostCmd) (op : Nat) (st det : W16) (p : W32) (bl : List Blk) : (d.replyPkt h op st det p bl).fw = d.fw := by rw [Dev.replyPkt_eq]
@[simp] theorem Dev.replyPkt_svcs (d : Dev) (h : HostCmd) (op : Nat) (st det : W16) (p : W32) (bl : List Blk) : (d.replyPkt h op st det p bl).svcs = d.svcs := by rw [Dev.replyPkt_eq]
@[simp] theorem Dev.replyPkt_ckpts (d : Dev) (h : HostCmd) (op : Nat) (st det : W16) (p : W32) (bl : List Blk) : (d.replyPkt h op st det p bl).ckpts = d.ckpts := by rw [Dev.replyPkt_eq]
@[simp] theorem Dev.replyPkt_ladders (d : Dev) (h : HostCmd) (op : Nat) (st det : W16) (p : W32) (bl : List Blk) : (d.replyPkt h op st det p bl).ladders = d.ladders := by rw [Dev.replyPkt_eq]
@[simp] theorem Dev.replyPkt_rx (d : Dev) (h : HostCmd) (op : Nat) (st det : W16) (p : W32) (bl : List Blk) : (d.replyPkt h op st det p bl).rx = d.rx := by rw [Dev.replyPkt_eq]
@[simp] theorem Dev.replyPkt_sent (d : Dev) (h : HostCmd) (op : Nat) (st det : W16) (p : W32) (bl : List Blk) : (d.replyPkt h op st det p bl).sent = d.sent := by rw [Dev.replyPkt_eq]
@[simp] theorem Dev.replyPkt_wants (d : Dev) (h : HostCmd) (op : Nat) (st det : W16) (p : W32) (bl : List Blk) : (d.replyPkt h op st det p bl).wants = d.wants := by rw [Dev.replyPkt_eq]
@[simp] theorem Dev.replyPkt_waits (d : Dev) (h : HostCmd) (op : Nat) (st det : W16) (p : W32) (bl : List Blk) : (d.replyPkt h op st det p bl).waits = d.waits := by rw [Dev.replyPkt_eq]
@[simp] theorem Dev.replyPkt_srx (d : Dev) (h : HostCmd) (op : Nat) (st det : W16) (p : W32) (bl : List Blk) : (d.replyPkt h op st det p bl).srx = d.srx := by rw [Dev.replyPkt_eq]
@[simp] theorem Dev.replyPkt_efVals (d : Dev) (h : HostCmd) (op : Nat) (st det : W16) (p : W32) (bl : List Blk) : (d.replyPkt h op st det p bl).efVals = d.efVals := by rw [Dev.replyPkt_eq]
@[simp] theorem Dev.replyPkt_slots (d : Dev) (h : HostCmd) (op : Nat) (st det : W16) (p : W32) (bl : List Blk) : (d.replyPkt h op st det p bl).slots = d.slots := by rw [Dev.replyPkt_eq]
@[simp] theorem Dev.replyPkt_fh (d : Dev) (h : HostCmd) (op : Nat) (st det : W16) (p : W32) (bl : List Blk) : (d.replyPkt h op st det p bl).fh = d.fh := by rw [Dev.replyPkt_eq]
@[simp] theorem Dev.replyPkt_fhPositions (d : Dev) (h : HostCmd) (op : Nat) (st det : W16) (p : W32) (bl : List Blk) : (d.replyPkt h op st det p bl).fhPositions = d.fhPositions := by rw [Dev.replyPkt_eq]
@[simp] theorem Dev.replyPkt_fhRestart (d : Dev) (h : HostCmd) (op : Nat) (st det : W16) (p : W32) (bl : List Blk) : (d.replyPkt h op st det p bl).fhRestart = d.fhRestart := by rw [Dev.replyPkt_eq]
@[simp] theorem Dev.replyPkt_log (d : Dev) (h : HostCmd) (op : Nat) (st det : W16) (p : W32) (bl : List Blk) : (d.replyPkt h op st det p bl).log = d.log := by rw [Dev.replyPkt_eq]
@[simp] theorem Dev.replyPkt_board (d : Dev) (h : HostCmd) (op : Nat) (st det : W16) (p : W32) (bl : List Blk) : (d.replyPkt h op st det p bl).board = d.board := by rw [Dev.replyPkt_eq]
@[simp] theorem Dev.replyPkt_turn (d : Dev) (h : HostCmd) (op : Nat) (st det : W16) (p : W32) (bl : List Blk) : (d.replyPkt h op st det p bl).turn = d.turn := by rw [Dev.replyPkt_eq]
@[simp] theorem Dev.replyPkt_free (d : Dev) (h : HostCmd) (op : Nat) (st det : W16) (p : W32) (bl : List Blk) : (d.replyPkt h op st det p bl).free = d.free := by rw [Dev.replyPkt_eq]

@[simp] theorem Dev.settle_level (d : Dev) (port : Nat) (tag : W16) : (d.settle port tag).level = d.level := rfl
@[simp] theorem Dev.settle_regs (d : Dev) (port : Nat) (tag : W16) : (d.settle port tag).regs = d.regs := rfl
@[simp] theorem Dev.settle_ft (d : Dev) (port : Nat) (tag : W16) : (d.settle port tag).ft = d.ft := rfl
@[simp] theorem Dev.settle_courses (d : Dev) (port : Nat) (tag : W16) : (d.settle port tag).courses = d.courses := rfl
@[simp] theorem Dev.settle_ctxs (d : Dev) (port : Nat) (tag : W16) : (d.settle port tag).ctxs = d.ctxs := rfl
@[simp] theorem Dev.settle_towers (d : Dev) (port : Nat) (tag : W16) : (d.settle port tag).towers = d.towers := rfl
@[simp] theorem Dev.settle_bundles (d : Dev) (port : Nat) (tag : W16) : (d.settle port tag).bundles = d.bundles := rfl
@[simp] theorem Dev.settle_links (d : Dev) (port : Nat) (tag : W16) : (d.settle port tag).links = d.links := rfl
@[simp] theorem Dev.settle_hedge (d : Dev) (port : Nat) (tag : W16) : (d.settle port tag).hedge = d.hedge := rfl
@[simp] theorem Dev.settle_wardens (d : Dev) (port : Nat) (tag : W16) : (d.settle port tag).wardens = d.wardens := rfl
@[simp] theorem Dev.settle_fw (d : Dev) (port : Nat) (tag : W16) : (d.settle port tag).fw = d.fw := rfl
@[simp] theorem Dev.settle_svcs (d : Dev) (port : Nat) (tag : W16) : (d.settle port tag).svcs = d.svcs := rfl
@[simp] theorem Dev.settle_ckpts (d : Dev) (port : Nat) (tag : W16) : (d.settle port tag).ckpts = d.ckpts := rfl
@[simp] theorem Dev.settle_ladders (d : Dev) (port : Nat) (tag : W16) : (d.settle port tag).ladders = d.ladders := rfl
@[simp] theorem Dev.settle_rx (d : Dev) (port : Nat) (tag : W16) : (d.settle port tag).rx = d.rx := rfl
@[simp] theorem Dev.settle_sent (d : Dev) (port : Nat) (tag : W16) : (d.settle port tag).sent = d.sent := rfl
@[simp] theorem Dev.settle_wants (d : Dev) (port : Nat) (tag : W16) : (d.settle port tag).wants = d.wants := rfl
@[simp] theorem Dev.settle_waits (d : Dev) (port : Nat) (tag : W16) : (d.settle port tag).waits = d.waits := rfl
@[simp] theorem Dev.settle_srx (d : Dev) (port : Nat) (tag : W16) : (d.settle port tag).srx = d.srx := rfl
@[simp] theorem Dev.settle_efVals (d : Dev) (port : Nat) (tag : W16) : (d.settle port tag).efVals = d.efVals := rfl
@[simp] theorem Dev.settle_slots (d : Dev) (port : Nat) (tag : W16) : (d.settle port tag).slots = d.slots := rfl
@[simp] theorem Dev.settle_fh (d : Dev) (port : Nat) (tag : W16) : (d.settle port tag).fh = d.fh := rfl
@[simp] theorem Dev.settle_fhPositions (d : Dev) (port : Nat) (tag : W16) : (d.settle port tag).fhPositions = d.fhPositions := rfl
@[simp] theorem Dev.settle_fhRestart (d : Dev) (port : Nat) (tag : W16) : (d.settle port tag).fhRestart = d.fhRestart := rfl
@[simp] theorem Dev.settle_log (d : Dev) (port : Nat) (tag : W16) : (d.settle port tag).log = d.log := rfl
@[simp] theorem Dev.settle_board (d : Dev) (port : Nat) (tag : W16) : (d.settle port tag).board = d.board := rfl
@[simp] theorem Dev.settle_out (d : Dev) (port : Nat) (tag : W16) : (d.settle port tag).out = d.out := rfl
@[simp] theorem Dev.settle_turn (d : Dev) (port : Nat) (tag : W16) : (d.settle port tag).turn = d.turn := rfl
@[simp] theorem Dev.settle_free (d : Dev) (port : Nat) (tag : W16) : (d.settle port tag).free = d.free := rfl

@[simp] theorem Dev.jobEnded_level (d : Dev) (port : Fin 2) (tag st det : W16) : (d.jobEnded port tag st det).level = d.level := rfl
@[simp] theorem Dev.jobEnded_regs (d : Dev) (port : Fin 2) (tag st det : W16) : (d.jobEnded port tag st det).regs = d.regs := rfl
@[simp] theorem Dev.jobEnded_ft (d : Dev) (port : Fin 2) (tag st det : W16) : (d.jobEnded port tag st det).ft = d.ft := rfl
@[simp] theorem Dev.jobEnded_courses (d : Dev) (port : Fin 2) (tag st det : W16) : (d.jobEnded port tag st det).courses = d.courses := rfl
@[simp] theorem Dev.jobEnded_ctxs (d : Dev) (port : Fin 2) (tag st det : W16) : (d.jobEnded port tag st det).ctxs = d.ctxs := rfl
@[simp] theorem Dev.jobEnded_towers (d : Dev) (port : Fin 2) (tag st det : W16) : (d.jobEnded port tag st det).towers = d.towers := rfl
@[simp] theorem Dev.jobEnded_bundles (d : Dev) (port : Fin 2) (tag st det : W16) : (d.jobEnded port tag st det).bundles = d.bundles := rfl
@[simp] theorem Dev.jobEnded_links (d : Dev) (port : Fin 2) (tag st det : W16) : (d.jobEnded port tag st det).links = d.links := rfl
@[simp] theorem Dev.jobEnded_hedge (d : Dev) (port : Fin 2) (tag st det : W16) : (d.jobEnded port tag st det).hedge = d.hedge := rfl
@[simp] theorem Dev.jobEnded_wardens (d : Dev) (port : Fin 2) (tag st det : W16) : (d.jobEnded port tag st det).wardens = d.wardens := rfl
@[simp] theorem Dev.jobEnded_fw (d : Dev) (port : Fin 2) (tag st det : W16) : (d.jobEnded port tag st det).fw = d.fw := rfl
@[simp] theorem Dev.jobEnded_svcs (d : Dev) (port : Fin 2) (tag st det : W16) : (d.jobEnded port tag st det).svcs = d.svcs := rfl
@[simp] theorem Dev.jobEnded_ckpts (d : Dev) (port : Fin 2) (tag st det : W16) : (d.jobEnded port tag st det).ckpts = d.ckpts := rfl
@[simp] theorem Dev.jobEnded_ladders (d : Dev) (port : Fin 2) (tag st det : W16) : (d.jobEnded port tag st det).ladders = d.ladders := rfl
@[simp] theorem Dev.jobEnded_rx (d : Dev) (port : Fin 2) (tag st det : W16) : (d.jobEnded port tag st det).rx = d.rx := rfl
@[simp] theorem Dev.jobEnded_sent (d : Dev) (port : Fin 2) (tag st det : W16) : (d.jobEnded port tag st det).sent = d.sent := rfl
@[simp] theorem Dev.jobEnded_wants (d : Dev) (port : Fin 2) (tag st det : W16) : (d.jobEnded port tag st det).wants = d.wants := rfl
@[simp] theorem Dev.jobEnded_waits (d : Dev) (port : Fin 2) (tag st det : W16) : (d.jobEnded port tag st det).waits = d.waits := rfl
@[simp] theorem Dev.jobEnded_srx (d : Dev) (port : Fin 2) (tag st det : W16) : (d.jobEnded port tag st det).srx = d.srx := rfl
@[simp] theorem Dev.jobEnded_efVals (d : Dev) (port : Fin 2) (tag st det : W16) : (d.jobEnded port tag st det).efVals = d.efVals := rfl
@[simp] theorem Dev.jobEnded_slots (d : Dev) (port : Fin 2) (tag st det : W16) : (d.jobEnded port tag st det).slots = d.slots := rfl
@[simp] theorem Dev.jobEnded_fh (d : Dev) (port : Fin 2) (tag st det : W16) : (d.jobEnded port tag st det).fh = d.fh := rfl
@[simp] theorem Dev.jobEnded_fhPositions (d : Dev) (port : Fin 2) (tag st det : W16) : (d.jobEnded port tag st det).fhPositions = d.fhPositions := rfl
@[simp] theorem Dev.jobEnded_fhRestart (d : Dev) (port : Fin 2) (tag st det : W16) : (d.jobEnded port tag st det).fhRestart = d.fhRestart := rfl
@[simp] theorem Dev.jobEnded_log (d : Dev) (port : Fin 2) (tag st det : W16) : (d.jobEnded port tag st det).log = d.log := rfl
@[simp] theorem Dev.jobEnded_board (d : Dev) (port : Fin 2) (tag st det : W16) : (d.jobEnded port tag st det).board = d.board := rfl
@[simp] theorem Dev.jobEnded_out (d : Dev) (port : Fin 2) (tag st det : W16) : (d.jobEnded port tag st det).out = d.out := rfl
@[simp] theorem Dev.jobEnded_turn (d : Dev) (port : Fin 2) (tag st det : W16) : (d.jobEnded port tag st det).turn = d.turn := rfl
@[simp] theorem Dev.jobEnded_free (d : Dev) (port : Fin 2) (tag st det : W16) : (d.jobEnded port tag st det).free = d.free := rfl

@[simp] theorem Dev.opEnded_level (d : Dev) (op : Nat) (p : HostCmd → Bool) (st det : W16) : (d.opEnded op p st det).level = d.level := rfl
@[simp] theorem Dev.opEnded_regs (d : Dev) (op : Nat) (p : HostCmd → Bool) (st det : W16) : (d.opEnded op p st det).regs = d.regs := rfl
@[simp] theorem Dev.opEnded_ft (d : Dev) (op : Nat) (p : HostCmd → Bool) (st det : W16) : (d.opEnded op p st det).ft = d.ft := rfl
@[simp] theorem Dev.opEnded_courses (d : Dev) (op : Nat) (p : HostCmd → Bool) (st det : W16) : (d.opEnded op p st det).courses = d.courses := rfl
@[simp] theorem Dev.opEnded_ctxs (d : Dev) (op : Nat) (p : HostCmd → Bool) (st det : W16) : (d.opEnded op p st det).ctxs = d.ctxs := rfl
@[simp] theorem Dev.opEnded_towers (d : Dev) (op : Nat) (p : HostCmd → Bool) (st det : W16) : (d.opEnded op p st det).towers = d.towers := rfl
@[simp] theorem Dev.opEnded_bundles (d : Dev) (op : Nat) (p : HostCmd → Bool) (st det : W16) : (d.opEnded op p st det).bundles = d.bundles := rfl
@[simp] theorem Dev.opEnded_links (d : Dev) (op : Nat) (p : HostCmd → Bool) (st det : W16) : (d.opEnded op p st det).links = d.links := rfl
@[simp] theorem Dev.opEnded_hedge (d : Dev) (op : Nat) (p : HostCmd → Bool) (st det : W16) : (d.opEnded op p st det).hedge = d.hedge := rfl
@[simp] theorem Dev.opEnded_wardens (d : Dev) (op : Nat) (p : HostCmd → Bool) (st det : W16) : (d.opEnded op p st det).wardens = d.wardens := rfl
@[simp] theorem Dev.opEnded_fw (d : Dev) (op : Nat) (p : HostCmd → Bool) (st det : W16) : (d.opEnded op p st det).fw = d.fw := rfl
@[simp] theorem Dev.opEnded_svcs (d : Dev) (op : Nat) (p : HostCmd → Bool) (st det : W16) : (d.opEnded op p st det).svcs = d.svcs := rfl
@[simp] theorem Dev.opEnded_ckpts (d : Dev) (op : Nat) (p : HostCmd → Bool) (st det : W16) : (d.opEnded op p st det).ckpts = d.ckpts := rfl
@[simp] theorem Dev.opEnded_ladders (d : Dev) (op : Nat) (p : HostCmd → Bool) (st det : W16) : (d.opEnded op p st det).ladders = d.ladders := rfl
@[simp] theorem Dev.opEnded_rx (d : Dev) (op : Nat) (p : HostCmd → Bool) (st det : W16) : (d.opEnded op p st det).rx = d.rx := rfl
@[simp] theorem Dev.opEnded_sent (d : Dev) (op : Nat) (p : HostCmd → Bool) (st det : W16) : (d.opEnded op p st det).sent = d.sent := rfl
@[simp] theorem Dev.opEnded_wants (d : Dev) (op : Nat) (p : HostCmd → Bool) (st det : W16) : (d.opEnded op p st det).wants = d.wants := rfl
@[simp] theorem Dev.opEnded_waits (d : Dev) (op : Nat) (p : HostCmd → Bool) (st det : W16) : (d.opEnded op p st det).waits = d.waits := rfl
@[simp] theorem Dev.opEnded_srx (d : Dev) (op : Nat) (p : HostCmd → Bool) (st det : W16) : (d.opEnded op p st det).srx = d.srx := rfl
@[simp] theorem Dev.opEnded_efVals (d : Dev) (op : Nat) (p : HostCmd → Bool) (st det : W16) : (d.opEnded op p st det).efVals = d.efVals := rfl
@[simp] theorem Dev.opEnded_slots (d : Dev) (op : Nat) (p : HostCmd → Bool) (st det : W16) : (d.opEnded op p st det).slots = d.slots := rfl
@[simp] theorem Dev.opEnded_fh (d : Dev) (op : Nat) (p : HostCmd → Bool) (st det : W16) : (d.opEnded op p st det).fh = d.fh := rfl
@[simp] theorem Dev.opEnded_fhPositions (d : Dev) (op : Nat) (p : HostCmd → Bool) (st det : W16) : (d.opEnded op p st det).fhPositions = d.fhPositions := rfl
@[simp] theorem Dev.opEnded_fhRestart (d : Dev) (op : Nat) (p : HostCmd → Bool) (st det : W16) : (d.opEnded op p st det).fhRestart = d.fhRestart := rfl
@[simp] theorem Dev.opEnded_log (d : Dev) (op : Nat) (p : HostCmd → Bool) (st det : W16) : (d.opEnded op p st det).log = d.log := rfl
@[simp] theorem Dev.opEnded_board (d : Dev) (op : Nat) (p : HostCmd → Bool) (st det : W16) : (d.opEnded op p st det).board = d.board := rfl
@[simp] theorem Dev.opEnded_out (d : Dev) (op : Nat) (p : HostCmd → Bool) (st det : W16) : (d.opEnded op p st det).out = d.out := rfl
@[simp] theorem Dev.opEnded_turn (d : Dev) (op : Nat) (p : HostCmd → Bool) (st det : W16) : (d.opEnded op p st det).turn = d.turn := rfl
@[simp] theorem Dev.opEnded_free (d : Dev) (op : Nat) (p : HostCmd → Bool) (st det : W16) : (d.opEnded op p st det).free = d.free := rfl

@[simp] theorem Dev.count_level (d : Dev) (a hi lo n : Nat) : (d.count a hi lo n).level = d.level := by
  unfold Dev.count; split <;> rfl
@[simp] theorem Dev.count_ft (d : Dev) (a hi lo n : Nat) : (d.count a hi lo n).ft = d.ft := by
  unfold Dev.count; split <;> rfl
@[simp] theorem Dev.count_courses (d : Dev) (a hi lo n : Nat) : (d.count a hi lo n).courses = d.courses := by
  unfold Dev.count; split <;> rfl
@[simp] theorem Dev.count_ctxs (d : Dev) (a hi lo n : Nat) : (d.count a hi lo n).ctxs = d.ctxs := by
  unfold Dev.count; split <;> rfl
@[simp] theorem Dev.count_towers (d : Dev) (a hi lo n : Nat) : (d.count a hi lo n).towers = d.towers := by
  unfold Dev.count; split <;> rfl
@[simp] theorem Dev.count_bundles (d : Dev) (a hi lo n : Nat) : (d.count a hi lo n).bundles = d.bundles := by
  unfold Dev.count; split <;> rfl
@[simp] theorem Dev.count_links (d : Dev) (a hi lo n : Nat) : (d.count a hi lo n).links = d.links := by
  unfold Dev.count; split <;> rfl
@[simp] theorem Dev.count_hl (d : Dev) (a hi lo n : Nat) : (d.count a hi lo n).hl = d.hl := by
  unfold Dev.count; split <;> rfl
@[simp] theorem Dev.count_hedge (d : Dev) (a hi lo n : Nat) : (d.count a hi lo n).hedge = d.hedge := by
  unfold Dev.count; split <;> rfl
@[simp] theorem Dev.count_wardens (d : Dev) (a hi lo n : Nat) : (d.count a hi lo n).wardens = d.wardens := by
  unfold Dev.count; split <;> rfl
@[simp] theorem Dev.count_fw (d : Dev) (a hi lo n : Nat) : (d.count a hi lo n).fw = d.fw := by
  unfold Dev.count; split <;> rfl
@[simp] theorem Dev.count_svcs (d : Dev) (a hi lo n : Nat) : (d.count a hi lo n).svcs = d.svcs := by
  unfold Dev.count; split <;> rfl
@[simp] theorem Dev.count_ckpts (d : Dev) (a hi lo n : Nat) : (d.count a hi lo n).ckpts = d.ckpts := by
  unfold Dev.count; split <;> rfl
@[simp] theorem Dev.count_ladders (d : Dev) (a hi lo n : Nat) : (d.count a hi lo n).ladders = d.ladders := by
  unfold Dev.count; split <;> rfl
@[simp] theorem Dev.count_rx (d : Dev) (a hi lo n : Nat) : (d.count a hi lo n).rx = d.rx := by
  unfold Dev.count; split <;> rfl
@[simp] theorem Dev.count_sent (d : Dev) (a hi lo n : Nat) : (d.count a hi lo n).sent = d.sent := by
  unfold Dev.count; split <;> rfl
@[simp] theorem Dev.count_wants (d : Dev) (a hi lo n : Nat) : (d.count a hi lo n).wants = d.wants := by
  unfold Dev.count; split <;> rfl
@[simp] theorem Dev.count_waits (d : Dev) (a hi lo n : Nat) : (d.count a hi lo n).waits = d.waits := by
  unfold Dev.count; split <;> rfl
@[simp] theorem Dev.count_srx (d : Dev) (a hi lo n : Nat) : (d.count a hi lo n).srx = d.srx := by
  unfold Dev.count; split <;> rfl
@[simp] theorem Dev.count_efVals (d : Dev) (a hi lo n : Nat) : (d.count a hi lo n).efVals = d.efVals := by
  unfold Dev.count; split <;> rfl
@[simp] theorem Dev.count_slots (d : Dev) (a hi lo n : Nat) : (d.count a hi lo n).slots = d.slots := by
  unfold Dev.count; split <;> rfl
@[simp] theorem Dev.count_fh (d : Dev) (a hi lo n : Nat) : (d.count a hi lo n).fh = d.fh := by
  unfold Dev.count; split <;> rfl
@[simp] theorem Dev.count_fhPositions (d : Dev) (a hi lo n : Nat) : (d.count a hi lo n).fhPositions = d.fhPositions := by
  unfold Dev.count; split <;> rfl
@[simp] theorem Dev.count_fhRestart (d : Dev) (a hi lo n : Nat) : (d.count a hi lo n).fhRestart = d.fhRestart := by
  unfold Dev.count; split <;> rfl
@[simp] theorem Dev.count_log (d : Dev) (a hi lo n : Nat) : (d.count a hi lo n).log = d.log := by
  unfold Dev.count; split <;> rfl
@[simp] theorem Dev.count_board (d : Dev) (a hi lo n : Nat) : (d.count a hi lo n).board = d.board := by
  unfold Dev.count; split <;> rfl
@[simp] theorem Dev.count_out (d : Dev) (a hi lo n : Nat) : (d.count a hi lo n).out = d.out := by
  unfold Dev.count; split <;> rfl
@[simp] theorem Dev.count_turn (d : Dev) (a hi lo n : Nat) : (d.count a hi lo n).turn = d.turn := by
  unfold Dev.count; split <;> rfl
@[simp] theorem Dev.count_free (d : Dev) (a hi lo n : Nat) : (d.count a hi lo n).free = d.free := by
  unfold Dev.count; split <;> rfl

@[simp] theorem Dev.logEntry_level (d : Dev) (e : LogEntry) : (d.log_ e).level = d.level := by
  unfold Dev.log_; dsimp only; generalize (if e.tower = 0xFF then d.custodyTower else e.tower) = q; split <;> rfl
@[simp] theorem Dev.logEntry_regs (d : Dev) (e : LogEntry) : (d.log_ e).regs = d.regs := by
  unfold Dev.log_; dsimp only; generalize (if e.tower = 0xFF then d.custodyTower else e.tower) = q; split <;> rfl
@[simp] theorem Dev.logEntry_ft (d : Dev) (e : LogEntry) : (d.log_ e).ft = d.ft := by
  unfold Dev.log_; dsimp only; generalize (if e.tower = 0xFF then d.custodyTower else e.tower) = q; split <;> rfl
@[simp] theorem Dev.logEntry_courses (d : Dev) (e : LogEntry) : (d.log_ e).courses = d.courses := by
  unfold Dev.log_; dsimp only; generalize (if e.tower = 0xFF then d.custodyTower else e.tower) = q; split <;> rfl
@[simp] theorem Dev.logEntry_ctxs (d : Dev) (e : LogEntry) : (d.log_ e).ctxs = d.ctxs := by
  unfold Dev.log_; dsimp only; generalize (if e.tower = 0xFF then d.custodyTower else e.tower) = q; split <;> rfl
@[simp] theorem Dev.logEntry_towers (d : Dev) (e : LogEntry) : (d.log_ e).towers = d.towers := by
  unfold Dev.log_; dsimp only; generalize (if e.tower = 0xFF then d.custodyTower else e.tower) = q; split <;> rfl
@[simp] theorem Dev.logEntry_bundles (d : Dev) (e : LogEntry) : (d.log_ e).bundles = d.bundles := by
  unfold Dev.log_; dsimp only; generalize (if e.tower = 0xFF then d.custodyTower else e.tower) = q; split <;> rfl
@[simp] theorem Dev.logEntry_links (d : Dev) (e : LogEntry) : (d.log_ e).links = d.links := by
  unfold Dev.log_; dsimp only; generalize (if e.tower = 0xFF then d.custodyTower else e.tower) = q; split <;> rfl
@[simp] theorem Dev.logEntry_hl (d : Dev) (e : LogEntry) : (d.log_ e).hl = d.hl := by
  unfold Dev.log_; dsimp only; generalize (if e.tower = 0xFF then d.custodyTower else e.tower) = q; split <;> rfl
@[simp] theorem Dev.logEntry_hedge (d : Dev) (e : LogEntry) : (d.log_ e).hedge = d.hedge := by
  unfold Dev.log_; dsimp only; generalize (if e.tower = 0xFF then d.custodyTower else e.tower) = q; split <;> rfl
@[simp] theorem Dev.logEntry_wardens (d : Dev) (e : LogEntry) : (d.log_ e).wardens = d.wardens := by
  unfold Dev.log_; dsimp only; generalize (if e.tower = 0xFF then d.custodyTower else e.tower) = q; split <;> rfl
@[simp] theorem Dev.logEntry_fw (d : Dev) (e : LogEntry) : (d.log_ e).fw = d.fw := by
  unfold Dev.log_; dsimp only; generalize (if e.tower = 0xFF then d.custodyTower else e.tower) = q; split <;> rfl
@[simp] theorem Dev.logEntry_svcs (d : Dev) (e : LogEntry) : (d.log_ e).svcs = d.svcs := by
  unfold Dev.log_; dsimp only; generalize (if e.tower = 0xFF then d.custodyTower else e.tower) = q; split <;> rfl
@[simp] theorem Dev.logEntry_ckpts (d : Dev) (e : LogEntry) : (d.log_ e).ckpts = d.ckpts := by
  unfold Dev.log_; dsimp only; generalize (if e.tower = 0xFF then d.custodyTower else e.tower) = q; split <;> rfl
@[simp] theorem Dev.logEntry_ladders (d : Dev) (e : LogEntry) : (d.log_ e).ladders = d.ladders := by
  unfold Dev.log_; dsimp only; generalize (if e.tower = 0xFF then d.custodyTower else e.tower) = q; split <;> rfl
@[simp] theorem Dev.logEntry_rx (d : Dev) (e : LogEntry) : (d.log_ e).rx = d.rx := by
  unfold Dev.log_; dsimp only; generalize (if e.tower = 0xFF then d.custodyTower else e.tower) = q; split <;> rfl
@[simp] theorem Dev.logEntry_sent (d : Dev) (e : LogEntry) : (d.log_ e).sent = d.sent := by
  unfold Dev.log_; dsimp only; generalize (if e.tower = 0xFF then d.custodyTower else e.tower) = q; split <;> rfl
@[simp] theorem Dev.logEntry_wants (d : Dev) (e : LogEntry) : (d.log_ e).wants = d.wants := by
  unfold Dev.log_; dsimp only; generalize (if e.tower = 0xFF then d.custodyTower else e.tower) = q; split <;> rfl
@[simp] theorem Dev.logEntry_waits (d : Dev) (e : LogEntry) : (d.log_ e).waits = d.waits := by
  unfold Dev.log_; dsimp only; generalize (if e.tower = 0xFF then d.custodyTower else e.tower) = q; split <;> rfl
@[simp] theorem Dev.logEntry_srx (d : Dev) (e : LogEntry) : (d.log_ e).srx = d.srx := by
  unfold Dev.log_; dsimp only; generalize (if e.tower = 0xFF then d.custodyTower else e.tower) = q; split <;> rfl
@[simp] theorem Dev.logEntry_efVals (d : Dev) (e : LogEntry) : (d.log_ e).efVals = d.efVals := by
  unfold Dev.log_; dsimp only; generalize (if e.tower = 0xFF then d.custodyTower else e.tower) = q; split <;> rfl
@[simp] theorem Dev.logEntry_slots (d : Dev) (e : LogEntry) : (d.log_ e).slots = d.slots := by
  unfold Dev.log_; dsimp only; generalize (if e.tower = 0xFF then d.custodyTower else e.tower) = q; split <;> rfl
@[simp] theorem Dev.logEntry_fh (d : Dev) (e : LogEntry) : (d.log_ e).fh = d.fh := by
  unfold Dev.log_; dsimp only; generalize (if e.tower = 0xFF then d.custodyTower else e.tower) = q; split <;> rfl
@[simp] theorem Dev.logEntry_fhPositions (d : Dev) (e : LogEntry) : (d.log_ e).fhPositions = d.fhPositions := by
  unfold Dev.log_; dsimp only; generalize (if e.tower = 0xFF then d.custodyTower else e.tower) = q; split <;> rfl
@[simp] theorem Dev.logEntry_fhRestart (d : Dev) (e : LogEntry) : (d.log_ e).fhRestart = d.fhRestart := by
  unfold Dev.log_; dsimp only; generalize (if e.tower = 0xFF then d.custodyTower else e.tower) = q; split <;> rfl
@[simp] theorem Dev.logEntry_board (d : Dev) (e : LogEntry) : (d.log_ e).board = d.board := by
  unfold Dev.log_; dsimp only; generalize (if e.tower = 0xFF then d.custodyTower else e.tower) = q; split <;> rfl
@[simp] theorem Dev.logEntry_out (d : Dev) (e : LogEntry) : (d.log_ e).out = d.out := by
  unfold Dev.log_; dsimp only; generalize (if e.tower = 0xFF then d.custodyTower else e.tower) = q; split <;> rfl
@[simp] theorem Dev.logEntry_turn (d : Dev) (e : LogEntry) : (d.log_ e).turn = d.turn := by
  unfold Dev.log_; dsimp only; generalize (if e.tower = 0xFF then d.custodyTower else e.tower) = q; split <;> rfl
@[simp] theorem Dev.logEntry_free (d : Dev) (e : LogEntry) : (d.log_ e).free = d.free := by
  unfold Dev.log_; dsimp only; generalize (if e.tower = 0xFF then d.custodyTower else e.tower) = q; split <;> rfl

@[simp] theorem Dev.setSreg_level (d : Dev) (c n k : Nat) (v : W64) : (d.setSreg c n k v).level = d.level := by
  unfold Dev.setSreg; split
  · rfl
  · exact Dev.setReg_level ..
@[simp] theorem Dev.setSreg_ft (d : Dev) (c n k : Nat) (v : W64) : (d.setSreg c n k v).ft = d.ft := by
  unfold Dev.setSreg; split
  · rfl
  · exact Dev.setReg_ft ..
@[simp] theorem Dev.setSreg_courses (d : Dev) (c n k : Nat) (v : W64) : (d.setSreg c n k v).courses = d.courses := by
  unfold Dev.setSreg; split
  · rfl
  · exact Dev.setReg_courses ..
@[simp] theorem Dev.setSreg_ctxs (d : Dev) (c n k : Nat) (v : W64) : (d.setSreg c n k v).ctxs = d.ctxs := by
  unfold Dev.setSreg; split
  · rfl
  · exact Dev.setReg_ctxs ..
@[simp] theorem Dev.setSreg_towers (d : Dev) (c n k : Nat) (v : W64) : (d.setSreg c n k v).towers = d.towers := by
  unfold Dev.setSreg; split
  · rfl
  · exact Dev.setReg_towers ..
@[simp] theorem Dev.setSreg_bundles (d : Dev) (c n k : Nat) (v : W64) : (d.setSreg c n k v).bundles = d.bundles := by
  unfold Dev.setSreg; split
  · rfl
  · exact Dev.setReg_bundles ..
@[simp] theorem Dev.setSreg_links (d : Dev) (c n k : Nat) (v : W64) : (d.setSreg c n k v).links = d.links := by
  unfold Dev.setSreg; split
  · rfl
  · exact Dev.setReg_links ..
@[simp] theorem Dev.setSreg_hl (d : Dev) (c n k : Nat) (v : W64) : (d.setSreg c n k v).hl = d.hl := by
  unfold Dev.setSreg; split
  · rfl
  · exact Dev.setReg_hl ..
@[simp] theorem Dev.setSreg_hedge (d : Dev) (c n k : Nat) (v : W64) : (d.setSreg c n k v).hedge = d.hedge := by
  unfold Dev.setSreg; split
  · rfl
  · exact Dev.setReg_hedge ..
@[simp] theorem Dev.setSreg_wardens (d : Dev) (c n k : Nat) (v : W64) : (d.setSreg c n k v).wardens = d.wardens := by
  unfold Dev.setSreg; split
  · rfl
  · exact Dev.setReg_wardens ..
@[simp] theorem Dev.setSreg_fw (d : Dev) (c n k : Nat) (v : W64) : (d.setSreg c n k v).fw = d.fw := by
  unfold Dev.setSreg; split
  · rfl
  · exact Dev.setReg_fw ..
@[simp] theorem Dev.setSreg_svcs (d : Dev) (c n k : Nat) (v : W64) : (d.setSreg c n k v).svcs = d.svcs := by
  unfold Dev.setSreg; split
  · rfl
  · exact Dev.setReg_svcs ..
@[simp] theorem Dev.setSreg_ckpts (d : Dev) (c n k : Nat) (v : W64) : (d.setSreg c n k v).ckpts = d.ckpts := by
  unfold Dev.setSreg; split
  · rfl
  · exact Dev.setReg_ckpts ..
@[simp] theorem Dev.setSreg_ladders (d : Dev) (c n k : Nat) (v : W64) : (d.setSreg c n k v).ladders = d.ladders := by
  unfold Dev.setSreg; split
  · rfl
  · exact Dev.setReg_ladders ..
@[simp] theorem Dev.setSreg_rx (d : Dev) (c n k : Nat) (v : W64) : (d.setSreg c n k v).rx = d.rx := by
  unfold Dev.setSreg; split
  · rfl
  · exact Dev.setReg_rx ..
@[simp] theorem Dev.setSreg_sent (d : Dev) (c n k : Nat) (v : W64) : (d.setSreg c n k v).sent = d.sent := by
  unfold Dev.setSreg; split
  · rfl
  · exact Dev.setReg_sent ..
@[simp] theorem Dev.setSreg_wants (d : Dev) (c n k : Nat) (v : W64) : (d.setSreg c n k v).wants = d.wants := by
  unfold Dev.setSreg; split
  · rfl
  · exact Dev.setReg_wants ..
@[simp] theorem Dev.setSreg_waits (d : Dev) (c n k : Nat) (v : W64) : (d.setSreg c n k v).waits = d.waits := by
  unfold Dev.setSreg; split
  · rfl
  · exact Dev.setReg_waits ..
@[simp] theorem Dev.setSreg_srx (d : Dev) (c n k : Nat) (v : W64) : (d.setSreg c n k v).srx = d.srx := by
  unfold Dev.setSreg; split
  · rfl
  · exact Dev.setReg_srx ..
@[simp] theorem Dev.setSreg_efVals (d : Dev) (c n k : Nat) (v : W64) : (d.setSreg c n k v).efVals = d.efVals := by
  unfold Dev.setSreg; split
  · rfl
  · exact Dev.setReg_efVals ..
@[simp] theorem Dev.setSreg_slots (d : Dev) (c n k : Nat) (v : W64) : (d.setSreg c n k v).slots = d.slots := by
  unfold Dev.setSreg; split
  · rfl
  · exact Dev.setReg_slots ..
@[simp] theorem Dev.setSreg_fh (d : Dev) (c n k : Nat) (v : W64) : (d.setSreg c n k v).fh = d.fh := by
  unfold Dev.setSreg; split
  · rfl
  · exact Dev.setReg_fh ..
@[simp] theorem Dev.setSreg_fhPositions (d : Dev) (c n k : Nat) (v : W64) : (d.setSreg c n k v).fhPositions = d.fhPositions := by
  unfold Dev.setSreg; split
  · rfl
  · exact Dev.setReg_fhPositions ..
@[simp] theorem Dev.setSreg_fhRestart (d : Dev) (c n k : Nat) (v : W64) : (d.setSreg c n k v).fhRestart = d.fhRestart := by
  unfold Dev.setSreg; split
  · rfl
  · exact Dev.setReg_fhRestart ..
@[simp] theorem Dev.setSreg_log (d : Dev) (c n k : Nat) (v : W64) : (d.setSreg c n k v).log = d.log := by
  unfold Dev.setSreg; split
  · rfl
  · exact Dev.setReg_log ..
@[simp] theorem Dev.setSreg_board (d : Dev) (c n k : Nat) (v : W64) : (d.setSreg c n k v).board = d.board := by
  unfold Dev.setSreg; split
  · rfl
  · exact Dev.setReg_board ..
@[simp] theorem Dev.setSreg_out (d : Dev) (c n k : Nat) (v : W64) : (d.setSreg c n k v).out = d.out := by
  unfold Dev.setSreg; split
  · rfl
  · exact Dev.setReg_out ..
@[simp] theorem Dev.setSreg_turn (d : Dev) (c n k : Nat) (v : W64) : (d.setSreg c n k v).turn = d.turn := by
  unfold Dev.setSreg; split
  · rfl
  · exact Dev.setReg_turn ..
@[simp] theorem Dev.setSreg_free (d : Dev) (c n k : Nat) (v : W64) : (d.setSreg c n k v).free = d.free := by
  unfold Dev.setSreg; split
  · rfl
  · exact Dev.setReg_free ..

@[simp] theorem World.onDev_d (w : World) (f : Dev → Dev) : (w.onDev f).d = f w.d := rfl
@[simp] theorem World.onDev_mem (w : World) (f : Dev → Dev) : (w.onDev f).mem = w.mem := rfl
@[simp] theorem World.onDev_wr (w : World) (f : Dev → Dev) : (w.onDev f).wr = w.wr := rfl
@[simp] theorem World.raise_d (w : World) (n : Nat) : (w.raise n).d = w.d.raise n := rfl
@[simp] theorem World.raise_mem (w : World) (n : Nat) : (w.raise n).mem = w.mem := rfl
@[simp] theorem World.raise_wr (w : World) (n : Nat) : (w.raise n).wr = w.wr := rfl
@[simp] theorem World.setBit_d (w : World) (a n : Nat) : (w.setBit a n).d = w.d.setBit a n := rfl
@[simp] theorem World.setBit_mem (w : World) (a n : Nat) : (w.setBit a n).mem = w.mem := rfl
@[simp] theorem World.setBit_wr (w : World) (a n : Nat) : (w.setBit a n).wr = w.wr := rfl
@[simp] theorem World.setFld_d (w : World) (a hi lo x : Nat) : (w.setFld a hi lo x).d = w.d.setFld a hi lo x := rfl
@[simp] theorem World.setFld_mem (w : World) (a hi lo x : Nat) : (w.setFld a hi lo x).mem = w.mem := rfl
@[simp] theorem World.setFld_wr (w : World) (a hi lo x : Nat) : (w.setFld a hi lo x).wr = w.wr := rfl
@[simp] theorem World.setReg_d (w : World) (a : Nat) (v : W64) : (w.setReg a v).d = w.d.setReg a v := rfl
@[simp] theorem World.setReg_mem (w : World) (a : Nat) (v : W64) : (w.setReg a v).mem = w.mem := rfl
@[simp] theorem World.setReg_wr (w : World) (a : Nat) (v : W64) : (w.setReg a v).wr = w.wr := rfl
@[simp] theorem World.count_d (w : World) (a hi lo n : Nat) : (w.count a hi lo n).d = w.d.count a hi lo n := rfl
@[simp] theorem World.count_mem (w : World) (a hi lo n : Nat) : (w.count a hi lo n).mem = w.mem := rfl
@[simp] theorem World.count_wr (w : World) (a hi lo n : Nat) : (w.count a hi lo n).wr = w.wr := rfl
@[simp] theorem World.emit_d (w : World) (o : Out) : (w.emit o).d = w.d.emit o := rfl
@[simp] theorem World.emit_mem (w : World) (o : Out) : (w.emit o).mem = w.mem := rfl
@[simp] theorem World.emit_wr (w : World) (o : Out) : (w.emit o).wr = w.wr := rfl
@[simp] theorem World.log_d (w : World) (e : LogEntry) : (w.log e).d = w.d.log_ e := rfl
@[simp] theorem World.log_mem (w : World) (e : LogEntry) : (w.log e).mem = w.mem := rfl
@[simp] theorem World.log_wr (w : World) (e : LogEntry) : (w.log e).wr = w.wr := rfl
@[simp] theorem World.event_d (w : World) (code : Nat) (st det : W16) (ctx : Nat) (bl : List Blk) : (w.event code st det ctx bl).d = w.d.event code st det ctx 0xFFFF bl := rfl
@[simp] theorem World.event_mem (w : World) (code : Nat) (st det : W16) (ctx : Nat) (bl : List Blk) : (w.event code st det ctx bl).mem = w.mem := rfl
@[simp] theorem World.event_wr (w : World) (code : Nat) (st det : W16) (ctx : Nat) (bl : List Blk) : (w.event code st det ctx bl).wr = w.wr := rfl
@[simp] theorem World.setFt_d (w : World) (f : Ft → Ft) : (w.setFt f).d = w.d.setFt f := rfl
@[simp] theorem World.setFt_mem (w : World) (f : Ft → Ft) : (w.setFt f).mem = w.mem := rfl
@[simp] theorem World.setFt_wr (w : World) (f : Ft → Ft) : (w.setFt f).wr = w.wr := rfl
@[simp] theorem World.finish_d (w : World) (j : Job) : (w.finish j).d =
    { w.d.onLine j.course j.idx (fun l => { l with phase := .worked, idle := 0 }) with
      waits := w.d.waits.filter (fun e => e.2 != whoLine j.course j.idx) } := rfl
@[simp] theorem World.finish_mem (w : World) (j : Job) : (w.finish j).mem = w.mem := rfl
@[simp] theorem World.finish_wr (w : World) (j : Job) : (w.finish j).wr = w.wr := rfl
@[simp] theorem World.progress_d (w : World) (j : Job) (n : Nat) : (w.progress j n).d = w.d.onLine j.course j.idx (fun l => { l with prog := n, idle := 0 }) := rfl
@[simp] theorem World.progress_mem (w : World) (j : Job) (n : Nat) : (w.progress j n).mem = w.mem := rfl
@[simp] theorem World.progress_wr (w : World) (j : Job) (n : Nat) : (w.progress j n).wr = w.wr := rfl
@[simp] theorem World.reply_d (w : World) (h : HostCmd) (op : Nat) (st det : W16) (p : W32) (bl : List Blk) : (w.reply h op st det p bl).d = (w.d.replyPkt h op st det p bl).settle h.port.val h.tag := rfl
@[simp] theorem World.reply_mem (w : World) (h : HostCmd) (op : Nat) (st det : W16) (p : W32) (bl : List Blk) : (w.reply h op st det p bl).mem = w.mem := rfl
@[simp] theorem World.reply_wr (w : World) (h : HostCmd) (op : Nat) (st det : W16) (p : W32) (bl : List Blk) : (w.reply h op st det p bl).wr = w.wr := rfl
@[simp] theorem World.answer_d (w : World) (h : HostCmd) (op : Nat) (st det : W16) : (w.answer h op st det).d = (w.d.replyPkt h op st det 0 []).settle h.port.val h.tag := rfl
@[simp] theorem World.answer_mem (w : World) (h : HostCmd) (op : Nat) (st det : W16) : (w.answer h op st det).mem = w.mem := rfl
@[simp] theorem World.answer_wr (w : World) (h : HostCmd) (op : Nat) (st det : W16) : (w.answer h op st det).wr = w.wr := rfl
@[simp] theorem World.turnAway_d (w : World) (h : HostCmd) (op : Nat) (st det : W16) : (w.turnAway h op st det).d = w.d.replyPkt h op st det 0 [] := rfl
@[simp] theorem World.turnAway_mem (w : World) (h : HostCmd) (op : Nat) (st det : W16) : (w.turnAway h op st det).mem = w.mem := rfl
@[simp] theorem World.turnAway_wr (w : World) (h : HostCmd) (op : Nat) (st det : W16) : (w.turnAway h op st det).wr = w.wr := rfl

@[simp] theorem World.put_d (w : World) (x : Wr) : (w.put x).d = w.d := rfl
@[simp] theorem World.put_mem (w : World) (x : Wr) : (w.put x).mem = applyWr w.mem x := rfl
@[simp] theorem World.put_wr (w : World) (x : Wr) : (w.put x).wr = x :: w.wr := rfl
@[simp] theorem World.putBlk_d (w : World) (a : Nat) (data : List Byte) (syn : W32) : (w.putBlk a data syn).d = w.d := rfl
@[simp] theorem World.putBlk_wr (w : World) (a : Nat) (data : List Byte) (syn : W32) :
    (w.putBlk a data syn).wr = .syn a syn :: .data a (padTo 512 data) :: w.wr := rfl

@[simp] theorem commit_pending (s : State) (w : World) : (commit s w).pending = s.pending := rfl
@[simp] theorem commit_dev (s : State) (w : World) : (commit s w).dev = w.d := rfl
@[simp] theorem commit_mem (s : State) (w : World) : (commit s w).mem = w.wr.reverse.foldl applyWr s.mem := rfl

end Sys2Proof.Machine
end

