-- ==== Sys2Proof/Laws/Table.lean ====
section
/-! SUPPORT. What reading a table gives after an entry is set or deleted, and the laws of the registers held in one. -/

namespace Sys2Proof.Machine

theorem tfind_append {α : Type} (t u : Tab α) (n : Nat) : tfind (t ++ u) n = (tfind t n).or (tfind u n) := by
  induction t with
  | nil => rfl
  | cons e t ih =>
    obtain ⟨k, v⟩ := e
    by_cases h : k = n <;> simp [tfind, h, ih]

theorem tfind_filter {α : Type} (p : Nat → Bool) (t : Tab α) (n : Nat) :
    tfind (t.filter (fun e => p e.1)) n = if p n then tfind t n else none := by
  induction t with
  | nil => simp [tfind]
  | cons e t ih =>
    obtain ⟨k, v⟩ := e
    by_cases hk : k = n
    · subst hk
      cases hp : p k <;> simp [tfind, hp, ih]
    · cases hp : p k <;> simp [tfind, hp, ih, hk]

/-- Reading back an entry just set. -/
@[simp] theorem tfind_tput_self {α : Type} (t : Tab α) (n : Nat) (v : α) : tfind (tput t n v) n = some v := by
  simp [tput, tfind_append, tfind_filter (fun k => decide (k < n)), tfind]

/-- Setting an entry leaves every other one. -/
theorem tfind_tput_ne {α : Type} (t : Tab α) {n m : Nat} (v : α) (h : m ≠ n) : tfind (tput t n v) m = tfind t m := by
  simp only [tput, tfind_append, tfind_filter (fun k => decide (k < n)), tfind, tfind_filter (fun k => decide (n < k)),
    if_neg (Ne.symm h)]
  rcases Nat.lt_or_gt_of_ne h with hl | hg
  · have : ¬ n < m := by omega
    simp [hl, this]
  · have : ¬ m < n := by omega
    simp [hg, this]

@[simp] theorem tfind_tdel_self {α : Type} (t : Tab α) (n : Nat) : tfind (tdel t n) n = none := by
  rw [tdel, tfind_filter (fun k => decide (k ≠ n))]; simp

theorem tfind_tdel_ne {α : Type} (t : Tab α) {n m : Nat} (h : m ≠ n) : tfind (tdel t n) m = tfind t m := by
  rw [tdel, tfind_filter (fun k => decide (k ≠ n))]; simp [h]

@[simp] theorem tget_tput_self {α : Type} (dflt : α) (t : Tab α) (n : Nat) (v : α) : tget dflt (tput t n v) n = v := by
  simp [tget]

theorem tget_tput_ne {α : Type} (dflt : α) (t : Tab α) {n m : Nat} (v : α) (h : m ≠ n) :
    tget dflt (tput t n v) m = tget dflt t m := by simp [tget, tfind_tput_ne t v h]

/-- Reading back a register just written. -/
@[simp] theorem rget_rput_self (t : Tab W64) (a : Nat) (v : W64) : rget (rput t a v) a = v := by
  unfold rget rput
  split
  · next h => simp [tget, h]
  · simp

/-- Writing a register leaves every other one. -/
theorem rget_rput_ne (t : Tab W64) {a b : Nat} (v : W64) (h : b ≠ a) : rget (rput t a v) b = rget t b := by
  unfold rget rput
  split
  · simp [tget, tfind_tdel_ne t h]
  · exact tget_tput_ne _ t v h

theorem rget_rset_ne (t : Tab W64) {a b : Nat} (hi lo x : Nat) (h : b ≠ a) : rget (rset t a hi lo x) b = rget t b :=
  rget_rput_ne t _ h

theorem rfld_rset_ne (t : Tab W64) {a b : Nat} (hi lo x p q : Nat) (h : b ≠ a) :
    rfld (rset t a hi lo x) b p q = rfld t b p q := by
  simp only [rfld, rget_rset_ne t hi lo x h]

theorem rget_rcount_ne (t : Tab W64) {a b : Nat} (hi lo n : Nat) (h : b ≠ a) : rget (rcount t a hi lo n) b = rget t b :=
  rget_rset_ne t hi lo _ h

/-- Reading back a scalar register just written: s0 stays zero (R142). -/
theorem sreg_setSreg_self (d : Dev) (c n k : Nat) (v : W64) : (d.setSreg c n k v).sreg c n k = if k = 0 then 0 else v := by
  unfold Dev.setSreg Dev.sreg
  by_cases h : k = 0
  · simp [h]
  · simp [h, rget_rput_self]

end Sys2Proof.Machine
end

