-- ==== Sys2Proof/Laws/Memory.lean ====
section
/-! SUPPORT. The stores: every effect of a command keeps their canonical form; what a byte reads as after one. -/

namespace Sys2Proof.Machine

/-! ## Cells -/

theorem cellsOf_cons (a : Nat) (b : Byte) (bs : List Byte) :
    cellsOf a (b :: bs) = if b = 0 then cellsOf (a + 1) bs else (a, b) :: cellsOf (a + 1) bs := rfl

theorem cellsOf_mem {a : Nat} {bs : List Byte} {c : Host.Cell} (h : c ∈ cellsOf a bs) :
    a ≤ c.1 ∧ c.1 < a + bs.length ∧ c.2 ≠ 0 := by
  induction bs generalizing a with
  | nil => simp [cellsOf] at h
  | cons b bs ih =>
    rw [cellsOf_cons] at h
    split at h
    · have := ih h
      simp only [List.length_cons]; exact ⟨by omega, by omega, this.2.2⟩
    · rcases List.mem_cons.1 h with rfl | h
      · next hb => simp only [List.length_cons]; exact ⟨Nat.le_refl _, by omega, hb⟩
      · have := ih h
        simp only [List.length_cons]; exact ⟨by omega, by omega, this.2.2⟩

theorem cellsOf_rising (a : Nat) (bs : List Byte) : (cellsOf a bs).Pairwise (fun x y => x.1 < y.1) := by
  induction bs generalizing a with
  | nil => simp [cellsOf]
  | cons b bs ih =>
    rw [cellsOf_cons]
    split
    · exact ih _
    · refine List.pairwise_cons.2 ⟨fun c hc => ?_, ih _⟩
      have := cellsOf_mem hc
      dsimp only; omega

theorem tfind_cellsOf (a : Nat) (bs : List Byte) (k : Nat) :
    (tfind (cellsOf a bs) k).getD 0 = if a ≤ k then (bs[k - a]?).getD 0 else 0 := by
  induction bs generalizing a with
  | nil => simp [cellsOf, tfind]
  | cons b bs ih =>
    have step : (tfind (cellsOf (a + 1) bs) k).getD 0 = if a + 1 ≤ k then (bs[k - (a + 1)]?).getD 0 else 0 := ih (a + 1)
    by_cases hk : a = k
    · subst hk
      have h0 : (tfind (cellsOf (a + 1) bs) a).getD 0 = 0 := by
        rw [step, if_neg (by omega)]
      rw [cellsOf_cons]
      split
      · next hb => rw [h0]; simp [hb]
      · simp [tfind]
    · have tail : (if a ≤ k then ((b :: bs)[k - a]?).getD 0 else 0) = if a + 1 ≤ k then (bs[k - (a + 1)]?).getD 0 else 0 := by
        by_cases hl : a + 1 ≤ k
        · have h1 : a ≤ k := by omega
          have h2 : k - a = (k - (a + 1)) + 1 := by omega
          simp only [hl, h1, if_true, h2, List.getElem?_cons_succ]
        · have h1 : ¬ a ≤ k := by omega
          simp [hl, h1]
      rw [tail, ← step]
      rw [cellsOf_cons]
      split
      · rfl
      · simp [tfind, hk]

/-- What a spliced list holds: the given cells inside the range, the old ones outside. -/
theorem splice_mem {cs mid : List Host.Cell} {a n : Nat} {c : Host.Cell} (h : c ∈ splice cs a n mid) :
    (c ∈ cs ∧ (c.1 < a ∨ a + n ≤ c.1)) ∨ c ∈ mid := by
  simp only [splice, List.mem_append, List.mem_filter, decide_eq_true_eq] at h
  rcases h with (h | h) | h
  · exact .inl ⟨h.1, .inl h.2⟩
  · exact .inr h
  · exact .inl ⟨h.1, .inr h.2⟩

theorem splice_rising {cs mid : List Host.Cell} {a n : Nat} (h : cs.Pairwise (fun x y => x.1 < y.1))
    (hm : mid.Pairwise (fun x y => x.1 < y.1)) (hin : ∀ c ∈ mid, a ≤ c.1 ∧ c.1 < a + n) :
    (splice cs a n mid).Pairwise (fun x y => x.1 < y.1) := by
  refine List.pairwise_append.2 ⟨List.pairwise_append.2 ⟨h.filter _, hm, ?_⟩, h.filter _, ?_⟩
  · intro x hx y hy
    have h1 : x.1 < a := by simpa using (List.mem_filter.1 hx).2
    have := hin y hy
    omega
  · intro x hx y hy
    have hy' : a + n ≤ y.1 := by simpa using (List.mem_filter.1 hy).2
    rcases List.mem_append.1 hx with hx | hx
    · have h1 : x.1 < a := by simpa using (List.mem_filter.1 hx).2
      omega
    · have := hin x hx
      omega

theorem tfind_splice (cs mid : List Host.Cell) (a n k : Nat) (hin : ∀ c ∈ mid, a ≤ c.1 ∧ c.1 < a + n) :
    tfind (splice cs a n mid) k = if a ≤ k ∧ k < a + n then tfind mid k else tfind cs k := by
  have hout : ¬ (a ≤ k ∧ k < a + n) → tfind mid k = none := by
    intro ho
    have : ∀ m : List Host.Cell, (∀ c ∈ m, a ≤ c.1 ∧ c.1 < a + n) → tfind m k = none := by
      intro m
      induction m with
      | nil => intro _; rfl
      | cons c m ih =>
        intro hc
        obtain ⟨j, v⟩ := c
        have hj := hc (j, v) (List.mem_cons_self ..)
        have : j ≠ k := by intro e; subst e; exact ho hj
        simp [tfind, this, ih (fun x hx => hc x (List.mem_cons_of_mem _ hx))]
    exact this mid hin
  unfold splice
  rw [tfind_append, tfind_append, tfind_filter (fun k => decide (k < a)), tfind_filter (fun k => decide (a + n ≤ k))]
  by_cases hi : a ≤ k ∧ k < a + n
  · have h1 : ¬ k < a := by omega
    have h2 : ¬ a + n ≤ k := by omega
    simp [hi, h1, h2]
  · rw [if_neg hi, hout hi]
    by_cases hl : k < a
    · have h2 : ¬ a + n ≤ k := by omega
      simp [hl, h2]
    · have h2 : a + n ≤ k := by omega
      simp [hl, h2]

/-! ## One effect -/

theorem Memory.wf_iff (m : Memory) : m.wf = true ↔
    (m.bytes.Pairwise (fun x y => x.1 < y.1) ∧ (∀ c ∈ m.bytes, c.2 ≠ 0)) ∧
    m.syn.Pairwise (fun x y => x.1 < y.1) ∧ (∀ c ∈ m.syn, c.2 ≠ 0) := by
  simp [Memory.wf, and_assoc]

theorem tdel_rising {α : Type} {t : Tab α} (h : t.Pairwise (fun x y => x.1 < y.1)) (n : Nat) :
    (tdel t n).Pairwise (fun x y => x.1 < y.1) := h.filter _

theorem tput_rising {α : Type} {t : Tab α} (h : t.Pairwise (fun x y => x.1 < y.1)) (n : Nat) (v : α) :
    (tput t n v).Pairwise (fun x y => x.1 < y.1) := by
  refine List.pairwise_append.2 ⟨h.filter _, List.pairwise_cons.2 ⟨?_, h.filter _⟩, ?_⟩
  · intro c hc; simpa using (List.mem_filter.1 hc).2
  · intro x hx y hy
    have h1 : x.1 < n := by simpa using (List.mem_filter.1 hx).2
    rcases List.mem_cons.1 hy with rfl | hy
    · exact h1
    · have h2 : n < y.1 := by simpa using (List.mem_filter.1 hy).2
      omega

theorem mem_tput {α : Type} {t : Tab α} {n : Nat} {v : α} {c : Nat × α} (h : c ∈ tput t n v) : c ∈ t ∨ c = (n, v) := by
  simp only [tput, List.mem_append, List.mem_cons, List.mem_filter] at h
  rcases h with h | h | h
  · exact .inl h.1
  · exact .inr h
  · exact .inl h.1

/-- Every effect on the stores keeps their canonical form. -/
theorem applyWr_wf (m : Memory) (x : Wr) (h : m.wf = true) : (applyWr m x).wf = true := by
  obtain ⟨⟨hb, hz⟩, hs, hy⟩ := (Memory.wf_iff m).1 h
  rw [Memory.wf_iff]
  cases x with
  | data a bs =>
    refine ⟨⟨splice_rising hb (cellsOf_rising a bs) (fun c hc => ⟨(cellsOf_mem hc).1, (cellsOf_mem hc).2.1⟩), ?_⟩, hs, hy⟩
    intro c hc
    rcases splice_mem hc with hc | hc
    · exact hz c hc.1
    · exact (cellsOf_mem hc).2.2
  | syn a v =>
    refine ⟨⟨hb, hz⟩, ?_⟩
    simp only [applyWr]
    split
    · exact ⟨tdel_rising hs a, fun c hc => hy c (List.mem_filter.1 hc).1⟩
    · next hv =>
      refine ⟨tput_rising hs a v, fun c hc => ?_⟩
      rcases mem_tput hc with hc | rfl
      · exact hy c hc
      · exact hv
  | wipe a n =>
    refine ⟨⟨splice_rising hb List.Pairwise.nil (fun c hc => absurd hc List.not_mem_nil), ?_⟩, hs.filter _, ?_⟩
    · intro c hc
      rcases splice_mem hc with hc | hc
      · exact hz c hc.1
      · exact absurd hc List.not_mem_nil
    · intro c hc; exact hy c (List.mem_filter.1 hc).1

theorem foldl_applyWr_wf (l : List Wr) (m : Memory) (h : m.wf = true) : (l.foldl applyWr m).wf = true := by
  induction l generalizing m with
  | nil => exact h
  | cons x l ih => exact ih _ (applyWr_wf m x h)

/-- A command leaves the stores in their canonical form, whatever its effects. -/
theorem commit_memInv (s : State) (w : World) (h : s.memInv) : (commit s w).memInv := foldl_applyWr_wf _ _ h

theorem runLive_next (s : State) (f : World → World) : ∃ w, runLive s f = .next (commit s w) := ⟨_, rfl⟩
theorem run_next (s : State) (f : World → World) : ∃ w, run s f = .next (commit s w) := ⟨_, rfl⟩

/-- A live command runs its effect on the stores and the device as they are. -/
theorem runLive_live {s : State} (h : s.dev.level = .run) (f : World → World) :
    runLive s f = .next (commit s (f { mem := s.mem, d := s.dev, wr := [] })) := by
  simp [runLive, run, h]

/-- In reset a command of `runLive` changes nothing (log 8). -/
theorem runLive_reset {s : State} (h : s.dev.level ≠ .run) (f : World → World) : runLive s f = .next s := by
  simp [runLive, run, h, commit]

/-- An effect of a command that writes nothing leaves the stores. -/
theorem commit_mem_nil {s : State} {w : World} (h : w.wr = []) : (commit s w).mem = s.mem := by simp [h]

/-! ## Reading a byte -/

/-- A byte written reads back; every other one reads as before. -/
theorem readByte_data (m : Memory) (a : Nat) (bs : List Byte) (k : Nat) :
    readByte (applyWr m (.data a bs)) k = if a ≤ k ∧ k < a + bs.length then (bs[k - a]?).getD 0 else readByte m k := by
  unfold readByte applyWr
  rw [tfind_splice _ _ _ _ _ (fun c hc => ⟨(cellsOf_mem hc).1, (cellsOf_mem hc).2.1⟩)]
  by_cases h : a ≤ k ∧ k < a + bs.length
  · rw [if_pos h, if_pos h, tfind_cellsOf, if_pos h.1]
  · rw [if_neg h, if_neg h]

/-- A byte outside the bytes written reads as before. -/
theorem readByte_data_out (m : Memory) (a : Nat) (bs : List Byte) {k : Nat} (h : k < a ∨ a + bs.length ≤ k) :
    readByte (applyWr m (.data a bs)) k = readByte m k := by
  rw [readByte_data, if_neg (by omega)]

@[simp] theorem readByte_syn (m : Memory) (a : Nat) (v : W32) (k : Nat) : readByte (applyWr m (.syn a v)) k = readByte m k := rfl

/-- A byte of a range whose contents are lost reads as one that nothing has written. -/
theorem readByte_wipe (m : Memory) (a n k : Nat) :
    readByte (applyWr m (.wipe a n)) k = if a ≤ k ∧ k < a + n then 0 else readByte m k := by
  unfold readByte applyWr
  rw [tfind_splice _ _ _ _ _ (fun c hc => absurd hc List.not_mem_nil)]
  by_cases h : a ≤ k ∧ k < a + n
  · simp [h, tfind]
  · simp [h]

/-- Whether an effect may write the byte at an address. -/
def Wr.touches (k : Nat) : Wr → Bool
  | .data a bs => decide (a ≤ k) && decide (k < a + bs.length)
  | .syn _ _ => false
  | .wipe a n => decide (a ≤ k) && decide (k < a + n)

theorem readByte_untouched (m : Memory) (x : Wr) {k : Nat} (h : x.touches k = false) : readByte (applyWr m x) k = readByte m k := by
  cases x with
  | data a bs => exact readByte_data_out m a bs (by simp [Wr.touches] at h; omega)
  | syn a v => rfl
  | wipe a n =>
    rw [readByte_wipe, if_neg]
    simp [Wr.touches] at h; omega

/-- The frame of a command: a byte that none of its effects touches reads as before. -/
theorem readByte_commit (s : State) (w : World) {k : Nat} (h : ∀ x ∈ w.wr, x.touches k = false) :
    readByte (commit s w).mem k = readByte s.mem k := by
  have : ∀ (l : List Wr) (m : Memory), (∀ x ∈ l, x.touches k = false) → readByte (l.foldl applyWr m) k = readByte m k := by
    intro l
    induction l with
    | nil => intro m _; rfl
    | cons x l ih =>
      intro m hl
      rw [List.foldl_cons, ih _ (fun y hy => hl y (List.mem_cons_of_mem _ hy)),
        readByte_untouched m x (hl x (List.mem_cons_self ..))]
  exact this _ _ (fun x hx => h x (List.mem_reverse.1 hx))

/-! ## Reading a run of bytes -/

theorem gather_eq (n a : Nat) (cs : List Host.Cell) (h : cs.Pairwise (fun x y => x.1 < y.1)) (hl : ∀ c ∈ cs, a ≤ c.1) :
    gather n a cs = (List.range n).map (fun i => (tfind cs (a + i)).getD 0) := by
  induction n generalizing a cs with
  | zero => cases cs <;> simp [gather]
  | succ n ih =>
    have shift : ∀ f : Nat → Byte, (List.range (n + 1)).map f = f 0 :: (List.range n).map (fun i => f (i + 1)) := by
      intro f; simp [List.range_succ_eq_map, Function.comp_def]
    rw [shift]
    cases cs with
    | nil =>
      simp only [gather, ih (a + 1) [] List.Pairwise.nil (fun c hc => absurd hc List.not_mem_nil), tfind]
      rfl
    | cons c t =>
      obtain ⟨k, b⟩ := c
      have hk := hl (k, b) (List.mem_cons_self ..)
      obtain ⟨hlt, ht⟩ := List.pairwise_cons.1 h
      by_cases e : k = a
      · subst e
        have ht' : ∀ c ∈ t, k + 1 ≤ c.1 := fun c hc => hlt c hc
        rw [gather, if_pos rfl, ih (k + 1) t ht ht']
        have : ∀ i, ¬ k = k + 1 + i := by intro i; omega
        simp [tfind, Nat.add_assoc, Nat.add_comm 1]
      · have hl' : ∀ c ∈ (k, b) :: t, a + 1 ≤ c.1 := by
          intro c hc
          rcases List.mem_cons.1 hc with rfl | hc
          · dsimp only at hk ⊢; omega
          · have := hlt c hc; dsimp only at hk this; omega
        rw [gather, if_neg e, ih (a + 1) ((k, b) :: t) h hl']
        have hn : tfind t a = none := by
          have : ∀ u : List Host.Cell, (∀ c ∈ u, a < c.1) → tfind u a = none := by
            intro u
            induction u with
            | nil => intro _; rfl
            | cons d u ihu =>
              intro hu
              obtain ⟨j, v⟩ := d
              have hj := hu (j, v) (List.mem_cons_self ..)
              have : j ≠ a := by dsimp only at hj; omega
              simp [tfind, this, ihu (fun x hx => hu x (List.mem_cons_of_mem _ hx))]
          exact this t (fun c hc => by have := hlt c hc; dsimp only at hk this; omega)
        simp [tfind, e, hn, Nat.add_assoc, Nat.add_comm 1]

/-- A run of bytes is its bytes, in the canonical form. -/
theorem readBytes_eq (m : Memory) (h : m.wf = true) (a n : Nat) :
    readBytes m a n = (List.range n).map (fun i => readByte m (a + i)) := by
  obtain ⟨⟨hb, _⟩, _⟩ := (Memory.wf_iff m).1 h
  have drop : ∀ cs : List Host.Cell, cs.Pairwise (fun x y => x.1 < y.1) →
      (∀ c ∈ cs.dropWhile (fun c => decide (c.1 < a)), a ≤ c.1) ∧
      ∀ i, tfind (cs.dropWhile (fun c => decide (c.1 < a))) (a + i) = tfind cs (a + i) := by
    intro cs
    induction cs with
    | nil => intro _; exact ⟨fun c hc => absurd hc List.not_mem_nil, fun _ => rfl⟩
    | cons c t ih =>
      intro hp
      obtain ⟨k, b⟩ := c
      obtain ⟨hlt, ht⟩ := List.pairwise_cons.1 hp
      by_cases hk : k < a
      · have := ih ht
        refine ⟨?_, fun i => ?_⟩
        · simpa [List.dropWhile_cons, hk] using this.1
        · have hne : k ≠ a + i := by omega
          simpa [List.dropWhile_cons, hk, tfind, hne] using this.2 i
      · refine ⟨?_, fun i => ?_⟩
        · intro c hc
          rw [List.dropWhile_cons, if_neg (by simpa using hk)] at hc
          rcases List.mem_cons.1 hc with rfl | hc
          · dsimp only; omega
          · have := hlt c hc; dsimp only at this; omega
        · rw [List.dropWhile_cons, if_neg (by simpa using hk)]
  have hd := drop m.bytes hb
  have hp : (m.bytes.dropWhile (fun c => decide (c.1 < a))).Pairwise (fun x y => x.1 < y.1) :=
    hb.sublist (List.dropWhile_sublist _)
  unfold readBytes readByte
  rw [gather_eq n a _ hp hd.1]
  exact List.map_congr_left (fun i _ => by rw [hd.2 i])

/-! ## Blocks -/

/-- Writing a block leaves every byte outside its 512 as it was. -/
theorem readByte_putBlk_out (w : World) (a : Nat) (data : List Byte) (syn : W32) {k : Nat}
    (h : k < a ∨ a + (padTo 512 data).length ≤ k) : readByte (w.putBlk a data syn).mem k = readByte w.mem k := by
  rw [World.putBlk, World.put_mem, World.put_mem, readByte_syn, readByte_data_out _ _ _ h]

theorem slice_length (bs : List Byte) (a n : Nat) : (slice bs a n).length = n := by
  simp only [slice, List.length_append, List.length_replicate, List.length_take]; omega

@[simp] theorem padTo_length (n : Nat) (bs : List Byte) : (padTo n bs).length = n := slice_length bs 0 n

end Sys2Proof.Machine
end

