-- ==== Sys2Proof/Laws/Host.lean ====
section
/-! SUPPORT. What the admission of a host command does, and its answers: the one lemma that stands for each. -/

namespace Sys2Proof.Machine

theorem counted_fld {d : Dev} {a : Nat} (hi lo : Nat) (h : a ≠ HL_COMMANDS) : d.counted.fld a hi lo = d.fld a hi lo := by
  simp only [Dev.fld, Dev.counted, rcount, rfld_rset_ne _ _ _ _ _ _ h]

theorem counted_fretNum (d : Dev) : d.counted.fretNum = d.fretNum := counted_fld 63 0 (by decide)

theorem taken_restarting (d : Dev) (h : HostCmd) : (d.taken h).restarting = d.restarting := by
  show (d.counted.fld (WD 0) 4 4 == 1 || d.counted.fld (WD 4) 4 4 == 1) = _
  rw [counted_fld _ _ (by decide), counted_fld _ _ (by decide)]; rfl

/-- The model's reply is the one that the statements speak of. -/
theorem replyPkt_replied (d : Dev) (h : HostCmd) (op : Nat) (st det : W16) (p : W32) (bl : List Blk) :
    d.replyPkt h op st det p bl = d.replied h op st det p bl := rfl

@[simp] theorem Dev.replied_hl (d : Dev) (h : HostCmd) (op : Nat) (st det : W16) (p : W32) (bl : List Blk) :
    (d.replied h op st det p bl).hl = d.hl := by rw [← replyPkt_replied, Dev.replyPkt_hl]

/-- A command that passes every check, no parameter of which is out of its range, runs on the device that has taken it. -/
theorem admit_ok {w : World} {h : HostCmd} {c : OpSpec} (k : World → World) (ha : Admitted w.d h c)
    (hb : c.bad (w.d.taken h) h = none) : w.admitCmd h c k = k { w with d := w.d.taken h } := by
  have hl : ¬ (h.len.toNat ≠ 512 * h.payload.length ∨ (!c.lenOk h.payload.length) = true) := by
    simp [ha.whole, ha.length]
  have hc : (if c.op = 0x201 then none else firstBadBlock h.payload) = none := by
    rcases ha.checks with e | e <;> simp [e]
  have hf : ((w.count HL_COMMANDS 63 0 1).d.hl.outstanding.filter (fun e => e.1 == h.port.val)).contains (h.port.val, h.tag) = false := by
    have : (w.count HL_COMMANDS 63 0 1).d.hl = w.d.hl := by simp
    rw [this]
    cases hx : (w.d.hl.outstanding.filter (fun e => e.1 == h.port.val)).contains (h.port.val, h.tag)
    · rfl
    · exact absurd (List.mem_filter.1 (List.elem_iff.1 hx)).1 ha.fresh
  have hw : (w.count HL_COMMANDS 63 0 1) = { w with d := w.d.counted } := by
    simp [World.count, World.onDev, Dev.count, Dev.counted]
  have hr : (w.d.taken h).fld HL_STATUS 9 9 = w.d.fld HL_STATUS 9 9 := counted_fld (d := w.d) 9 9 (by decide)
  have hctx : ((c.ctx && (decide (10240 ≤ h.ctx.toNat) || reservedCtx h.ctx.toNat)) || (!c.ctx && h.ctx != 0xFFFF)) = false := by
    cases hx : c.ctx
    · simp [ha.ctx.2 hx]
    · have := ha.ctx.1 hx
      simp [this.2]; omega
  have hu : c.unused.find? (fun i => param h i != 0) = none := by
    rw [List.find?_eq_none]
    intro i hi; simp [ha.unused i hi]
  unfold World.admitCmd
  rw [if_neg (by simp [ha.port])]
  simp only [if_neg hl, hc]
  rw [if_neg (by rw [hf]; decide)]
  rw [if_neg (by rw [show (w.count HL_COMMANDS 63 0 1).d.hl = w.d.hl by simp]; exact Nat.not_le.2 ha.room)]
  rw [hw]
  rw [if_neg]
  · rw [if_neg]
    · rw [if_neg]
      · rw [if_neg (by rw [hctx]; decide)]
        have hp : (w.d.taken h).paramBad h c = none := by simp only [Dev.paramBad, hb, hu]
        have hs : (w.d.taken h).mustWait (w.d.taken h).hl.held c.op h = false := ha.starts
        have hz : (World.onDev { w with d := w.d.counted } (fun d => { d with hl := { d.hl with
            outstanding := d.hl.outstanding ++ [(h.port.val, h.tag)] } })) = { w with d := w.d.taken h } := rfl
        simp only [hz, hp, hs]
        rfl
      · rintro ⟨h1, h2⟩
        exact ha.custody h1 h2
    · rintro ⟨h1, h2⟩
      have h3 : w.d.restarting = true := (taken_restarting w.d h).symm.trans h2
      rw [ha.awake h1] at h3; exact absurd h3 (by decide)
  · rintro ⟨h1, h2⟩
    rcases ha.ready with h3 | h3
    · exact h3 (hr ▸ h1)
    · simp [h3] at h2

theorem erase_append_self (l : List (Nat × W16)) (x : Nat × W16) (h : x ∉ l) : (l ++ [x]).erase x = l := by
  rw [List.erase_append_right _ h]; simp

/-- A final reply of a command taken: nothing stays outstanding. `g` is what the command changed of the rest. -/
theorem reply_taken {w : World} {d : Dev} {h : HostCmd} {op : Nat} {st det : W16} {p : W32} {bl : List Blk}
    (hd : w.d.hl = (d.taken h).hl) (hf : (h.port.val, h.tag) ∉ d.hl.outstanding) :
    w.reply h op st det p bl = { w with d := { w.d.replied h op st det p bl with hl := d.hl } } := by
  have : w.d.hl.outstanding.erase (h.port.val, h.tag) = d.hl.outstanding := by
    rw [hd]; exact erase_append_self _ _ hf
  simp only [World.reply, World.onDev, Dev.settle, replyPkt_replied, Dev.replied_hl, this]
  rw [hd]; rfl

/-- Sending puts flits on the links and says nothing else. -/
theorem Dev.sendOne_said (d : Dev) (l : Nat) : (d.sendOne l).said = d.said := by
  simp only [Dev.sendOne]
  split
  · split
    · rfl
    · rename_i f a b _
      cases f <;> simp [Dev.said, Dev.wire, Dev.emit, Dev.onLink, Out.isFlit]
  · rfl

theorem Dev.pump_said (d : Dev) (l : Nat) : (d.pump l).said = d.said := by
  unfold Dev.pump
  generalize (d.link l).txq.length + (d.link l).txq2.length = n
  induction n generalizing d with
  | zero => rfl
  | succ n ih => rw [iter, ih, Dev.sendOne_said]

theorem Dev.sendPacket_said (d : Dev) (l : Nat) (b : Bool) (bs : List Byte) : (d.sendPacket l b bs).said = d.said := by
  unfold Dev.sendPacket; rw [Dev.pump_said]; rfl

/-- A reply says the packet and nothing else. -/
theorem Dev.replied_said (d : Dev) (h : HostCmd) (op : Nat) (st det : W16) (p : W32) (bl : List Blk) :
    (d.replied h op st det p bl).said = d.said ++ [replyOf d h op st det p bl] := by
  unfold Dev.replied; rw [Dev.sendPacket_said]; simp [Dev.said, replyOf, Out.isFlit]

/-- Two devices with the same registers, fret state, hedge, links and outputs: the link layer works the same on both. -/
structure SameWire (d e : Dev) : Prop where
  regs : e.regs = d.regs
  ft : e.ft = d.ft
  hedge : e.hedge = d.hedge
  links : e.links = d.links
  out : e.out = d.out

theorem sendOne_same {d e : Dev} (l : Nat) (s : SameWire d e) : SameWire (d.sendOne l) (e.sendOne l) := by
  cases d; cases e; obtain ⟨h1, h2, h3, h4, h5⟩ := s
  simp only at h1 h2 h3 h4 h5
  subst h1 h2 h3 h4 h5
  generalize hd : Dev.mk _ _ _ _ _ _ _ _ _ _ _ _ _ _ _ _ _ _ _ _ _ _ _ _ _ _ _ _ _ _ = d
  generalize he : Dev.mk _ _ _ _ _ _ _ _ _ _ _ _ _ _ _ _ _ _ _ _ _ _ _ _ _ _ _ _ _ _ = e
  have hu : e.linkUp l = d.linkUp l := by subst hd he; rfl
  have hk : e.link l = d.link l := by subst hd he; rfl
  have hn : e.nextFlit l = d.nextFlit l := by subst hd he; rfl
  simp only [Dev.sendOne, hu, hk, hn]
  split
  · split
    · subst hd he; exact ⟨rfl, rfl, rfl, rfl, rfl⟩
    · rename_i f a b _
      subst hd he
      cases f <;> exact ⟨rfl, rfl, rfl, rfl, rfl⟩
  · subst hd he; exact ⟨rfl, rfl, rfl, rfl, rfl⟩

theorem iter_same {f : Dev → Dev} (h : ∀ d e : Dev, SameWire d e → SameWire (f d) (f e)) :
    ∀ (n : Nat) (d e : Dev), SameWire d e → SameWire (iter f n d) (iter f n e)
  | 0, _, _, s => s
  | n + 1, _, _, s => iter_same h n _ _ (h _ _ s)

theorem sendPacket_same {d e : Dev} (l : Nat) (b : Bool) (bs : List Byte) (s : SameWire d e) :
    SameWire (d.sendPacket l b bs) (e.sendPacket l b bs) := by
  have hk : e.link l = d.link l := by simp only [Dev.link, s.links]
  have s' : ∀ g : Link → Link, SameWire (d.onLink l g) (e.onLink l g) := fun g =>
    ⟨s.regs, s.ft, s.hedge, by simp only [Dev.onLink, hk, s.links], s.out⟩
  unfold Dev.sendPacket Dev.pump
  have hm : ∀ g : Link → Link, (e.onLink l g).link l = (d.onLink l g).link l := fun g => by simp only [Dev.link, (s' g).links]
  rw [hm]
  exact iter_same (fun _ _ => sendOne_same l) _ _ _ (s' _)

/-- A reply leaves the same way whatever the parts of the device are that the link layer does not look at. -/
theorem replied_same {d e : Dev} {h : HostCmd} {op : Nat} {st det : W16} {p : W32} {bl : List Blk} (s : SameWire d e) :
    e.replied h op st det p bl = { e with links := (d.replied h op st det p bl).links, out := (d.replied h op st det p bl).out } := by
  have hp : replyPacket e h op st det p bl = replyPacket d h op st det p bl := by simp only [replyPacket, Dev.fretNum, Dev.fld, s.regs]
  have k : SameWire (d.replied h op st det p bl) (e.replied h op st det p bl) := by
    unfold Dev.replied replyOf; rw [hp]
    exact sendPacket_same _ _ _ ⟨s.regs, s.ft, s.hedge, s.links, by simp only [s.out]⟩
  have q : e.replied h op st det p bl = _ := Dev.replyPkt_eq e h op st det p bl
  rw [replyPkt_replied, k.links, k.out] at q
  exact q

/-- A command taken that answers ACCEPTED. -/
theorem accept_taken {w : World} {d : Dev} {h : HostCmd} {op : Nat} (hd : w.d = d.taken h) :
    w.accept h op = { w with d := d.counted.accepted h op } := by
  have e := replied_same (h := h) (op := op) (st := stAccepted) (det := 0) (p := 0) (bl := [])
    (⟨rfl, rfl, rfl, rfl, rfl⟩ : SameWire d.counted (d.taken h))
  have q : d.counted.replied h op stAccepted 0 0 [] = _ := Dev.replyPkt_eq d.counted h op stAccepted 0 0 []
  simp only [World.accept, World.onDev, replyPkt_replied, hd, e, Dev.accepted]
  rw [replyPkt_replied] at q
  rw [q]; rfl

end Sys2Proof.Machine
end

