-- ==== Sys2Proof/Laws/Thermal.lean ====
section
/-! SUPPORT. What a housekeeping round does to the runs of rounds at the trip limit (R528, R529): one lemma for a round, and the two
cases a witness needs. -/

namespace Sys2Proof.Machine

/-- A fold keeps what each of its steps keeps. -/
theorem foldl_keeps {α β : Type} (P : α → Prop) (f : α → β → α) (xs : List β) (h : ∀ a, ∀ b ∈ xs, P a → P (f a b)) :
    ∀ a, P a → P (xs.foldl f a) := by
  induction xs with
  | nil => exact fun a ha => ha
  | cons x xs ih =>
    intro a ha
    exact ih (fun a b hb => h a b (List.mem_cons_of_mem _ hb)) _ (h a x (by simp) ha)

/-- The trip run that a sensor's zone is given in a round (R528). -/
def tripNext (runs : Tab Nat) (t : Nat) (s : SensorRound) : Tab Nat :=
  tput runs (46 * t + s.k)
    (if s.counts && decide ((dieLimits (sensorDie s.k)).2.2 ≤ s.zone) then tget 0 runs (46 * t + s.k) + 1 else 0)

@[simp] theorem Dev.recordSensor_tripRun (d : Dev) (t : Nat) (s : SensorRound) :
    (d.recordSensor t s).board.tripRun = tripNext d.board.tripRun t s := by
  unfold Dev.recordSensor
  dsimp only
  generalize BitVec.ofNat 64 _ = v
  generalize THM_SENSOR t s.k = a
  rw [Dev.setReg_board, tripNext]

@[simp] theorem Dev.event_board (d : Dev) (code : Nat) (st det : W16) (ctx : Nat) (tag : W16) (bl : List Blk) :
    (d.event code st det ctx tag bl).board = d.board := by
  unfold Dev.event
  dsimp only
  by_cases h : 1024 ≤ d.hl.events.length
  · rw [if_pos h]
    split
    · rw [Dev.logEntry_board, Dev.setBit_board, Dev.count_board]
    · rw [Dev.setBit_board, Dev.count_board]
  · rw [if_neg h]

/-- A choice keeps what both its sides keep. -/
theorem ite_tripRun {c : Prop} [Decidable c] {a b : World} {x : Tab Nat} (ha : a.d.board.tripRun = x) (hb : b.d.board.tripRun = x) :
    (if c then a else b).d.board.tripRun = x := by
  split <;> assumption

theorem World.setFld_tripRun (w : World) (a hi lo x : Nat) : (w.setFld a hi lo x).d.board.tripRun = w.d.board.tripRun := by
  rw [World.setFld_d, Dev.setFld_board]

theorem World.setBit_tripRun (w : World) (a n : Nat) : (w.setBit a n).d.board.tripRun = w.d.board.tripRun := by
  rw [World.setBit_d, Dev.setBit_board]

theorem World.setReg_tripRun (w : World) (a : Nat) (v : W64) : (w.setReg a v).d.board.tripRun = w.d.board.tripRun := by
  rw [World.setReg_d, Dev.setReg_board]

theorem World.count_tripRun (w : World) (a hi lo n : Nat) : (w.count a hi lo n).d.board.tripRun = w.d.board.tripRun := by
  rw [World.count_d, Dev.count_board]

theorem World.log_tripRun (w : World) (e : LogEntry) : (w.log e).d.board.tripRun = w.d.board.tripRun := by
  rw [World.log_d, Dev.logEntry_board]

theorem World.event_tripRun (w : World) (code : Nat) (st det : W16) (ctx : Nat) (bl : List Blk) :
    (w.event code st det ctx bl).d.board.tripRun = w.d.board.tripRun := by
  rw [World.event_d, Dev.event_board]

theorem World.railRound_tripRun (w : World) (i mv cur : Nat) : (w.railRound i mv cur).d.board.tripRun = w.d.board.tripRun := by
  unfold World.railRound
  extract_lets t n a out run was u1 u2 u3 u4 u5
  have h1 : u1.d.board.tripRun = w.d.board.tripRun := rfl
  have h2 : u2.d.board.tripRun = w.d.board.tripRun := (World.setFld_tripRun ..).trans h1
  have h3 : u3.d.board.tripRun = w.d.board.tripRun := (World.setFld_tripRun ..).trans h2
  have h4 : u4.d.board.tripRun = w.d.board.tripRun := ite_tripRun ((World.setBit_tripRun ..).trans h3) h3
  have h5 : u5.d.board.tripRun = w.d.board.tripRun := (World.setFld_tripRun ..).trans h4
  exact ite_tripRun ((World.log_tripRun ..).trans h5) h5

theorem World.levelChanged_tripRun (w : World) (l s : Nat) : (w.levelChanged l s).d.board.tripRun = w.d.board.tripRun := by
  unfold World.levelChanged
  extract_lets st u
  have hu : u.d.board.tripRun = w.d.board.tripRun := ite_tripRun (World.event_tripRun ..) rfl
  exact ite_tripRun hu ((World.log_tripRun ..).trans hu)

theorem World.powerRound_tripRun (w : World) (pin : Nat) : (w.powerRound pin).d.board.tripRun = w.d.board.tripRun := by
  unfold World.powerRound
  extract_lets lim lv ovr under up down new u
  have hu : u.d.board.tripRun = w.d.board.tripRun := World.setFld_tripRun (w.onDev (fun d => { d with board := { d.board with
      overRun := if up then 0 else ovr
      underRun := if down then 0 else under } })) ..
  exact ite_tripRun ((World.levelChanged_tripRun ..).trans hu) hu

theorem World.thermalRound_tripRun (w : World) (n : Nat) : (w.thermalRound n).d.board.tripRun = w.d.board.tripRun := by
  unfold World.thermalRound
  extract_lets lv run new u
  have hu : u.d.board.tripRun = w.d.board.tripRun := World.setFld_tripRun (w.onDev (fun d => { d with board := { d.board with
      levelRun := if new ≠ lv then 0 else run } })) ..
  exact ite_tripRun ((World.levelChanged_tripRun ..).trans hu) hu

/-- The temperature part of a round in a tower gives each of its sensors its next trip run and changes no other. -/
theorem World.towerTemps_tripRun (P : Tab Nat → Prop) (w : World) (t : Nat) (r : RoundInput)
    (hs : ∀ runs, ∀ s ∈ w.d.sensorRounds t r, P runs → P (tripNext runs t s)) (h : P w.d.board.tripRun) :
    P (w.towerTemps t r).1.d.board.tripRun := by
  unfold World.towerTemps
  extract_lets rs rises level warn oldLevel oldWarn wasForced newForced newSus hot u1 b2n u2 u3 u4 u5 u6 u7 u8
  have h1 : P u1.d.board.tripRun :=
    foldl_keeps (fun d : Dev => P d.board.tripRun) _ _ (fun a s hm ha => by rw [Dev.recordSensor_tripRun]; exact hs _ s hm ha) _ h
  clear_value u1
  have h2 : u2.d.board.tripRun = u1.d.board.tripRun := World.setReg_tripRun u1 _ _
  clear_value u2
  have h3 : u3.d.board.tripRun = u1.d.board.tripRun := by
    simp only [u3]
    exact ite_tripRun ((World.count_tripRun u2 _ _ _ _).trans h2) h2
  clear_value u3
  have h4 : u4.d.board.tripRun = u1.d.board.tripRun := by
    simp only [u4]
    exact ite_tripRun ((World.count_tripRun u3 _ _ _ _).trans h3) h3
  clear_value u4
  have h5 : u5.d.board.tripRun = u1.d.board.tripRun := by
    simp only [u5]
    exact ite_tripRun ((World.setBit_tripRun u4 _ _).trans h4) h4
  clear_value u5
  have h6 : u6.d.board.tripRun = u1.d.board.tripRun := by
    simp only [u6]
    exact ite_tripRun ((World.setBit_tripRun u5 _ _).trans h5) h5
  clear_value u6
  have h7 : u7.d.board.tripRun = u1.d.board.tripRun := by
    simp only [u7]
    exact ite_tripRun h6 ((World.setBit_tripRun u6 _ _).trans h6)
  clear_value u7
  have h8 : u8.d.board.tripRun = u1.d.board.tripRun := by
    simp only [u8]
    exact ite_tripRun h7 ((World.setBit_tripRun u7 _ _).trans h7)
  clear_value u8
  exact foldl_keeps (fun w : World => P w.d.board.tripRun) _ _ (fun a s _ ha => by
    split
    · rw [World.log_tripRun]; exact ha
    · exact ha) _ (h8 ▸ h1)

/-- A round gives each sensor of each tower its next trip run and changes no other: what every such step keeps, the round keeps. -/
theorem World.measure_tripRun (P : Tab Nat → Prop) (w : World) (r : RoundInput)
    (hs : ∀ (d : Dev) (t : Nat) (runs : Tab Nat), t < 8 → ∀ s ∈ d.sensorRounds t r, P runs → P (tripNext runs t s))
    (h : P w.d.board.tripRun) : P (w.measure r).d.board.tripRun := by
  unfold World.measure
  extract_lets u1 vin u2 u3 s u4 onset u5 st v e u6 u7 u8
  have h1 : P u1.d.board.tripRun := by
    simp only [u1]
    exact foldl_keeps (fun w : World => P w.d.board.tripRun) _ _ (fun a b _ ha => by rw [World.railRound_tripRun]; exact ha) _ h
  clear_value u1
  have h2 : P u2.d.board.tripRun := h1
  clear_value u2
  have h3 : u3.d.board.tripRun = u2.d.board.tripRun := World.setReg_tripRun u2 _ _
  clear_value u3
  have h4 : P u4.d.board.tripRun := by
    have keep : ∀ (a : World × Nat × Bool), ∀ t ∈ List.range 8, P a.1.d.board.tripRun → P (a.1.towerTemps t r).1.d.board.tripRun :=
      fun a t ht ha => World.towerTemps_tripRun P a.1 t r (fun runs s hm => hs _ _ runs (List.mem_range.mp ht) s hm) ha
    have start : P u3.d.board.tripRun := h3 ▸ h2
    simp only [u4, s]
    generalize List.range 8 = ts at keep ⊢
    generalize (0 : Nat) = z
    exact foldl_keeps (fun s : World × Nat × Bool => P s.1.d.board.tripRun)
      (fun (s : World × Nat × Bool) t => ((s.1.towerTemps t r).1, max s.2.1 (s.1.towerTemps t r).2.1, s.2.2 || (s.1.towerTemps t r).2.2))
      ts keep (u3, z, false) start
  have h5 : u5.d.board.tripRun = u4.d.board.tripRun := rfl
  clear_value u4 u5
  have h6 : u6.d.board.tripRun = u4.d.board.tripRun := by
    simp only [u6]
    refine ite_tripRun ?_ h5
    exact (World.log_tripRun _ _).trans (ite_tripRun ((World.event_tripRun u5 _ _ _ _ _).trans h5) h5)
  clear_value u6
  have h7 : u7.d.board.tripRun = u4.d.board.tripRun :=
    (World.powerRound_tripRun _ _).trans ((World.thermalRound_tripRun u6 _).trans h6)
  clear_value u7
  have h9 : P u7.d.board.tripRun := h7 ▸ h4
  exact h9

/-- The sensors of a tower are those numbered 0 to 45. -/
theorem Dev.sensorRounds_k {d : Dev} {t : Nat} {r : RoundInput} {s : SensorRound} (h : s ∈ d.sensorRounds t r) : s.k < 46 := by
  simp only [Dev.sensorRounds, List.mem_map, List.mem_range] at h
  obtain ⟨k, hk, rfl⟩ := h
  exact hk

/-- A sensor with no reading does not count towards a trip (R522, R528). -/
theorem Dev.sensorRounds_silent {d : Dev} {t : Nat} {r : RoundInput} {s : SensorRound} (hr : ∀ n, r.sensors.getD n none = none)
    (h : s ∈ d.sensorRounds t r) : s.counts = false := by
  simp only [Dev.sensorRounds, List.mem_map, List.mem_range] at h
  obtain ⟨k, -, rfl⟩ := h
  simp only [SensorRound.counts, sensorReading, hr, hardFault, if_true, Bool.not_true, Bool.false_and]

/-- A run of two rounds that the round does not reach trips the device. -/
theorem World.measure_trips {w : World} {r : RoundInput} {k n : Nat} (hk : 368 ≤ k) (hn : 2 ≤ n)
    (h : (k, n) ∈ w.d.board.tripRun) : (w.measure r).d.tripped = true := by
  have : (k, n) ∈ (w.measure r).d.board.tripRun :=
    World.measure_tripRun (fun runs => (k, n) ∈ runs) w r (fun d t runs ht s hm hp => by
      have := Dev.sensorRounds_k hm
      have : 46 * t + s.k < k := by omega
      simp [tripNext, tput, hp, this]) h
  exact List.any_eq_true.mpr ⟨_, this, by simpa using hn⟩

/-- A round in which no sensor is read, on a device with no run of two rounds, does not trip it. -/
theorem World.measure_holds {w : World} {r : RoundInput} (hr : ∀ n, r.sensors.getD n none = none) (h : w.d.tripped = false) :
    (w.measure r).d.tripped = false := by
  refine World.measure_tripRun (fun runs => runs.any (fun e => decide (2 ≤ e.2)) = false) w r (fun d t runs ht s hm hp => ?_) h
  simp only [tripNext, Dev.sensorRounds_silent hr hm, tput, List.any_append, List.any_cons, Bool.or_eq_false_iff]
  simp only [List.any_eq_false, List.mem_filter] at hp ⊢
  exact ⟨fun e he => hp e he.1, by simp, fun e he => hp e he.1⟩

end Sys2Proof.Machine
end

