-- ==== Sys2Proof/Tests/Slice0.lean ====
section
/-! SUPPORT. Tests: ill-formed terms that WellFormed refuses, a witness for the hypotheses of each statement, and small checks of single
commands whose expected results come from the rules cited. -/

open Sys2Proof Sys2Proof.Machine

namespace Sys2Proof.Tests

set_option Elab.async false

/-! ## Building states -/

/-- The checks of `Admitted` as one test. -/
def admittedB (d : Dev) (h : HostCmd) (c : OpSpec) : Bool :=
  d.quarter0 h.port.val && h.len.toNat == 512 * h.payload.length && c.lenOk h.payload.length &&
  !d.hl.outstanding.contains (h.port.val, h.tag) &&
  decide ((d.hl.outstanding.filter (fun e => e.1 == h.port.val)).length < 64) &&
  (d.fld HL_STATUS 9 9 != 0 || c.early) && (!c.custody || d.custodyWarden.isSome) &&
  (if c.ctx then decide (h.ctx.toNat < 10240) && !reservedCtx h.ctx.toNat else h.ctx == 0xFFFF) &&
  c.unused.all (fun i => param h i == 0) && (!c.custody || !d.restarting) && !d.mustWait d.hl.held c.op h

/-- A block built with its check passes it. -/
theorem blkSyn_mkBlk (bs : List Byte) : blkSyn (mkBlk bs) = 0 := by simp [blkSyn, mkBlk]

theorem firstBad_none (bs : List (List Byte)) : firstBadBlock (bs.map mkBlk) = none := by
  simp only [firstBadBlock, List.find?_eq_none, List.mem_range, List.length_map]
  intro i hi
  simp [hi, blkSyn_mkBlk]

/-- A command out of blocks given as bytes. -/
def cmd (ctx p0 p1 p2 p3 : Nat) (payload : List (List Byte)) : HostCmd :=
  { port := 0, ctx := BitVec.ofNat 16 ctx, tag := 7, len := BitVec.ofNat 32 (512 * payload.length),
    p0 := BitVec.ofNat 32 p0, p1 := BitVec.ofNat 32 p1, p2 := BitVec.ofNat 32 p2, p3 := BitVec.ofNat 32 p3, payload := payload.map mkBlk }

theorem admitted_of {s : State} {x a b c e : Nat} {p : List (List Byte)} {o : OpSpec} (l : s.dev.level = .run)
    (ok : admittedB s.dev (cmd x a b c e p) o = true) : s.admits (cmd x a b c e p) o := by
  simp only [admittedB, Bool.and_eq_true, Bool.or_eq_true, beq_iff_eq, decide_eq_true_eq, Bool.not_eq_true',
    bne_iff_ne, Option.isSome_iff_ne_none, List.all_eq_true] at ok
  obtain ⟨⟨⟨⟨⟨⟨⟨⟨⟨⟨b1, b2⟩, b3⟩, b5⟩, b6⟩, b7⟩, b8⟩, b9⟩, b10⟩, b11⟩, b12⟩ := ok
  refine ⟨l, b1, b2, b3, .inr (firstBad_none p), by simpa using b5, b6, b7, fun hc => ?_, ?_, b10, fun hc => ?_, b12⟩
  · rcases b8 with h | h
    · rw [hc] at h; cases h
    · exact h
  · cases hc : o.ctx <;> simp_all
  · rcases b11 with h | h
    · rw [hc] at h; cases h
    · exact h

/-- A device out of reset: warden 0 in custody and ready, QUARTER_0 of port 0 and peer ports 0 and 3 in service. -/
def dev0 : Dev :=
  let d : Dev := { Dev.reset with
    level := .run
    wardens := [(0, { Warden.init with ready := true, custody := true, epoch := 1, everReady := true })] }
  (((d.setFld HL_STATUS 9 9 1).setLinkState 24 2).setLinkState 0 2).setLinkState 3 2

/-- The state whose device is a change of `dev0`. -/
def on (f : Dev → Dev) : State := { State.reset with dev := f dev0 }

/-- The plain state out of reset. -/
def live0 : State := on id

/-- A context of course 0 in a state. -/
def ctxOf (st : CtxSt) : Ctx := { Ctx.init with st := st, mask := 1, tabMask := 1, partition := 1, tabValid := true, tabSpace := 4096 }

/-- `live0` with context 16 given. -/
def withCtx (x : Ctx) : State := on (fun d => d.setCtx 16 x)

/-! ## Witnesses: the block as a whole -/

theorem witness_StepRunsTheFrontCommandOrIdles :
    ({ live0 with pending := [.fretStart] }).pending = .fretStart :: [] ∧ live0.pending = [] := ⟨rfl, rfl⟩

theorem witness_StoresStayCanonical : live0.memInv ∧ ∃ t, step live0 = .next t := ⟨(by decide +kernel : live0.mem.wf = true), live0, rfl⟩

theorem witness_InResetOnlyResetActs : State.reset.dev.level ≠ .run ∧ actsInReset .fretStart = false := ⟨by decide +kernel, rfl⟩

/-! ## Witnesses: host commands -/

theorem witness_QueriesAndAttestReply_identify :
    live0.admits (cmd 0xFFFF 0 0 0 0 []) { plainOp 0x001 [0, 1, 2, 3] with early := true } := admitted_of rfl (by decide +kernel)

theorem witness_QueriesAndAttestReply_readReg :
    live0.admits (cmd 0xFFFF HL_STATUS 0 0 0 []) { plainOp 0x002 [1, 2, 3] with early := earlyReg HL_STATUS } ∧
    (live0.dev.counted.readReg HL_STATUS).isSome = true := ⟨admitted_of rfl (by decide +kernel), by decide +kernel⟩

theorem witness_QueriesAndAttestReply_sensorRead :
    live0.admits (cmd 0xFFFF 0 367 1 0 []) (plainOp 0x006 [3]) ∧ live0.admits (cmd 0xFFFF 1 48 1 0 []) (plainOp 0x006 [3]) :=
  ⟨admitted_of rfl (by decide +kernel), admitted_of rfl (by decide +kernel)⟩

theorem witness_QueriesAndAttestReply_ctxQuery : live0.admits (cmd 16 0 0 0 0 []) (ctxSpec 0x107 [0, 1, 2, 3] noPayload) :=
  admitted_of rfl (by decide +kernel)

theorem witness_QueriesAndAttestReply_fwStatus : live0.admits (cmd 0xFFFF 0 0 0 0 []) (wardenOp 0x405 [0, 1, 2, 3]) :=
  admitted_of rfl (by decide +kernel)

theorem witness_QueriesAndAttestReply_logRead :
    live0.admits (cmd 0xFFFF 0 1024 0 0 []) { plainOp 0x604 [2, 3] with custody := live0.dev.fld HL_STATUS 9 9 == 1, early := true } :=
  admitted_of rfl (by decide +kernel)

theorem witness_QueriesAndAttestReply_attest :
    live0.admits (cmd 0xFFFF 1 0 0 0 [[]]) { wardenOp 0x005 [1, 2, 3] with lenOk := oneBlock } := admitted_of rfl (by decide +kernel)

theorem witness_WriteRegWritesOneRegister :
    let h := cmd 0xFFFF HL_LANE_LIMIT 0x1000 0 0 []
    live0.admits h { plainOp 0x003 [3] with custody := wardenReg h.p0.toNat } ∧ (regRow h.p0.toNat).isSome = true ∧ h.p2 = 0 ∧
    h.p0.toNat ≠ FH_CTRL ∧ h.p0.toNat ≠ FH_WINDOW ∧ h.p0.toNat ≠ MEM_FAR_BUDGET ∧ ctrlLink h.p0.toNat = none ∧
    ¬ (h.p0.toNat % 0x1000000 = 0x90040 ∧ h.p0.toNat < 0x08000000) ∧ regHome h.p0.toNat ≠ HL_CTRL ∧ regHome h.p0.toNat ≠ HL_COMMANDS ∧
    ¬ (regHome h.p0.toNat % 0x1000000 = 0x60048 ∧ regHome h.p0.toNat < 0x08000000) ∧
    ¬ ((regHome h.p0.toNat / 0x10000) % 256 = 2 ∧ regHome h.p0.toNat < 0x08000000) :=
  ⟨admitted_of rfl (by decide +kernel), by decide +kernel⟩

theorem witness_ResetCommandResets :
    (live0.admits (cmd 0xFFFF 1 0 0 0 []) (wardenOp 0x004 [1, 2, 3])) ∧ (live0.admits (cmd 0xFFFF 2 255 0 0 []) (wardenOp 0x004 [2, 3])) ∧
    (∀ e ∈ live0.dev.ctxs, e.2.active = true → e.2.kind ≠ 2 → ∀ c ∈ maskCourses e.2.mask.toNat, bitOf 255 (c / 12) = false) :=
  ⟨admitted_of rfl (by decide +kernel), admitted_of rfl (by decide +kernel), by decide +kernel⟩

/-- The block of a CTX_CREATE: partition 1, course 0, one 512-byte tab region at 0 (R389). -/
def createBytes : List Byte :=
  leBytes 4 0 ++ leBytes 4 1 ++ leBytes 8 0 ++ leBytes 16 1 ++ leBytes 8 0 ++ leBytes 8 512 ++ leBytes 464 0

theorem witness_CtxCreateLoadsAContext :
    let h := cmd 16 0 0 0 0 [createBytes]
    live0.admits h (ctxSpec 0x101 [0, 1, 2, 3] oneBlock) ∧ (live0.dev.ctx 16).st = .free ∧
    live0.dev.createBad (payloadBytes h.payload) = none ∧
    (∀ c ∈ maskCourses (createdCtx (payloadBytes h.payload)).mask.toNat, live0.dev.fenced (c / 12) = false) :=
  ⟨admitted_of rfl (by decide +kernel), by decide +kernel⟩

theorem witness_FreeContextIsNoContext :
    live0.admits (cmd 16 0 0 0 0 [[]]) (ctxSpec 0x102 [0, 1, 2, 3] (fun n => decide (1 ≤ n))) ∧
    live0.admits (cmd 10239 0 0 0 0 []) (ctxSpec 0x103 [2, 3] noPayload) ∧ live0.admits (cmd 1 0 0 0 0 []) (ctxSpec 0x104 [2, 3] noPayload) ∧
    live0.admits (cmd 16 0 0 0 0 []) (ctxSpec 0x105 [2, 3] noPayload) ∧
    live0.admits (cmd 16 0 0 0 0 []) (ctxSpec 0x106 [0, 1, 2, 3] noPayload) ∧
    (∀ i, (live0.dev.ctx i).st = .free) ∧
    (withCtx (ctxOf .loaded)).admits (cmd 16 0 0 0 0 [[]]) (ctxSpec 0x101 [0, 1, 2, 3] oneBlock) ∧
    ((withCtx (ctxOf .loaded)).dev.ctx 16).st ≠ .free :=
  ⟨admitted_of rfl (by decide +kernel), admitted_of rfl (by decide +kernel), admitted_of rfl (by decide +kernel),
   admitted_of rfl (by decide +kernel), admitted_of rfl (by decide +kernel), fun _ => rfl, admitted_of rfl (by decide +kernel), by decide +kernel⟩

/-- The header of a tab image of one position of course 0 with no line (R77). -/
def tabHead : List Byte :=
  let pre := leBytes 4 0x4241544C ++ leBytes 2 1 ++ leBytes 2 256 ++ leBytes 4 1056 ++
    leBytes 4 dev0.period ++ leBytes 4 dev0.guardLen ++ leBytes 4 dev0.settleLen ++ leBytes 4 1 ++ leBytes 4 0 ++ leBytes 4 0 ++ leBytes 4 0 ++
    leBytes 12 1 ++ leBytes 1 1 ++ leBytes 1 0 ++ leBytes 2 (dev0.fld IDENT_BUILD 31 16) ++ leBytes 2 1 ++ leBytes 2 0 ++ leBytes 4 0 ++
    leBytes 32 0 ++ leBytes 156 0
  pre ++ leBytes 4 (crc32c pre).toNat

/-- The image: header, the entry of course 0, a POSITION_END line. -/
def tabImage : List Byte := tabHead ++ leBytes 4 1024 ++ leBytes 4 1 ++ leBytes 760 0 ++ leBytes 32 0

def tabBlocks : List (List Byte) := [tabImage.take 512, (tabImage.drop 512).take 512, tabImage.drop 1024]

theorem witness_CtxLoadTabLoadsTheImage :
    let s := withCtx (ctxOf .loaded)
    let h := cmd 16 0 0 0 0 tabBlocks
    let x := s.dev.ctx h.ctx.toNat
    let b := payloadBytes h.payload
    let w := (World.putImage { s.world with d := s.dev.taken h } x (h.payload.take (ceilDiv (tabHdr (b.take 256)).imageLen 512))).onDev
      (fun d => d.onCtx h.ctx.toNat (loadedCtx b))
    let v := on (fun d => d.setCtx 8 { ctxOf .resident with kind := 2 })
    (s.admits h (ctxSpec 0x102 [0, 1, 2, 3] (fun n => decide (1 ≤ n))) ∧ x.st = .loaded ∧ x.kind ≠ 2 ∧ loadRefusal x b = none ∧
      w.validate (w.d.ctx h.ctx.toNat) (fun a k => slice b a k) = none) ∧
    v.admits (cmd 8 0 0 0 0 [[]]) (ctxSpec 0x102 [0, 1, 2, 3] (fun n => decide (1 ≤ n))) ∧ (v.dev.ctx 8).st ≠ .free ∧ (v.dev.ctx 8).kind = 2 :=
  ⟨⟨admitted_of rfl (by decide +kernel), by decide +kernel⟩, admitted_of rfl (by decide +kernel), by decide +kernel⟩

/-- Course 0's context 16, loaded with the image above. -/
def tabState : State :=
  let x := ctxOf .loaded
  let s := withCtx x
  commit s (World.putImage s.world x (tabBlocks.map mkBlk))

theorem witness_CtxStartResumeParkDestroy_start :
    let h := cmd 16 0 0 0 0 []
    let x := tabState.dev.ctx 16
    tabState.admits h (ctxSpec 0x103 [2, 3] noPayload) ∧ x.st = .loaded ∧ x.tabValid = true ∧
    ((tabState.dev.taken h).startFretOf x (pair h.p0 h.p1)).isSome = true ∧ (tabState.dev.taken h).rival 16 = false ∧
    World.validateLoaded { tabState.world with d := tabState.dev.taken h } x = none :=
  ⟨admitted_of rfl (by decide +kernel), by decide +kernel⟩

/-- The same context parked at position 0. -/
def parkedState : State := { tabState with dev := tabState.dev.setCtx 16 (ctxOf .parked) }

theorem witness_CtxStartResumeParkDestroy_resume :
    let h := cmd 16 0 0 0 0 []
    let x := parkedState.dev.ctx 16
    parkedState.admits h (ctxSpec 0x105 [2, 3] noPayload) ∧ x.st = .parked ∧ x.tabValid = true ∧
    ((parkedState.dev.taken h).startFretOf x (pair h.p0 h.p1)).isSome = true ∧ (parkedState.dev.taken h).rival 16 = false ∧
    World.validateLoaded { parkedState.world with d := parkedState.dev.taken h } x = none :=
  ⟨admitted_of rfl (by decide +kernel), by decide +kernel⟩

theorem witness_CtxStartResumeParkDestroy_park :
    let s := withCtx { ctxOf .runnable with kind := 1, pos := 4 }
    s.admits (cmd 16 5 0 0 0 []) (ctxSpec 0x104 [2, 3] noPayload) ∧ (s.dev.ctx 16).active = true ∧ (s.dev.ctx 16).pos < 5 :=
  ⟨admitted_of rfl (by decide +kernel), by decide +kernel⟩

theorem witness_CtxStartResumeParkDestroy_destroy :
    let s := withCtx (ctxOf .loaded)
    let v := withCtx { ctxOf .resident with kind := 2 }
    s.admits (cmd 16 0 0 0 0 []) (ctxSpec 0x106 [0, 1, 2, 3] noPayload) ∧ (s.dev.ctx 16).kind ≠ 2 ∧
    v.admits (cmd 16 0 0 0 0 []) (ctxSpec 0x106 [0, 1, 2, 3] noPayload) ∧ (v.dev.ctx 16).kind = 2 ∧ (v.dev.ctx 16).st ≠ .free :=
  ⟨admitted_of rfl (by decide +kernel), by decide +kernel, admitted_of rfl (by decide +kernel), by decide +kernel⟩

/-- The last block of course 0's store, as the two words of a command. -/
def lastBlock : Nat := 2 ^ 23 - 512

theorem witness_MemWriteStoresItsBlocks :
    let h := cmd 0xFFFF lastBlock 0 0 0 [[1, 2, 3]]
    live0.memInv ∧ live0.admits h memWriteOp ∧ Dev.runFree live0.dev.counted (pair h.p0 h.p1) 1 ∧
    Dev.runOffLadder live0.dev (pair h.p0 h.p1) 1 ∧ tierOf (pair h.p0 h.p1) ≠ 3 ∧
    ∀ b ∈ h.payload, blkSyn b = 0 ∨ blkSyn b = poisonMark :=
  ⟨(by decide +kernel : live0.mem.wf = true), admitted_of rfl (by decide +kernel), ⟨by decide +kernel, by decide +kernel, by decide +kernel⟩,
   (fun l hl => nomatch (show l ∈ ([] : List Ladder) from hl)), by decide +kernel, fun b hb => by
    simp only [cmd, List.map_cons, List.map_nil, List.mem_singleton] at hb
    exact .inl (hb ▸ blkSyn_mkBlk _)⟩

theorem witness_MemReadReturns :
    let h := cmd 0xFFFF lastBlock 0 1 0 []
    live0.admits h (plainOp 0x202 [3]) ∧ Dev.runFree live0.dev.counted (pair h.p0 h.p1) 1 ∧ tierOf (pair h.p0 h.p1) ≠ 3 ∧
    ∀ x ∈ runBlocks (pair h.p0 h.p1) 1, live0.world.failing [] x = false :=
  ⟨admitted_of rfl (by decide +kernel), ⟨by decide +kernel, by decide +kernel, by decide +kernel⟩, by decide +kernel⟩

theorem witness_FillAndCopyAreAccepted :
    let h := cmd 0xFFFF 0 0 16384 7 []
    let g := cmd 0xFFFF 0 0 0 0 [leBytes 8 0 ++ leBytes 8 512 ++ leBytes 8 1]
    live0.admits h (plainOp 0x203 []) ∧ live0.dev.counted.memRunOk (pair h.p0 h.p1) 16384 = true ∧
    live0.dev.counted.runFenced (pair h.p0 h.p1) = false ∧
    live0.admits g { plainOp 0x204 [0, 1, 2, 3] with lenOk := oneBlock } ∧ (copyArgs g).2.2 = 1 ∧
    live0.dev.counted.memRunOk (copyArgs g).1 1 = true ∧ live0.dev.counted.memRunOk (copyArgs g).2.1 1 = true ∧
    live0.dev.counted.runFenced (copyArgs g).1 = false ∧ live0.dev.counted.runFenced (copyArgs g).2.1 = false :=
  ⟨admitted_of rfl (by decide +kernel), by decide +kernel, by decide +kernel, admitted_of rfl (by decide +kernel), by decide +kernel⟩

/-- `live0` with one accepted command. -/
def withJob (op : Nat) (r : Option (W16 × W16)) (h : HostCmd) : State :=
  on (fun d => { d with hl := { d.hl with jobs := [{ h := h, opcode := op, result := r }], outstanding := [(0, 7)] } })

theorem witness_CommandDoneConcludes :
    let j : HostJob := { h := cmd 0xFFFF 0 0 0 0 [], opcode := 0x402, result := some (stOk, 0) }
    let f : HostJob := { h := cmd 0xFFFF 512 0 2 9 [], opcode := 0x203, result := none }
    let s := withJob 0x402 (some (stOk, 0)) j.h
    let t := withJob 0x203 none f.h
    let g : HostJob := { h := cmd 0xFFFF 1 0 0 0xFFFF [], opcode := 0x301, result := none }
    let v := { withJob 0x301 none g.h with dev := (withJob 0x301 none g.h).dev.setFt (fun x => { x with aligned := 4 }) }
    (s.live ∧ s.dev.jobNamed 0 7 = some j ∧ s.dev.farBusy (hostWho j.h) = false ∧ s.dev.hl.events.length < 1024 ∧
      s.dev.hl.jobs = [j] ∧ s.dev.hl.held = [] ∧ s.dev.ckpts = []) ∧
    (v.live ∧ v.dev.jobNamed 0 7 = some g ∧ 4 ≤ v.dev.ft.aligned ∧ v.dev.hl.events.length < 1024) ∧
    t.live ∧ t.memInv ∧ t.dev.jobNamed 0 7 = some f ∧ t.dev.runClosed (pair f.h.p0 f.h.p1) f.h.p2.toNat = false ∧
    tierOf (pair f.h.p0 f.h.p1) ≠ 3 ∧ t.dev.farBusy (hostWho f.h) = false ∧ t.dev.hl.events.length < 1024 ∧
    t.dev.hl.jobs = [f] ∧ t.dev.hl.held = [] ∧ t.dev.ckpts = [] := by
  refine ⟨⟨rfl, ?_⟩, ⟨rfl, ?_⟩, rfl, (by decide +kernel : (live0.mem).wf = true), ?_⟩ <;> decide +kernel

/-- A device with a context that runs, and one whose far budget is small. -/
def mapState : State := on (fun d => (d.setCtx 16 { ctxOf .resident with kind := 1 }).setFld HL_FAR_MAP 12 0 4096)

theorem witness_FarMap :
    (mapState.admits (cmd 0xFFFF 4095 0x1000 0 0 []) (plainOp 0x205 [2, 3]) ∧
      ¬ (mapState.dev.fld HL_FAR_MAP 12 0 ≤ 4095 ∨ ∀ e ∈ mapState.dev.ctxs, e.2.active = false)) ∧
    ((on (fun d => d.setFld MEM_FAR_BUDGET 19 0 0x2000)).admits (cmd 0xFFFF 4096 0x2000 0 0 []) (plainOp 0x205 [2, 3]) ∧
      (on (fun d => d.setFld MEM_FAR_BUDGET 19 0 0x2000)).dev.fld HL_FAR_MAP 12 0 ≤ 4096 ∧
      (on (fun d => d.setFld MEM_FAR_BUDGET 19 0 0x2000)).dev.fld MEM_FAR_BUDGET 19 0 < 0x2000 + 144) ∧
    live0.admits (cmd 0xFFFF 4096 0x1000 0 0 []) (plainOp 0x205 [2, 3]) ∧ live0.dev.fld HL_FAR_MAP 12 0 ≤ 4096 ∧
    0x1000 + 144 ≤ (on (fun d => d.setFld MEM_FAR_BUDGET 19 0 0x2000)).dev.fld MEM_FAR_BUDGET 19 0 ∧
    (on (fun d => d.setFld MEM_FAR_BUDGET 19 0 0x2000)).admits (cmd 0xFFFF 4096 0x1000 0 0 []) (plainOp 0x205 [2, 3]) :=
  ⟨⟨admitted_of rfl (by decide +kernel), by decide +kernel⟩, ⟨admitted_of rfl (by decide +kernel), by decide +kernel⟩,
   admitted_of rfl (by decide +kernel), by decide +kernel, by decide +kernel, admitted_of rfl (by decide +kernel)⟩

theorem witness_HedgeJoinAndLeave :
    let h := cmd 0xFFFF 1 0 0 0xFFFF []
    live0.admits h (wardenOp 0x301 []) ∧ live0.dev.board.clkMode ≠ 3 ∧ live0.dev.hedge.route = [] ∧
    (live0.dev.taken h).wrongPort [] 0 = none ∧ diameter [] ≤ 16 ∧ settleMin (diameter []) ≤ live0.dev.settleLen ∧
    live0.admits (cmd 0xFFFF 0 0 0 0 []) (wardenOp 0x302 [0, 1, 2, 3]) :=
  ⟨admitted_of rfl (by decide +kernel), by decide +kernel, by decide +kernel, by decide +kernel, by decide +kernel, by decide +kernel,
   admitted_of rfl (by decide +kernel)⟩

/-- The route image of a device alone (R347). -/
def routeImage : List Byte :=
  leBytes 4 0x45545552 ++ leBytes 2 1 ++ leBytes 2 1 ++ leBytes 4 0 ++ leBytes 4 609 ++ leBytes 496 0 ++ leBytes 96 0 ++ [0xFF]

theorem witness_FretConfigDroneRaiseRouteLoad :
    let h := cmd 0xFFFF (1024 + 1024 * 2048) 64 1000 0 []
    let g := cmd 0xFFFF 0 0 0 0 [routeImage.take 512, routeImage.drop 512]
    live0.admits h (wardenOp 0x303 []) ∧ max 512 (1048576 / 256) ≤ 262144 ∧ live0.dev.fld FT_DIAMETER 31 16 ≤ 16384 ∧ live0.dev.fretNum + 8 < 1000 ∧
    (∀ e ∈ live0.dev.ctxs, e.2.active = false) ∧
    live0.admits (cmd 0xFFFF 1 0 0 0 []) (wardenOp 0x305 [1, 2, 3]) ∧ live0.admits (cmd 0xFFFF 2 65535 0 0 []) (wardenOp 0x305 [2, 3]) ∧
    live0.admits (cmd 0xFFFF 3 7 0 0 []) (wardenOp 0x305 [2, 3]) ∧
    live0.admits g { wardenOp 0x304 [0, 1, 2, 3] with lenOk := fun n => decide (1 ≤ n) } ∧
    512 + 96 * numAt (payloadBytes g.payload) 6 2 + numAt (payloadBytes g.payload) 6 2 * numAt (payloadBytes g.payload) 6 2 ≤
      numAt (payloadBytes g.payload) 12 4 ∧ numAt (payloadBytes g.payload) 12 4 ≤ (payloadBytes g.payload).length ∧ routeBad (payloadBytes g.payload) = none :=
  ⟨admitted_of rfl (by decide +kernel), by decide, by decide +kernel, by decide +kernel, by decide +kernel, admitted_of rfl (by decide +kernel),
   admitted_of rfl (by decide +kernel), admitted_of rfl (by decide +kernel), admitted_of rfl (by decide +kernel), by decide +kernel, by decide +kernel, by decide +kernel⟩

/-- `live0` with the firmware in a state. -/
def withFw (n : Nat) : State := on (fun d => { d with fw := { d.fw with state := n } })

theorem witness_FirmwareCommandsRun :
    let h := cmd 0xFFFF 0 7 8 0 [[]]
    live0.admits h { wardenOp 0x401 [3] with lenOk := fun n => decide (1 ≤ n) } ∧ live0.dev.fw.state < 3 ∧
    bitsOf h.p0.toNat 7 0 = 0 ∧ bitOf h.p0.toNat 8 = false ∧ h.p1.toNat + h.payload.length ≤ h.p2.toNat ∧
    live0.admits (cmd 0xFFFF 0 0 0 0 []) (wardenOp 0x402 [0, 1, 2, 3]) ∧
    (withFw 2).admits (cmd 0xFFFF 65 0 0 0 []) (wardenOp 0x403 [2, 3]) ∧ (withFw 2).dev.fld FT_HOLD_STATUS 15 14 ≠ 2 ∧ (withFw 2).dev.fretNum + 64 < 65 ∧
    (withFw 2).admits (cmd 0xFFFF 0 0 0 0 []) (wardenOp 0x404 [0, 1, 2, 3]) ∧
    (withFw 3).admits (cmd 0xFFFF 0 0 0 0 []) (wardenOp 0x404 [0, 1, 2, 3]) :=
  ⟨admitted_of rfl (by decide +kernel), by decide +kernel, by decide +kernel, by decide +kernel, by decide +kernel, admitted_of rfl (by decide +kernel),
   admitted_of rfl (by decide +kernel), by decide +kernel, by decide +kernel, admitted_of rfl (by decide +kernel), admitted_of rfl (by decide +kernel)⟩

/-- `live0` at latched THERMAL_LEVEL 2. -/
def hot : State := on (fun d => d.setFld FT_HOLD_STATUS 15 14 2)

theorem witness_RefusedCommandsAndPackets :
    hot.admits (cmd 0xFFFF 100 0 0 0 []) (wardenOp 0x403 [2, 3]) ∧ hot.admits (cmd 0xFFFF 1 1 0 0 []) (wardenOp 0x601 [2, 3]) ∧
    hot.dev.fld FT_HOLD_STATUS 15 14 = 2 :=
  ⟨admitted_of rfl (by decide +kernel), admitted_of rfl (by decide +kernel), by decide +kernel⟩

/-- The block of a SVC_START of retrieval service 8 on course 0: INT8, inner product, 32 dimensions, one vector in tower 0 (R406, R407). -/
def svcBytes : List Byte :=
  leBytes 1 1 ++ leBytes 1 1 ++ leBytes 2 8 ++ leBytes 12 1 ++ leBytes 16 0 ++ leBytes 1 9 ++ leBytes 1 0 ++ leBytes 2 32 ++ leBytes 4 0 ++
  leBytes 4 1 ++ leBytes 28 0 ++ leBytes 440 0

/-- The service running. -/
def svcState (q : List HostCmd) : State :=
  on (fun d => (d.onSvc 8 (fun s => { s with active := true, config := svcBytes, queue := q })).setCtx 8 { ctxOf .resident with kind := 2, ran := true })

/-- A batch of one query for one result, to the host (R410). -/
def batchBytes : List Byte := leBytes 2 8 ++ leBytes 2 1 ++ leBytes 2 1 ++ leBytes 506 0

/-- The block of a CHECKPOINT of context 16 at position 0 to STREAM_ACK: one region of one block (R411). -/
def ckptBytes : List Byte :=
  leBytes 8 0 ++ leBytes 1 0 ++ leBytes 1 1 ++ leBytes 118 0 ++ leBytes 8 0 ++ leBytes 8 512 ++ leBytes 4 1 ++ leBytes 364 0

theorem witness_ServiceCommandsRun :
    let h := cmd 0xFFFF 0 0 0 0 [svcBytes]
    let q := cmd 0xFFFF 0 0 0 0 [batchBytes, []]
    let s := withCtx (ctxOf .loaded)
    let k := cmd 16 0 0 0 0 [ckptBytes]
    let v := svcState []
    (live0.admits h { wardenOp 0x501 [0, 1, 2, 3] with lenOk := oneBlock } ∧
      World.svcBad { live0.world with d := live0.dev.taken h } (payloadBytes h.payload) = none ∧ live0.dev.fenced 0 = false ∧
      maskCourses (BitVec.ofNat 96 (numAt (payloadBytes h.payload) 4 12)).toNat = [0] ∧ (live0.dev.svc 8).active = false) ∧
    (v.admits h { wardenOp 0x501 [0, 1, 2, 3] with lenOk := oneBlock } ∧
      World.svcBad { v.world with d := v.dev.taken h } (payloadBytes h.payload) = none ∧ v.dev.fenced 0 = false ∧
      (v.dev.svc 8).active = true ∧ (v.dev.ctx 8).active = true) ∧
    q.payload.length = 1 + ceilDiv ((batchOf (payloadBytes q.payload)).queries * bytesFor (numAt (v.dev.svc 8).config 32 1) (numAt (v.dev.svc 8).config 34 2)) 512 ∧
    (svcState []).admits q { plainOp 0x502 [0, 1, 2, 3] with lenOk := fun n => decide (2 ≤ n) } ∧
    (svcState []).dev.batchBad ((payloadBytes q.payload).take 512) = none ∧
    (svcState []).admits (cmd 8 0 0 0 0 []) { plainOp 0x503 [0, 1, 2, 3] with ctx := true } ∧ ((svcState []).dev.svc 8).active = true ∧
    s.admits k { plainOp 0x504 [0, 1, 2, 3] with ctx := true, lenOk := oneBlock } ∧
    s.dev.counted.regionsBad (slice (payloadBytes k.payload) 128 384) = none ∧ (s.dev.ctx 16).st ≠ .free :=
  ⟨⟨admitted_of rfl (by decide +kernel), by decide +kernel⟩, ⟨admitted_of rfl (by decide +kernel), by decide +kernel⟩, by decide +kernel,
   admitted_of rfl (by decide +kernel), by decide +kernel,
   admitted_of rfl (by decide +kernel), by decide +kernel, admitted_of rfl (by decide +kernel), by decide +kernel⟩

/-- `live0` with tower 7 fenced. -/
def fenced7 : State := on (fun d => d.setFld IDENT_DEVICE 15 15 1)

theorem witness_TowerCommandsRun :
    live0.admits (cmd 0xFFFF 0x80 3 0 0 []) (wardenOp 0x601 [2, 3]) ∧ live0.dev.fld FT_HOLD_STATUS 15 14 ≠ 2 ∧
    (∀ k, k < 8 → bitOf 0x80 k = true → live0.dev.fenced k = false) ∧
    live0.admits (cmd 0xFFFF 7 0 0 0 []) (wardenOp 0x602 [1, 2, 3]) ∧ fenced7.admits (cmd 0xFFFF 7 0 0 0 []) (wardenOp 0x602 [1, 2, 3]) ∧
    fenced7.admits (cmd 0xFFFF 7 0 0 0 []) (wardenOp 0x603 [1, 2, 3]) ∧ fenced7.dev.fenced 7 = true :=
  ⟨admitted_of rfl (by decide +kernel), by decide +kernel, by decide +kernel, admitted_of rfl (by decide +kernel), admitted_of rfl (by decide +kernel),
   admitted_of rfl (by decide +kernel), by decide +kernel⟩

theorem witness_RegisterActionsAct :
    (on (fun d => d.setLinkState 23 3)).dev.linkState 23 = 3 ∧ (on (fun d => d.setLinkState 31 4)).dev.linkState (24 + 7) = 4 ∧
    (live0.dev.link 23).retraining = false ∧ live0.dev.linkState 0 = 2 ∧
    (on (fun d => d.onLink 23 (fun x => { x with cable := true }))).dev.linkState 23 = 0 ∧
    ((on (fun d => d.onLink 23 (fun x => { x with cable := true }))).dev.link 23).cable = true := by decide +kernel

/-! ## Frets -/

/-- `live0` with the fret's state changed. -/
def inFret (f : Ft → Ft) : State := on (fun d => d.setFt f)

theorem witness_FretStartBeginsTheNextFret : live0.live := rfl

theorem witness_HoldLatchDecidesAndHoldFretStartsNothing :
    (live0.live ∧ live0.dev.ft.latched = false) ∧
    ((inFret (fun f => { f with latched := true })).live ∧ (inFret (fun f => { f with latched := true })).dev.ft.latched = true) ∧
    (inFret (fun f => { f with voteReq := true })).live ∧ (inFret (fun f => { f with voteReq := true })).dev.ft.latched = false ∧
    (inFret (fun f => { f with voteReq := true })).dev.ft.voteReq = true :=
  ⟨⟨rfl, rfl⟩, ⟨rfl, rfl⟩, rfl, rfl, rfl⟩

/-- A latched fret whose word holds ABORT, with a running context. -/
def aborting : State :=
  on (fun d => (d.setFt (fun f => { f with latched := true, word := 1#128 <<< flagAbort })).setCtx 16 { ctxOf .resident with kind := 1 })

theorem witness_SettlePointLatchesTheWord :
    aborting.live ∧ aborting.dev.ft.latched = true ∧ aborting.dev.ft.settled = false ∧ wordFlag aborting.dev.ft.word flagAbort = true ∧
    (∃ e ∈ aborting.dev.ctxs, (aborting.dev.ctx e.1).active = true) ∧
    (inFret (fun f => { f with settled := true })).live ∧ (inFret (fun f => { f with settled := true })).dev.ft.settled = true := by
  refine ⟨rfl, rfl, rfl, ?_, ?_, rfl, rfl⟩ <;> decide +kernel

theorem witness_GuardBandTrimsWithinTheBound : live0.live ∧ live0.dev.ft.guard = false := ⟨rfl, rfl⟩

theorem witness_DroneFramesCarryTheWord :
    let good := live0.dev.droneBytes 3 (BitVec.ofNat 128 9)
    live0.live ∧ live0.dev.ft.settled = false ∧ live0.dev.linkUp (3 : Fin 24).val = true ∧
    (frameOk 1 good = true ∧ numAt good 2 2 = live0.dev.fretNum % 65536) ∧
    frameOk 1 (good.set 0 2) = false := by
  refine ⟨rfl, rfl, ?_⟩; decide +kernel

/-- The route image of a hedge of two ranks: their ports 3 are the one trunk of each (R347). -/
def pairImage : List Byte :=
  let entry (q : Nat) := leBytes 4 (2 ^ 31 + 4 * 2 ^ 20 + 3 * 2 ^ 10 + q)
  leBytes 4 0x45545552 ++ leBytes 2 1 ++ leBytes 2 2 ++ leBytes 4 0 ++ leBytes 4 708 ++ leBytes 496 0 ++
  leBytes 12 0 ++ entry 1 ++ leBytes 80 0 ++ leBytes 12 0 ++ entry 0 ++ leBytes 80 0 ++ [0xFF, 0x00, 0x00, 0xFF]

/-- Rank 1 of that hedge, which follows rank 0. -/
def follower (f : Ft → Ft) : State :=
  on (fun d => ({ d with hedge := { joined := true, size := 2, rank := 1, route := pairImage } }).setFt f)

/-- The marker of the leader, rank 0: copy 0, P 1 048 576, G 65 536 (R70). -/
def markerOf : Marker :=
  let b := [0x02#8, 0x00#8] ++ leBytes 2 0 ++ leBytes 8 1 ++ leBytes 4 1048576 ++ leBytes 4 65536 ++ leBytes 4 200000 ++ leBytes 2 0 ++ leBytes 5 0
  { bytes := b ++ leBytes 1 (crc8 b), offset := 561737142 }

theorem witness_MarkersAlignFollowers :
    let g := follower (fun f => { f with guard := true })
    let m := markerOf
    let a := inFret (fun f => { f with guard := true })
    let n := follower (fun f => { f with adopt := true })
    (a.live ∧ a.dev.ft.guard = true ∧ (3 : Nat) < 4 ∧ a.dev.announced.isSome = true) ∧
    (g.live ∧ g.dev.announced = none) ∧
    (n.live ∧ n.dev.ft.guard = false ∧ n.dev.ft.adopt = true ∧ n.dev.follows = true) ∧
    (g.dev.linkUp (3 : Fin 24).val = true ∧ frameOk 2 m.bytes = true ∧ g.dev.hedge.joined = true ∧ g.dev.follows = true ∧
      g.dev.ft.markerSeen = false ∧ numAt m.bytes 24 2 = g.dev.fld FT_LEADER 25 16 ∧
      g.dev.markerPort (numAt m.bytes 24 2) = some (3 : Fin 24).val) ∧
    frameOk 2 (m.bytes.set 31 (m.bytes.getD 31 0 + 1)) = false := by
  refine ⟨⟨rfl, rfl, by decide, ?_⟩, ⟨rfl, ?_⟩, ⟨rfl, ?_⟩, ?_⟩ <;> decide +kernel

theorem witness_LeaderAndFretEventsAct :
    let a := on (fun d => (({ d with hedge := { joined := true, size := 2, rank := 1, route := pairImage } }).setFld FT_LEADER 49 48 2).setFld FT_LEADER 63 56 64)
    let b := inFret (fun f => { f with leaderHold := true, aligned := 4 })
    let c := inFret (fun f => { f with pendingCfg := some (0, 2 ^ 20, 2 ^ 17, 2 ^ 18) })
    let e := withCtx { ctxOf .runnable with kind := 1 }
    (a.live ∧ a.dev.hedge.joined = true ∧ a.dev.role = 2 ∧ 64 ≤ a.dev.fld FT_LEADER 63 56 ∧ a.dev.hedge.rank < 1024) ∧
    (b.live ∧ b.dev.ft.leaderHold = true ∧ 4 ≤ b.dev.ft.aligned ∧ b.dev.fld FT_HOLD_STATUS 18 18 = 0) ∧
    (c.live ∧ c.dev.ft.pendingCfg = some (0, 2 ^ 20, 2 ^ 17, 2 ^ 18) ∧ 0 ≤ c.dev.fretNum ∧ c.dev.ft.latched = false) ∧
    (e.live ∧ (e.dev.ctx 16).active = true ∧ (e.dev.ctx 16).begun = false ∧ (e.dev.ctx 16).startFret ≤ e.dev.fretNum ∧
      e.dev.ft.latched = false ∧ ((e.dev.ctx 16).pos ≠ 0 ∨ (e.dev.ctx 16).passes ≠ 0 ∨ (e.dev.svc 1).active = false)) := by
  refine ⟨⟨rfl, rfl, ?_⟩, ⟨rfl, rfl, ?_⟩, ⟨rfl, rfl, ?_⟩, rfl, ?_⟩ <;> decide +kernel

/-! ## Lines -/

/-- Bytes laid in the stores. -/
def memOf (l : List (Nat × List Byte)) : Memory := l.foldl (fun m e => applyWr m (.data e.1 e.2)) State.reset.mem

/-- A line of a unit at OFFSET 300 with a predicate byte and a descriptor, that waits on no line and no window. -/
def lineOf (unit pred desc : Nat) : Line :=
  { offset := 300, unit := unit, pred := pred, path := 0, dep := 0xFF, wcCompute := 1000000, wcXfer := 1000000, desc := desc, window := 0xFFFF }

/-- A line of the buffer. -/
def inPhase (p : LinePhase) (l : Line) : LineSt :=
  { ln := l, phase := p, prog := 0, idle := 0, read := [], word := 0, late := false, wrote := none, resend := false, farLate := false, overrun := false }

/-- Context 16 resident on course 0, whose AB group 0 it owns, with these lines in the buffer at cycle 256 of a fret that is no hold fret. -/
def running (ls : List LineSt) (m : List (Nat × List Byte)) (f : Dev → Dev) : State :=
  { on (fun d => f ((((d.setCtx 16 { ctxOf .resident with kind := 1, posOpen := true, begun := true, ran := true }).setCourse 0
      { Course.init with lines := ls, runner := some 16 }).setFt (fun t => { t with latched := true, cycle := 256 })).takeGroup 0 16 1 0)) with
    mem := memOf m }

/-- The job of line 0 of a line given. -/
def jobFor (l : Line) (prog : Nat) : Job := { course := 0, idx := 0, ln := l, set := 0, ctx := 16, pos := 0, prog := prog, word := 0 }

/-- A state's line 0 may be worked on by a unit. -/
def lineFree (s : State) (l : Line) (unit : Nat) : Bool :=
  l.unit == unit && s.dev.depOver 0 l && s.world.windowOver 16 0 l && s.dev.activeSet 0 == 0 && s.dev.fld (CC_POS 0 0) 63 0 == 0

theorem line_ready {s : State} {l : Line} {prog unit : Nat} (v : s.live)
    (h : lineAt (s.dev.course 0) 0 = some { inPhase .launched l with prog := prog }) (r : (s.dev.course 0).runner = some 16)
    (ok : lineFree s l unit = true) : s.lineReady (0 : Fin 96) 0 unit (jobFor l prog) := by
  refine ⟨v, ?_⟩
  simp only [lineFree, Bool.and_eq_true, beq_iff_eq] at ok
  obtain ⟨⟨⟨⟨b, c⟩, d⟩, e⟩, f⟩ := ok
  simp only [Fin.val_zero, World.ready, State.world, h, Dev.jobOf, r, e, f, jobFor]
  simp only [State.world] at d
  exact if_pos ⟨rfl, b, c, d⟩

theorem witness_LinesLaunchSkipOrWait :
    let l := inPhase .waiting (lineOf 2 0 0)
    let skip := inPhase .waiting (lineOf 2 4 0)
    let late := inPhase .held (lineOf 2 0 0)
    let s := running [l] [] id
    let v := running [skip] [] id
    let b := running [l, inPhase .launched (lineOf 2 0 512)] [] id
    let w := running [late] [] id
    let open_ := running [inPhase .launched (lineOf 9 0 0), skip] [] id
    (s.offsetReached (0 : Fin 96).val 0 l ∧ ¬ (bitOf l.ln.pred 2 = true ∧ s.dev.predsOpen 0 0 = true) ∧ launches l.ln (s.dev.preds 0 0) = true ∧
      s.world.unitBusy 16 0 l.ln = false ∧ s.world.heldBefore 16 0 0 l.ln = false ∧ (s.dev.course 0).runner = some 16) ∧
    (v.offsetReached (0 : Fin 96).val 0 skip ∧ ¬ (bitOf skip.ln.pred 2 = true ∧ v.dev.predsOpen 0 0 = true) ∧ launches skip.ln (v.dev.preds 0 0) = false) ∧
    (b.offsetReached (0 : Fin 96).val 0 l ∧ ¬ (bitOf l.ln.pred 2 = true ∧ b.dev.predsOpen 0 0 = true) ∧ launches l.ln (b.dev.preds 0 0) = true ∧
      b.world.unitBusy 16 0 l.ln = true ∧ (b.dev.course 0).runner = some 16) ∧
    (open_.offsetReached (0 : Fin 96).val 1 skip ∧ bitOf skip.ln.pred 2 = true ∧ open_.dev.predsOpen 0 1 = true) ∧
    (w.live ∧ lineAt (w.dev.course 0) 0 = some late ∧ late.phase = .held ∧ w.dev.ft.launchStop = false ∧
      ¬ (bitOf late.ln.pred 2 = true ∧ w.dev.predsOpen 0 0 = true) ∧ launches late.ln (w.dev.preds 0 0) = true ∧
      w.world.unitBusy 16 0 late.ln = false ∧ w.world.heldBefore 16 0 0 late.ln = false) := by
  refine ⟨⟨⟨rfl, ?_⟩, ?_⟩, ⟨⟨rfl, ?_⟩, ?_⟩, ⟨⟨rfl, ?_⟩, ?_⟩, ⟨⟨rfl, ?_⟩, ?_⟩, rfl, ?_⟩ <;> decide +kernel

theorem witness_LinesCompleteAndHoldsStop :
    let l := inPhase .worked (lineOf 2 0 0)
    let s := running [l] [] id
    let h := on (fun d => d.setFld FT_HOLD_STATUS 17 17 1)
    (s.live ∧ lineAt (s.dev.course 0) 0 = some l ∧ l.phase = .worked ∧ s.world.lineQuiet 0 0 l.ln = true) ∧
    h.live ∧ h.dev.fld FT_HOLD_STATUS 17 17 = 1 := by
  refine ⟨⟨rfl, ?_⟩, rfl, ?_⟩ <;> decide +kernel

/-! ## Routines -/

/-- The routine engine of course 0 at one instruction word. -/
def routineOf (w : Nat) : Routine :=
  { line := 0, set := 0, ctx := 16, code := [BitVec.ofNat 32 w, 0], wmask := 2 ^ 32 - 1, rmask := 2 ^ 32 - 1, pc := 0, cost := 0, wc := 1000000,
    loops := [] }

/-- Its state; s1 holds an address of the register window, s2 holds 5. -/
def atWord (w ctx : Nat) : State :=
  running [inPhase .launched (lineOf 8 0 0)] [] (fun d =>
    ((d.onCourse 0 (fun x => { x with routine := some { routineOf w with ctx := ctx } })).setSreg 0 0 1 (BitVec.ofNat 64 (0xC * 2 ^ 60 + IDENT_DEVICE))).setSreg
      0 0 2 5)

theorem at_word {w ctx : Nat} (h : w < 2 ^ 32) : (atWord w ctx).ccAt (0 : Fin 96).val w { routineOf w with ctx := ctx } := by
  refine ⟨rfl, ?_⟩
  have e : ((atWord w ctx).dev.course 0).routine = some { routineOf w with ctx := ctx } := rfl
  simp only [Dev.ccAt, Fin.val_zero, e]
  rw [if_pos]
  refine ⟨by simp [routineOf], ?_⟩
  simp only [ccWord, routineOf, List.getElem?_cons_zero, Option.map_some, Option.getD_some, BitVec.toNat_ofNat]
  exact Nat.mod_eq_of_lt h

theorem witness_RegisterInstructionsCompute :
    ∀ e ∈ ccTTable, (atWord (encT e.2.1 3 1 2) 16).ccAt (0 : Fin 96).val (encT e.2.1 3 1 2) (routineOf (encT e.2.1 3 1 2)) := by
  intro e h
  have k : ∀ e ∈ ccTTable, encT e.2.1 3 1 2 < 2 ^ 32 := by decide
  exact at_word (k e h)

theorem witness_ImmediateInstructionsCompute :
    (∀ e ∈ ccITable, (atWord (encI e.2.1 3 1 0x8000) 16).ccAt (0 : Fin 96).val (encI e.2.1 3 1 0x8000) (routineOf (encI e.2.1 3 1 0x8000))) ∧
    (atWord (encI 0x17 31 0 0xFFFF) 16).ccAt (0 : Fin 96).val (encI 0x17 31 0 0xFFFF) (routineOf (encI 0x17 31 0 0xFFFF)) ∧
    (atWord (encI 0x3A 1 0 7) 16).ccAt (0 : Fin 96).val (encI 0x3A 1 0 7) (routineOf (encI 0x3A 1 0 7)) := by
  have k : ∀ e ∈ ccITable, encI e.2.1 3 1 0x8000 < 2 ^ 32 := by decide
  exact ⟨fun e h => at_word (k e h), at_word (by decide), at_word (by decide)⟩

theorem witness_S0ReadsZero :
    ∃ t, (atWord (encT 0x01 0 1 2) 16).ccAt (0 : Fin 96).val (encT 0x01 0 1 2) (routineOf (encT 0x01 0 1 2)) ∧
      exec (.ccAdd 0 0 1 2) (atWord (encT 0x01 0 1 2) 16) = .next t := ⟨_, at_word (by decide), rfl⟩

theorem witness_BranchesChooseTheNextInstruction :
    (∀ e ∈ ccBTable, (atWord (encI e.2.1 1 2 1) 16).ccAt (0 : Fin 96).val (encI e.2.1 1 2 1) (routineOf (encI e.2.1 1 2 1)) ∧
      ccInstrOk [BitVec.ofNat 32 (encI e.2.1 1 2 1), 0] (2 ^ 32 - 1) (2 ^ 32 - 1) 1 = true) ∧
    (atWord (encI 0x36 0 0 1) 16).ccAt (0 : Fin 96).val (encI 0x36 0 0 1) (routineOf (encI 0x36 0 0 1)) := by
  have k : ∀ e ∈ ccBTable, encI e.2.1 1 2 1 < 2 ^ 32 ∧
      ccInstrOk [BitVec.ofNat 32 (encI e.2.1 1 2 1), 0] (2 ^ 32 - 1) (2 ^ 32 - 1) 1 = true := by decide +kernel
  exact ⟨fun e h => ⟨at_word (k e h).1, (k e h).2⟩, at_word (by decide)⟩

theorem witness_LoopFlagTmaxHalt :
    (atWord (encL 0x37 4095 1) 16).ccAt (0 : Fin 96).val (encL 0x37 4095 1) (routineOf (encL 0x37 4095 1)) ∧
    (atWord (encI 0x38 0 0 7) 16).ccAt (0 : Fin 96).val (encI 0x38 0 0 7) (routineOf (encI 0x38 0 0 7)) ∧
    (atWord (encT 0x39 0 2 0) 16).ccAt (0 : Fin 96).val (encT 0x39 0 2 0) (routineOf (encT 0x39 0 2 0)) ∧
    ((atWord 0 16).ccAt (0 : Fin 96).val 0 (routineOf 0) ∧
      lineAt ((atWord 0 16).dev.course (0 : Fin 96).val) (routineOf 0).line = some (inPhase .launched (lineOf 8 0 0)) ∧
      ((atWord 0 16).dev.course (0 : Fin 96).val).runner ≠ none) :=
  ⟨at_word (by decide), at_word (by decide), at_word (by decide), at_word (by decide), rfl, by decide⟩

theorem witness_LoadsAndStoresMoveBytes :
    let a := atWord (encI 0x20 3 0 256) 16
    let b := atWord (encI 0x22 3 0 256) 16
    let c := atWord (encI 0x20 3 1 0) 3
    (a.ccAt (0 : Fin 96).val (encI 0x20 3 0 256) (routineOf (encI 0x20 3 0 256)) ∧
      ccPlace 0 16 (ccAddr a 0 (routineOf (encI 0x20 3 0 256)) 0 256) 8 = .store ∧ a.world.failing [] 0 = false ∧ a.world.poisoned 0 = false) ∧
    (b.ccAt (0 : Fin 96).val (encI 0x22 3 0 256) (routineOf (encI 0x22 3 0 256)) ∧ b.memInv ∧
      ccPlace 0 16 (ccAddr b 0 (routineOf (encI 0x22 3 0 256)) 0 256) 8 = .store ∧ b.world.failing [] 0 = false ∧ b.world.poisoned 0 = false) ∧
    (c.ccAt (0 : Fin 96).val (encI 0x20 3 1 0) { routineOf (encI 0x20 3 1 0) with ctx := 3 } ∧
      ccPlace 0 3 (ccAddr c 0 { routineOf (encI 0x20 3 1 0) with ctx := 3 } 1 0) 8 = .window ∧
      (c.dev.readReg (offOf (ccAddr c 0 { routineOf (encI 0x20 3 1 0) with ctx := 3 } 1 0))).isSome = true) := by
  refine ⟨⟨at_word (by decide), ?_⟩, ⟨at_word (by decide), (by decide +kernel : (atWord (encI 0x22 3 0 256) 16).mem.wf = true), ?_⟩,
    at_word (by decide), ?_⟩ <;> decide +kernel

theorem witness_RefusedAccessStopsTheRoutine :
    let a := atWord (encI 0x22 3 0 0xFFF8) 16
    a.ccAt (0 : Fin 96).val (encI 0x22 3 0 0xFFF8) (routineOf (encI 0x22 3 0 0xFFF8)) ∧
    ccPlace 0 16 (ccAddr a 0 (routineOf (encI 0x22 3 0 0xFFF8)) 0 0xFFF8) 8 = .refused := by
  refine ⟨at_word (by decide), ?_⟩; decide +kernel

theorem witness_RoutineAndPredicateLines :
    let l := lineOf 8 0 0
    let s := running [inPhase .launched l] [(0, leBytes 2 1)] id
    let p := lineOf 9 0 0x0A00
    let v := running [inPhase .launched p] [] id
    (s.live ∧ s.world.ready 0 0 unitCc = some (jobFor l 0) ∧ (s.dev.course 0).routine = none ∧
      tierOf 0 = 0 ∧ addrOk 0 0 = true ∧ courseOf 0 = 0 ∧ (s.world.checkBlocks (jobFor l 0) [] (blocksOf 0 16)).isNone = true ∧
      (s.world.checkBlocks (jobFor l 0) [] (blocksOf 0 20)).isNone = true ∧ (ccHdr (s.world.seenBytes 0 16)).len = 1) ∧
    (v.live ∧ v.world.ready 0 0 unitSetPred = some (jobFor p 0) ∧ lineAt (v.dev.course 0) 0 = some (inPhase .launched p)) := by
  refine ⟨⟨rfl, (line_ready (s := running [inPhase .launched (lineOf 8 0 0)] [(0, leBytes 2 1)] id) (l := lineOf 8 0 0) rfl rfl rfl (by decide +kernel)).2, rfl, ?_⟩,
    rfl, (line_ready (s := running [inPhase .launched (lineOf 9 0 0x0A00)] [] id) (l := lineOf 9 0 0x0A00) rfl rfl rfl (by decide +kernel)).2, rfl⟩
  decide +kernel

/-! ## Lines of the units -/

/-- A descriptor that a line has not kept, in blocks that are good. -/
def readsB (s : State) (j : Job) (a n : Nat) : Bool :=
  (tfind (s.world.readOf j) a).isNone && (s.world.checkBlocks j [] (blocksOf a n)).isNone && !(blocksOf a n).any s.world.poisoned

theorem reads_of {s : State} {j : Job} {a n : Nat} (h : readsB s j a n = true) : s.reads j [] a n (readBytes s.mem a n) := by
  simp only [readsB, Bool.and_eq_true, Option.isNone_iff_eq_none, Bool.not_eq_true'] at h
  simp only [State.reads, World.fetch, h.1.1, h.1.2, h.2]
  rfl

/-- No ladder is open, no line waits for what a block held, no tower is in core reset. -/
def calmB (d : Dev) : Bool := d.ladders.isEmpty && d.waits.isEmpty && d.towers.isEmpty

theorem calm_waits {d : Dev} (h : calmB d = true) (who a : Nat) : d.writeWaits who a = false := by
  simp only [calmB, Bool.and_eq_true, List.isEmpty_iff] at h
  obtain ⟨⟨l, w⟩, t⟩ := h
  have e (t' : Nat) : d.halted t' = false := by simp only [Dev.halted, Dev.tower, t]; rfl
  simp [Dev.writeWaits, Dev.blockHalted, l, w, e]

/-- In such a state no write of a unit waits. -/
theorem calm_writes {s : State} (h : calmB s.dev = true) (k : Work) (w : World) : s.writesGo k w := fun a _ => calm_waits h _ a

theorem calm_blocks {s : State} (h : calmB s.dev = true) (k : Work) (a n : Nat) : s.blocksGo k a n := fun b _ => calm_waits h _ b

/-- The start of a collective line's work lets it go on, with a property. -/
def goOk (e : EfStart) (f : World → EfPlan → Bool) : Bool :=
  match e with
  | .go w p => f w p
  | .stop _ | .other => false

theorem go_of {e : EfStart} {f : World → EfPlan → Bool} (h : goOk e f = true) : ∃ w p, e = .go w p ∧ f w p = true := by
  cases e with
  | go w p => exact ⟨w, p, rfl, h⟩
  | stop w | other => cases h

/-- A product of one INT8 by one INT8 element (R179, R180). -/
def maBytes : List Byte :=
  leBytes 8 0x1000 ++ leBytes 8 0x2000 ++ leBytes 8 0 ++ leBytes 8 0 ++ leBytes 4 1 ++ leBytes 2 1 ++ leBytes 2 1 ++ leBytes 4 16 ++ leBytes 4 16 ++
  leBytes 1 0x99 ++ leBytes 1 0 ++ leBytes 1 0 ++ leBytes 1 0 ++ leBytes 4 0 ++ leBytes 8 0x80

/-- Its accumulation (R206): span 0, INT32 output at 0x3000. -/
def accBytes (ctrl : Nat) : List Byte :=
  leBytes 8 0x3000 ++ leBytes 40 0 ++ leBytes 4 0 ++ leBytes 1 0 ++ leBytes 1 ctrl ++ leBytes 1 0 ++ leBytes 1 0x0A ++ leBytes 4 0x3F800000 ++
  leBytes 4 512 ++ leBytes 64 0

/-- A state with that product in line 0. -/
def maState (ctrl : Nat) : State :=
  running [inPhase .launched (lineOf 1 0 0)] [(0, maBytes), (0x80, accBytes ctrl), (0x1000, [3]), (0x2000, [5])] id

def maP (s : State) : MaDesc := maDesc (readBytes s.mem 0 64)
def maQ (s : State) : AccDesc := accDesc (readBytes s.mem 0x80 128)

/-- The work command on line 0 of course 0. -/
def work0 : Work := { course := 0, line := 0, bad := [] }

theorem ma_ready {s : State} (v : s.live) (l : lineAt (s.dev.course 0) 0 = some (inPhase .launched (lineOf 1 0 0)))
    (r : (s.dev.course 0).runner = some 16)
    (h : lineFree s (lineOf 1 0 0) unitMa = true ∧ readsB s (jobFor (lineOf 1 0 0) 0) 0 64 = true ∧ descOk 0 64 0 = true ∧ (maP s).ok 0 = true ∧
      (maP s).cost ≤ 1000000 ∧ s.dev.groupOf 0 16 = some 0 ∧ (maP s).abDesc = 0x80 ∧ readsB s (jobFor (lineOf 1 0 0) 0) 0x80 128 = true ∧
      (s.dev.accum 0 0).open_ = false ∧ descOk 0x80 128 0 = true ∧ (maQ s).ok 0 (s.dev.abPartition 0) (maP s).int8 = true ∧
      (maQ s).productOk (maP s) = true ∧ ((maQ s).finish = true → (maQ s).tied = true ∨ (maQ s).outOk 0 (maP s).m (maP s).n = true) ∧
      (maP s).leafBase - (maQ s).root = 0) :
    ProductReady s work0 (jobFor (lineOf 1 0 0) 0) (maP s) 0 (maQ s) := by
  obtain ⟨a, b, c, d, e, f, g, i, k, m, n, o, p, q⟩ := h
  refine ⟨line_ready v l r a, ⟨_, reads_of b, rfl⟩, ⟨c, d⟩, e, f, ⟨_, by rw [g]; exact reads_of i, rfl⟩, fun x => ?_, ⟨by rw [g]; exact m, n, o⟩, p, fun _ _ => q⟩
  simp only [jobFor, k] at x
  cases x

theorem witness_MatrixProductsIssue_finish :
    let s := maState 1
    let j := jobFor (lineOf 1 0 0) 0
    ProductReady s work0 j (maP s) 0 (maQ s) ∧ (∀ w, s.writesGo work0 w) ∧
    (s.world.checkBlocks j [] (productReads s.world j 0 (maP s) (maQ s))).isNone = true ∧
    (maQ s).finish = true ∧ (s.world.finishTiles j (maP s) (maQ s) (s.world.operandA (maP s)) (s.world.operandB (maP s))).ok = true := by
  refine ⟨ma_ready rfl rfl rfl (by decide +kernel), calm_writes (by decide +kernel) _, ?_⟩
  decide +kernel

theorem witness_MatrixProductsIssue_leaf :
    let s := maState 0
    let j := jobFor (lineOf 1 0 0) 0
    let w := s.world.onDev (fun d => d.openAccum j.course 0 (maP s).abDesc (maQ s) (maP s).int8)
    ProductReady s work0 j (maP s) 0 (maQ s) ∧ (∀ w, s.writesGo work0 w) ∧
    (s.world.checkBlocks j [] (productReads s.world j 0 (maP s) (maQ s))).isNone = true ∧
    (maQ s).finish = false ∧ (s.dev.accum 0 0).open_ = false ∧
    (w.openTile j 0 (maP s) (maQ s) (s.world.operandA (maP s)) (s.world.operandB (maP s))).ok = true := by
  refine ⟨ma_ready rfl rfl rfl (by decide +kernel), calm_writes (by decide +kernel) _, ?_⟩
  decide +kernel

/-- A DRAIN or IMPORT command on the accumulation at 0x80 (R208). -/
def abBytes (op tieU : Nat) : List Byte :=
  leBytes 1 op ++ leBytes 1 0 ++ leBytes 1 tieU ++ leBytes 1 0 ++ leBytes 4 0 ++ leBytes 8 0x80 ++ leBytes 8 (if op = 2 then 0x10000 else 0) ++ leBytes 8 0

/-- A tied accumulation of two uses, one tile (R206, R209). -/
def tiedBytes : List Byte :=
  leBytes 8 0x3000 ++ leBytes 16 0 ++ leBytes 8 0x40000 ++ leBytes 16 0 ++ leBytes 4 0 ++ leBytes 1 3 ++ leBytes 1 3 ++ leBytes 1 0 ++ leBytes 1 0x0A ++
  leBytes 4 0x3F800000 ++ leBytes 4 512 ++ leBytes 4 0 ++ leBytes 1 2 ++ leBytes 1 0 ++ leBytes 2 0 ++ leBytes 2 1 ++ leBytes 2 1 ++ leBytes 52 0

/-- A state with an AB command in line 0, whose group is open on 0x80 or not. -/
def abState (op tieU : Nat) (acc : List Byte) (op_ : Bool) : State :=
  running [inPhase .launched (lineOf 3 0 0)] [(0, abBytes op tieU), (0x80, acc)] (fun d =>
    if op_ then d.openAccum 0 0 0x80 (accDesc acc) true else d)

/-- The command and the accumulation of that state. -/
def abC (s : State) : AbCmd := abCmd (readBytes s.mem 0 32)
def abQ (s : State) : AccDesc := accDesc (readBytes s.mem 0x80 128)

theorem ab_ready {s : State} {op : Nat} (o : op = 1 ∨ op = 2) (v : s.live)
    (l : lineAt (s.dev.course 0) 0 = some (inPhase .launched (lineOf 3 0 0))) (r : (s.dev.course 0).runner = some 16)
    (h : lineFree s (lineOf 3 0 0) unitAb = true ∧ readsB s (jobFor (lineOf 3 0 0) 0) 0 32 = true ∧
      (op = 1 ↔ (abC s).op ≠ 2) ∧ s.dev.groupOf 0 16 = some 0 ∧ descOk 0 32 0 = true ∧ (abC s).acc = 0x80 ∧
      readsB s (jobFor (lineOf 3 0 0) 0) 0x80 128 = true ∧ ((s.dev.accum 0 0).open_ = true → (s.dev.accum 0 0).acc = 0x80) ∧
      (abQ s).ok 0 (s.dev.abPartition 0) (s.abInt op (jobFor (lineOf 3 0 0) 0) (abC s) 0 (abQ s)) = true ∧ (abC s).ok (abQ s) 0 = true ∧
      (op = 1 → (if (abQ s).tied then (abQ s).outOk 0 (abQ s).outM (abQ s).outN
        else (abQ s).outOk 0 (drainDims (abQ s) (s.dev.accum 0 0)).1 (drainDims (abQ s) (s.dev.accum 0 0)).2) = true) ∧
      (op = 1 → s.world.maPending (jobFor (lineOf 3 0 0) 0) 0x80 = false)) :
    AbReady s work0 op (jobFor (lineOf 3 0 0) 0) (abC s) 0 (abQ s) := by
  obtain ⟨a, b', c, d, e, f, g, i, k, m, n, p⟩ := h
  exact ⟨line_ready v l r a, ⟨_, reads_of b', rfl⟩, ⟨c, o⟩, d, ⟨e, by rw [f]; decide +kernel⟩, ⟨_, by rw [f]; exact reads_of g, rfl⟩,
    fun h => (i h).trans f.symm, ⟨k, m⟩, n, fun h => by rw [f]; exact p h⟩

theorem witness_AccumulatorLinesRun :
    let a := abState 1 0 (accBytes 0) true
    let b := abState 1 0 tiedBytes false
    let c := abState 2 0 (accBytes 0) false
    let e := abState 2 2 tiedBytes false
    let j := jobFor (lineOf 3 0 0) 0
    (AbReady a work0 1 j (abC a) 0 (abQ a) ∧ (abQ a).tied = false ∧
      (let st := a.dev.groupStack 0 0 (abQ a)
      let mn := drainDims (abQ a) (a.dev.accum 0 0)
      (a.dev.accum 0 0).open_ = true ∧ (a.world.checkBlocks j [] (st.spillBlocks ++ (drainParts (a.dev.accum 0 0).lastQuad mn.1 mn.2).flatMap
        (fun e => (abQ a).readsOf e.2.2.1 e.2.2.2.1 e.2.2.2.2.1 e.2.2.2.2.2 mn.2))).isNone = true)) ∧
    (AbReady b work0 1 j (abC b) 0 (abQ b) ∧ (abQ b).tied = true ∧ (abQ b).tieTiles = 1 ∧
      (b.world.checkBlocks j [] ((abQ b).tie :: (abQ b).readsOf 0 0 (min 128 (abQ b).outM) (min 128 (abQ b).outN) (abQ b).outN)).isNone = true ∧
      ∀ i < 8, bitOf (b.world.tieBits (abQ b) 0) i = false) ∧
    (AbReady c work0 2 j (abC c) 0 (abQ c) ∧ (abC c).tieU = 0 ∧
      (let o := c.world.onDev (fun d => d.openAccum 0 0 (abC c).acc (abQ c) (c.abInt 2 j (abC c) 0 (abQ c)))
      let st := o.d.groupStack 0 0 (abQ c)
      (c.dev.accum 0 0).open_ = false ∧ (abC c).offset = 0 ∧ (abC c).offset = st.next ∧ (abC c).offset % 2 ^ (abC c).level = 0 ∧
        (abC c).offset + 2 ^ (abC c).level ≤ 2 ^ st.span ∧
        (c.world.checkBlocks j [] (blocksOf (abC c).src 65536 ++ st.spillBlocks)).isNone = true)) ∧
    (AbReady e work0 2 j (abC e) 0 (abQ e) ∧ (abC e).tieU ≠ 0 ∧ (e.world.checkBlocks j [] ((abQ e).tie :: blocksOf (abC e).src 65536)).isNone = true ∧
      bitOf (e.world.tieBits (abQ e) (abC e).offset) ((abC e).tieU - 1) = false) ∧
    (∀ w, a.writesGo work0 w) ∧ (∀ w, b.writesGo work0 w) ∧ (∀ w, c.writesGo work0 w) ∧ ∀ w, e.writesGo work0 w := by
  refine ⟨⟨ab_ready (.inl rfl) rfl rfl rfl ?_, ?_⟩, ⟨ab_ready (.inl rfl) rfl rfl rfl ?_, ?_⟩, ⟨ab_ready (.inr rfl) rfl rfl rfl ?_, ?_⟩,
    ⟨ab_ready (.inr rfl) rfl rfl rfl ?_, ?_⟩, calm_writes ?_ _, calm_writes ?_ _, calm_writes ?_ _, calm_writes ?_ _⟩ <;> decide +kernel

/-- A control record of AB_SAVE of context 16 on course 0 with level 0 held (R210). -/
def savedBytes : List Byte :=
  leBytes 4 0x56534241 ++ leBytes 1 1 ++ leBytes 1 1 ++ leBytes 1 0 ++ leBytes 1 0 ++ leBytes 2 16 ++ leBytes 1 1 ++ leBytes 1 0 ++ leBytes 4 1 ++
  leBytes 4 1 ++ leBytes 4 0 ++ leBytes 8 0x80 ++ leBytes 480 0

theorem ready_any {s : State} {line unit : Nat} {f : Job → Bool} (v : s.live) (h : (s.world.ready 0 line unit).any f = true) :
    ∃ j, s.lineReady 0 line unit j ∧ f j = true := by
  rw [Option.any_eq_true] at h
  obtain ⟨j, e, o⟩ := h
  exact ⟨j, ⟨v, e⟩, o⟩

/-- A save or restore of course 0's group at 0x100000; with an earlier product that issues or not. -/
def saveState (unit : Nat) (busy : Bool) (m : List (Nat × List Byte)) : State :=
  if busy then running [inPhase .launched (lineOf 1 0 0), inPhase .launched (lineOf unit 0 0x100000)] m id
  else running [inPhase .launched (lineOf unit 0 0x100000)] m id

theorem witness_AccumulatorLinesRun_save :
    let s := saveState unitSave false []
    let v := saveState unitRestore false [(0x100000, savedBytes)]
    let sb := saveState unitSave true []
    let vb := saveState unitRestore true []
    let j := jobFor (lineOf unitRestore 0 0x100000) 0
    let b := readBytes v.mem 0x100000 512
    (s.lineReady 0 0 unitSave (jobFor (lineOf unitSave 0 0x100000) 0) ∧ s.memInv ∧ (∀ a n, s.blocksGo work0 a n) ∧ s.dev.groupOf 0 16 = some 0 ∧
      s.world.maIssuing (jobFor (lineOf unitSave 0 0x100000) 0) = false ∧ 0x100000 % 512 = 0 ∧
      maRegion 0 0x100000 (512 + 65536 * groupSlots (s.dev.abPartition 0)) = true) ∧
    (v.lineReady 0 0 unitRestore j ∧ v.reads j [] 0x100000 512 b ∧ v.dev.groupOf 0 16 = some 0 ∧ v.world.maIssuing j = false ∧
      numAt b 0 4 = 0x56534241 ∧ numAt b 4 1 = 1 ∧ numAt b 5 1 = v.dev.abPartition 0 ∧ numAt b 7 1 = 0 ∧ numAt b 8 2 = 16 ∧
      (v.dev.accum 0 0).open_ = false ∧ numAt b 12 4 % 2 ^ 17 = 1 ∧
      (v.world.checkBlocks j [] (blocksOf (0x100000 + 512 + 65536 * 2) 65536)).isNone = true) ∧
    (∃ j, sb.lineReady 0 1 unitSave j ∧ (sb.dev.groupOf 0 j.ctx == some 0 && sb.world.maIssuing j) = true) ∧
    ∃ j, vb.lineReady 0 1 unitRestore j ∧ (vb.dev.groupOf 0 j.ctx == some 0 && vb.world.maIssuing j) = true := by
  refine ⟨⟨line_ready (l := lineOf unitSave 0 0x100000) rfl rfl rfl (by decide +kernel), (by decide +kernel : (saveState unitSave false []).mem.wf = true),
      calm_blocks (by decide +kernel) _, ?_⟩,
    ⟨line_ready (l := lineOf unitRestore 0 0x100000) rfl rfl rfl (by decide +kernel), reads_of (by decide +kernel), ?_⟩,
    ready_any rfl ?_, ready_any rfl ?_⟩ <;> decide +kernel

/-- A vector COPY of four FP32 elements from 0x1000 to 0x2000: the command at 0, its tensors at 0x40 and 0x80 (R234, R243). -/
def veBytes (op : Nat) : List Byte :=
  let t (a : Nat) := leBytes 8 a ++ leBytes 8 0 ++ leBytes 4 4 ++ leBytes 16 0x01000000010000000100000001 ++ leBytes 16 0 ++ leBytes 1 0 ++ leBytes 1 1 ++ leBytes 10 0
  leBytes 2 op ++ leBytes 6 0 ++ leBytes 8 0x40 ++ leBytes 16 0 ++ leBytes 8 0x80 ++ leBytes 24 0 ++ t 0x1000 ++ t 0x2000

/-- The operation and tensor descriptors of a vector line are read. -/
theorem veFetch_of {w : World} {j : Job} {p : VePlan} {bl : List Nat}
    (e : (p.refs.flatMap (fun a => if descOk a 64 j.course && (tfind (w.readOf j) a).isNone then blocksOf a 64 else [])).eraseDups = bl)
    (h : (w.checkBlocks j [] bl).isNone = true ∧ bl.any w.poisoned = false) : w.veFetch j [] p = .got [] false := by
  have c := Option.isNone_iff_eq_none.mp h.1
  simp only [World.veFetch, e, c, h.2]

/-- The state of that line. -/
def veState : State := running [inPhase .launched (lineOf 2 0 0)] [(0, veBytes 1)] id

theorem witness_VectorLinesIssue :
    let s := veState
    let j := jobFor (lineOf 2 0 0) 0
    let b := readBytes s.mem 0 64
    let p := vePlan (s.world.descMem j) 0
    (Instr.veCopy, 0x01) ∈ veTable ∧ s.lineReady 0 0 unitVe j ∧ s.reads j [] 0 64 b ∧ (veOp b).op = 0x01 ∧
    s.world.veFetch j [] p = .got [] false ∧ (∀ w, s.writesGo work0 w) ∧ (p.bad 0).isNone = true ∧ p.cost ≤ j.ln.wcCompute := by
  refine ⟨by simp [veTable], line_ready (l := lineOf 2 0 0) rfl rfl rfl (by decide +kernel), reads_of (by decide +kernel), by decide +kernel,
    veFetch_of (bl := [0]) (by decide +kernel) (by decide +kernel), calm_writes (by decide +kernel) _, ?_⟩
  decide +kernel

/-- Every command of a unit answers. -/
theorem work_next (s : State) (k : Work) (f : World → World) : ∃ t, runWork s k f = .next t := ⟨_, rfl⟩

/-- That state, where its store has to wait: a launched line of course 1 waits for what the block of its result held (R301). -/
def veWaiting : State :=
  { veState with dev := { veState.dev with
      waits := [(0x2000, whoLine 1 0)], courses := tput veState.dev.courses 1 { Course.init with lines := [inPhase .launched (lineOf 2 0 0)] } } }

theorem witness_VectorLinesStoreOnlyTheirResult :
    ((Instr.veCopy, 0x01) ∈ veTable ∧ veState.lineReady 0 0 unitVe (jobFor (lineOf 2 0 0) 0) ∧ ∃ t, exec (.veCopy work0) veState = .next t) ∧
    (veWaiting.lineReady 0 0 unitVe (jobFor (lineOf 2 0 0) 0) ∧
      (∃ r ∈ veWaiting.world.veStores (jobFor (lineOf 2 0 0) 0) (vePlan (veWaiting.world.descMem (jobFor (lineOf 2 0 0) 0)) 0),
        r.2 ≠ [] ∧ ∃ b ∈ blocksOf r.1 r.2.length, veWaiting.dev.writeWaits (whoLine 0 0) b = true) ∧
      ∃ t, exec (.veCopy work0) veWaiting = .next t) :=
  ⟨⟨by simp [veTable], line_ready (s := veState) (l := lineOf 2 0 0) rfl rfl rfl (by decide +kernel), work_next veState work0 (doVeCopy work0)⟩,
   line_ready (s := veWaiting) (l := lineOf 2 0 0) rfl rfl rfl (by decide +kernel), by decide +kernel, work_next veWaiting work0 (doVeCopy work0)⟩

/-- A mover command of one block (R292). -/
def mvBytes (op src dst : Nat) : List Byte :=
  leBytes 1 op ++ leBytes 3 0 ++ leBytes 4 1 ++ leBytes 8 src ++ leBytes 8 dst ++ leBytes 4 1 ++ leBytes 28 0 ++ leBytes 8 0

/-- Its line, of the PATH of its route. -/
def mvLine (src dst : Nat) : Line := { lineOf 4 0 0 with path := if tierOf src = 3 ∨ tierOf dst = 3 then 3 else 0 }

def mvState (op src dst prog : Nat) (f : Dev → Dev) : State :=
  running [{ inPhase .launched (mvLine src dst) with prog := prog }] [(0, mvBytes op src dst), (0x1000, [1, 2, 3])] f

def mvDesc (op src dst prog : Nat) (f : Dev → Dev) : MoverDesc := moverDesc (readBytes (mvState op src dst prog f).mem 0 64)

theorem mv_ready {s : State} {l : Line} {op prog : Nat} (v : s.live)
    (x : lineAt (s.dev.course 0) 0 = some { inPhase .launched l with prog := prog }) (r : (s.dev.course 0).runner = some 16)
    (h : let m := moverDesc (readBytes s.mem 0 64)
      l.desc = 0 ∧ lineFree s l unitMover = true ∧ readsB s (jobFor l prog) 0 64 = true ∧ (descOk 0 64 0 = true ∧ m.ok (farBytes s.dev) 0 = true) ∧
      m.op = op ∧ (moverRoute s (jobFor l prog) m).path = l.path ∧
      64 + (moverRoute s (jobFor l prog) m).lat + m.cycles (moverRoute s (jobFor l prog) m) ≤ l.wcCompute + l.wcXfer) :
    MoverReady s work0 op (jobFor l prog) (moverDesc (readBytes s.mem 0 64)) := by
  obtain ⟨z, a, b, c, d, e, f⟩ := h
  have zj : (jobFor l prog).ln.desc = 0 := z
  exact ⟨line_ready v x r a, ⟨_, by rw [zj]; exact reads_of b, rfl⟩, by rw [zj]; exact c, d, e, fun _ => f⟩

theorem witness_MoverCopiesBlocks :
    let s := mvState 1 0x1000 0x2000 0 id
    let m := mvDesc 1 0x1000 0x2000 0 id
    MoverReady s work0 1 (jobFor (mvLine 0x1000 0x2000) 0) m ∧ s.memInv ∧ (∀ e ∈ m.pairs, s.blocksGo work0 e.2 512) ∧ tierOf m.src ≠ 3 ∧ tierOf m.dst ≠ 3 ∧
    (s.world.checkBlocks (jobFor (mvLine 0x1000 0x2000) 0) [] (m.pairs.map (·.1))).isNone = true := by
  refine ⟨mv_ready rfl rfl rfl (by decide +kernel), (by decide +kernel : (mvState 1 0x1000 0x2000 0 id).mem.wf = true), fun e _ => calm_blocks (by decide +kernel) _ _ _, ?_⟩
  decide +kernel

/-- The host link of port 1, whose far store is the memory of the host, in service (R436). -/
def farUp (d : Dev) : Dev := (d.setFld HL_FAR_MAP 12 0 1).setLinkState 25 2

theorem witness_MoverFillsScrubsAndAsks :
    let far := farAddr 0
    let got (d : Dev) : Dev := { farUp d with hl := { d.hl with farGot := [{ who := whoLine 0 0, addr := far, blk := mkBlk [] }] } }
    let busy (d : Dev) : Dev := { farUp d with hl := { d.hl with far := [{ quarter := 1, tag := 0, sent := false, opcode := 1, off := 0, count := 1, reread := false, medium := false, who := whoLine 0 0, ctx := 16, blocks := [] }] } }
    (MoverReady (mvState 3 0 0x2000 0 id) work0 3 (jobFor (mvLine 0 0x2000) 0) (mvDesc 3 0 0x2000 0 id) ∧ (mvState 3 0 0x2000 0 id).memInv ∧ ∀ a n, (mvState 3 0 0x2000 0 id).blocksGo work0 a n) ∧
    (MoverReady (mvState 4 0x1000 0 0 id) work0 4 (jobFor (mvLine 0x1000 0) 0) (mvDesc 4 0x1000 0 0 id) ∧ tierOf (mvDesc 4 0x1000 0 0 id).src ≠ 3 ∧
      ((mvState 4 0x1000 0 0 id).world.checkBlocks (jobFor (mvLine 0x1000 0) 0) [] ((mvDesc 4 0x1000 0 0 id).pairs.map (·.1))).isNone = true) ∧
    (MoverReady (mvState 1 0x1000 far 0 farUp) work0 1 (jobFor (mvLine 0x1000 far) 0) (mvDesc 1 0x1000 far 0 farUp) ∧
      tierOf (mvDesc 1 0x1000 far 0 farUp).src ≠ 3 ∧ tierOf (mvDesc 1 0x1000 far 0 farUp).dst = 3 ∧
      ((mvState 1 0x1000 far 0 farUp).world.checkBlocks (jobFor (mvLine 0x1000 far) 0) [] ((mvDesc 1 0x1000 far 0 farUp).pairs.map (·.1))).isNone = true) ∧
    (MoverReady (mvState 1 far 0x2000 0 farUp) work0 1 (jobFor (mvLine far 0x2000) 0) (mvDesc 1 far 0x2000 0 farUp) ∧ tierOf (mvDesc 1 far 0x2000 0 farUp).src = 3) ∧
    (MoverReady (mvState 1 far 0x2000 1 busy) work0 1 (jobFor (mvLine far 0x2000) 1) (mvDesc 1 far 0x2000 1 busy) ∧
      tierOf (mvDesc 1 far 0x2000 1 busy).src = 3 ∧ (mvState 1 far 0x2000 1 busy).dev.farBusy (whoLine 0 0) = true) ∧
    (MoverReady (mvState 1 far 0x2000 1 got) work0 1 (jobFor (mvLine far 0x2000) 1) (mvDesc 1 far 0x2000 1 got) ∧
      tierOf (mvDesc 1 far 0x2000 1 got).src = 3 ∧ (mvState 1 far 0x2000 1 got).dev.farBusy (whoLine 0 0) = false ∧
      ((mvDesc 1 far 0x2000 1 got).pairs.filterMap (fun e => ((mvState 1 far 0x2000 1 got).dev.farBlk (whoLine 0 0) e.1).map
        (fun b => (e.2, b)))).length = (mvDesc 1 far 0x2000 1 got).pairs.length ∧ tierOf (mvDesc 1 far 0x2000 1 got).dst ≠ 3) ∧
    (∀ a n, (mvState 1 far 0x2000 1 got).blocksGo work0 a n) := by
  refine ⟨⟨mv_ready rfl rfl rfl (by decide +kernel), (by decide +kernel : (mvState 3 0 0x2000 0 id).mem.wf = true),
      calm_blocks (by decide +kernel) _⟩,
    ⟨mv_ready rfl rfl rfl (by decide +kernel), ?_⟩, ⟨mv_ready rfl rfl rfl (by decide +kernel), ?_⟩,
    ⟨mv_ready rfl rfl rfl (by decide +kernel), ?_⟩, ⟨mv_ready rfl rfl rfl (by decide +kernel), ?_⟩,
    ⟨mv_ready rfl rfl rfl (by decide +kernel), ?_⟩, calm_blocks ?_ _⟩ <;> decide +kernel

/-! ## Collectives and the update engine -/

/-- A collective descriptor (R366): tables and regions of tower 0's near store, residuals in its deep store. -/
def collBytes (kind op fmt comp g ports count : Nat) : List Byte :=
  leBytes 1 kind ++ leBytes 1 op ++ leBytes 1 fmt ++ leBytes 1 fmt ++ leBytes 2 0 ++ leBytes 1 comp ++ leBytes 1 0 ++ leBytes 2 g ++ leBytes 2 5 ++
  leBytes 4 0 ++ leBytes 8 (if kind = 6 then 0 else nearAddr 0 0) ++ leBytes 8 (nearAddr 0 0x10000) ++ leBytes 8 (nearAddr 0 0x40000) ++
  leBytes 8 (nearAddr 0 0x1000) ++ leBytes 8 (if comp = 0 then 0 else deepAddr 0 0) ++ leBytes 4 0 ++ leBytes 4 ports ++ leBytes 2 0xFFFF ++
  leBytes 2 count ++ leBytes 8 (nearAddr 0 0x80000) ++ leBytes 52 0

/-- A line of PATH 4, which the collective engines take. -/
def efLine (unit : Nat) : Line := { lineOf unit 0 0 with path := 4 }

/-- That descriptor in line 0 of rank 1 of a hedge of two, or of a hedge of one. -/
def collState (b : List Byte) (n prog : Nat) (shards : List Byte) (f : Dev → Dev) : State :=
  running [{ inPhase .launched (efLine 6) with prog := prog }]
    [(0, b), (nearAddr 0 0, leBytes 2 0 ++ leBytes 2 (n - 1)), (nearAddr 0 0x1000, shards)]
    (fun d => f { d with hedge := { joined := true, size := n, rank := n - 1, route := if n = 2 then pairImage else [] } })

/-- The start of its work. -/
def collStart (b : List Byte) (n prog : Nat) (shards : List Byte) (f : Dev → Dev) (kind : Nat) : EfStart :=
  (collState b n prog shards f).world.efStart (jobFor (efLine 6) prog) [] kind

theorem coll_goes {b shards : List Byte} {n prog kind : Nat} {f : Dev → Dev} {ok : World → EfPlan → Bool}
    (v : (collState b n prog shards f).live)
    (l : lineAt ((collState b n prog shards f).dev.course 0) 0 = some { inPhase .launched (efLine 6) with prog := prog })
    (r : ((collState b n prog shards f).dev.course 0).runner = some 16)
    (h : lineFree (collState b n prog shards f) (efLine 6) unitColl = true ∧ calmB (collState b n prog shards f).dev = true ∧
      goOk (collStart b n prog shards f kind) ok = true) :
    ∃ w p, (collState b n prog shards f).collGoes work0 kind (jobFor (efLine 6) prog) w p ∧
      (∀ v, (collState b n prog shards f).writesGo work0 v) ∧ ok w p = true := by
  obtain ⟨w, p, e, o⟩ := go_of h.2.2
  exact ⟨w, p, ⟨line_ready v l r h.1, e⟩, calm_writes h.2.1 _, o⟩

/-- A send descriptor of one block to rank 0 (R356). -/
def sendBytes_ : List Byte :=
  leBytes 2 0 ++ leBytes 2 20 ++ leBytes 2 0 ++ leBytes 2 0 ++ leBytes 4 1 ++ leBytes 4 8 ++ leBytes 8 0x1000 ++ leBytes 8 0x5000 ++ leBytes 32 0

def sendState : State :=
  running [inPhase .launched (efLine 5)] [(0, sendBytes_)] (fun d => { d with hedge := { joined := true, size := 2, rank := 1, route := pairImage } })

theorem witness_SendsLeaveTheDevice :
    (sendState.lineReady 0 0 unitP2p (jobFor (efLine 5) 0) ∧
      ∃ w p, sendState.world.efStart (jobFor (efLine 5) 0) [] 7 = .go w p ∧
        (w.checkBlocks (jobFor (efLine 5) 0) [] (blocksOf p.send.src (512 * p.send.blocks))).isNone = true) ∧
    (∃ w p, (collState (collBytes 4 0 0 0 2 0 0) 2 1 [] id).collGoes work0 4 (jobFor (efLine 6) 1) w p ∧ (∀ v, (collState (collBytes 4 0 0 0 2 0 0) 2 1 [] id).writesGo work0 v) ∧ true = true) ∧
    (∃ w p, (collState (collBytes 4 0 0 0 2 0 0) 2 1 [] id).collGoes work0 4 (jobFor (efLine 6) 1) w p ∧ (∀ v, (collState (collBytes 4 0 0 0 2 0 0) 2 1 [] id).writesGo work0 v) ∧
      (w.checkBlocks (jobFor (efLine 6) 0) [] (p.g.a2a.flatMap (fun e => blocksOf e.sendAddr (512 * e.sendBlocks)))).isNone = true) := by
  refine ⟨⟨line_ready rfl rfl rfl (by decide +kernel), go_of (by decide +kernel)⟩, coll_goes rfl rfl rfl (by decide +kernel),
    coll_goes rfl rfl rfl (by decide +kernel)⟩

/-- Two empty shards, and shards of 256 elements. -/
def shards2 (n : Nat) : List Byte := leBytes 4 n ++ leBytes 4 n

theorem witness_ReduceScatterStepsHalve :
    (∃ w p, (collState (collBytes 1 1 0 0 2 8 0) 2 0 (shards2 256) id).collGoes work0 1 (jobFor (efLine 6) 0) w p ∧ (∀ v, (collState (collBytes 1 1 0 0 2 8 0) 2 0 (shards2 256) id).writesGo work0 v) ∧
      (p.coll.mode == 0 && p.g.k != 0 && (w.checkBlocks (jobFor (efLine 6) 0) [] (blocksOf p.coll.src (p.g.total * elemBits p.coll.fmtIn / 8))).isNone) = true) ∧
    (∃ w p, (collState (collBytes 3 1 0 0 1 0 0) 1 0 (shards2 256) id).collGoes work0 3 (jobFor (efLine 6) 0) w p ∧ (∀ v, (collState (collBytes 3 1 0 0 1 0 0) 1 0 (shards2 256) id).writesGo work0 v) ∧
      (p.coll.mode == 0 && p.g.k == 0 && (w.checkBlocks (jobFor (efLine 6) 0) [] (blocksOf p.coll.src (p.g.total * elemBits p.coll.fmtIn / 8))).isNone) = true) ∧
    (∃ w p, (collState (collBytes 1 1 0 0 2 8 0) 2 1 (shards2 256) id).collGoes work0 1 (jobFor (efLine 6) 1) w p ∧ (∀ v, (collState (collBytes 1 1 0 0 2 8 0) 2 1 (shards2 256) id).writesGo work0 v) ∧
      (p.coll.mode == 0 && (w.d.rxBlocks 16 p.coll.tag (p.g.rankOf (p.g.p ^^^ 1)) 0
        (ceilDiv (p.coll.nodeBytes p.g 0 (p.g.keep 1)) 512)).isNone) = true) ∧
    (∃ w p, (collState (collBytes 1 1 0 0 2 8 0) 2 1 (shards2 0) id).collGoes work0 1 (jobFor (efLine 6) 1) w p ∧ (∀ v, (collState (collBytes 1 1 0 0 2 8 0) 2 1 (shards2 0) id).writesGo work0 v) ∧
      (p.coll.mode == 0 && (w.d.rxBlocks 16 p.coll.tag (p.g.rankOf (p.g.p ^^^ 1)) 0
        (ceilDiv (p.coll.nodeBytes p.g 0 (p.g.keep 1)) 512)).isSome) = true) ∧
    (∃ w p, (collState (collBytes 1 1 1 1 2 8 0) 2 0 (shards2 0) id).collGoes work0 1 (jobFor (efLine 6) 0) w p ∧ (∀ v, (collState (collBytes 1 1 1 1 2 8 0) 2 0 (shards2 0) id).writesGo work0 v) ∧
      (p.coll.mode != 0 && (w.checkBlocks (jobFor (efLine 6) 0) [] (blocksOf p.coll.src (p.g.total * elemBits p.coll.fmtIn / 8) ++
        blocksOf (p.coll.res + 4 * p.g.total * w.d.resPhase p.coll.slot) (4 * p.g.total))).isNone) = true) ∧
    (∃ w p, (collState (collBytes 1 1 1 1 2 8 0) 2 1 (shards2 0) id).collGoes work0 1 (jobFor (efLine 6) 1) w p ∧ (∀ v, (collState (collBytes 1 1 1 1 2 8 0) 2 1 (shards2 0) id).writesGo work0 v) ∧
      (p.coll.mode != 0 && (w.d.rxBlocks 16 p.coll.tag (p.g.rankOf (p.g.p ^^^ 1)) 0
        (ceilDiv (p.coll.nodeBytes p.g 0 (p.g.keep 1)) 512)).isSome) = true) := by
  refine ⟨coll_goes rfl rfl rfl ?_, coll_goes rfl rfl rfl ?_, coll_goes rfl rfl rfl ?_, coll_goes rfl rfl rfl ?_, coll_goes rfl rfl rfl ?_,
    coll_goes rfl rfl rfl ?_⟩ <;> decide +kernel

theorem witness_AllGatherStepsDouble :
    (∃ w p, (collState (collBytes 2 0 0 0 2 8 0) 2 0 (shards2 256) id).collGoes work0 2 (jobFor (efLine 6) 0) w p ∧ (∀ v, (collState (collBytes 2 0 0 0 2 8 0) 2 0 (shards2 256) id).writesGo work0 v) ∧
      (let n := p.g.shard p.g.p * elemBits p.coll.fmtOut / 8
      (w.checkBlocks (jobFor (efLine 6) 0) [] (blocksOf p.coll.src n ++
        partialBlocks (p.coll.dst + p.g.offset p.g.p * elemBits p.coll.fmtOut / 8) n).eraseDups).isNone) = true) ∧
    (∃ w p, (collState (collBytes 2 0 0 0 2 8 0) 2 1 (shards2 256) id).collGoes work0 2 (jobFor (efLine 6) 1) w p ∧ (∀ v, (collState (collBytes 2 0 0 0 2 8 0) 2 1 (shards2 256) id).writesGo work0 v) ∧
      (let h := p.coll.held p.g 0 (p.g.p ^^^ 1)
      (w.checkBlocks (jobFor (efLine 6) 1) [] (partialBlocks (p.coll.dst + h.1) h.2).eraseDups).isNone && p.g.k == 1 &&
        (w.d.rxBlocks 16 p.coll.tag (p.g.rankOf (p.g.p ^^^ 1)) 0 (ceilDiv h.2 512)).isNone) = true) ∧
    (∃ w p, (collState (collBytes 3 1 0 0 2 8 0) 2 2 (shards2 0) id).collGoes work0 3 (jobFor (efLine 6) 2) w p ∧ (∀ v, (collState (collBytes 3 1 0 0 2 8 0) 2 2 (shards2 0) id).writesGo work0 v) ∧
      (p.g.k == 1 && (let h := p.coll.held p.g 0 (p.g.p ^^^ 1)
      (w.checkBlocks (jobFor (efLine 6) 2) [] (partialBlocks (p.coll.dst + h.1) h.2).eraseDups).isNone && (w.d.rxBlocks 16 p.coll.tag (p.g.rankOf (p.g.p ^^^ 1)) 1 (ceilDiv h.2 512)).isSome)) = true) := by
  refine ⟨coll_goes rfl rfl rfl ?_, coll_goes rfl rfl rfl ?_, coll_goes rfl rfl rfl ?_⟩ <;> decide +kernel

/-- One value from rank 0 at step 0 of the collective of tag 5. -/
def gotValue (d : Dev) : Dev := { d with srx := [{ dest := 1, src := 0, tag := 5, step := 0, first := 0, values := [1] }] }

/-- Slot 0 open for context 16, the next bucket of its norm being 1. -/
def normAhead (d : Dev) : Dev :=
  { (d.setSlotState 0 slotOpen).setFld (slotBase 0) 13 0 16 with slots := [(0, { Slot.init with normNext := 1 })] }

theorem witness_ScalarLaneReduces :
    (∃ w p, (collState (collBytes 5 1 0 0 1 0 1) 1 0 [] id).collGoes work0 5 (jobFor (efLine 6) 0) w p ∧ (∀ v, (collState (collBytes 5 1 0 0 1 0 1) 1 0 [] id).writesGo work0 v) ∧
      (p.g.k == 0 && (w.checkBlocks (jobFor (efLine 6) 0) []
        ((blocksOf p.coll.src (4 * p.coll.count) ++ partialBlocks p.coll.dst (4 * p.coll.count)).eraseDups)).isNone) = true) ∧
    (∃ w p, (collState (collBytes 5 1 0 0 2 8 1) 2 1 [] (fun d => { d with efVals := [(0, [1])] })).collGoes work0 5 (jobFor (efLine 6) 1) w p ∧ (∀ v, (collState (collBytes 5 1 0 0 2 8 1) 2 1 [] (fun d => { d with efVals := [(0, [1])] })).writesGo work0 v) ∧
      (w.laneStep p.coll p.g p.coll.op 0 ((tget [] w.d.efVals (whoLine 0 0)).map (·.toNat))).isNone = true) ∧
    (∃ w p, (collState (collBytes 5 1 0 0 2 8 1) 2 1 [] (fun d => { gotValue d with efVals := [(0, [1])] })).collGoes work0 5 (jobFor (efLine 6) 1) w p ∧ (∀ v, (collState (collBytes 5 1 0 0 2 8 1) 2 1 [] (fun d => { gotValue d with efVals := [(0, [1])] })).writesGo work0 v) ∧
      (w.laneStep p.coll p.g p.coll.op 0 ((tget [] w.d.efVals (whoLine 0 0)).map (·.toNat))).isSome = true) ∧
    (∃ w p, (collState (collBytes 6 0 0 0 0 8 0) 2 0 [] (fun d => (d.setSlotState 0 slotOpen).setFld (slotBase 0) 13 0 16)).collGoes work0 6 (jobFor (efLine 6) 0) w p ∧ (∀ v, (collState (collBytes 6 0 0 0 0 8 0) 2 0 [] (fun d => (d.setSlotState 0 slotOpen).setFld (slotBase 0) 13 0 16)).writesGo work0 v) ∧
      (w.d.slotOpenFor p.coll.slot 16 && p.coll.bucket == (w.d.slot p.coll.slot).normNext) = true) ∧
    (∃ w p, (collState (collBytes 6 0 0 0 0 8 0) 2 0 [] normAhead).collGoes work0 6 (jobFor (efLine 6) 0) w p ∧
      (∀ v, (collState (collBytes 6 0 0 0 0 8 0) 2 0 [] normAhead).writesGo work0 v) ∧
      (w.d.slotOpenFor p.coll.slot 16 && p.coll.bucket != (w.d.slot p.coll.slot).normNext) = true) ∧
    (∃ w p, (collState (collBytes 6 0 0 0 0 8 0) 2 1 [] (fun d => (({ gotValue d with efVals := [(0, [1])] }).setSlotState 0 slotOpen).setFld
        (slotBase 0) 13 0 16)).collGoes work0 6 (jobFor (efLine 6) 1) w p ∧ (∀ v, (collState (collBytes 6 0 0 0 0 8 0) 2 1 [] (fun d => (({ gotValue d with efVals := [(0, [1])] }).setSlotState 0 slotOpen).setFld
        (slotBase 0) 13 0 16)).writesGo work0 v) ∧
      (w.d.slotOpenFor p.coll.slot 16 && p.g.k == 1 &&
        (w.laneStep p.coll p.g 1 0 ((tget [] w.d.efVals (whoLine 0 0)).map (·.toNat))).isSome) = true) := by
  refine ⟨coll_goes rfl rfl rfl ?_, coll_goes rfl rfl rfl ?_, coll_goes rfl rfl rfl ?_, coll_goes rfl rfl rfl ?_, coll_goes rfl rfl rfl ?_,
    coll_goes rfl rfl rfl ?_⟩ <;> decide +kernel

/-- An update-engine pass over 64 parameters of slot 0 (R314); `aux` is its parameter block, table or tree. -/
def ueBytes (kind count aux : Nat) : List Byte :=
  leBytes 1 kind ++ leBytes 1 0 ++ leBytes 1 (if kind = 2 then 1 else 0) ++ leBytes 1 0 ++ leBytes 1 1 ++ leBytes 1 0 ++ leBytes 2 0 ++
  leBytes 4 count ++ leBytes 4 0 ++ leBytes 8 (nearAddr 0 0x10000) ++ leBytes 8 (deepAddr 0 0) ++ leBytes 8 (deepAddr 0 0x10000) ++
  leBytes 8 (deepAddr 0 0x20000) ++ leBytes 8 (deepAddr 0 0x30000) ++ leBytes 8 (nearAddr 0 0x20000) ++ leBytes 8 0 ++ leBytes 8 aux ++
  leBytes 8 0 ++ leBytes 8 0 ++ leBytes 32 0

/-- A parameter block: β1 and β2 one half, loss scale exponent 0 to 31, an initial T of 1, its record at tower 0's near store (R308, R309). -/
def paramBytes : List Byte :=
  leBytes 4 0x3C23D70A ++ leBytes 4 0x3F000000 ++ leBytes 4 0x3F000000 ++ leBytes 40 0 ++ leBytes 1 0 ++ leBytes 1 0 ++ leBytes 1 0 ++ leBytes 1 31 ++ leBytes 6 0 ++
  leBytes 1 1 ++ leBytes 1 0 ++ leBytes 16 0 ++ leBytes 8 0x10000 ++ leBytes 168 0

def ueState (kind count aux st : Nat) (f : Dev → Dev) : State :=
  running [inPhase .launched (lineOf 7 0 0)] [(0, ueBytes kind count aux), (nearAddr 0 0, paramBytes)] (fun d =>
    f (((d.setSlotState 0 st).setFld (slotBase 0) 13 0 16)))

/-- The descriptor of such a state. -/
def ueD (s : State) : UeDesc := ueDesc (readBytes s.mem 0 128)

theorem ue_ready {s : State} {kind : Nat} (v : s.live) (l : lineAt (s.dev.course 0) 0 = some (inPhase .launched (lineOf 7 0 0)))
    (r : (s.dev.course 0).runner = some 16)
    (h : lineFree s (lineOf 7 0 0) unitUe = true ∧ readsB s (jobFor (lineOf 7 0 0) 0) 0 128 = true ∧
      (ueD s).kind = kind ∧ (ueD s).bad s.mem (farBytes s.dev) 0 0 = none ∧ ((ueD s).least s.mem).1 ≤ 1000000 ∧ ((ueD s).least s.mem).2.1 ≤ 1000000 ∧
      (s.dev.slotState (ueD s).slot = slotFree ∨ s.dev.slotCtx (ueD s).slot = 16)) :
    PassReady s work0 kind (jobFor (lineOf 7 0 0) 0) (ueD s) := by
  obtain ⟨a, b, c, d, e, g, i⟩ := h
  exact ⟨line_ready v l r a, ⟨_, reads_of b, rfl⟩, c, d, e, g, i⟩

theorem witness_UpdatePassesRun_open :
    let s := ueState 1 64 (nearAddr 0 0) slotFree id
    let b := readBytes s.mem (nearAddr 0 0) 256
    PassReady s work0 1 (jobFor (lineOf 7 0 0) 0) (ueD s) ∧ s.dev.slotState (ueD s).slot ≠ slotOpen ∧ s.dev.slotState (ueD s).slot ≠ slotNormed ∧
    s.reads (jobFor (lineOf 7 0 0) 0) [] (nearAddr 0 0) 256 b ∧ (ueD s).aux = nearAddr 0 0 ∧ paramOk b (s.dev.slotState (ueD s).slot == slotFree) = true ∧
    parRecord b % 512 = 0 ∧ parRecord b + 512 ≤ 2 ^ 31 := by
  refine ⟨ue_ready rfl rfl rfl (by decide +kernel), by decide +kernel, by decide +kernel, reads_of (by decide +kernel), by decide +kernel,
    by decide +kernel, by decide +kernel, by decide +kernel⟩

/-- The slot's step T is 3, and its digests are due every 2 steps. -/
def notDue (d : Dev) : Dev :=
  { d.setFld (slotBase 0 + 8) 63 0 3 with slots := [(0, { Slot.init with param := paramBytes.take 60 ++ leBytes 2 2 })] }

theorem witness_UpdatePassesRun_passes :
    let skip := ueState 2 64 0 slotSkipped id
    let upd := ueState 2 64 0 slotClean id
    let p1 := ueState 3 64 (nearAddr 0 0x30000) slotClean id
    let p2 := ueState 4 64 (nearAddr 0 0x30000) slotClean id
    let dig := ueState 5 512 (nearAddr 0 0x30000) slotClean id
    let idle := ueState 5 512 (nearAddr 0 0x30000) slotClean notDue
    let j := jobFor (lineOf 7 0 0) 0
    (PassReady skip work0 2 j (ueD skip) ∧ skip.dev.slotState (ueD skip).slot = slotSkipped) ∧
    (PassReady upd work0 2 j (ueD upd) ∧ (∀ w, upd.writesGo work0 w) ∧ upd.dev.slotState (ueD upd).slot = slotClean) ∧
    (PassReady p1 work0 3 j (ueD p1) ∧ (∀ w, p1.writesGo work0 w) ∧ p1.dev.slotState (ueD p1).slot = slotClean) ∧
    (PassReady p2 work0 4 j (ueD p2) ∧ (∀ w, p2.writesGo work0 w) ∧ p2.dev.slotState (ueD p2).slot = slotClean) ∧
    (PassReady dig work0 5 j (ueD dig) ∧ (∀ w, dig.writesGo work0 w) ∧ dig.dev.slotState (ueD dig).slot = slotClean ∧
      dig.dev.digestIdle (ueD dig).slot = false) ∧
    (PassReady idle work0 5 j (ueD idle) ∧ idle.dev.slotState (ueD idle).slot = slotClean ∧ idle.dev.digestIdle (ueD idle).slot = true) := by
  refine ⟨⟨ue_ready rfl rfl rfl ?_, ?_⟩, ⟨ue_ready rfl rfl rfl ?_, calm_writes ?_ _, ?_⟩, ⟨ue_ready rfl rfl rfl ?_, calm_writes ?_ _, ?_⟩,
    ⟨ue_ready rfl rfl rfl ?_, calm_writes ?_ _, ?_⟩, ⟨ue_ready rfl rfl rfl ?_, calm_writes ?_ _, ?_⟩, ⟨ue_ready rfl rfl rfl ?_, ?_⟩⟩ <;> decide +kernel

/-! ## Links, the far store and the ladder -/

/-- A flit with a header word and a payload (R337, R338). -/
def flitOf (hdr : Nat) (payload : List Byte) : List Byte :=
  let b := padTo 252 (leBytes 4 hdr ++ payload)
  b ++ leBytes 4 (crc32c b).toNat

/-- A flit whose CRC is wrong. -/
def badFlit_ : List Byte := List.replicate 255 0x00 ++ [0x01]

/-- `live0` with link 3 changed. -/
def link3 (f : Link → Link) : State := on (fun d => d.onLink 3 f)

/-- A packet header of KIND 1 with no block (R353). -/
def pktHead : List Byte := let b := leBytes 1 1 ++ leBytes 27 0; b ++ leBytes 4 (crc32c b).toNat

/-- The same flit with one bit of its CRC turned over. -/
def spoiled (b : List Byte) : List Byte := b.set 255 (b.getD 255 0 ^^^ 1)

theorem witness_FlitsAdvanceTheLink_checks :
    (live0.live ∧ (∀ t ∈ [0, 1, 2, 3], live0.dev.takesFlits 3 t = true ∧ flitOk (spoiled (flitOf t [])) = false) ∧
      (on (fun d => d.setLinkState 3 1)).dev.takesFlits 3 4 = true ∧
      flitOk (flitOf 2 []) = true ∧ bitsOf (flitHdr (flitOf 2 [])) 3 0 ≠ 1) ∧
    (live0.live ∧ live0.dev.sends 3 = true ∧ flitUnlisted 3 (flitOf 5 []) = true ∧ flitOk (flitOf 5 []) = true ∧
      flitUnlisted 3 (spoiled (flitOf 5 [])) = true ∧ flitOk (spoiled (flitOf 5 [])) = false) ∧
    (live0.dev.sends 24 = true ∧ flitUnlisted 24 (flitOf 3 []) = true) ∧
    (live0.flitGood 3 0 (flitOf 0 []) ∧ (on (fun d => d.setLinkState 3 1)).flitGood 3 4 (flitOf 4 [])) := by
  refine ⟨⟨rfl, ?_⟩, ⟨rfl, ?_⟩, ?_, ⟨rfl, ?_⟩, rfl, ?_⟩ <;> decide +kernel

theorem witness_FlitsAdvanceTheLink :
    (live0.flitNext 3 1 (flitOf 1 (leBytes 10 0 ++ leBytes 2 1)) ∧
      (let buf := (live0.dev.link 3).rx ++ slice (flitOf 1 (leBytes 10 0 ++ leBytes 2 1)) 4 248
      buf.all (· == 0) = false ∧ buf.length < 32 + 516 * min 32 (pktHdr buf).blocks)) ∧
    (live0.flitNext 3 1 (flitOf 1 pktHead) ∧
      (let buf := (live0.dev.link 3).rx ++ slice (flitOf 1 pktHead) 4 248
       let h := pktHdr buf
       let need := 32 + 516 * min 32 h.blocks
       buf.all (· == 0) = false ∧ need ≤ buf.length ∧ pktHdrOk (buf.take need) = true ∧ h.blocks ≤ 32 ∧ (buf.drop need).all (· == 0) = true)) ∧
    live0.flitNext 24 1 (flitOf 1 []) ∧
    (live0.flitGood 3 1 (flitOf (1 + 16 * 511) []) ∧ bitsOf (flitHdr (flitOf (1 + 16 * 511) [])) 12 4 ≠ (live0.dev.link 3).expect) := by
  refine ⟨⟨⟨⟨rfl, ?_⟩, ?_⟩, ?_⟩, ⟨⟨⟨rfl, ?_⟩, ?_⟩, ?_⟩, ⟨⟨rfl, ?_⟩, ?_⟩, ⟨rfl, ?_⟩, ?_⟩ <;> decide +kernel

theorem witness_FlitsAdvanceTheLink_more :
    (live0.flitNext 3 3 (flitOf 3 []) ∧ (live0.world.numberedFlit 3 3 (flitOf 3 [])).1.tagDiffers none 0 0 0 = [] ∧ live0.dev.hedge.rank = 0) ∧
    ((link3 (fun x => { x with replay := [(511, .data [])] })).flitGood 3 2 (flitOf 2 []) ∧
      (let x := (link3 (fun x => { x with replay := [(511, .data [])] })).dev.link 3
      x.txq = [] ∧ x.txq2 = [] ∧ x.replay.any (fun e => e.1 == 511) = true)) ∧
    (live0.flitGood 3 2 (flitOf 2 []) ∧ (if (live0.dev.link 3).nakSeq = 5 then (live0.dev.link 3).nakRun + 1 else 1) < 8) ∧
    ((link3 (fun x => { x with nakSeq := 5, nakRun := 7 })).flitGood 3 2 (flitOf 2 []) ∧
      8 ≤ (if ((link3 (fun x => { x with nakSeq := 5, nakRun := 7 })).dev.link 3).nakSeq = 5
        then ((link3 (fun x => { x with nakSeq := 5, nakRun := 7 })).dev.link 3).nakRun + 1 else 1)) := by
  refine ⟨⟨⟨⟨rfl, ?_⟩, ?_⟩, ?_⟩, ⟨⟨rfl, ?_⟩, ?_⟩, ⟨⟨rfl, ?_⟩, ?_⟩, ⟨rfl, ?_⟩, ?_⟩ <;> decide +kernel

/-- A training's result, its lanes in an order. -/
def trained (order : List Nat) : TrainResult := { failed := 0, flight := 4, nbrRank := 1, nbrPort := 3, order := order }

theorem witness_LinksTrainAndFail :
    ((on (fun d => d.setLinkState 23 1)).live ∧ (on (fun d => d.setLinkState 23 1)).dev.linkState 23 = 1 ∧
      ((on (fun d => d.setLinkState 23 1)).dev.link 23).retraining = false ∧
      trainOrderOk (trained []) 23 = true ∧ trainOrderOk (trained [7, 6, 5, 4, 3, 2, 1, 0]) 23 = true ∧
      trainOrderOk (trained [1, 0, 2, 3, 4, 5, 6, 7]) 23 = false ∧ trainOrderOk (trained [3, 2, 1, 0]) 31 = false ∧
      trainOrderOk (trained [7, 6, 5, 4, 3, 2, 1, 0]) 31 = false) ∧
    ((link3 (fun x => { x with retraining := true })).live ∧ ((link3 (fun x => { x with retraining := true })).dev.link 3).retraining = true) ∧
    (live0.live ∧ live0.dev.linkUp 3 = true ∧ (3 : Nat) < laneCount 3 ∧ bitOf (live0.dev.lanesFailed 3) 3 = false) ∧
    (live0.dev.linkState 31 = 0 ∧ live0.dev.linkDisabled 31 = false) ∧ State.reset.dev.level ≠ .run := by
  refine ⟨⟨rfl, ?_⟩, ⟨rfl, ?_⟩, ⟨rfl, ?_⟩, ?_⟩ <;> decide +kernel

/-- A far request that is outstanding on quarter 0 with tag 9. -/
def farReq9 (op who : Nat) : FarReq :=
  { quarter := 0, tag := 9, sent := true, opcode := op, off := 0, count := 1, reread := false, medium := false, who := who, ctx := 16, blocks := [] }

def withFar (q : FarReq) : State := on (fun d => { d with hl := { d.hl with far := [q] } })

/-- A response to it with one good block. -/
def resp9 : FarResp := { quarter := 0, tag := 9, status := 0, latency := 100, payload := [mkBlk []] }

/-- A block on the ladder. -/
def ladder_ : Ladder :=
  { block := 512, step := 1, tries := 0, unit := 8, course := 0, set := 0, ctx := 16, pos := 0, store := none, segs := [], pathFailed := false,
    after := false, clients := [] }

def ladderAt (f : Ladder → Ladder) : State := on (fun d => { d with ladders := [f ladder_] })

/-- Context 16 parked with a checkpoint of no region due. -/
def ckptState : State :=
  on (fun d => { d.setCtx 16 (ctxOf .parked) with ckpts := [{ ctx := 16, slot := 0, pos := 0, dest := 1, far := 0, regions := [], job := none, running := false, sent := false, total := 0, digest := [] }] })

theorem witness_FarResponsesAndReReads :
    live0.dev.farMatch resp9 [0x01, 0x10] = none ∧
    ((withFar (farReq9 0x01 0)).dev.farMatch resp9 [0x01, 0x10] = some (farReq9 0x01 0) ∧ (farReq9 0x01 0).who ≠ whoBoot ∧ (farReq9 0x01 0).who ≠ whoLadder ∧ resp9.status ≠ 2) ∧
    ((withFar (farReq9 0x10 whoBoot)).dev.farMatch resp9 [0x01, 0x10] = some (farReq9 0x10 whoBoot) ∧ resp9.status = 0 ∧
      resp9.payload.length = (farReq9 0x10 whoBoot).count) ∧
    (withFar (farReq9 0x02 0)).dev.farMatch resp9 [0x02] = some (farReq9 0x02 0) ∧
    (withFar (farReq9 0x03 whoStream)).dev.farMatch resp9 [0x03] = some (farReq9 0x03 whoStream) ∧
    (∃ k, ckptState.dev.ckpts = [k] ∧ k.running = false ∧ k.sent = false ∧ k.ctx = 16 ∧ k.pos = (ckptState.dev.ctx 16).pos ∧
      (ckptState.dev.ctx 16).posOpen = false ∧ (ckptState.dev.ctx 16).st = .parked ∧ k.blocks = []) ∧
    ((ladderAt id).dev.ladders.find? (fun l => l.block == 512 && l.step == 1 && !l.after && tierOf l.block != 3)).isSome = true := by
  refine ⟨?_, ?_, ?_, ?_, ?_, ⟨_, rfl, ?_⟩, ?_⟩ <;> decide +kernel

/-- A ladder whose store check and segment tests have all answered. -/
def verdictAt (f : Ladder → Ladder) : State := ladderAt (fun l => f { l with step := 2, store := some true })

/-- A block of an EF collective that is awaited again, and its ladder. -/
def want_ : Want := { src := 0, kind := 1, ctx := 16, tag := 5, step := 0, index := 0, addr := 0, port := 3, tries := 3 }
def inFlight (path : Bool) : State :=
  let s := verdictAt (fun l => { l with block := want_.key, pathFailed := path })
  { s with dev := { s.dev with wants := [want_] } }

theorem witness_FarResponsesAndReReads_ladder :
    (∃ l, (verdictAt (fun l => { l with pathFailed := true })).dev.ladderReady 512 = some l ∧
      (!l.after && l.store == some true && l.pathFailed && tierOf 512 != 3) = true) ∧
    (∃ l, (verdictAt (fun l => { l with block := farAddr 512, pathFailed := true })).dev.ladderReady (farAddr 512) = some l ∧
      (!l.after && l.store == some true && l.pathFailed && tierOf (farAddr 512) == 3 && decide (farAddr 512 < 2 ^ 64)) = true) ∧
    (∃ l, (verdictAt (fun l => { l with store := some false })).dev.ladderReady 512 = some l ∧ (!l.after && l.store != some true) = true) ∧
    (∃ l, (inFlight true).dev.ladderReady want_.key = some l ∧ (!l.after && l.pathFailed && decide (2 ^ 64 ≤ want_.key) &&
      (inFlight true).dev.wants.find? (fun x => x.key == want_.key) == some want_) = true) ∧
    (∃ l, (inFlight false).dev.ladderReady want_.key = some l ∧ (!l.after && !l.pathFailed && decide (2 ^ 64 ≤ want_.key) &&
      (inFlight false).dev.wants.find? (fun x => x.key == want_.key) == some want_) = true) ∧
    (∃ l, (verdictAt (fun l => { l with after := true })).dev.ladderReady 512 = some l ∧ l.after = true) := by
  refine ⟨(Option.any_eq_true ..).mp ?_, (Option.any_eq_true ..).mp ?_, (Option.any_eq_true ..).mp ?_, (Option.any_eq_true ..).mp ?_,
    (Option.any_eq_true ..).mp ?_, (Option.any_eq_true ..).mp ?_⟩ <;> decide +kernel

theorem witness_FarResponsesAndReReads_good : resp9.payload.all (fun b => blkSyn b == 0) = true := by
  simp [resp9, blkSyn_mkBlk]

/-! ## Bundles, core reset, resets -/

/-- The last bundle of class 4 that tower 6 registers. -/
def bundle_ : BundleId := { tower := 6, cls := 4, index := 15 }

def onBundle_ (f : Bundle → Bundle) : State := on (fun d => d.onBundle (bundleIdKey bundle_) f)

/-- A framing word of TYPE 1 with a SEQ and the CRC-16 of a zero flit (R478). -/
def framingOf (seq : Nat) : W64 :=
  let f := BitVec.ofNat 64 (16 + 64 * seq)
  f + BitVec.ofNat 64 (65536 * flitCrc16 [] f)

/-- A bond of tower 7, and a state with it changed. -/
def bond_ : BundleId := { tower := 7, cls := 0, index := 0 }
def onBond (f : Bundle → Bundle) : State := on (fun d => d.onBundle (bundleIdKey bond_) f)

theorem witness_BundlesReplayAndRepair_turn :
    let ok (b : W64) := flitCrc16 [] b = bitsOf b.toNat 31 16
    let back (seq typ : Nat) := let f := BitVec.ofNat 64 (4 + 16 * typ + 64 * seq); f + BitVec.ofNat 64 (65536 * flitCrc16 [] f)
    let held := onBond (fun x => { x with dir := false, run := 5, resend := [512] })
    let free := onBond (fun x => { x with dir := false, run := 128, resend := [512], pend := some 4 })
    (held.live ∧ (held.dev.quiet 7 && bond_.cls.val != 4) = false ∧ ok (back 0 1) ∧ bitOf (back 0 1).toNat 2 = true ∧
      (held.dev.bundle (bundleIdKey bond_)).turns 0 true = true ∧ (held.dev.bundle (bundleIdKey bond_)).holdsDir = true) ∧
    (free.live ∧ (free.dev.bundle (bundleIdKey bond_)).turns 0 true = true ∧ (free.dev.bundle (bundleIdKey bond_)).holdsDir = false ∧
      bitsOf (back 0 1).toNat 5 4 = 1 ∧ bitsOf (back 0 1).toNat 10 6 = ((free.dev.bundle (bundleIdKey bond_)).turned true).expectSeq ∧
      bitsOf (back 9 1).toNat 10 6 ≠ ((free.dev.bundle (bundleIdKey bond_)).turned true).expectSeq) ∧
    (ok (back 0 0) ∧ bitsOf (back 0 0).toNat 5 4 ≠ 1) ∧
    ((on (fun d => d.onTower 7 (fun x => { x with step := .asserted }))).dev.quiet 7 = true ∧ bond_.cls.val ≠ 4) := by
  refine ⟨⟨rfl, ?_⟩, ⟨rfl, ?_⟩, ?_⟩ <;> decide +kernel

theorem witness_BundlesReplayAndRepair :
    (live0.dev.quiet bundle_.tower.val && bundle_.cls.val != 4) = false ∧
    (flitCrc16 [] (framingOf 0) = bitsOf (framingOf 0).toNat 31 16 ∧ bitsOf (framingOf 0).toNat 5 4 = 1 ∧
      bitsOf (framingOf 0).toNat 10 6 = (live0.dev.bundle (bundleIdKey bundle_)).expectSeq) ∧
    (flitCrc16 [] (framingOf 31) = bitsOf (framingOf 31).toNat 31 16 ∧ bitsOf (framingOf 31).toNat 5 4 = 1 ∧
      bitsOf (framingOf 31).toNat 10 6 ≠ (live0.dev.bundle (bundleIdKey bundle_)).expectSeq) ∧
    flitCrc16 [] (framingOf 0 + 65536) ≠ bitsOf (framingOf 0 + 65536).toNat 31 16 ∧
    (let x := (onBundle_ (fun y => { y with underTest := 1 })).dev.bundle (bundleIdKey bundle_)
     x.underTest ≠ 0 ∧ x.underTest < 3 ∧ ([].foldl (laneFails 4) ({ x with underTest := 0, next := x.state }, none)).2 = none ∧
     ([0].foldl (laneFails 4) ({ x with underTest := 0, next := x.state }, none)).2.isSome = true) ∧
    (let x := (onBundle_ (fun y => { y with underTest := 4 })).dev.bundle (bundleIdKey bundle_)
     x.underTest ≠ 0 ∧ 3 ≤ x.underTest ∧ ([0].foldl (laneFails 4) ({ x with underTest := 0, next := x.state }, none)).2.isSome = true) ∧
    ((onBundle_ (fun y => { y with remapping := true })).dev.bundle (bundleIdKey bundle_)).remapping = true ∧
    ((on (fun d => d.setFld (STK 7 + 0x28) 31 31 1)).dev.fld (STK 7 + 0x28) 31 31 = 1 ∧
      ((on (fun d => d.setFld (STK 7 + 0x28) 31 31 1)).dev.tower 7).field = []) := by decide +kernel

/-- Tower 7 at a step of its core reset. -/
def resetAt (st : ResetStep) (f : Tower → Tower) : State := on (fun d => d.onTower 7 (fun x => f { x with step := st }))

theorem witness_CoreResetRuns :
    ((resetAt .waiting id).live ∧ (resetAt .waiting id).dev.towerRunning 7 = false ∧
      (resetAt .waiting id).dev.engineBusy (resetAt .waiting id).mem 7 = false ∧ (resetAt .waiting id).dev.towerToEvict 7 = false) ∧
    (on (fun d => ((d.onTower 0 (fun x => { x with step := .waiting })).setCourse 0 { Course.init with lines := [inPhase .launched (lineOf 2 0 0)] }))).dev.towerRunning 0 = true ∧
    (((resetAt .fenced (fun x => { x with why := 2 })).dev.tower 7).step = .fenced ∧ ((resetAt .fenced (fun x => { x with why := 2 })).dev.tower 7).why ≤ 2) ∧
    (((resetAt .asserted id).dev.tower 7).step = .asserted ∧ ((resetAt .asserted id).dev.tower 7).held = false ∧
      ((resetAt .asserted (fun x => { x with held := true })).dev.tower 7).held = true) ∧
    ((resetAt .retraining id).dev.tower 7).step = .retraining ∧ 64 ≤ ((resetAt .waiting (fun x => { x with waited := 64 })).dev.tower 7).waited ∧
    (live0.dev.tower 7).step = .none ∧ (resetAt .waiting id).dev.tower 7 ≠ .init ∧
    (let s := running [{ inPhase .launched (lineOf 2 0 0) with idle := 1024 }] [] id
     lineFree s (lineOf 2 0 0) 2 = true ∧ (s.dev.jobOf 0 0).isSome = true) := by
  refine ⟨⟨rfl, ?_⟩, ?_⟩ <;> decide +kernel

theorem witness_ResetsAndReleases :
    live0.dev.level ≠ .powerOn ∧ State.reset.dev.level = .powerOn ∧ (on (fun d => { d with level := .system })).dev.level = .system ∧
    (let s := on (fun d => { d with level := .tripHold, board := { d.board with coolRounds := 1000 } })
     s.dev.level = .tripHold ∧ 1000 ≤ s.dev.board.coolRounds) ∧
    (live0.live ∧ (live0.dev.warden (1 - (0 : Fin 2).val)).everReady = false) ∧
    (let s := on (fun d => d.onWarden 1 (fun x => { x with everReady := true, ready := true }))
     s.dev.level = .run ∧ (s.dev.warden 1).everReady = true ∧ (s.dev.warden 1).dog = none ∧ rget s.dev.regs (WD (wardenTower 1)) = 0) := by
  refine ⟨by decide, rfl, rfl, by decide +kernel, ⟨rfl, by decide +kernel⟩, by decide +kernel⟩

/-! ## The wardens, firmware, housekeeping, the board -/

/-- `live0` with warden 1 changed. -/
def warden1 (f : Warden → Warden) : State := on (fun d => d.onWarden 1 f)

theorem witness_WardensBootAndKeepCustody :
    (live0.dev.warden 0).ready = true ∧
    (let s := on (fun d => { d with board := { d.board with bootSrc := 2 } }.setFld HL_STATUS 9 9 0)
     s.dev.hostBoot = true ∧ s.dev.fld HL_STATUS 9 9 = 0) ∧
    (live0.dev.warden 1).ready = false ∧
    crc8 (beatBytes 1 2 false) = (BitVec.ofNat 8 (crc8 (beatBytes 1 2 false))).toNat ∧
    crc8 (beatBytes 1 2 false) ≠ (BitVec.ofNat 8 (crc8 (beatBytes 1 2 false)) + 1).toNat ∧
    (let x := (warden1 (fun x => { x with ready := true, run := 1000 })).dev.warden 1
     x.ready = true ∧ x.custody = false ∧ x.limit ≤ x.run ∧ x.lostOnce = false) ∧
    (live0.dev.warden 1).run < (live0.dev.warden 1).limit ∧
    live0.dev.fw.arbEpoch < (1 : W64).toNat ∧
    (0 : W64).toNat < (on (fun d => { d with fw := { d.fw with arbEpoch := 1 } })).dev.fw.arbEpoch ∧
    (let x := (warden1 (fun x => { x with lostOnce := true })).dev.warden 1
     x.lostOnce = true ∧ x.gotBeat = false ∧ x.custody = false) := by decide +kernel

theorem witness_WardensBootAndKeepCustody_write :
    (World.writeReg (live0.world.onDev (fun d => { d with fw := { d.fw with arbEpoch := 1 } })) HL_CTRL 1).isSome = true := by decide +kernel

/-- Where no warden boots from flash or a host and test access is open, the ROM's own image is the choice; locked, there is none. -/
theorem witness_WardensBootAndKeepCustody_choice :
    let s := on (fun d => { d with board := { d.board with bootSrc := 3 } })
    s.dev.bootChoice = some 3 ∨ s.dev.bootChoice = none := by
  intro s
  have h : s.dev.bootChoice = if s.dev.otpTestLock then none else some 3 := rfl
  rw [h]
  split
  · exact .inr rfl
  · exact .inl rfl

/-- A device that boots over the warden port only and whose test access is locked. -/
def noImage : State := on (fun d => { d with board := { d.board with bootSrc := 3 }, fw := { d.fw with burnt := [129 * 8 + 2] } })

theorem witness_WardensBootAndKeepCustody_none : (noImage.dev.warden 1).ready = false ∧ noImage.dev.bootChoice = none := by
  refine ⟨rfl, ?_⟩
  have l : noImage.dev.otpTestLock = true := by
    have e : noImage.dev.fw.burnt = [129 * 8 + 2] := rfl
    simp [Dev.otpTestLock, Dev.otpBit, e]
  have h : noImage.dev.bootChoice = if noImage.dev.otpTestLock then none else some 3 := rfl
  rw [h, l]
  rfl

theorem witness_FirmwareActivates :
    let act (f : Fw → Fw) := on (fun d => { d with fw := f { d.fw with state := 4, images := [(16, [])] } })
    let loaded := act (fun f => { f with loaded := true })
    let half := act (fun f => { f with loaded := true, restarted := [1] })
    let users (s : State) := (s.dev.replaces 4 || s.dev.replaces 5) && s.dev.ctxs.any (fun e => e.2.active)
    let due (s : State) (i : Nat) := s.dev.fw.state == 4 && s.dev.fw.loaded && !s.dev.fw.restarted.contains i &&
      (!(s.dev.custodyWarden == some i) || s.dev.fw.restarted.contains (1 - i))
    let busy := on (fun d => { d.setCtx 16 { ctxOf .resident with kind := 1 } with fw := { d.fw with state := 4, images := [(16, [])] } })
    (busy.live ∧ busy.dev.fw.state = 4 ∧ busy.dev.fw.loaded = false ∧ busy.dev.fw.commit ≤ busy.dev.fretNum ∧ users busy = true) ∧
    ((act id).live ∧ (act id).dev.fw.state = 4 ∧ (act id).dev.fw.loaded = false ∧ (act id).dev.fw.commit ≤ (act id).dev.fretNum ∧ users (act id) = false) ∧
    (live0.live ∧ live0.dev.fw.state ≠ 4) ∧
    (due loaded 1 = true ∧ (loaded.dev.custodyWarden == some 1) = false) ∧ (due half 0 = true ∧ (half.dev.custodyWarden == some 0) = true) ∧
    due loaded 0 = false ∧
    ((withFw 5).live ∧ (withFw 5).dev.fw.state = 5) ∧ (live0.dev.fw.state ≠ 5 ∧ live0.dev.custodyWarden = some 0 ∧ live0.dev.custodyWarden ≠ some 1) := by
  refine ⟨⟨rfl, ?_⟩, ⟨rfl, ?_⟩, ⟨rfl, ?_⟩, ?_, ?_, ?_, ⟨rfl, ?_⟩, ?_⟩ <;> decide +kernel

/-- A service that runs in this fret. -/
def svcRun (i : Nat) (f : Service → Service) : State :=
  on (fun d => (d.onSvc i (fun s => f { s with active := true })).setCtx i { ctxOf .resident with kind := 2, ran := true })

/-- An event that waits. -/
def waitingEvent : State :=
  on (fun d => { d with hl := { d.hl with events := [{ typ := 3, opcode := 0, ctx := 0xFFFF, tag := 0, status := 0, detail := 0, fret := 0, param := 0, p0 := 0, p1 := 0, p2 := 0, p3 := 0, payload := [] }] } })

/-- What the digest service finds in run 0: another root and another block. -/
def diff_ : DigestDiff := { run := 0, block := 0, roots := [[1]], blocks := [[1]], masters := [[1]], far := none, owned := none }

/-- Its configuration where the run is replicated in a hedge of two. -/
def pairCfg : List Byte := leBytes 36 0 ++ leBytes 2 2 ++ leBytes 46 0 ++ leBytes 1 2 ++ leBytes 427 0

/-- A retrieval batch whose answer goes to a peer. -/
def sentBatch : List Byte := leBytes 6 0 ++ leBytes 1 1 ++ leBytes 505 0

/-- A round in which every sensor times out and every rail and the input read 0. -/
def silentRound : RoundInput :=
  { sensors := List.replicate 368 none, railMv := List.replicate 48 0, railCur := List.replicate 48 0, vin := 0, iin := 0, pin := 0,
    sites := List.replicate 32 0xF, lanes := [] }

/-- One round trips a device on which a run of two rounds stands; the same round does not trip a device without one. -/
theorem witness_HousekeepingRound :
    silentRound.wf = true ∧ State.live (on (fun d => { d with board := { d.board with tripRun := [(368, 2)] } })) ∧
    ((on (fun d => { d with board := { d.board with tripRun := [(368, 2)] } })).world.measure silentRound).d.tripped = true ∧
    State.live live0 ∧ (live0.world.measure silentRound).d.tripped = false := by
  refine ⟨by decide +kernel, rfl, ?_, rfl, ?_⟩
  · exact World.measure_trips (k := 368) (n := 2) (by decide) (by decide) List.mem_cons_self
  · refine World.measure_holds (fun n => ?_) rfl
    simp only [silentRound, List.getD_eq_getElem?_getD, List.getElem?_replicate]
    split <;> rfl

theorem witness_HousekeepingAndServiceRuns :
    (State.reset.dev.level = .powerOn ∧ (on (fun d => { d with level := .tripHold })).dev.level = .tripHold) ∧
    (on (fun d => d.setFld (MEMR 7 + 0x48) 31 31 0)).dev.fld (MEMR 7 + 0x48) 31 31 ≠ 1 ∧
    (let s := on (fun d => d.setFld (MEMR 7 + 0x48) 31 31 1)
     let a := deepAddr 7 (2 ^ 35 - 512)
     s.dev.fld (MEMR 7 + 0x48) 31 31 = 1 ∧ tierOf a = 2 ∧ towerOf a = 7 ∧ a % 512 = 0 ∧ addrOk 0 a = true ∧ s.world.synOf a = 0) ∧
    (waitingEvent.dev.eventPort = some 0 ∧ (waitingEvent.dev.hl.events.find? (fun e => !waitingEvent.dev.eventWaits e)).isSome = true ∧
      waitingEvent.dev.hl.lost = 0) ∧
    live0.dev.hl.events.find? (fun e => !live0.dev.eventWaits e) = none ∧
    (let s := svcRun 2 (fun v => { v with due := [0] })
     let v := s.dev.svc 2
     v.active = true ∧ v.due ≠ [] ∧ (s.dev.ctx 2).ran = true ∧ v.due.contains diff_.run = true ∧ s.world.digestDiffers v.config diff_ = true ∧
      (s.world.digestFix v.config diff_).isSome = true ∧
      (let w := svcRun 2 (fun v => { v with due := [0], config := pairCfg })
       w.world.digestDiffers pairCfg diff_ = true ∧ w.world.digestFix pairCfg diff_ = none)) ∧
    (let h := cmd 0xFFFF 0 0 0 0 []
     let s := svcRun 15 (fun v => { v with queue := [h] })
     (s.dev.svc 15).queue = [h] ∧ (s.dev.svc 15).active = true ∧ (s.dev.ctx 15).ran = true ∧
     ((List.range 8).flatMap (indexBlocks (s.dev.svc 15).config)).filter (s.world.failing []) = [] ∧
     (batchOf (payloadBytes h.payload)).dest ≠ 1 ∧ (batchOf (payloadBytes (cmd 0xFFFF 0 0 0 0 [sentBatch]).payload)).dest = 1) := by
  refine ⟨⟨rfl, rfl⟩, ?_⟩; decide +kernel

/-! ## Ill-formed terms that WellFormed refuses -/

theorem ill_blk : Blk.wf { data := [0], chk := 0 } = false := by decide
theorem ill_hostCmd : Instr.wf (.memWrite { cmd 0xFFFF 0 0 0 0 [] with payload := [{ data := [], chk := 0 }] }) = false := by decide
theorem ill_memRead : Instr.wf (.memRead (cmd 0xFFFF 0 0 1 0 []) [100]) = false := by decide
theorem ill_commandDone : Instr.wf (.commandDone 0 0 [2 ^ 64]) = false := by decide
theorem ill_workLine : Instr.wf (.maProduct { work0 with line := 255 }) = false := by decide
theorem ill_workBlock : Instr.wf (.veCopy { work0 with bad := [1] }) = false := by decide
theorem ill_lineNo : Instr.wf (.lineLaunch 0 255) = false := by decide
theorem ill_setPred : Instr.wf (.setPred 0 300) = false := by decide
theorem ill_loop : Instr.wf (.ccLoop 0 0 0) = false := by decide
theorem ill_guardBand : Instr.wf (.guardBandStart [511]) = false := by decide
theorem ill_marker : Instr.wf (.fretMarkerSend 4) = false := by decide
theorem ill_droneFrame : Instr.wf (.droneFrameRx 0 []) = false := by decide
theorem ill_markerFrame : Instr.wf (.fretMarkerRx 0 { bytes := [0], offset := 0 }) = false := by decide
theorem ill_ctxStartFret : Instr.wf (.ctxStartFret 10240) = false := by decide
theorem ill_flit : Instr.wf (.flitDataRx 0 []) = false := by decide
theorem ill_unlistedFlit : Instr.wf (.unlistedFlitType 0 []) = false := by decide
theorem ill_scalar : ScalarMsg.wf { dest := 0, src := 0, tag := 0, step := 0, first := 0, values := List.replicate 61 0 } = false := by decide
theorem ill_farResp : FarResp.wf { resp9 with payload := List.replicate 33 { data := [], chk := 0 } } = false := by decide
theorem ill_stream : Instr.wf (.checkpointStreamStart 10240) = false := by decide
theorem ill_reread : Instr.wf (.blockRereadDone 3 true) = false := by decide
theorem ill_verdict : Instr.wf (.ladderVerdict 3 true) = false := by decide
theorem ill_bundleTower : BundleId.wf { tower := 7, cls := 4, index := 0 } = false := by decide
theorem ill_bundleClass : BundleId.wf { tower := 0, cls := 0, index := 0 } = false := by decide
theorem ill_bundleIndex : BundleId.wf { tower := 0, cls := 2, index := 72 } = false := by decide
theorem ill_bundleFlit : Instr.wf (.bundleFlitRx bundle_ [] 0) = false := by decide
theorem ill_blockAck : Instr.wf (.blockAckRx bundle_ 5) = false := by decide
theorem ill_bundleTest : Instr.wf (.bundleTestDone bundle_ [148]) = false := by decide
theorem ill_round : Instr.wf (.housekeepingRound { sensors := [], railMv := [], railCur := [], vin := 0, iin := 0, pin := 0, sites := [], lanes := [] }) = false := by
  decide
theorem ill_release : Instr.wf (.systemResetRelease { bootSrc := 0, clkMode := 0, lanes := [], sites := [] }) = false := by decide
theorem ill_patrol : Instr.wf (.patrolScrub 0 0 [1]) = false := by decide
theorem ill_digest : Instr.wf (.digestCompare [{ run := 16, block := 0, roots := [], blocks := [], masters := [], far := none, owned := none }]) = false := by decide
theorem ill_retrieval : Instr.wf (.retrievalBatchDone 7 []) = false ∧ Instr.wf (.retrievalBatchDone 16 []) = false := by decide
theorem ill_badPacket : Instr.wf (.badControlPacket 0 []) = false := by decide
theorem well_formed : Instr.wf (.maProduct work0) = true ∧ Instr.wf (.blockAckRx bundle_ 512) = true := by decide

/-! ## Small checks -/

/-- The device and the stores after a command. -/
def after (i : Instr) (s : State) : State := match exec i s with | .next t => t | _ => s

/-- CRC-32C of the nine characters 123456789 (R282: the Castagnoli polynomial). -/
theorem test_crc32c : crc32c [0x31, 0x32, 0x33, 0x34, 0x35, 0x36, 0x37, 0x38, 0x39] = 0xE3069283 := by decide +kernel

/-- SUB wraps at 64 bits (R149): 0 − 5. -/
theorem test_ccSub : ((after (.ccSub 0 3 0 2) (atWord (encT 0x02 3 0 2) 16)).dev.sreg 0 0 3).toNat = 2 ^ 64 - 5 := by decide +kernel

/-- MULHU is the high half (R149). -/
theorem test_ccMulhu : (after (.ccMulhu 0 3 1 2) (atWord (encT 0x0C 3 1 2) 16)).dev.sreg 0 0 3 = 3 := by decide +kernel

/-- SRAI copies the sign (R149): 0xC000… shifted right by 60 is −4. -/
theorem test_ccSrai : ((after (.ccSrai 0 3 1 60) (atWord (encI 0x16 3 1 60) 16)).dev.sreg 0 0 3).toInt = -4 := by decide +kernel

/-- LUI gives its immediate times 65,536, sign extended (R149). -/
theorem test_ccLui : (after (.ccLui 0 3 0x8000) (atWord (encI 0x17 3 0 0x8000) 16)).dev.sreg 0 0 3 = 0xFFFFFFFF80000000 := by decide +kernel

/-- SW stores the low four bytes of its register, lowest first (R163). -/
theorem test_ccSw : readBytes (after (.ccSw 0 2 0 256 false) (atWord (encI 0x23 2 0 256) 16)).mem 256 4 = [5, 0, 0, 0] := by decide +kernel

/-- FLT: −0 is not less than +0, and a NaN is less than nothing (R149). -/
theorem test_fp32Lt : fp32Lt 0x80000000 0 = false ∧ fp32Lt 0x7FC00000 0 = false ∧ fp32Lt 0xBF800000 0 = true := by decide +kernel

/-- One INT8 product of 3 and 5 into an INT32 output is 15 (R169, R205). -/
theorem test_maProduct : readBytes (after (.maProduct work0) (maState 1)).mem 0x3000 4 = [15, 0, 0, 0] := by decide +kernel

/-- A vector COPY of four FP32 elements (R245). -/
theorem test_veCopy :
    readBytes (after (.veCopy work0) (running [inPhase .launched (lineOf 2 0 0)] [(0, veBytes 1), (0x1000, leBytes 4 0x3F800000 ++ leBytes 4 0xC0000000)] id)).mem
      0x2000 8 = [0x00, 0x00, 0x80, 0x3F, 0x00, 0x00, 0x00, 0xC0] := by decide +kernel

/-- NEG changes the sign alone (R245): −(1.0) is 0xBF800000. -/
theorem test_veNeg :
    readBytes (after (.veNeg work0) (running [inPhase .launched (lineOf 2 0 0)] [(0, veBytes 0x17), (0x1000, leBytes 4 0x3F800000)] id)).mem 0x2000 4 =
      [0x00, 0x00, 0x80, 0xBF] := by decide +kernel

/-- A mover copy brings the bytes, and the line is worked (R293). -/
theorem test_moverCopy : readBytes (after (.moverCopy work0) (mvState 1 0x1000 0x2000 0 id)).mem 0x2000 4 = [1, 2, 3, 0] := by decide +kernel

/-- A hold vote of three frets is kept at cycle 240 (R52). -/
theorem test_holdLatch : (after .holdLatch (inFret (fun f => { f with voteReq := true, voteLen := 3 }))).dev.ft.remain = 3 := by decide +kernel

/-- Two fret starts count two (R54). -/
theorem test_fretStart : (after .fretStart (after .fretStart live0)).dev.fretNum = live0.dev.fretNum + 2 := by decide +kernel

/-- SET_PRED on a drone bit (R83): bit 10 of the latched word is clear, so predicate 0 becomes 0 and the line is worked. -/
theorem test_setPred :
    ((lineAt ((after (.setPred 0 0) (running [inPhase .launched (lineOf 9 0 0x0A00)] [] id)).dev.course 0) 0).map (·.phase)) = some .worked := by decide +kernel

/-- The word latched at the settle point is what the two registers hold (R66). -/
theorem test_settlePoint : rget (after .settlePoint (inFret (fun f => { f with latched := true, word := 5 + 7 * 2 ^ 64 }))).dev.regs FT_LATCH_HI = 7 := by decide +kernel

/-- A lane of the upper half lost leaves the lower half (R344); one of each half leaves none. -/
theorem test_widthState : widthState 3 0x80 = 3 ∧ widthState 3 0x01 = 4 ∧ widthState 3 0x81 = 5 ∧ widthState 3 0 = 2 := by decide

/-- Power-on reset leaves its cause in every tower's RST_CAUSE (R512). -/
theorem test_powerOn : (List.range 8).all (fun n => rget (after .powerOnReset live0).dev.regs (RST n) == 1) = true := by decide +kernel

end Sys2Proof.Tests
end

section
/-! SUPPORT and PROOFS. Host commands that are refused with an answer, and control packets that run no command (R427, R428, R435). -/

namespace Sys2Proof.Machine

/-! ## Commands answered with a refusal -/

/-- A live command that works on the device alone. -/
theorem runLive_eq_dev {s : State} {f : World → World} {d : Dev} (hl : s.live) (hf : f s.world = { s.world with d := d }) :
    runLive s f = .next { s with dev := d } := by
  rw [runLive_live hl]
  exact congrArg (fun w => Host.Outcome.next (commit s w)) hf

/-- Admission does not look at the parameters' ranges, which a command checks once it is admitted. -/
theorem Admitted.withBad {d : Dev} {h : HostCmd} {c : OpSpec} (ha : Admitted d h c) (bad : Dev → HostCmd → Option Nat) :
    Admitted d h { c with bad := bad } := { ha with }

/-- A final reply of a command taken leaves the device as it was, but for the count and the reply. -/
theorem answer_taken {w : World} {d : Dev} {h : HostCmd} {op : Nat} {st det : W16} (hd : w.d = d.taken h)
    (hf : (h.port.val, h.tag) ∉ d.hl.outstanding) :
    w.answer h op st det = { w with d := d.counted.replied h op st det 0 [] } := by
  have hsame := replied_same (h := h) (op := op) (st := st) (det := det) (p := 0) (bl := [])
    (⟨rfl, rfl, rfl, rfl, rfl⟩ : SameWire d.counted (d.taken h))
  have hrest : d.counted.replied h op st det 0 [] = _ := Dev.replyPkt_eq d.counted h op st det 0 []
  rw [replyPkt_replied] at hrest
  rw [World.answer, reply_taken (by rw [hd]) hf, hd, hsame, hrest]
  rfl

/-- An admitted command whose work is to answer a refusal: it is counted and answered, and nothing else happens. -/
theorem admitCmd_refused {w : World} {h : HostCmd} {c : OpSpec} {k : World → World} {op : Nat} {st det : W16} (ha : Admitted w.d h c)
    (hb : c.bad (w.d.taken h) h = none)
    (hk : k { w with d := w.d.taken h } = World.answer { w with d := w.d.taken h } h op st det) :
    w.admitCmd h c k = { w with d := w.d.counted.replied h op st det 0 [] } := by
  rw [admit_ok k ha hb, hk, answer_taken rfl ha.fresh]

/-! ## THERMAL at level 2 (R435) -/

/-- The level that a command sees is the one latched when it arrives: its admission does not change it. -/
theorem taken_tooHot {d : Dev} (h : HostCmd) (hot : d.fld FT_HOLD_STATUS 15 14 = 2) : (d.taken h).tooHot = true := by
  have hfld : (d.taken h).fld FT_HOLD_STATUS 15 14 = d.fld FT_HOLD_STATUS 15 14 := counted_fld 15 14 (by decide)
  simp [Dev.tooHot, hfld, hot]

theorem doFwCommitAt_tooHot {w : World} {h : HostCmd} (ha : Admitted w.d h (wardenOp 0x403 [2, 3]))
    (hot : w.d.fld FT_HOLD_STATUS 15 14 = 2) :
    doFwCommitAt h w = { w with d := w.d.counted.replied h 0x403 stThermal 0 0 [] } :=
  admitCmd_refused (ha.withBad commitBad) (by simp [commitBad, taken_tooHot h hot])
    (by simp [World.goFwCommitAt, taken_tooHot h hot])

theorem doBistRun_tooHot {w : World} {h : HostCmd} (ha : Admitted w.d h (wardenOp 0x601 [2, 3]))
    (hot : w.d.fld FT_HOLD_STATUS 15 14 = 2) :
    doBistRun h w = { w with d := w.d.counted.replied h 0x601 stThermal 0 0 [] } :=
  admitCmd_refused (ha.withBad bistBad) (by simp [bistBad, taken_tooHot h hot]) (by simp [taken_tooHot h hot])

/-! ## Control packets that run no command (R427, R428): one lemma per check of R427, in its order -/

section Packet

variable {q : Fin 8} {bytes : List Byte} {w : World} (hup : w.d.linkUp (24 + q.val) = true)
include hup

section BadCrc

variable (hcrc : numAt (padTo 32 bytes) 28 4 ≠ (crc32c ((padTo 32 bytes).take 28)).toNat)
include hcrc

/-- HEADER_CRC fails on a QUARTER_0: counted and answered. -/
theorem doBadControlPacket_crc_main (hmain : q.val % 4 = 0) :
    doBadControlPacket q bytes w =
      (w.count HL_HDR_CRC 63 0 1).onDev (fun d => d.echoReply (q.val / 4) (padTo 32 bytes) stBadHeaderCrc 28) := by
  simp [doBadControlPacket, hup, hcrc, hmain]

/-- HEADER_CRC fails on another quarter: counted, and counted as a stray packet (log 86). -/
theorem doBadControlPacket_crc_other (hmain : ¬ q.val % 4 = 0) :
    doBadControlPacket q bytes w = (w.count HL_HDR_CRC 63 0 1).count HL_STRAY 63 0 1 := by
  simp [doBadControlPacket, hup, hcrc, hmain]

end BadCrc

section GoodCrc

variable (hcrc : numAt (padTo 32 bytes) 28 4 = (crc32c ((padTo 32 bytes).take 28)).toNat)
include hcrc

/-- A packet on a quarter that carries no commands (R428), or whose TYPE is not a command's, is counted as a stray. -/
theorem doBadControlPacket_stray (hstray : ¬ q.val % 4 = 0 ∨ numAt (padTo 32 bytes) 0 1 ≠ 1) :
    doBadControlPacket q bytes w = w.count HL_STRAY 63 0 1 := by
  have hcond : (!(q.val % 4 == 0) || numAt (padTo 32 bytes) 0 1 != 1) = true := by simpa using hstray
  simp [doBadControlPacket, hup, hcrc, -Bool.or_eq_true, hcond]

/-- A command on a QUARTER_0 of a wrong VERSION is answered. -/
theorem doBadControlPacket_version (hmain : q.val % 4 = 0) (htype : numAt (padTo 32 bytes) 0 1 = 1)
    (hver : numAt (padTo 32 bytes) 1 1 ≠ 1) :
    doBadControlPacket q bytes w = w.onDev (fun d => d.echoReply (q.val / 4) (padTo 32 bytes) stBadParam 1) := by
  simp [doBadControlPacket, hup, hcrc, hmain, htype, hver]

/-- A command on a QUARTER_0 of an OPCODE that R434 does not list is answered. -/
theorem doBadControlPacket_opcode (hmain : q.val % 4 = 0) (htype : numAt (padTo 32 bytes) 0 1 = 1)
    (hver : numAt (padTo 32 bytes) 1 1 = 1) (hop : listedOpcodes.contains (numAt (padTo 32 bytes) 2 2) = false) :
    doBadControlPacket q bytes w = w.onDev (fun d => d.echoReply (q.val / 4) (padTo 32 bytes) stBadOpcode 2) := by
  simp [doBadControlPacket, hup, hcrc, hmain, htype, hver, -List.contains_eq_mem, hop]

end GoodCrc

end Packet

/-- Settles O19: at level 2 the two commands are refused by `admitCmd_refused`, and each clause on packets is one check of R427. -/
theorem refusedCommandsAndPackets : Obligations.RefusedCommandsAndPackets := by
  unfold Obligations.RefusedCommandsAndPackets
  refine ⟨fun h s ha hot => ?_, fun h s ha hot => ?_, fun q bytes s hl hup => ⟨fun hcrc hm => ?_, fun hcrc hm => ?_,
    fun hcrc hs => ?_, fun hcrc hm ht hv => ?_, fun hcrc hm ht hv ho => ?_⟩⟩
  · exact runLive_eq_dev ha.1 (doFwCommitAt_tooHot ha.2 hot)
  · exact runLive_eq_dev ha.1 (doBistRun_tooHot ha.2 hot)
  · exact runLive_eq_dev hl (doBadControlPacket_crc_main hup hcrc hm)
  · exact runLive_eq_dev hl (doBadControlPacket_crc_other hup hcrc hm)
  · exact runLive_eq_dev hl (doBadControlPacket_stray hup hcrc hs)
  · exact runLive_eq_dev hl (doBadControlPacket_version hup hcrc hm ht hv)
  · exact runLive_eq_dev hl (doBadControlPacket_opcode hup hcrc hm ht hv ho)

end Sys2Proof.Machine
end

section
/-! SUPPORT and PROOFS. Resets, their release and the straps it samples, and the watchdogs (R503 to R514, R529): what each reset leaves of
the device, and a view of the straps that a release sets and no later part of it, nor core reset, changes. -/

namespace Sys2Proof.Machine

/-! ## A field that a register was given -/

theorem shiftLeft_and_mask (x w lo : Nat) : (x <<< lo) &&& ((2 ^ w - 1) <<< lo) = 2 ^ lo * (x % 2 ^ w) := by
  rw [← Nat.shiftLeft_and_distrib, Nat.and_two_pow_sub_one_eq_mod, Nat.shiftLeft_eq, Nat.mul_comm]

theorem and_mask_shiftLeft (v w lo : Nat) : v &&& ((2 ^ w - 1) <<< lo) = 2 ^ lo * (v / 2 ^ lo % 2 ^ w) := by
  rw [← Nat.and_two_pow_sub_one_eq_mod, ← Nat.shiftRight_eq_div_pow, Nat.mul_comm, ← Nat.shiftLeft_eq]
  apply Nat.eq_of_testBit_eq
  intro i
  by_cases hi : lo ≤ i <;> simp [hi, Nat.testBit_shiftLeft, Nat.testBit_shiftRight, Bool.and_comm]

/-- Clearing a field of a number and setting it leaves what was set. -/
theorem field_replaced (v x w lo : Nat) :
    (v - 2 ^ lo * (v / 2 ^ lo % 2 ^ w) + 2 ^ lo * (x % 2 ^ w)) / 2 ^ lo % 2 ^ w = x % 2 ^ w := by
  have hv : v / 2 ^ lo % 2 ^ w ≤ v / 2 ^ lo := Nat.mod_le _ _
  have hd : v / 2 ^ lo - v / 2 ^ lo % 2 ^ w = 2 ^ w * (v / 2 ^ lo / 2 ^ w) := by
    have := Nat.div_add_mod (v / 2 ^ lo) (2 ^ w)
    omega
  rw [Nat.add_mul_div_left _ _ (Nat.two_pow_pos lo), Nat.sub_mul_div, hd, Nat.mul_add_mod, Nat.mod_mod]

/-- A field reads as it was set. -/
theorem fieldOf_withField (v : W64) {hi lo : Nat} (x : Nat) (hlo : lo ≤ hi) (hhi : hi < 64) :
    fieldOf (withField v hi lo x) hi lo = x % 2 ^ (hi + 1 - lo) := by
  have hsplit : 2 ^ 64 = 2 ^ lo * 2 ^ (64 - lo) := by rw [← Nat.pow_add]; congr 1; omega
  have hdvd : 2 ^ (hi + 1 - lo) ∣ 2 ^ (64 - lo) := Nat.pow_dvd_pow 2 (by omega)
  rw [fieldOf, bitsOf, withField, BitVec.toNat_ofNat, Nat.shiftRight_eq_div_pow, hsplit, Nat.mod_mul_right_div_self,
    Nat.mod_mod_of_dvd _ hdvd, and_mask_shiftLeft, shiftLeft_and_mask, field_replaced]

theorem fld_lt (d : Dev) (a hi lo : Nat) : d.fld a hi lo < 2 ^ (hi + 1 - lo) := Nat.mod_lt _ (Nat.two_pow_pos _)

theorem rget_rset_self (t : Tab W64) (a hi lo x : Nat) : rget (rset t a hi lo x) a = withField (rget t a) hi lo x :=
  rget_rput_self t a _

/-- A register of a table with some entries taken out. -/
theorem rget_filter (p : Nat → Bool) (t : Tab W64) (a : Nat) :
    rget (t.filter (fun e => p e.1)) a = if p a then rget t a else resetWord a := by
  simp only [rget, tget, tfind_filter]
  split <;> rfl

/-- What a counter reads after a count depends on its register alone. -/
theorem rget_rcount_self (t : Tab W64) (a hi lo n : Nat) :
    rget (rcount t a hi lo n) a = withField (rget t a) hi lo (satAdd (hi + 1 - lo) (fieldOf (rget t a) hi lo) n) :=
  rget_rset_self ..

/-! ## Folds over the root dies -/

/-- A fold over 0 to m − 1 whose step n changes what is seen at n, and at no other number: each is changed once. -/
theorem foldl_range_at {α γ : Type} (view : Nat → α → γ) (f : α → Nat → α) (g : Nat → γ → γ)
    (hself : ∀ n a, view n (f a n) = g n (view n a)) (hne : ∀ n k a, k ≠ n → view k (f a n) = view k a) {m k : Nat} (hk : k < m)
    (a : α) : view k ((List.range m).foldl f a) = g k (view k a) := by
  have hlater : ∀ j, j ≤ k → view k ((List.range j).foldl f a) = view k a := by
    intro j hj
    induction j with
    | zero => rfl
    | succ j ih => rw [List.range_succ, List.foldl_append, List.foldl_cons, List.foldl_nil, hne _ _ _ (by omega), ih (by omega)]
  induction m with
  | zero => omega
  | succ m ih =>
    rw [List.range_succ, List.foldl_append, List.foldl_cons, List.foldl_nil]
    rcases Nat.lt_succ_iff_lt_or_eq.mp hk with h | rfl
    · rw [hne _ _ _ (by omega), ih h]
    · rw [hself, hlater k (Nat.le_refl _)]

/-- A device changed in its registers alone. -/
def Dev.RegsOnly (d d' : Dev) : Prop := d' = { d with regs := d'.regs }

theorem Dev.RegsOnly.trans {a b c : Dev} (h : a.RegsOnly b) (k : b.RegsOnly c) : a.RegsOnly c := by
  unfold Dev.RegsOnly at *; rw [k, h]

theorem Dev.RegsOnly.level {d d' : Dev} (h : d.RegsOnly d') : d'.level = d.level := (congrArg Dev.level h :)
theorem Dev.RegsOnly.wardens {d d' : Dev} (h : d.RegsOnly d') : d'.wardens = d.wardens := (congrArg Dev.wardens h :)
theorem Dev.RegsOnly.fw {d d' : Dev} (h : d.RegsOnly d') : d'.fw = d.fw := (congrArg Dev.fw h :)

theorem Dev.setReg_regsOnly (d : Dev) (a : Nat) (v : W64) : d.RegsOnly (d.setReg a v) := rfl
theorem Dev.setFld_regsOnly (d : Dev) (a hi lo x : Nat) : d.RegsOnly (d.setFld a hi lo x) := rfl
theorem Dev.setBit_regsOnly (d : Dev) (a n : Nat) : d.RegsOnly (d.setBit a n) := rfl
theorem Dev.count_regsOnly (d : Dev) (a hi lo n : Nat) : d.RegsOnly (d.count a hi lo n) := by
  unfold Dev.count; split <;> rfl
theorem foldl_regsOnly {β : Type} {f : Dev → β → Dev} (h : ∀ (d : Dev) b, d.RegsOnly (f d b)) (xs : List β) (d : Dev) :
    d.RegsOnly (xs.foldl f d) :=
  foldl_keeps (Dev.RegsOnly d ·) f xs (fun a b _ ha => ha.trans (h a b)) d rfl

theorem RST_inj {n k : Nat} (h : n ≠ k) : RST n ≠ RST k := by
  unfold RST twBase; omega

/-! ## Power-on reset (R503, R504, R512) -/

/-- A bit set in RST_CAUSE of every root die. -/
def Dev.causeAll (d : Dev) (bit : Nat) : Dev := (List.range 8).foldl (fun d t => d.setBit (RST t) bit) d

theorem Dev.causeAll_regsOnly (d : Dev) (bit : Nat) : d.RegsOnly (d.causeAll bit) :=
  foldl_regsOnly (fun d t => d.setBit_regsOnly (RST t) bit) _ d

theorem Dev.causeAll_cause (d : Dev) (bit : Nat) {n : Nat} (hn : n < 8) :
    rget (d.causeAll bit).regs (RST n) = withField (rget d.regs (RST n)) bit bit 1 :=
  foldl_range_at (fun n (d : Dev) => rget d.regs (RST n)) _ (fun _ v => withField v bit bit 1)
    (fun n d => rget_rset_self d.regs (RST n) ..) (fun _ _ d h => rget_rset_ne d.regs _ _ _ (RST_inj h)) hn d

/-- What power-on reset leaves of the device before its further cause is recorded. -/
def Dev.poweredOn (d : Dev) : Dev :=
  { Dev.reset with
    fw := d.fw.afterReset
    log := { Log.init with flash := d.log.flash, next := d.log.next }
    links := d.links.map (fun e => (e.1, { Link.init with cable := e.2.cable }))
    board := { Board.init with leak := d.board.leak, cells := d.board.cells }
    out := d.out, free := d.free }

@[simp] theorem Dev.poweredOn_regs (d : Dev) : d.poweredOn.regs = [] := rfl

/-- A register that no table lists holds its reset value (R13). -/
theorem rget_nil (a : Nat) : rget [] a = resetWord a := rfl

theorem World.powerOn_none (w : World) : (w.powerOn none).d = w.d.poweredOn := rfl
theorem World.powerOn_some (w : World) (bit : Nat) : (w.powerOn (some bit)).d = w.d.poweredOn.causeAll bit := rfl

/-- Power-on reset changes the registers of `poweredOn` alone, and those at most by its further cause. -/
theorem World.powerOn_regsOnly (w : World) (bit : Option Nat) : w.d.poweredOn.RegsOnly (w.powerOn bit).d := by
  cases bit with
  | none => rfl
  | some b => exact w.d.poweredOn.causeAll_regsOnly b

/-- The word that RST_CAUSE holds after power-on reset with a further cause. -/
def powerOnCause (bit : Option Nat) (n : Nat) : W64 :=
  match bit with
  | none => resetWord (RST n)
  | some b => withField (resetWord (RST n)) b b 1

theorem World.powerOn_cause (w : World) (bit : Option Nat) {n : Nat} (hn : n < 8) :
    rget (w.powerOn bit).d.regs (RST n) = powerOnCause bit n := by
  cases bit with
  | none => rw [World.powerOn_none, Dev.poweredOn_regs, rget_nil, powerOnCause]
  | some b => rw [World.powerOn_some, Dev.causeAll_cause _ b hn, Dev.poweredOn_regs, rget_nil, powerOnCause]

/-- RST_CAUSE by cause: POWER_ON alone, with UNDERVOLTAGE, with CLOCK_LOSS (R512). -/
theorem powerOnCause_toNat : ∀ n, n < 8 →
    (powerOnCause none n).toNat = 1 ∧ (powerOnCause (some 2) n).toNat = 5 ∧ (powerOnCause (some 1) n).toNat = 3 := by
  decide +kernel

/-- What every entry to power-on reset leaves, given what RST_CAUSE then holds. -/
theorem powerOn_leaves (s : State) (bit : Option Nat) {cause : Nat} (hc : ∀ n, n < 8 → (powerOnCause bit n).toNat = cause) :
    ∃ t, run s (fun w => w.powerOn bit) = .next t ∧ t.dev.level = .powerOn ∧
      (∀ n, n < 8 → (rget t.dev.regs (RST n)).toNat = cause) ∧ t.dev.fw.images = s.dev.fw.images ∧ t.dev.fw.burnt = s.dev.fw.burnt ∧
      t.dev.log.flash = s.dev.log.flash ∧ t.dev.ctxs = [] ∧ t.dev.courses = [] ∧ t.dev.hl = .init := by
  have hd := s.world.powerOn_regsOnly bit
  refine ⟨_, rfl, congrArg Dev.level hd, fun n hn => ?_, congrArg (·.fw.images) hd, congrArg (·.fw.burnt) hd,
    congrArg (·.log.flash) hd, congrArg Dev.ctxs hd, congrArg Dev.courses hd, congrArg Dev.hl hd⟩
  rw [← hc n hn]
  exact congrArg _ (s.world.powerOn_cause bit hn)

/-- The causes of power-on reset one by one (R503, R512). -/
theorem powerOn_table : ∀ e ∈ powerOnTable, ∀ s, ∃ t, exec e.1 s = .next t ∧ t.dev.level = .powerOn ∧
    (∀ n, n < 8 → (rget t.dev.regs (RST n)).toNat = e.2) ∧ t.dev.fw.images = s.dev.fw.images ∧ t.dev.fw.burnt = s.dev.fw.burnt ∧
    t.dev.log.flash = s.dev.log.flash ∧ t.dev.ctxs = [] ∧ t.dev.courses = [] ∧ t.dev.hl = .init := by
  intro e he s
  simp only [powerOnTable, List.mem_cons, List.not_mem_nil, or_false] at he
  rcases he with rfl | rfl | rfl | rfl
  · exact powerOn_leaves s none fun n hn => (powerOnCause_toNat n hn).1
  · exact powerOn_leaves s (some 2) fun n hn => (powerOnCause_toNat n hn).2.1
  · exact powerOn_leaves s (some 2) fun n hn => (powerOnCause_toNat n hn).2.1
  · exact powerOn_leaves s (some 1) fun n hn => (powerOnCause_toNat n hn).2.2

/-! ## System reset (R503, R504, R512) -/

/-- The registers that system reset spares: RST_CAUSE and RST_SYS_COUNT (R504). -/
def sparedReg (a : Nat) : Bool :=
  decide (a < 0x08000000) && decide ((a >>> 16) % 256 = 1) && (a % 65536 == 0 || a % 65536 == 0x18)

theorem sparedReg_RST : ∀ n, n < 8 → sparedReg (RST n) = true ∧ sparedReg (RST n + 0x18) = true := by decide +kernel

/-- What system reset leaves of the device before it is recorded. -/
def Dev.systemSpared (d : Dev) (trip : Bool) : Dev :=
  { Dev.reset with
    level := if trip then .tripHold else .system
    regs := d.regs.filter (fun e => sparedReg e.1)
    fw := d.fw.afterReset
    log := if trip then { d.log with queues := [], dropped := [] } else d.log
    links := d.links.map (fun e => (e.1, { Link.init with cable := e.2.cable }))
    towers := ((List.range 8).filter (bitOf (d.fld IDENT_DEVICE 15 8))).map (fun t =>
      (t, { Tower.init with step := .asserted, why := 2, held := true }))
    board := { Board.init with
      leak := d.board.leak, cells := d.board.cells, alertN := d.board.alertN, tripN := if trip then false else d.board.tripN,
      bootSrc := d.board.bootSrc, clkMode := d.board.clkMode }
    out := d.out, free := d.free }

/-- `systemSpared` with the towers fenced still named in IDENT_DEVICE. -/
def Dev.systemFenced (d : Dev) (trip : Bool) : Dev :=
  (d.systemSpared trip).setFld IDENT_DEVICE 15 8 (d.fld IDENT_DEVICE 15 8)

/-- A root die's record of a system reset: its cause bit, and RST_SYS_COUNT. -/
def Dev.sysCounted (bit : Nat) (d : Dev) (t : Nat) : Dev := (d.setBit (RST t) bit).count (RST t + 0x18) 31 0 1

theorem World.systemReset_d (w : World) (bit : Nat) (trip : Bool) :
    (w.systemReset bit trip).d = (List.range 8).foldl (Dev.sysCounted bit) (w.d.systemFenced trip) := rfl

theorem Dev.sysCounted_regs (bit : Nat) (d : Dev) (t : Nat) :
    (d.sysCounted bit t).regs = rcount (rset d.regs (RST t) bit bit 1) (RST t + 0x18) 31 0 1 := rfl

/-- The record changes its own two registers alone. -/
theorem Dev.sysCounted_ne (bit : Nat) (d : Dev) {t a : Nat} (h : a ≠ RST t) (h' : a ≠ RST t + 0x18) :
    rget (d.sysCounted bit t).regs a = rget d.regs a := by
  rw [Dev.sysCounted_regs, rget_rcount_ne _ _ _ _ h', rget_rset_ne _ _ _ _ h]

theorem Dev.sysCounted_cause (bit : Nat) (d : Dev) (t : Nat) :
    rget (d.sysCounted bit t).regs (RST t) = withField (rget d.regs (RST t)) bit bit 1 := by
  rw [Dev.sysCounted_regs, rget_rcount_ne _ _ _ _ (by omega), rget_rset_self]

theorem Dev.sysCounted_count (bit : Nat) (d : Dev) (t : Nat) :
    rget (d.sysCounted bit t).regs (RST t + 0x18) =
      withField (rget d.regs (RST t + 0x18)) 31 0 (satAdd 32 (fieldOf (rget d.regs (RST t + 0x18)) 31 0) 1) := by
  rw [Dev.sysCounted_regs, rget_rcount_self, rget_rset_ne _ _ _ _ (by omega)]

/-- System reset changes the registers of `systemFenced` alone. -/
theorem World.systemReset_regsOnly (w : World) (bit : Nat) (trip : Bool) : (w.d.systemFenced trip).RegsOnly (w.systemReset bit trip).d :=
  foldl_regsOnly (fun d t => (d.setBit_regsOnly (RST t) bit).trans (Dev.count_regsOnly ..)) _ _

/-- What system reset keeps of a register that it spares. -/
theorem Dev.systemFenced_spared (d : Dev) (trip : Bool) {a : Nat} (h : sparedReg a = true) :
    rget (d.systemFenced trip).regs a = rget d.regs a := by
  have hne : a ≠ IDENT_DEVICE := by rintro rfl; exact absurd h (by decide)
  rw [Dev.systemFenced, Dev.setFld_regs, rget_rset_ne _ _ _ _ hne, Dev.systemSpared, rget_filter, if_pos h]

/-- Each RST_CAUSE gains the bit (R512). -/
theorem World.systemReset_cause (w : World) {bit : Nat} (trip : Bool) {n : Nat} (hn : n < 8) (hb : bit < 64) :
    (w.systemReset bit trip).d.fld (RST n) bit bit = 1 := by
  have h := foldl_range_at (fun n (d : Dev) => rget d.regs (RST n)) (Dev.sysCounted bit) (fun _ v => withField v bit bit 1)
    (fun n d => d.sysCounted_cause bit n)
    (fun n k d h => d.sysCounted_ne bit (RST_inj h) (by unfold RST twBase; omega)) hn (w.d.systemFenced trip)
  rw [Dev.fld, rfld, World.systemReset_d, h, fieldOf_withField _ _ (Nat.le_refl _) hb]
  simp

/-- Each RST_SYS_COUNT counts one (R504). -/
theorem World.systemReset_count (w : World) (bit : Nat) (trip : Bool) {n : Nat} (hn : n < 8) :
    rget (w.systemReset bit trip).d.regs (RST n + 0x18) = rget (rcount w.d.regs (RST n + 0x18) 31 0 1) (RST n + 0x18) := by
  have h := foldl_range_at (fun n (d : Dev) => rget d.regs (RST n + 0x18)) (Dev.sysCounted bit)
    (fun _ v => withField v 31 0 (satAdd 32 (fieldOf v 31 0) 1)) (fun n d => d.sysCounted_count bit n)
    (fun n k d h => d.sysCounted_ne bit (by unfold RST twBase; omega) (by unfold RST twBase; omega)) hn (w.d.systemFenced trip)
  rw [World.systemReset_d, h, rget_rcount_self, w.d.systemFenced_spared trip (sparedReg_RST n hn).2]

/-- IDENT_DEVICE still names the fenced towers (R498). -/
theorem World.systemReset_fenced (w : World) (bit : Nat) (trip : Bool) :
    (w.systemReset bit trip).d.fld IDENT_DEVICE 15 8 = w.d.fld IDENT_DEVICE 15 8 := by
  have hfold : rget (w.systemReset bit trip).d.regs IDENT_DEVICE = rget (w.d.systemFenced trip).regs IDENT_DEVICE := by
    rw [World.systemReset_d]
    exact foldl_keeps (fun d : Dev => rget d.regs IDENT_DEVICE = rget (w.d.systemFenced trip).regs IDENT_DEVICE) _ _
      (fun d t _ hd => (d.sysCounted_ne bit (by unfold IDENT_DEVICE RST twBase; omega)
        (by unfold IDENT_DEVICE RST twBase; omega)).trans hd) _ rfl
  rw [Dev.fld, rfld, hfold, Dev.systemFenced, Dev.setFld_regs, rget_rset_self, fieldOf_withField _ _ (by decide) (by decide)]
  exact Nat.mod_eq_of_lt (fld_lt w.d IDENT_DEVICE 15 8)

/-- What SYS_RST_N held low leaves, out of power-on reset (R503, R514). -/
theorem sysRstPin_resets (s : State) (hl : s.dev.level ≠ .powerOn) :
    ∃ t, exec .sysRstPin s = .next t ∧ t.dev.level = .system ∧
      (∀ n, n < 8 → t.dev.fld (RST n) 3 3 = 1 ∧ rget t.dev.regs (RST n + 0x18) = rget (rcount s.dev.regs (RST n + 0x18) 31 0 1) (RST n + 0x18)) ∧
      t.dev.fld IDENT_DEVICE 15 8 = s.dev.fld IDENT_DEVICE 15 8 ∧ t.dev.log = s.dev.log ∧ t.dev.ctxs = [] := by
  have hexec : exec .sysRstPin s = .next (commit s (s.world.systemReset 3 false)) :=
    congrArg (fun w => Host.Outcome.next (commit s w)) (if_neg hl)
  have hd := s.world.systemReset_regsOnly 3 false
  exact ⟨_, hexec, congrArg Dev.level hd,
    fun n hn => ⟨s.world.systemReset_cause false hn (by decide), s.world.systemReset_count 3 false hn⟩,
    s.world.systemReset_fenced 3 false, (congrArg Dev.log hd :), congrArg Dev.ctxs hd⟩

/-- Power-on reset holds the device, whatever SYS_RST_N says (R514). -/
theorem sysRstPin_powerOn (s : State) (hl : s.dev.level = .powerOn) : exec .sysRstPin s = .next s :=
  congrArg (fun w => Host.Outcome.next (commit s w)) (if_pos hl : doSysRstPin s.world = s.world)

/-! ## What a reset's release samples, and what leaves it (R511, R513) -/

/-- What the straps decide: the level, the pins and straps of the board, RST_STRAPS of each root die, and the power cycles counted. -/
structure StrapView where
  level : Level
  board : Board
  cycles : Nat
  strap : List W64

def Dev.strapView (d : Dev) : StrapView :=
  { level := d.level, board := d.board, cycles := d.fw.powerCycles, strap := (List.range 8).map (fun n => rget d.regs (RST n + 0xC)) }

theorem Dev.strap_of_view {d : Dev} {g : Nat → W64} (h : d.strapView.strap = (List.range 8).map g) {k : Nat} (hk : k < 8) :
    rget d.regs (RST k + 0xC) = g k := List.map_inj_left.mp h k (List.mem_range.mpr hk)

/-- The straps' view of a command's world, with its effects on the stores. -/
def World.strapView (w : World) : StrapView × List Wr := (w.d.strapView, w.wr)

/-- An address of no root die's RST_STRAPS, which stands at 0x1000C of each tower's registers. -/
def offStraps (a : Nat) : Prop := a % 0x1000000 ≠ 0x1000C

theorem offStraps.ne {a : Nat} (h : offStraps a) (k : Nat) : RST k + 0xC ≠ a := by
  unfold offStraps at h; unfold RST twBase; omega

theorem offStraps_STK (t : Nat) : offStraps (STK t) := by
  unfold offStraps STK twBase; omega

theorem offStraps_STK_add (t : Nat) {c : Nat} (hc : c < 0x10000) : offStraps (STK t + c) := by
  unfold offStraps STK twBase; omega

theorem offStraps_RST (t : Nat) : offStraps (RST t) := by
  unfold offStraps RST twBase; omega

theorem offStraps_RST_add (t : Nat) {c : Nat} (hc : c < 0x10000) (h : c ≠ 0xC) : offStraps (RST t + c) := by
  unfold offStraps RST twBase; omega

theorem offStraps_WD_add (t : Nat) {c : Nat} (hc : c < 0x10000) : offStraps (WD t + c) := by
  unfold offStraps WD twBase; omega

theorem offStraps_linkBase (l : Nat) : offStraps (linkBase l) := by
  unfold offStraps linkBase twBase
  split <;> omega

theorem Dev.strapView_congr {d d' : Dev} (hl : d'.level = d.level) (hb : d'.board = d.board) (hf : d'.fw = d.fw)
    (hr : ∀ k, k < 8 → rget d'.regs (RST k + 0xC) = rget d.regs (RST k + 0xC)) : d'.strapView = d.strapView := by
  simp only [Dev.strapView, hl, hb, hf, StrapView.mk.injEq, true_and]
  exact List.map_congr_left fun k hk => hr k (List.mem_range.mp hk)

theorem Dev.setReg_strapView (d : Dev) {a : Nat} (v : W64) (h : offStraps a) : (d.setReg a v).strapView = d.strapView :=
  Dev.strapView_congr rfl rfl rfl fun k _ => rget_rput_ne d.regs v (h.ne k)

theorem Dev.setFld_strapView (d : Dev) {a : Nat} (hi lo x : Nat) (h : offStraps a) : (d.setFld a hi lo x).strapView = d.strapView :=
  d.setReg_strapView _ h

theorem Dev.count_strapView (d : Dev) {a : Nat} (hi lo n : Nat) (h : offStraps a) : (d.count a hi lo n).strapView = d.strapView := by
  unfold Dev.count
  split
  · rfl
  · exact d.setFld_strapView _ _ _ h

theorem Dev.logEntry_strapView (d : Dev) (e : LogEntry) : (d.log_ e).strapView = d.strapView :=
  Dev.strapView_congr (d.logEntry_level e) (d.logEntry_board e) (d.logEntry_fw e) fun k _ => by rw [d.logEntry_regs]

theorem Dev.setBit_strapView (d : Dev) {a : Nat} (n : Nat) (h : offStraps a) : (d.setBit a n).strapView = d.strapView :=
  d.setFld_strapView n n 1 h

theorem Dev.event_strapView (d : Dev) (code : Nat) (st det : W16) (ctx : Nat) (tag : W16) (bl : List Blk) :
    (d.event code st det ctx tag bl).strapView = d.strapView := by
  have hfault : offStraps HL_FAULT := by unfold offStraps; decide
  have hlost : offStraps HL_EVENTS_LOST := by unfold offStraps; decide
  unfold Dev.event
  dsimp only
  by_cases hfull : 1024 ≤ d.hl.events.length
  · rw [if_pos hfull]
    split
    · rw [Dev.logEntry_strapView, Dev.setBit_strapView _ 0 hfault, Dev.count_strapView _ 63 0 1 hlost]
      rfl
    · rw [Dev.setBit_strapView _ 0 hfault, Dev.count_strapView _ 63 0 1 hlost]
      rfl
  · rw [if_neg hfull]
    rfl

/-- A choice keeps what both its sides keep. -/
theorem ite_strapView {c : Prop} [Decidable c] {a b : World} {x : StrapView × List Wr} (ha : a.strapView = x) (hb : b.strapView = x) :
    (if c then a else b).strapView = x := by
  split <;> assumption

theorem World.onDev_strapView (w : World) {f : Dev → Dev} (h : ∀ d, (f d).strapView = d.strapView) :
    (w.onDev f).strapView = w.strapView := congrArg (·, w.wr) (h w.d)

theorem World.setReg_strapView (w : World) {a : Nat} (v : W64) (h : offStraps a) : (w.setReg a v).strapView = w.strapView :=
  w.onDev_strapView fun d => d.setReg_strapView v h

theorem World.setFld_strapView (w : World) {a : Nat} (hi lo x : Nat) (h : offStraps a) : (w.setFld a hi lo x).strapView = w.strapView :=
  w.onDev_strapView fun d => d.setFld_strapView hi lo x h

theorem World.foldl_strapView {β : Type} {f : World → β → World} (xs : List β) (h : ∀ w, ∀ b ∈ xs, (f w b).strapView = w.strapView) (w : World) :
    (xs.foldl f w).strapView = w.strapView :=
  foldl_keeps (fun u : World => u.strapView = w.strapView) f xs (fun u b hb hu => (h u b hb).trans hu) w rfl

theorem Dev.foldl_strapView {β : Type} {f : Dev → β → Dev} (xs : List β) (h : ∀ d, ∀ b ∈ xs, (f d b).strapView = d.strapView) (d : Dev) :
    (xs.foldl f d).strapView = d.strapView :=
  foldl_keeps (fun u : Dev => u.strapView = d.strapView) f xs (fun u b hb hu => (h u b hb).trans hu) d rfl

/-! ### The release, part by part -/

theorem Dev.stkStatus_strapView (d : Dev) (t : Nat) : (d.stkStatus t).strapView = d.strapView := by
  unfold Dev.stkStatus
  rw [Dev.setFld_strapView _ _ _ _ (offStraps_STK t), Dev.setFld_strapView _ _ _ _ (offStraps_STK t),
    Dev.setFld_strapView _ _ _ _ (offStraps_STK t)]

theorem World.trainBundles_strapView (w : World) (lanes : List (BundleId × List Nat)) (only : Nat → Bool) :
    (w.trainBundles lanes only).strapView = w.strapView := by
  refine World.foldl_strapView lanes (fun u e _ => ?_) w
  dsimp only
  split
  · rfl
  · exact u.onDev_strapView fun d => Dev.stkStatus_strapView (d.onBundle _ _) _

theorem World.stackEvent_strapView (w : World) (t cls idx state free kind layer : Nat) (st : W16) (logCls : Nat) :
    (w.stackEvent t cls idx state free kind layer st logCls).strapView = w.strapView := by
  have hev : (w.event 0x810 st (BitVec.ofNat 16 t) 0xFFFF
    [mkBlk ([BitVec.ofNat 8 t, BitVec.ofNat 8 cls] ++ leBytes 2 idx ++
      [BitVec.ofNat 8 state, BitVec.ofNat 8 free, BitVec.ofNat 8 kind, BitVec.ofNat 8 layer] ++ leBytes 8 w.d.fretNum)]).strapView = w.strapView :=
    w.onDev_strapView fun d => d.event_strapView ..
  exact ite_strapView hev ((World.onDev_strapView _ fun d => d.logEntry_strapView _).trans hev)

theorem World.wearStatus_strapView (w : World) (t : Nat) : (w.wearStatus t).strapView = w.strapView := by
  unfold World.wearStatus
  extract_lets n w1 w2 w3 w4
  have h1 : w1.strapView = w.strapView := w.setReg_strapView _ (offStraps_STK_add t (by decide))
  clear_value w1
  have h2 : w2.strapView = w.strapView := (w1.setFld_strapView _ _ _ (offStraps_STK t)).trans h1
  clear_value w2
  have h3 : w3.strapView = w.strapView := (w2.setFld_strapView _ _ _ (offStraps_STK t)).trans h2
  clear_value w3
  have h4 : w4.strapView = w3.strapView := w3.onDev_strapView fun _ => rfl
  exact ite_strapView ((w4.stackEvent_strapView ..).trans (h4.trans h3)) h2

theorem Dev.trainLinks_strapView (d : Dev) : d.trainLinks.strapView = d.strapView := by
  refine Dev.foldl_strapView _ (fun u l _ => ?_) d
  split
  · exact u.setFld_strapView _ _ _ (offStraps_linkBase l)
  · rfl

/-- A root die's sample at a release: RST_STRAPS, and the clock source that CLK_MODE chooses. -/
def World.sampleDie (strap clock : W64) (w : World) (t : Nat) : World := (w.setReg (RST t + 0xC) strap).setReg (RST t + 0x20) clock

theorem World.sampleDie_self (strap clock : W64) (w : World) (t : Nat) : rget (w.sampleDie strap clock t).d.regs (RST t + 0xC) = strap := by
  rw [World.sampleDie, World.setReg_d, Dev.setReg_regs, rget_rput_ne _ _ (by omega), World.setReg_d, Dev.setReg_regs, rget_rput_self]

theorem World.sampleDie_ne (strap clock : W64) (w : World) {t k : Nat} (h : k ≠ t) :
    rget (w.sampleDie strap clock t).d.regs (RST k + 0xC) = rget w.d.regs (RST k + 0xC) := by
  rw [World.sampleDie, World.setReg_d, Dev.setReg_regs, rget_rput_ne _ _ (by unfold RST twBase; omega), World.setReg_d, Dev.setReg_regs,
    rget_rput_ne _ _ (by unfold RST twBase; omega)]

/-- The straps' view with one word in every RST_STRAPS. -/
def World.strapped (w : World) (v : W64) : StrapView × List Wr := ({ w.d.strapView with strap := (List.range 8).map (fun _ => v) }, w.wr)

theorem World.setReg_strapped (w : World) (a : Nat) (x v : W64) : (w.setReg a x).strapped v = w.strapped v := rfl

theorem World.strapView_eq_strapped {w : World} {v : W64} (h : ∀ k, k < 8 → rget w.d.regs (RST k + 0xC) = v) :
    w.strapView = w.strapped v := by
  have hmap : (List.range 8).map (fun n => rget w.d.regs (RST n + 0xC)) = (List.range 8).map (fun _ => v) :=
    List.map_congr_left fun k hk => h k (List.mem_range.mp hk)
  rw [World.strapView, World.strapped, Dev.strapView, hmap]

/-- Every root die samples the same straps, and nothing else of the view changes. -/
theorem World.sampleDies_strapView (strap clock : W64) (w : World) :
    ((List.range 8).foldl (World.sampleDie strap clock) w).strapView = w.strapped strap := by
  have hstrap : ∀ k, k < 8 → rget ((List.range 8).foldl (World.sampleDie strap clock) w).d.regs (RST k + 0xC) = strap := fun k hk =>
    foldl_range_at (fun k (w : World) => rget w.d.regs (RST k + 0xC)) _ (fun _ _ => strap)
      (fun _ w => w.sampleDie_self strap clock _) (fun _ _ w h => w.sampleDie_ne strap clock h) hk w
  rw [World.strapView_eq_strapped hstrap]
  exact foldl_keeps (fun u : World => u.strapped strap = w.strapped strap) _ _
    (fun u t _ hu => (World.setReg_strapped _ _ _ _).trans ((u.setReg_strapped _ _ _).trans hu)) w rfl

/-- Whether the release refuses the CLK_MODE strap: 0b11 under TEST_LOCK (R513). -/
def Dev.strapRefused (d : Dev) (r : ReleaseInput) : Bool := d.otpTestLock && r.clkMode == 3

/-- CLK_MODE as it runs: a refused strap as 0b00 (R513). -/
def Dev.clkRuns (d : Dev) (r : ReleaseInput) : BitVec 2 := if d.strapRefused r then 0 else r.clkMode

/-- RST_STRAPS as a release leaves it: STRAP_REFUSED, CLK_MODE, BOOT_SRC. -/
def Dev.strapWord (d : Dev) (r : ReleaseInput) : W64 :=
  BitVec.ofNat 64 ((if d.strapRefused r then 16 else 0) + (d.clkRuns r).toNat * 4 + r.bootSrc.toNat)

theorem Dev.startWardens_strapView (d : Dev) (n : Nat) (v : Nat → W64) :
    ((List.range n).foldl (fun d i => d.setReg (WD (wardenTower i) + 8) (v i)) d).strapView = d.strapView :=
  Dev.foldl_strapView _ (fun u _ _ => u.setReg_strapView _ (offStraps_WD_add _ (by decide))) d

/-- What the release of power-on and of system reset leaves of the straps' view (R511, R513): after the straps are sampled and the
power cycle is counted, no part of the boot touches it. -/
theorem World.release_strapView (w : World) (r : ReleaseInput) :
    (w.release r).strapView = (⟨.run, { w.d.board with bootSrc := r.bootSrc, clkMode := w.d.clkRuns r, tripN := true },
      w.d.fw.powerCycles + 1, (List.range 8).map (fun _ => w.d.strapWord r)⟩, w.wr) := by
  unfold World.release
  extract_lets lock refused clk w1 clock w2 w3 w4 w5 w6 w7
  have h2 : w2.strapView = (⟨.run, { w.d.board with bootSrc := r.bootSrc, clkMode := w.d.clkRuns r, tripN := true },
      w.d.fw.powerCycles, (List.range 8).map (fun _ => w.d.strapWord r)⟩, w.wr) := World.sampleDies_strapView _ _ w1
  clear_value w2
  have h3 : w3.strapView = w2.strapView := w2.trainBundles_strapView ..
  clear_value w3
  have h4 : w4.strapView = w3.strapView :=
    World.foldl_strapView _ (fun u t _ => u.setReg_strapView _ (offStraps_STK_add t (by decide))) w3
  clear_value w4
  have h5 : w5.strapView = ({ w4.strapView.1 with cycles := w4.strapView.1.cycles + 1 }, w4.strapView.2) := rfl
  clear_value w5
  have h6 : w6.strapView = w5.strapView := by
    refine World.foldl_strapView _ (fun u t _ => ?_) w5
    rw [World.wearStatus_strapView]
    exact u.onDev_strapView fun _ => rfl
  clear_value w6
  have h7 : w7.strapView = w6.strapView := w6.onDev_strapView fun d => d.writeWear.trainLinks_strapView
  clear_value w7
  refine (w7.onDev_strapView fun d => ?_).trans (by rw [h7, h6, h5, h4, h3, h2])
  dsimp only
  rw [Dev.startWardens_strapView]
  rfl

/-- STRAP_REFUSED of a sampled RST_STRAPS. -/
theorem strapWord_refused (d : Dev) (r : ReleaseInput) : fieldOf (d.strapWord r) 4 4 = if d.strapRefused r then 1 else 0 := by
  have hclk := (d.clkRuns r).isLt
  have hboot := r.bootSrc.isLt
  rw [Dev.strapWord, fieldOf, bitsOf, BitVec.toNat_ofNat, Nat.shiftRight_eq_div_pow]
  split <;> omega

theorem strapRefused_iff (d : Dev) (r : ReleaseInput) : d.strapRefused r = true ↔ d.otpTestLock = true ∧ r.clkMode = 3 := by
  simp [Dev.strapRefused]

/-- What both releases leave: the level is over, the straps are sampled, and a boot is counted (R496, R511, R513). -/
theorem release_leaves {s : State} {cmd : Instr} {r : ReleaseInput} (hexec : exec cmd s = .next (commit s (s.world.release r))) :
    ∃ t, exec cmd s = .next t ∧ t.mem = s.mem ∧ t.dev.level = .run ∧ t.dev.board.bootSrc = r.bootSrc ∧
      t.dev.board.clkMode = (if s.dev.otpTestLock = true ∧ r.clkMode = 3 then 0 else r.clkMode) ∧
      (∀ n, n < 8 → t.dev.fld (RST n + 0xC) 4 4 = (if s.dev.otpTestLock = true ∧ r.clkMode = 3 then 1 else 0)) ∧
      t.dev.fw.powerCycles = s.dev.fw.powerCycles + 1 := by
  have hview := s.world.release_strapView r
  generalize s.world.release r = u at hexec hview
  have hd : u.d.strapView = _ := congrArg Prod.fst hview
  have hwr : u.wr = [] := congrArg Prod.snd hview
  have hboard := congrArg StrapView.board hd
  refine ⟨_, hexec, commit_mem_nil hwr, congrArg StrapView.level hd, congrArg Board.bootSrc hboard, ?_,
    fun n hn => ?_, congrArg StrapView.cycles hd⟩
  · have hclk := congrArg Board.clkMode hboard
    simp only [← strapRefused_iff]
    exact hclk
  · have hstrap := Dev.strap_of_view (g := fun _ => s.dev.strapWord r) (congrArg StrapView.strap hd) hn
    simp only [← strapRefused_iff]
    exact (congrArg (fieldOf · 4 4) hstrap).trans (strapWord_refused s.dev r)

theorem powerOnResetRelease_exec {s : State} (r : ReleaseInput) (hl : s.dev.level = .powerOn) :
    exec (.powerOnResetRelease r) s = .next (commit s (s.world.release r)) :=
  congrArg (fun w => Host.Outcome.next (commit s w)) (if_pos hl)

theorem systemResetRelease_exec {s : State} (r : ReleaseInput) (hl : s.dev.level = .system) :
    exec (.systemResetRelease r) s = .next (commit s (s.world.release r)) :=
  congrArg (fun w => Host.Outcome.next (commit s w)) (if_pos hl)

/-! ## The trip-held reset (R529) -/

theorem tripHoldRelease_ends (s : State) (hl : s.dev.level = .tripHold) (hc : 1000 ≤ s.dev.board.coolRounds) :
    exec .tripHoldRelease s = .next { s with dev := { s.dev with level := .system, board := { s.dev.board with tripN := true } } } :=
  congrArg (fun w => Host.Outcome.next (commit s w)) (if_pos ⟨hl, hc⟩)

/-! ## Core reset samples no straps (R513) -/

theorem Dev.clearRange_strapView (d : Dev) {lo hi : Nat} (keep : Nat → Bool) (h : ∀ k, k < 8 → RST k + 0xC < lo ∨ hi ≤ RST k + 0xC) :
    (d.clearRange lo hi keep).strapView = d.strapView := by
  refine Dev.strapView_congr rfl rfl rfl fun k hk => ?_
  have hkeep : (decide (RST k + 0xC < lo) || decide (hi ≤ RST k + 0xC) || keep (RST k + 0xC)) = true := by
    rcases h k hk with h | h <;> simp [h]
  rw [Dev.clearRange, rget_filter (fun a => decide (a < lo) || decide (hi ≤ a) || keep a), if_pos hkeep]

/-- Entry to core reset clears no strap (R504). -/
theorem Dev.coreClear_strapView (d : Dev) (t : Nat) : (d.coreClear t).strapView = d.strapView := by
  unfold Dev.coreClear
  extract_lets d1 d2 d3 d4 d5 d6
  have h1 : d1.strapView = d.strapView := by
    refine Dev.foldl_strapView _ (fun u c _ => ?_) d
    rfl
  clear_value d1
  have h2 : d2.strapView = d1.strapView := d1.clearRange_strapView _ fun k hk => by unfold RST twBase ccBase; omega
  clear_value d2
  have h3 : d3.strapView = d2.strapView := d2.clearRange_strapView _ fun k hk => by unfold RST UER twBase; omega
  clear_value d3
  have h4 : d4.strapView = d3.strapView := d3.clearRange_strapView _ fun k hk => by unfold RST MEMR twBase; omega
  clear_value d4
  have h5 : d5.strapView = d4.strapView := d4.clearRange_strapView _ fun k hk => by unfold RST EFR twBase; omega
  clear_value d5
  have hoff : offStraps EF_ROUTE_INFO := by unfold offStraps; decide
  have h6 : d6.strapView = d5.strapView := by
    simp only [d6]
    split
    · rw [Dev.setFld_strapView _ _ _ _ hoff, Dev.setFld_strapView _ _ _ _ hoff]
    · rfl
  clear_value d6
  have hlad (ls) : ({ d6 with ladders := ls } : Dev).strapView = d6.strapView := rfl
  rw [hlad, h6, h5, h4, h3, h2, h1]

theorem doCoreResetAssert_strapView (t : Fin 8) (w : World) : (doCoreResetAssert t w).strapView = w.strapView := by
  unfold doCoreResetAssert
  extract_lets x w1 w2 w3 w4 w5
  split
  · have h1 : w1.strapView = w.strapView := w.onDev_strapView fun d => d.coreClear_strapView t.val
    clear_value w1
    have h2 : w2.strapView = w1.strapView := w1.setFld_strapView _ _ _ (offStraps_RST_add _ (by decide) (by decide))
    clear_value w2
    have h3 : w3.strapView = w2.strapView := w2.onDev_strapView fun d => d.setBit_strapView _ (offStraps_RST _)
    clear_value w3
    have h4 : w4.strapView = w3.strapView :=
      w3.onDev_strapView fun d => d.count_strapView _ _ _ (offStraps_RST_add _ (by decide) (by decide))
    clear_value w4
    have h5 : w5.strapView = w4.strapView :=
      World.foldl_strapView _ (fun u i _ => u.setReg_strapView _ (offStraps_WD_add _ (by decide))) w4
    clear_value w5
    have hall : w5.strapView = w.strapView := by rw [h5, h4, h3, h2, h1]
    have hended : (w5.onDev (fun d => d.opEnded 0x602 (fun h => h.p0.toNat == t.val) stOk 0)).strapView = w5.strapView :=
      w5.onDev_strapView fun _ => rfl
    exact ite_strapView (hended.trans hall) hall
  · rfl

theorem doCoreResetRelease_strapView (t : Fin 8) (w : World) : (doCoreResetRelease t w).strapView = w.strapView := by
  unfold doCoreResetRelease
  dsimp only
  split
  · rw [World.setFld_strapView _ _ _ _ (offStraps_RST_add _ (by decide) (by decide))]
    exact w.onDev_strapView fun _ => rfl
  · rfl

/-- A live command whose effect keeps the straps' view leaves the board and every RST_STRAPS, in reset too. -/
theorem runLive_straps (s : State) {f : World → World} (hf : ∀ w, (f w).strapView = w.strapView) :
    ∃ t, runLive s f = .next t ∧ t.dev.board = s.dev.board ∧ ∀ k, k < 8 → rget t.dev.regs (RST k + 0xC) = rget s.dev.regs (RST k + 0xC) := by
  have hview := ite_strapView (c := s.world.d.level = .run) (hf s.world) (rfl : s.world.strapView = s.world.strapView)
  have hd := congrArg Prod.fst hview
  exact ⟨_, rfl, congrArg StrapView.board hd, fun k hk =>
    Dev.strap_of_view (g := fun k => rget s.dev.regs (RST k + 0xC)) (congrArg StrapView.strap hd) hk⟩

theorem coreReset_straps (n : Fin 8) (s : State) (cmd : Instr) (hcmd : cmd = .coreResetAssert n ∨ cmd = .coreResetRelease n) :
    ∃ t, exec cmd s = .next t ∧ t.dev.board = s.dev.board ∧ ∀ k, k < 8 → rget t.dev.regs (RST k + 0xC) = rget s.dev.regs (RST k + 0xC) := by
  rcases hcmd with rfl | rfl
  · exact runLive_straps s (doCoreResetAssert_strapView n)
  · exact runLive_straps s (doCoreResetRelease_strapView n)

/-! ## The watchdogs (R506) -/

/-- A device changed in its links, its outputs and its host link alone. -/
def Dev.HostOnly (d d' : Dev) : Prop := d' = { d with links := d'.links, out := d'.out, hl := d'.hl }

theorem Dev.HostOnly.refl (d : Dev) : d.HostOnly d := rfl

theorem Dev.HostOnly.trans {a b c : Dev} (h : a.HostOnly b) (k : b.HostOnly c) : a.HostOnly c := by
  unfold Dev.HostOnly at *; rw [k, h]

theorem Dev.HostOnly.regs {d d' : Dev} (h : d.HostOnly d') : d'.regs = d.regs := (congrArg Dev.regs h :)
theorem Dev.HostOnly.level {d d' : Dev} (h : d.HostOnly d') : d'.level = d.level := (congrArg Dev.level h :)
theorem Dev.HostOnly.wardens {d d' : Dev} (h : d.HostOnly d') : d'.wardens = d.wardens := (congrArg Dev.wardens h :)

theorem Dev.LinksOnly.hostOnly {d d' : Dev} (h : d.LinksOnly d') : d.HostOnly d' := by
  unfold Dev.LinksOnly at h; unfold Dev.HostOnly; rw [h]

/-- Commands lost with their custody are answered, and nothing else happens. -/
theorem Dev.custodyLostJobs_hostOnly (d : Dev) : d.HostOnly d.custodyLostJobs := by
  have hreplies := foldl_keeps (Dev.HostOnly d ·) (fun (d : Dev) (j : HostJob) =>
      (d.replyPkt j.h j.opcode stCustodyLost 0 0 []).settle j.h.port.val j.h.tag) (d.hl.held.filter (fun j => wardenAdmits j.opcode))
    (fun u j _ hu => hu.trans ((u.replyPkt_linksOnly ..).hostOnly.trans rfl)) d rfl
  exact hreplies.trans rfl

/-- The register part of a warden-domain reset: its cause, its code, and the WD registers of its tower back at zero. -/
def Dev.domainCleared (d : Dev) (t code : Nat) : Dev :=
  (((((d.setBit (RST t) 10).setReg (WD t + 0x18) (BitVec.ofNat 64 code)).setReg (WD t) 0).setFld (WD t + 0x10) 31 0 0).setReg
    (WD t + 0x20) 0).setReg (WD t + 0x28) 0

theorem Dev.domainCleared_regsOnly (d : Dev) (t code : Nat) : d.RegsOnly (d.domainCleared t code) :=
  (((((d.setBit_regsOnly _ _).trans (Dev.setReg_regsOnly ..)).trans (Dev.setReg_regsOnly ..)).trans (Dev.setFld_regsOnly ..)).trans
    (Dev.setReg_regsOnly ..)).trans (Dev.setReg_regsOnly ..)

theorem Dev.domainCleared_cause (d : Dev) (t code : Nat) :
    rget (d.domainCleared t code).regs (RST t) = withField (rget d.regs (RST t)) 10 10 1 := by
  have hne (c : Nat) (hc : c < 0x10000) : RST t ≠ WD t + c := by unfold RST WD twBase; omega
  have hne0 : RST t ≠ WD t := by unfold RST WD twBase; omega
  rw [Dev.domainCleared, Dev.setReg_regs, rget_rput_ne _ _ (hne _ (by decide)), Dev.setReg_regs, rget_rput_ne _ _ (hne _ (by decide)),
    Dev.setFld_regs, rget_rset_ne _ _ _ _ (hne _ (by decide)), Dev.setReg_regs, rget_rput_ne _ _ hne0, Dev.setReg_regs,
    rget_rput_ne _ _ (hne _ (by decide)), Dev.setBit_regs, rget_rset_self]

theorem Dev.domainCleared_code (d : Dev) (t code : Nat) :
    rget (d.domainCleared t code).regs (WD t + 0x18) = BitVec.ofNat 64 code := by
  rw [Dev.domainCleared, Dev.setReg_regs, rget_rput_ne _ _ (by omega), Dev.setReg_regs, rget_rput_ne _ _ (by omega),
    Dev.setFld_regs, rget_rset_ne _ _ _ _ (by omega), Dev.setReg_regs, rget_rput_ne _ _ (by omega), Dev.setReg_regs, rget_rput_self]

theorem Dev.wdView_regsOnly (d : Dev) (i : Nat) : d.RegsOnly (d.wdView i) := d.setReg_regsOnly _ _

theorem Dev.wdView_rget (d : Dev) (i : Nat) {a : Nat} (h : a ≠ WD (wardenTower i) + 8) : rget (d.wdView i).regs a = rget d.regs a :=
  rget_rput_ne d.regs _ h

theorem World.onDev_onDev (w : World) (f g : Dev → Dev) : (w.onDev f).onDev g = w.onDev (fun d => g (f d)) := rfl

/-- The registers of a warden-domain reset as one change of the device, whatever their addresses. -/
theorem World.clear_onDev (w : World) (cause codeAt status beats fret floors : Nat) (code : W64) :
    (((((w.setBit cause 10).setReg codeAt code).setReg status 0).setFld beats 31 0 0).setReg fret 0).setReg floors 0 =
      w.onDev (fun d => (((((d.setBit cause 10).setReg codeAt code).setReg status 0).setFld beats 31 0 0).setReg fret 0).setReg floors 0) := by
  unfold World.setBit World.setReg World.setFld
  rw [World.onDev_onDev, World.onDev_onDev, World.onDev_onDev, World.onDev_onDev, World.onDev_onDev]

/-- A warden as its reset leaves it (R504). -/
def Warden.afterReset (arbEpoch : Nat) (x : Warden) : Warden :=
  { Warden.init with epoch := max x.epoch arbEpoch, everReady := x.everReady, lostOnce := true, dog := x.dog }

/-- A warden starts anew, and its view of its custody follows. -/
def Dev.wardenRestarted (d : Dev) (i : Nat) : Dev := (d.onWarden i (Warden.afterReset d.fw.arbEpoch)).wdView i

/-- A warden-domain reset, before commands lost with the custody are answered. -/
def World.domainReset (w : World) (i code : Nat) : World :=
  (w.onDev (fun d => d.domainCleared (wardenTower i) code)).onDev (fun d => d.wardenRestarted i)

theorem World.wardenReset_eq (w : World) (i code : Nat) :
    w.wardenReset i code = if (w.d.warden i).custody then (w.domainReset i code).onDev (fun d => d.custodyLostJobs) else w.domainReset i code :=
  congrArg (fun u : World => if (w.d.warden i).custody then (u.onDev (fun d => d.wardenRestarted i)).onDev (fun d => d.custodyLostJobs)
    else u.onDev (fun d => d.wardenRestarted i)) (w.clear_onDev ..)

/-- What a warden-domain reset leaves of the device, before commands lost with the custody are answered. -/
def Dev.wardenWasReset (d : Dev) (i code : Nat) : Dev := (d.domainCleared (wardenTower i) code).wardenRestarted i

theorem World.domainReset_d (w : World) (i code : Nat) : (w.domainReset i code).d = w.d.wardenWasReset i code := by
  rw [World.domainReset, World.onDev_d, World.onDev_d, Dev.wardenWasReset]

theorem World.domainReset_wr (w : World) (i code : Nat) : (w.domainReset i code).wr = w.wr := by
  rw [World.domainReset, World.onDev_wr, World.onDev_wr]

/-- A warden-domain reset writes no memory, and beyond `wardenWasReset` it only answers commands. -/
theorem World.wardenReset_hostOnly (w : World) (i code : Nat) :
    (w.wardenReset i code).wr = w.wr ∧ (w.d.wardenWasReset i code).HostOnly (w.wardenReset i code).d := by
  rw [World.wardenReset_eq]
  split
  · rw [World.onDev_wr, World.domainReset_wr, World.onDev_d, World.domainReset_d]
    exact ⟨rfl, Dev.custodyLostJobs_hostOnly _⟩
  · rw [World.domainReset_wr, World.domainReset_d]
    exact ⟨rfl, .refl _⟩

theorem Dev.wardenWasReset_level (d : Dev) (i code : Nat) : (d.wardenWasReset i code).level = d.level := by
  rw [Dev.wardenWasReset, Dev.wardenRestarted, (Dev.wdView_regsOnly ..).level, Dev.onWarden_level,
    (Dev.domainCleared_regsOnly ..).level]

theorem Dev.wardenWasReset_wardens (d : Dev) (i code : Nat) :
    (d.wardenWasReset i code).wardens = tput d.wardens i (Warden.afterReset d.fw.arbEpoch (d.warden i)) := by
  have hregs := d.domainCleared_regsOnly (wardenTower i) code
  rw [Dev.wardenWasReset, Dev.wardenRestarted, (Dev.wdView_regsOnly ..).wardens, Dev.onWarden_wardens, Dev.warden, hregs.wardens,
    hregs.fw, ← Dev.warden]

/-- The registers of the reset but WD_CUSTODY are those of `domainCleared`. -/
theorem Dev.wardenWasReset_rget (d : Dev) (i code : Nat) {a : Nat} (h : a ≠ WD (wardenTower i) + 8) :
    rget (d.wardenWasReset i code).regs a = rget (d.domainCleared (wardenTower i) code).regs a := by
  rw [Dev.wardenWasReset, Dev.wardenRestarted, Dev.wdView_rget _ _ h, Dev.onWarden_regs]

/-- Warden i is alone: the other's watchdog has expired within 1,000 rounds, its soundpost is lost, its boot has failed, or it was never
ready (R506). -/
def State.wardenAlone (s : State) (i : Fin 2) : Bool :=
  let o := s.dev.warden (1 - i.val)
  let ost := (rget s.dev.regs (WD (wardenTower (1 - i.val)))).toNat
  (match o.dog with | some n => decide (n ≤ 1000) | none => false) || bitOf ost 7 || bitOf ost 6 || !o.everReady

/-- The fault log's entry of a watchdog and the cause that it names. -/
def dogEntry (i : Fin 2) (cause : Nat) : LogEntry := { entry 0x52 (wardenTower i.val) 0x16 with param := cause }

theorem doWatchdogExpiry_alone {s : State} {i : Fin 2} (h : s.wardenAlone i = true) :
    doWatchdogExpiry i s.world = (s.world.log (dogEntry i 0x0006)).systemReset 5 false := if_pos h

theorem doWatchdogExpiry_warden {s : State} {i : Fin 2} (h : s.wardenAlone i = false) :
    doWatchdogExpiry i s.world = ((s.world.log (dogEntry i 0x0015)).wardenReset i.val 0x0015).onDev
      (fun d => d.onWarden i.val (fun x => { x with dog := some 0 })) := if_neg (by rw [← Bool.not_eq_true] at h; exact h)

/-- No warden is left to hear the expiry: system reset. -/
theorem watchdogExpiry_alone {s : State} {i : Fin 2} (hl : State.live s) (h : s.wardenAlone i = true) :
    ∃ t, exec (.watchdogExpiry i) s = .next t ∧ t.dev.level = .system ∧ ∀ n, n < 8 → t.dev.fld (RST n) 5 5 = 1 := by
  have hexec : exec (.watchdogExpiry i) s = .next (commit s (doWatchdogExpiry i s.world)) := runLive_live hl _
  rw [doWatchdogExpiry_alone h] at hexec
  exact ⟨_, hexec, congrArg Dev.level (World.systemReset_regsOnly ..), fun n hn => World.systemReset_cause _ false hn (by decide)⟩

/-- The other warden hears it: the warden's own domain is reset. -/
theorem watchdogExpiry_warden {s : State} {i : Fin 2} (hl : State.live s) (h : s.wardenAlone i = false) :
    ∃ t, exec (.watchdogExpiry i) s = .next t ∧ t.mem = s.mem ∧ t.dev.level = .run ∧ (t.dev.warden i.val).ready = false ∧
      (t.dev.warden i.val).custody = false ∧ (t.dev.warden i.val).dog = some 0 ∧ t.dev.warden (1 - i.val) = s.dev.warden (1 - i.val) ∧
      t.dev.fld (RST (wardenTower i.val)) 10 10 = 1 ∧ (rget t.dev.regs (WD (wardenTower i.val) + 0x18)).toNat = 0x15 := by
  have hexec : exec (.watchdogExpiry i) s = .next (commit s (doWatchdogExpiry i s.world)) := runLive_live hl _
  rw [doWatchdogExpiry_warden h] at hexec
  obtain ⟨hwr, hhost⟩ := (s.world.log (dogEntry i 0x0015)).wardenReset_hostOnly i.val 0x0015
  generalize (s.world.log (dogEntry i 0x0015)).wardenReset i.val 0x0015 = u at hexec hwr hhost
  rw [World.log_wr] at hwr
  rw [World.log_d] at hhost
  have hregs (a : Nat) (ha : a ≠ WD (wardenTower i.val) + 8) :
      rget u.d.regs a = rget ((s.world.d.log_ (dogEntry i 0x0015)).domainCleared (wardenTower i.val) 0x0015).regs a := by
    rw [hhost.regs, Dev.wardenWasReset_rget _ _ _ ha]
  have hlevel : u.d.level = .run := by
    rw [hhost.level, Dev.wardenWasReset_level, Dev.logEntry_level]
    exact hl
  have hwardens : u.d.wardens = tput s.dev.wardens i.val (Warden.afterReset s.dev.fw.arbEpoch (s.dev.warden i.val)) := by
    rw [hhost.wardens, Dev.wardenWasReset_wardens, Dev.warden, Dev.logEntry_wardens, Dev.logEntry_fw]
    rfl
  have hother : 1 - i.val ≠ i.val := by omega
  refine ⟨_, hexec, commit_mem_nil hwr, hlevel, ?_⟩
  simp only [commit_dev, World.onDev_d, Dev.warden, Dev.onWarden_wardens, Dev.fld, rfld, Dev.onWarden_regs]
  refine ⟨?_, ?_, ?_, ?_, ?_, ?_⟩
  · rw [tget_tput_self, hwardens, tget_tput_self]; rfl
  · rw [tget_tput_self, hwardens, tget_tput_self]; rfl
  · rw [tget_tput_self]
  · rw [tget_tput_ne _ _ _ hother, hwardens, tget_tput_ne _ _ _ hother]
  · rw [hregs _ (by unfold RST WD twBase; omega), Dev.domainCleared_cause]
    exact fieldOf_withField _ 1 (Nat.le_refl 10) (by decide)
  · rw [hregs _ (by omega)]
    exact congrArg BitVec.toNat (Dev.domainCleared_code _ _ 0x15)

/-- Settles O56: each entry to a reset changes only registers of what it spares, and what follows the sampling of the straps keeps
their view. -/
theorem resetsAndReleases : Obligations.ResetsAndReleases := by
  unfold Obligations.ResetsAndReleases
  refine ⟨powerOn_table, sysRstPin_resets, sysRstPin_powerOn, fun r s cmd hcmd => ?_, coreReset_straps, tripHoldRelease_ends,
    fun i s hl => ⟨fun h => watchdogExpiry_alone hl h, fun h => watchdogExpiry_warden hl h⟩⟩
  rcases hcmd with ⟨rfl, hl⟩ | ⟨rfl, hl⟩
  · exact release_leaves (powerOnResetRelease_exec r hl)
  · exact release_leaves (systemResetRelease_exec r hl)

end Sys2Proof.Machine
end

section
/-! SUPPORT and PROOFS. The block as a whole: every command is the commit of an effect, and in a reset level the commands that do not
belong to the reset have none. -/

namespace Sys2Proof.Machine

/-- Whatever the command, what it does is to commit an effect on the stores and the device. -/
theorem exec_commits (c : Instr) (s : State) : ∃ w, exec c s = .next (commit s w) := by
  cases c <;> exact ⟨_, rfl⟩

/-- Settles O1: both clauses are the two branches of `step`. -/
theorem stepRunsTheFrontCommandOrIdles : Obligations.StepRunsTheFrontCommandOrIdles := by
  unfold Obligations.StepRunsTheFrontCommandOrIdles
  exact ⟨fun c rest s h => by simp only [step, h], fun s h => by simp only [step, h]⟩

/-- Settles O2: a command commits an effect, and a commit keeps the queue. -/
theorem everyCommandAnswers : Obligations.EveryCommandAnswers := by
  unfold Obligations.EveryCommandAnswers
  intro c s
  obtain ⟨w, hw⟩ := exec_commits c s
  exact ⟨_, hw, commit_pending s w⟩

theorem exec_memInv {c : Instr} {s t : State} (h : exec c s = .next t) (hs : s.memInv) : t.memInv := by
  obtain ⟨w, hw⟩ := exec_commits c s
  obtain rfl : commit s w = t := Host.Outcome.next.inj (hw.symm.trans h)
  exact commit_memInv s w hs

/-- Settles O3: a step idles or commits an effect, and each effect keeps the canonical form. -/
theorem storesStayCanonical : Obligations.StoresStayCanonical := by
  unfold Obligations.StoresStayCanonical
  intro s t hs h
  unfold step at h
  split at h
  · obtain rfl : s = t := Host.Outcome.next.inj h
    exact hs
  · exact exec_memInv h hs

/-- Settles O4: after power-on reset every table is empty. -/
theorem resetState : Obligations.ResetState := by
  unfold Obligations.ResetState
  exact ⟨⟨rfl, fun c hc => absurd hc List.not_mem_nil⟩, rfl, rfl, fun _ => rfl, fun _ => rfl, fun _ => rfl, fun _ => rfl⟩

/-- In reset the work of a unit changes nothing (log 8). -/
theorem runWork_reset {s : State} (h : s.dev.level ≠ .run) (k : Work) (f : World → World) : runWork s k f = .next s := runLive_reset h _

/-- Settles O5: a command outside the reset's own runs its effect, or the work of a unit, on a live device alone. -/
theorem inResetOnlyResetActs : Obligations.InResetOnlyResetActs := by
  unfold Obligations.InResetOnlyResetActs
  intro c s hlevel hc
  cases c
  case powerOnReset | undervoltage | regulatorShutdown | clockLoss | powerOnResetRelease | sysRstPin | systemResetRelease |
      tripHoldRelease | housekeepingRound | leak | cableConnect | cableDisconnect | jtagBypass | jtagIdcode | jtagSamplePreload |
      jtagExtest | jtagTrst => cases hc
  case commandDone | blockRereadDone | ladderVerdict | bundleRetrainDone => unfold exec; exact runLive_reset hlevel _
  all_goals first | exact runLive_reset hlevel _ | exact runWork_reset hlevel _ _

end Sys2Proof.Machine
end

section
/-! SUPPORT and PROOFS. Host commands that only answer (R434, R458). -/

namespace Sys2Proof.Machine

/-! ## A command that is admitted and answers at once -/

/-- A final reply of a command taken leaves the device as it was, but for the count and the reply. -/
theorem reply_of_taken {w : World} {d : Dev} {h : HostCmd} {op : Nat} {st det : W16} {p : W32} {bl : List Blk} (hd : w.d = d.taken h)
    (hf : (h.port.val, h.tag) ∉ d.hl.outstanding) :
    w.reply h op st det p bl = { w with d := d.counted.replied h op st det p bl } := by
  have hsame := replied_same (h := h) (op := op) (st := st) (det := det) (p := p) (bl := bl)
    (⟨rfl, rfl, rfl, rfl, rfl⟩ : SameWire d.counted (d.taken h))
  have hrest : d.counted.replied h op st det p bl = _ := Dev.replyPkt_eq d.counted h op st det p bl
  rw [replyPkt_replied] at hrest
  rw [reply_taken (by rw [hd]) hf, hd, hsame, hrest]
  rfl

/-- An admitted command whose work is to reply: it is counted and answered, and nothing else happens. -/
theorem admitCmd_replies {w : World} {h : HostCmd} {c : OpSpec} {k : World → World} {op : Nat} {st det : W16} {p : W32} {bl : List Blk}
    (ha : Admitted w.d h c) (hb : c.bad (w.d.taken h) h = none)
    (hk : k { w with d := w.d.taken h } = World.reply { w with d := w.d.taken h } h op st det p bl) :
    w.admitCmd h c k = { w with d := w.d.counted.replied h op st det p bl } := by
  rw [admit_ok k ha hb, hk, reply_of_taken rfl ha.fresh]

/-- Parameters in range: the command goes on. -/
theorem World.onParams_ok {w : World} {h : HostCmd} {op : Nat} {bad : Dev → HostCmd → Option Nat} {k : World → World}
    (hb : bad w.d h = none) : w.onParams h op bad k = k w := by simp only [World.onParams, hb]

theorem firstParam_eq_none {l : List (Bool × Nat)} : firstParam l = none ↔ ∀ e ∈ l, e.1 = false := by
  simp [firstParam]

/-! ## The queries -/

theorem doIdentify_replies {w : World} {h : HostCmd} (ha : Admitted w.d h { plainOp 0x001 [0, 1, 2, 3] with early := true }) :
    doIdentify h w = { w with d := w.d.counted.replied h 0x001 stOk 0 0 [mkBlk
      (leBytes 8 (rget w.d.counted.regs IDENT_DEVICE).toNat ++ leBytes 8 (rget w.d.counted.regs IDENT_BUILD).toNat ++ w.d.counted.serial ++
      leBytes 2 (if w.d.counted.hedge.joined then w.d.counted.hedge.rank else 0xFFFF) ++ leBytes 2 w.d.counted.hedge.size ++
      leBytes 1 w.d.counted.custodyTower ++ leBytes 1 w.d.counted.board.clkMode.toNat ++ leBytes 1 w.d.counted.board.bootSrc.toNat ++
      leBytes 1 0 ++ leBytes 8 (farBytes w.d.counted))] } :=
  admitCmd_replies ha rfl rfl

theorem readRegBad_of_readReg {d e : Dev} {h : HostCmd} {v : W64} (hv : d.readReg h.p0.toNat = some v) : readRegBad e h = none := by
  unfold Dev.readReg at hv
  cases hr : regRow h.p0.toNat <;> simp_all [readRegBad, firstParam]

theorem doReadReg_replies {w : World} {h : HostCmd} {v : W64}
    (ha : Admitted w.d h { plainOp 0x002 [1, 2, 3] with early := earlyReg h.p0.toNat }) (hv : w.d.counted.readReg h.p0.toNat = some v) :
    doReadReg h w = { w with d := w.d.counted.replied h 0x002 stOk 0 0 [mkBlk (leBytes 8 v.toNat)] } := by
  have hv' : (w.d.taken h).readReg h.p0.toNat = some v := hv
  refine admitCmd_replies (ha.withBad readRegBad) (readRegBad_of_readReg (e := w.d) hv) ?_
  simp only [hv']

/-- A range of sensors, or of rails, that there is. -/
def sensorRange (h : HostCmd) : Prop :=
  h.p0 = 0 ∧ h.p1.toNat < 368 ∧ h.p1.toNat + h.p2.toNat ≤ 368 ∨ h.p0 = 1 ∧ h.p1.toNat < 49 ∧ h.p1.toNat + h.p2.toNat ≤ 49

theorem sensorBad_none {d : Dev} {h : HostCmd} (hr : sensorRange h) : sensorBad d h = none := by
  rcases hr with ⟨h0, h1, h2⟩ | ⟨h0, h1, h2⟩ <;> simp [sensorBad, firstParam, h0] <;> omega

theorem doSensorRead_replies {w : World} {h : HostCmd} (ha : Admitted w.d h (plainOp 0x006 [3])) (hr : sensorRange h) :
    doSensorRead h w = { w with d := w.d.counted.replied h 0x006 stOk 0 0 (mkBlks ((List.range h.p2.toNat).flatMap (fun k =>
      if h.p0 = 0 then w.d.counted.sensorWord (h.p1.toNat + k) else w.d.counted.railWord (h.p1.toNat + k)))) } :=
  admitCmd_replies (ha.withBad sensorBad) (sensorBad_none (d := w.d) hr) (World.onParams_ok (sensorBad_none (d := w.d) hr))

theorem doLogRead_replies {w : World} {h : HostCmd}
    (ha : Admitted w.d h { plainOp 0x604 [2, 3] with custody := w.d.fld HL_STATUS 9 9 == 1, early := true })
    (h1 : 1 ≤ h.p1.toNat) (h2 : h.p1.toNat ≤ 1024) :
    let es := (List.range h.p1.toNat).map (fun k => (w.d.taken h).logEntry ((h.p0.toNat + k) % 2 ^ 32))
    let n := sat16 (es.filter (fun e => e.any (· != 0))).length
    doLogRead h w = { w with d := w.d.counted.replied h 0x604 stOk n (BitVec.ofNat 32 w.d.log.next) (mkBlks es.flatten) } := by
  intro es n
  have hb : logReadBad (w.d.taken h) h = none := by
    have : h.p1 ≠ 0 := by rintro e; simp [e] at h1
    simpa [logReadBad, firstParam] using ⟨this, h2⟩
  exact admitCmd_replies (ha.withBad logReadBad) hb (World.onParams_ok hb)

/-- ATTEST counts the signature it draws beside its reply. -/
theorem doAttest_replies {w : World} {h : HostCmd} (ha : Admitted w.d h { wardenOp 0x005 [1, 2, 3] with lenOk := oneBlock })
    (h0 : h.p0.toNat < 2) :
    doAttest h w = { w with d :=
      { w.d.counted.replied h 0x005 stOk 0 0 (mkBlks ((w.d.taken h).report (h.p0 == 1) (payloadBytes h.payload))) with
        fw := { w.d.fw with signs := w.d.fw.signs + 1 } } } := by
  have hb : attestBad (w.d.taken h) h = none := by simp [attestBad, firstParam]; omega
  refine (admit_ok _ (ha.withBad attestBad) hb).trans ((World.onParams_ok hb).trans ?_)
  dsimp only
  rw [reply_of_taken rfl ha.fresh]
  simp only [World.onDev, ← replyPkt_replied, Dev.replyPkt_fw]
  rfl

/-- Settles O6: each query is an admitted command whose work is to reply. -/
theorem queriesAndAttestReply : Obligations.QueriesAndAttestReply := by
  unfold Obligations.QueriesAndAttestReply
  refine ⟨⟨fun h s ha => ?_, fun h s v ha hv => ?_, fun h s ha hr => ?_, fun h s ha => ?_, fun h s ha => ?_, fun h s ha h1 h2 => ?_⟩,
    fun h s ha h0 => ?_⟩
  · exact runLive_eq_dev ha.1 (doIdentify_replies ha.2)
  · exact runLive_eq_dev ha.1 (doReadReg_replies ha.2 hv)
  · exact runLive_eq_dev ha.1 (doSensorRead_replies ha.2 hr)
  · exact runLive_eq_dev ha.1 (admitCmd_replies ha.2 rfl rfl)
  · exact runLive_eq_dev ha.1 (admitCmd_replies ha.2 rfl rfl)
  · exact runLive_eq_dev ha.1 (doLogRead_replies ha.2 h1 h2)
  · exact runLive_eq_dev ha.1 (doAttest_replies ha.2 h0)

end Sys2Proof.Machine
end

section
/-! SUPPORT and PROOFS. Host commands that change the device and answer at once: what the answer leaves, and WRITE_REG. -/

namespace Sys2Proof.Machine

/-! ## What an answer leaves -/

/-- A reply names nothing of the device but the fret it leaves in. -/
theorem replyOf_congr {d e : Dev} (hn : d.fretNum = e.fretNum) (h : HostCmd) (op : Nat) (st det : W16) (p : W32) (bl : List Blk) :
    replyOf d h op st det p bl = replyOf e h op st det p bl := by simp only [replyOf, replyPacket, hn]

/-- A reply of a command is all that it says. -/
theorem World.reply_said (w : World) (h : HostCmd) (op : Nat) (st det : W16) (p : W32) (bl : List Blk) :
    (w.reply h op st det p bl).d.said = w.d.said ++ [replyOf w.d h op st det p bl] :=
  Dev.replied_said w.d h op st det p bl

theorem World.answer_said (w : World) (h : HostCmd) (op : Nat) (st det : W16) :
    (w.answer h op st det).d.said = w.d.said ++ [replyOf w.d h op st det 0 []] := World.reply_said ..

/-- The host link after the final reply of a command that was taken is as it was before the command. -/
theorem World.reply_hl {w : World} {d : Dev} {h : HostCmd} (hd : w.d.hl = (d.taken h).hl) (hf : (h.port.val, h.tag) ∉ d.hl.outstanding)
    (op : Nat) (st det : W16) (p : W32) (bl : List Blk) : (w.reply h op st det p bl).d.hl = d.hl := by
  rw [reply_taken hd hf]

theorem World.answer_hl {w : World} {d : Dev} {h : HostCmd} (hd : w.d.hl = (d.taken h).hl) (hf : (h.port.val, h.tag) ∉ d.hl.outstanding)
    (op : Nat) (st det : W16) : (w.answer h op st det).d.hl = d.hl := World.reply_hl hd hf ..

theorem taken_fld {d : Dev} (h : HostCmd) {a : Nat} (hi lo : Nat) (ha : a ≠ HL_COMMANDS) : (d.taken h).fld a hi lo = d.fld a hi lo :=
  counted_fld hi lo ha

theorem counted_fenced (d : Dev) (t : Nat) : d.counted.fenced t = d.fenced t := by
  unfold Dev.fenced
  rw [counted_fld 15 8 (by decide)]

theorem taken_fenced (d : Dev) (h : HostCmd) (t : Nat) : (d.taken h).fenced t = d.fenced t := counted_fenced d t

theorem taken_fretNum (d : Dev) (h : HostCmd) : (d.taken h).fretNum = d.fretNum := counted_fretNum d
theorem taken_said (d : Dev) (h : HostCmd) : (d.taken h).said = d.said := rfl
theorem taken_regs (d : Dev) (h : HostCmd) : (d.taken h).regs = d.counted.regs := rfl

/-- The fret number is a register. -/
theorem fretNum_congr {d e : Dev} (h : d.regs = e.regs) : d.fretNum = e.fretNum := by simp only [Dev.fretNum, Dev.fld, h]

/-- What a reply says, where the command's work said nothing and left the fret number. -/
theorem World.reply_says_of_fretNum {w : World} {d : Dev} (hn : w.d.fretNum = d.fretNum) (ho : w.d.out = d.out) (h : HostCmd) (op : Nat)
    (st det : W16) (p : W32) (bl : List Blk) : (w.reply h op st det p bl).d.said = d.said ++ [replyOf d h op st det p bl] := by
  rw [World.reply_said, replyOf_congr hn, Dev.said, ho, Dev.said]

/-- The same of a command that was taken and wrote no register. -/
theorem World.reply_says {w : World} {d : Dev} {h : HostCmd} (hr : w.d.regs = (d.taken h).regs) (ho : w.d.out = d.out) (op : Nat)
    (st det : W16) (p : W32) (bl : List Blk) : (w.reply h op st det p bl).d.said = d.said ++ [replyOf d h op st det p bl] :=
  World.reply_says_of_fretNum ((fretNum_congr hr).trans (taken_fretNum d h)) ho ..

theorem World.answer_says {w : World} {d : Dev} {h : HostCmd} (hr : w.d.regs = (d.taken h).regs) (ho : w.d.out = d.out) (op : Nat)
    (st det : W16) : (w.answer h op st det).d.said = d.said ++ [replyOf d h op st det 0 []] := World.reply_says hr ho ..

theorem Dev.count_fld_ne (d : Dev) {a b : Nat} (hi lo n p q : Nat) (h : b ≠ a) : (d.count a hi lo n).fld b p q = d.fld b p q := by
  unfold Dev.count
  split
  · rfl
  · exact rfld_rset_ne _ _ _ _ _ _ h

theorem Dev.count_fretNum (d : Dev) {a : Nat} (hi lo n : Nat) (h : FT_FRET_NUM ≠ a) : (d.count a hi lo n).fretNum = d.fretNum :=
  d.count_fld_ne hi lo n 63 0 h

/-- A register but HL_COMMANDS reads as before when a command is counted. -/
theorem counted_rget {d : Dev} {a : Nat} (h : a ≠ HL_COMMANDS) : rget d.counted.regs a = rget d.regs a := rget_rcount_ne _ _ _ _ h

/-- What the work of an admitted command starts from: the command is counted and outstanding. -/
abbrev State.taken (s : State) (h : HostCmd) : World := { s.world with d := s.dev.taken h }

/-- A live host command that is admitted, its parameters in their ranges. -/
theorem runLive_admitted {s : State} {h : HostCmd} {c : OpSpec} {k : World → World} {f : World → World} (ha : s.admits h c)
    (hf : f s.world = s.world.admitCmd h c k) (hb : c.bad (s.dev.taken h) h = none) :
    runLive s f = .next (commit s (k (s.taken h))) := by
  rw [runLive_live ha.1]
  exact congrArg (fun w => Host.Outcome.next (commit s w)) (hf.trans (admit_ok k ha.2 hb))

/-- The same, with what the command's work comes to. -/
theorem runLive_admitted_eq {s : State} {h : HostCmd} {c : OpSpec} {k f : World → World} {w : World} (ha : s.admits h c)
    (hf : f s.world = s.world.admitCmd h c k) (hb : c.bad (s.dev.taken h) h = none) (hk : k (s.taken h) = w) :
    runLive s f = .next (commit s w) := by rw [runLive_admitted ha hf hb, hk]

/-- The same of a command whose work touches the device alone. -/
theorem runLive_admitted_dev {s : State} {h : HostCmd} {c : OpSpec} {k f : World → World} {d : Dev} (ha : s.admits h c)
    (hf : f s.world = s.world.admitCmd h c k) (hb : c.bad (s.dev.taken h) h = none) (hk : k (s.taken h) = { s.world with d := d }) :
    runLive s f = .next { s with dev := d } := runLive_admitted_eq ha hf hb hk

theorem State.taken_accept (s : State) (h : HostCmd) (op : Nat) :
    (s.taken h).accept h op = { s.world with d := s.dev.counted.accepted h op } := accept_taken (w := s.taken h) (d := s.dev) rfl

/-! ## WRITE_REG (R12) -/

/-- A listed register with no action of its own takes the value under its access codes. -/
theorem World.writeReg_plain {a : Nat} {r : RegRow} (w : World) (v : W64) (hr : regRow a = some r) (hc : a ≠ FH_CTRL) (hw : a ≠ FH_WINDOW)
    (hb : a ≠ MEM_FAR_BUDGET) (hl : ctrlLink a = none) (hf : ¬ (a % 0x1000000 = 0x90040 ∧ a < 0x08000000)) (hh : regHome a ≠ HL_CTRL)
    (hm : ¬ (regHome a % 0x1000000 = 0x60048 ∧ regHome a < 0x08000000))
    (hp : ¬ ((regHome a / 0x10000) % 256 = 2 ∧ regHome a < 0x08000000)) :
    w.writeReg a v = some (w.onDev (fun d => d.setReg (regHome a) (rowWrite r (rget d.regs (regHome a)) v))) := by
  have hm' : ¬ (regHome a % 0x1000000 = 0x60048 ∧ regHome a < 0x08000000 ∧ fieldOf v 31 31 = 0) := fun h => hm ⟨h.1, h.2.1⟩
  simp only [World.writeReg, hr, hl, hc, hw, hb, or_self, if_false, if_neg hf, if_neg hh, if_neg hm', if_neg hp]

theorem writeRegBad_none {d : Dev} {h : HostCmd} {r : RegRow} (hr : regRow h.p0.toNat = some r) (hw : r.wide = false → h.p2 = 0) :
    writeRegBad d h = none := by
  cases hx : r.wide <;> simp_all [writeRegBad, firstParam]

/-- FT_FRET_NUM is read-only: a write leaves it. -/
theorem fretNum_rowWrite {r : RegRow} {a : Nat} (hr : regRow a = some r) (hh : regHome a = FT_FRET_NUM) (v x : W64) :
    rowWrite r v x = v := by
  have ha : a = FT_FRET_NUM := by
    unfold regHome at hh
    split at hh
    · next h => simp only [FT_FRET_NUM, Nat.shiftRight_eq_div_pow] at hh h; omega
    · exact hh
  have hrow : regRow FT_FRET_NUM = some ⟨"FT_FRET_NUM", 0x10, 1, 0x0, 1, 0x0, 0x1, true, [⟨63, 0, .ro, 0x0⟩]⟩ := by decide
  obtain rfl : _ = r := Option.some.inj (hrow.symm.trans (ha ▸ hr))
  rfl

theorem doWriteReg_answers {s : State} {h : HostCmd} {d : Dev} (ha : s.admits h { plainOp 0x003 [3] with custody := wardenReg h.p0.toNat })
    (hb : writeRegBad (s.dev.taken h) h = none)
    (hw : World.writeReg { s.world with d := s.dev.taken h } h.p0.toNat (BitVec.ofNat 64 (pair h.p1 h.p2)) = some { s.world with d := d }) :
    exec (.writeReg h) s = .next (commit s (World.answer { s.world with d := d } h 0x003 stOk 0)) := by
  refine (runLive_admitted ⟨ha.1, ha.2.withBad writeRegBad⟩ rfl hb).trans ?_
  rw [World.onParams_ok hb, hw]

/-- Settles O7: the write sets one register, and its answer changes none. -/
theorem writeRegWritesOneRegister : Obligations.WriteRegWritesOneRegister := by
  unfold Obligations.WriteRegWritesOneRegister
  intro h s r ha hr hwide hctrl hwin hbud hlink hflush hhl hcmds hscrub hpwr a v
  have hval : rget (s.dev.taken h).regs a = rget s.dev.regs a := counted_rget hcmds
  have hexec : exec (.writeReg h) s = .next (commit s (World.answer { s.world with d := (s.dev.taken h).setReg a v } h 0x003 stOk 0)) := by
    refine doWriteReg_answers ha (writeRegBad_none hr hwide)
      ((World.writeReg_plain _ _ hr hctrl hwin hbud hlink hflush hhl hscrub hpwr).trans ?_)
    simp only [World.onDev]
    rw [hval]
  have hfret : ((s.dev.taken h).setReg a v).fretNum = s.dev.counted.fretNum := by
    by_cases hfa : FT_FRET_NUM = a
    · have hv : v = rget s.dev.counted.regs a := (fretNum_rowWrite hr hfa.symm _ _).trans hval.symm
      simp only [Dev.fretNum, Dev.fld, rfld, Dev.setReg_regs, hfa, rget_rput_self, hv]
    · simp only [Dev.fretNum, Dev.fld, rfld, Dev.setReg_regs, rget_rput_ne _ _ hfa, taken_regs]
  refine ⟨_, hexec, ?_, fun b hba => ?_, ?_, rfl⟩
  · simp [World.answer_d]
  · simp [World.answer_d, rget_rput_ne _ _ hba, taken_regs]
  · rw [commit_dev, World.answer_said, replyOf_congr hfret]
    rfl

end Sys2Proof.Machine
end

section
/-! SUPPORT and PROOFS. RESET (R503, R508). -/

namespace Sys2Proof.Machine

/-! ## Sending adds to the outputs -/

theorem Dev.sendOne_out (d : Dev) (l : Nat) : d.out <+: (d.sendOne l).out := by
  simp only [Dev.sendOne]
  split
  · split
    · exact List.prefix_rfl
    · rename_i f a b _
      cases f <;> exact List.prefix_append ..
  · exact List.prefix_rfl

theorem iter_out {f : Dev → Dev} (h : ∀ d : Dev, d.out <+: (f d).out) : ∀ (n : Nat) (d : Dev), d.out <+: (iter f n d).out
  | 0, _ => List.prefix_rfl
  | n + 1, d => (h d).trans (iter_out h n (f d))

theorem Dev.sendPacket_out (d : Dev) (l : Nat) (b : Bool) (bs : List Byte) : d.out <+: (d.sendPacket l b bs).out :=
  iter_out (fun d => d.sendOne_out l) _ (d.onLink l _)

theorem Dev.replied_out (d : Dev) (h : HostCmd) (op : Nat) (st det : W16) (p : W32) (bl : List Blk) :
    d.out ++ [replyOf d h op st det p bl] <+: (d.replied h op st det p bl).out :=
  Dev.sendPacket_out { d with out := d.out ++ [replyOf d h op st det p bl] } _ _ _

/-! ## RESET -/

theorem resetBad_system {d : Dev} {h : HostCmd} (h0 : h.p0 = 1) : resetBad d h = none := by simp [resetBad, firstParam, h0]

theorem resetBad_core {d : Dev} {h : HostCmd} (h0 : h.p0 = 2) (h1 : h.p1 ≠ 0) (h2 : h.p1.toNat < 256) : resetBad d h = none := by
  have : ¬ h.p1 = 0#32 := h1
  simp [resetBad, firstParam, h0, this, h2]

/-- Whether a context of a job runs on a tower of a mask. -/
def Dev.towersRun (d : Dev) (mask : Nat) : Bool :=
  d.ctxs.any (fun e => e.2.active && e.2.kind != 2 && (maskCourses e.2.mask.toNat).any (fun c => bitOf mask (c / 12)))

theorem Dev.towersRun_eq_false {d : Dev} {mask : Nat} (h : ∀ e ∈ d.ctxs, e.2.active = true → e.2.kind ≠ 2 →
    ∀ c ∈ maskCourses e.2.mask.toNat, bitOf mask (c / 12) = false) : d.towersRun mask = false := by
  rw [Dev.towersRun, List.any_eq_false]
  intro e he
  by_cases hact : e.2.active = true ∧ e.2.kind ≠ 2
  · simpa [hact] using h e he hact.1 hact.2
  · simp_all

/-- The work of KIND 2 once it is accepted: services stop, and each tower that is not fenced is asked for its core reset. -/
def World.askCoreResets (w : World) (mask : Nat) : World :=
  let ts := (List.range 8).filter (bitOf mask)
  World.onDev (ts.foldl (fun w k => if w.d.fenced k then w else w.askCoreReset k 0 false) (ts.foldl World.stopServices w)) Dev.resetJobs

theorem doReset_system {h : HostCmd} (w : World) (h0 : h.p0 = 1) :
    doReset h w = w.admitCmd h { wardenOp 0x004 [1, 2, 3] with bad := resetBad } (fun w => w.onParams h 0x004 resetBad (fun w =>
      (World.onDev (w.answer h 0x004 stOk 0) (fun d => d.writeWear.drainLog)).systemReset 4 false)) := by
  simp only [doReset, h0]
  rfl

theorem doReset_core {h : HostCmd} (w : World) (h0 : h.p0 = 2) :
    doReset h w = w.admitCmd h { wardenOp 0x004 [2, 3] with bad := resetBad } (fun w => w.onParams h 0x004 resetBad (fun w =>
      if w.d.towersRun h.p1.toNat then w.answer h 0x004 stContextState (paramAt 1)
      else (w.accept h 0x004).askCoreResets h.p1.toNat)) := by
  simp only [doReset, h0]
  rfl

/-- KIND 1: the reply leaves, the wear record and the log are kept, and system reset begins. -/
theorem reset_system_exec {s : State} {h : HostCmd} (ha : s.admits h (wardenOp 0x004 [1, 2, 3])) (h0 : h.p0 = 1) :
    exec (.reset h) s = .next (commit s (World.systemReset (World.onDev (World.answer { s.world with d := s.dev.taken h } h 0x004 stOk 0)
      (fun d => d.writeWear.drainLog)) 4 false)) := by
  have hbad : resetBad (s.dev.taken h) h = none := resetBad_system h0
  refine (runLive_admitted ⟨ha.1, ha.2.withBad resetBad⟩ (doReset_system _ h0) hbad).trans ?_
  rw [World.onParams_ok hbad]

/-- KIND 2: ACCEPTED, and its work begins. -/
theorem reset_core_exec {s : State} {h : HostCmd} (ha : s.admits h (wardenOp 0x004 [2, 3])) (h0 : h.p0 = 2) (h1 : h.p1 ≠ 0)
    (h2 : h.p1.toNat < 256) (hi : s.dev.towersRun h.p1.toNat = false) :
    exec (.reset h) s =
      .next (commit s (World.askCoreResets { s.world with d := s.dev.counted.accepted h 0x004 } h.p1.toNat)) := by
  have hbad : resetBad (s.dev.taken h) h = none := resetBad_core h0 h1 h2
  have hidle : (s.dev.taken h).towersRun h.p1.toNat = false := hi
  refine (runLive_admitted ⟨ha.1, ha.2.withBad resetBad⟩ (doReset_core _ h0) hbad).trans ?_
  rw [World.onParams_ok hbad, hidle, accept_taken rfl]
  rfl

theorem World.systemReset_level (w : World) (bit : Nat) : (w.systemReset bit false).d.level = .system :=
  (w.systemReset_regsOnly bit false).level

theorem World.systemReset_out (w : World) (bit : Nat) (trip : Bool) : (w.systemReset bit trip).d.out = w.d.out :=
  (congrArg Dev.out (w.systemReset_regsOnly bit trip) :)

theorem World.systemReset_ctxs (w : World) (bit : Nat) (trip : Bool) : (w.systemReset bit trip).d.ctxs = [] :=
  (congrArg Dev.ctxs (w.systemReset_regsOnly bit trip) :)

theorem Dev.withLog_out (d : Dev) (l : Log) : ({ d with log := l } : Dev).out = d.out := rfl
theorem Dev.drainLog_out (d : Dev) : d.drainLog.out = d.out := Dev.withLog_out d _
theorem Dev.writeWear_out (d : Dev) : d.writeWear.out = d.out := rfl

/-- Settles O8: KIND 1 ends in `World.systemReset`, which keeps the outputs and empties the contexts; KIND 2 is accepted. -/
theorem resetCommandResets : Obligations.ResetCommandResets := by
  unfold Obligations.ResetCommandResets
  refine ⟨fun h s ha h0 => ⟨_, reset_system_exec ha h0, ?_, ?_, fun i => ?_⟩,
    fun h s ha h0 h1 h2 hi => reset_core_exec ha h0 h1 h2 (Dev.towersRun_eq_false hi)⟩
  · exact World.systemReset_level _ 4
  · rw [commit_dev, World.systemReset_out, World.onDev_d, Dev.drainLog_out, Dev.writeWear_out, World.answer_d, Dev.settle_out,
      replyPkt_replied]
    exact Dev.replied_out (s.dev.taken h) h 0x004 stOk 0 0 []
  · rw [commit_dev, Dev.ctx, World.systemReset_ctxs]
    rfl

end Sys2Proof.Machine
end

section
/-! SUPPORT and PROOFS. Context commands: their states (R391), CTX_CREATE (R390) and CTX_LOAD_TAB (R77, R93). -/

namespace Sys2Proof.Machine

/-! ## The state of the context a command names (R391) -/

theorem World.inState_free {w : World} {h : HostCmd} {op : Nat} {ok : Ctx → Bool} {k : Ctx → World → World}
    (hst : (w.d.ctx h.ctx.toNat).st = .free) : w.inState h op ok k = w.answer h op stNoContext 0 := if_pos hst

theorem World.inState_other {w : World} {h : HostCmd} {op : Nat} {ok : Ctx → Bool} {k : Ctx → World → World}
    (hst : (w.d.ctx h.ctx.toNat).st ≠ .free) (hok : ok (w.d.ctx h.ctx.toNat) = false) :
    w.inState h op ok k = w.answer h op stContextState 4 := by simp [World.inState, hst, hok]

theorem World.inState_ok {w : World} {h : HostCmd} {op : Nat} {ok : Ctx → Bool} {k : Ctx → World → World}
    (hst : (w.d.ctx h.ctx.toNat).st ≠ .free) (hok : ok (w.d.ctx h.ctx.toNat) = true) :
    w.inState h op ok k = k (w.d.ctx h.ctx.toNat) w := by simp [World.inState, hst, hok]

theorem taken_ctx (d : Dev) (h : HostCmd) (i : Nat) : (d.taken h).ctx i = d.ctx i := rfl

/-- A live host command that is admitted and refused. -/
theorem runLive_refused {s : State} {h : HostCmd} {c : OpSpec} {k f : World → World} {op : Nat} {st det : W16} (ha : s.admits h c)
    (hf : f s.world = s.world.admitCmd h c k) (hb : c.bad (s.dev.taken h) h = none)
    (hk : k { s.world with d := s.dev.taken h } = World.answer { s.world with d := s.dev.taken h } h op st det) :
    runLive s f = .next { s with dev := s.dev.counted.replied h op st det 0 [] } :=
  runLive_eq_dev ha.1 (hf.trans (admitCmd_refused ha.2 hb hk))

theorem startBad_free {d : Dev} {h : HostCmd} (hst : (d.ctx h.ctx.toNat).st = .free) : startBad d h = none := by
  simp [startBad, firstParam, hst]

theorem parkBad_free {d : Dev} {h : HostCmd} (hst : (d.ctx h.ctx.toNat).st = .free) : parkBad d h = none := by
  simp [parkBad, firstParam, Ctx.active, hst]

/-- CTX_CREATE of a context that is taken. -/
theorem World.goCtxCreate_taken {w : World} {h : HostCmd} (hi : 16 ≤ h.ctx.toNat) (hst : (w.d.ctx h.ctx.toNat).st ≠ .free) :
    w.goCtxCreate h = w.answer h 0x101 stContextState 4 := by simp [World.goCtxCreate, Nat.not_lt.mpr hi, hst]

theorem World.goCtxLoadTab_free {w : World} {h : HostCmd} (hst : (w.d.ctx h.ctx.toNat).st = .free) :
    w.goCtxLoadTab h = w.answer h 0x102 stNoContext 0 := by
  unfold World.goCtxLoadTab
  exact World.inState_free hst

theorem World.goCtxLoadTab_service {w : World} {h : HostCmd} (hst : (w.d.ctx h.ctx.toNat).st ≠ .free)
    (hk : (w.d.ctx h.ctx.toNat).kind = 2) : w.goCtxLoadTab h = w.answer h 0x102 stContextState 4 := by
  unfold World.goCtxLoadTab
  exact World.inState_other hst (by simp [hk])

/-- Settles O10: every command but CTX_CREATE asks for the context's state first, by `World.inState`. -/
theorem freeContextIsNoContext : Obligations.FreeContextIsNoContext := by
  unfold Obligations.FreeContextIsNoContext
  refine ⟨fun h s ha _ hst => ?_, fun h s ha hst => ?_, fun h s ha hst => ?_, fun h s ha hst => ?_, fun h s ha hst => ?_,
    fun h s ha hi hst => ?_⟩
  · exact runLive_refused ha rfl rfl (World.goCtxLoadTab_free hst)
  · exact runLive_refused (f := doCtxStart h) ⟨ha.1, ha.2.withBad startBad⟩ rfl (startBad_free hst) (World.inState_free hst)
  · exact runLive_refused (f := doCtxPark h) ⟨ha.1, ha.2.withBad parkBad⟩ rfl (parkBad_free hst) (World.inState_free hst)
  · exact runLive_refused (f := doCtxResume h) ⟨ha.1, ha.2.withBad startBad⟩ rfl (startBad_free hst) (World.inState_free hst)
  · exact runLive_refused ha rfl rfl (World.inState_free hst)
  · exact runLive_refused ha rfl rfl (World.goCtxCreate_taken hi hst)

/-! ## CTX_CREATE (R390) -/

theorem World.goCtxCreate_loads {w : World} {h : HostCmd} (hi : 16 ≤ h.ctx.toNat) (hst : (w.d.ctx h.ctx.toNat).st = .free)
    (hb : w.d.createBad (payloadBytes h.payload) = none)
    (hf : ∀ c ∈ maskCourses (createdCtx (payloadBytes h.payload)).mask.toNat, w.d.fenced (c / 12) = false) :
    w.goCtxCreate h = (w.onDev (fun d => d.setCtx h.ctx.toNat (createdCtx (payloadBytes h.payload)))).answer h 0x101 stOk 0 := by
  have hfence : (maskCourses (createdCtx (payloadBytes h.payload)).mask.toNat).any (fun c => w.d.fenced (c / 12)) = false := by
    simpa using hf
  simp [World.goCtxCreate, Nat.not_lt.mpr hi, hst, hb, hfence]

theorem Dev.setCtx_ctx_self (d : Dev) (i : Nat) (x : Ctx) : (d.setCtx i x).ctx i = x := tget_tput_self ..
theorem Dev.setCtx_ctx_ne (d : Dev) {i k : Nat} (x : Ctx) (h : k ≠ i) : (d.setCtx i x).ctx k = d.ctx k := tget_tput_ne _ _ _ h
theorem Dev.onCtx_ctx_self (d : Dev) (i : Nat) (f : Ctx → Ctx) : (d.onCtx i f).ctx i = f (d.ctx i) := tget_tput_self ..
theorem Dev.onCtx_ctx_ne (d : Dev) {i k : Nat} (f : Ctx → Ctx) (h : k ≠ i) : (d.onCtx i f).ctx k = d.ctx k := tget_tput_ne _ _ _ h

/-- An answer leaves every context. -/
theorem World.answer_ctx (w : World) (h : HostCmd) (op : Nat) (st det : W16) (i : Nat) : (w.answer h op st det).d.ctx i = w.d.ctx i := by
  simp only [Dev.ctx, World.answer_d, Dev.settle_ctxs, Dev.replyPkt_ctxs]

/-- Settles O9: the context is set and OK leaves. -/
theorem ctxCreateLoadsAContext : Obligations.CtxCreateLoadsAContext := by
  unfold Obligations.CtxCreateLoadsAContext
  intro h s ha hi hst hb hf
  have hexec := runLive_admitted_eq (f := doCtxCreate h) ha rfl rfl (World.goCtxCreate_loads (w := s.taken h) hi hst hb
    fun c hc => (taken_fenced s.dev h _).trans (hf c hc))
  have hctx : ∀ k, (commit s (World.answer (World.onDev (s.taken h)
      (fun d => d.setCtx h.ctx.toNat (createdCtx (payloadBytes h.payload)))) h 0x101 stOk 0)).dev.ctx k =
      ((s.dev.taken h).setCtx h.ctx.toNat (createdCtx (payloadBytes h.payload))).ctx k := fun k => by
    rw [commit_dev, World.answer_ctx, World.onDev_d]
  have hself := hctx h.ctx.toNat
  rw [Dev.setCtx_ctx_self] at hself
  refine ⟨_, hexec, hself, congrArg Ctx.st hself, congrArg Ctx.tabValid hself, congrArg Ctx.pos hself,
    fun i hne => (hctx i).trans (Dev.setCtx_ctx_ne _ _ hne), rfl, ?_, ?_, ?_⟩
  · simp only [commit_dev, World.answer_d, Dev.settle_courses, Dev.replyPkt_courses]
    rfl
  · exact World.answer_says (d := s.dev) rfl rfl ..
  · exact World.answer_hl rfl ha.2.fresh ..

/-! ## CTX_LOAD_TAB (R77, R93) -/

theorem World.putImage_d (w : World) (x : Ctx) (bl : List Blk) : (w.putImage x bl).d = w.d := by
  unfold World.putImage
  refine foldl_keeps (fun v : World => v.d = w.d) _ _ (fun v t _ hv => ?_) w rfl
  exact foldl_keeps (fun v : World => v.d = w.d) (fun v e => v.putBlk _ _ _) _ (fun _ _ _ h => h) v hv

/-- The image of a LOADED context passes its checks: it is in place, and the tab is valid. -/
theorem World.goCtxLoadTab_loads {w : World} {h : HostCmd} (hk : (w.d.ctx h.ctx.toNat).kind ≠ 2) (hst : (w.d.ctx h.ctx.toNat).st = .loaded)
    (hr : loadRefusal (w.d.ctx h.ctx.toNat) (payloadBytes h.payload) = none) :
    let x := w.d.ctx h.ctx.toNat
    let b := payloadBytes h.payload
    let v := (w.putImage x (h.payload.take (ceilDiv (tabHdr (b.take 256)).imageLen 512))).onDev (fun d => d.onCtx h.ctx.toNat (loadedCtx b))
    v.validate (v.d.ctx h.ctx.toNat) (fun a k => slice b a k) = none →
    w.goCtxLoadTab h = (v.onDev (fun d => d.onCtx h.ctx.toNat (fun x => { x with tabValid := true }))).answer h 0x102 stOk 0 := by
  intro x b v hv
  have hpark : ¬ (w.d.ctx h.ctx.toNat).st = .parked := by rw [hst]; decide
  unfold World.goCtxLoadTab
  refine (World.inState_ok (by rw [hst]; decide) (by simp [hst, hk])).trans ?_
  simp only [hr, if_neg hpark]
  split
  · next r hsome => exact absurd (hsome.symm.trans hv) (by simp)
  · rfl

/-- Settles O11: a LOADED context's image is put in place, found valid, and marked so. -/
theorem ctxLoadTabLoadsTheImage : Obligations.CtxLoadTabLoadsTheImage := by
  unfold Obligations.CtxLoadTabLoadsTheImage
  refine ⟨fun h s ha hst hk => ?_, fun h s ha hk hst => ?_⟩
  · exact runLive_refused ha rfl rfl (World.goCtxLoadTab_service hst hk)
  intro x b hr w hv
  have hexec : exec (.ctxLoadTab h) s = .next (commit s
      ((w.onDev (fun d => d.onCtx h.ctx.toNat (fun x => { x with tabValid := true }))).answer h 0x102 stOk 0)) :=
    runLive_admitted_eq (f := doCtxLoadTab h) ha rfl rfl (World.goCtxLoadTab_loads (w := s.taken h) hk hst hr hv)
  have hd : w.d = (s.dev.taken h).onCtx h.ctx.toNat (loadedCtx b) := congrArg (Dev.onCtx · _ _) (World.putImage_d ..)
  clear_value w
  refine ⟨_, hexec, ?_, fun i hne => ?_, rfl, World.answer_says ?_ ?_ .., World.answer_hl ?_ ha.2.fresh ..⟩
  · rw [commit_dev, World.answer_ctx, World.onDev_d, Dev.onCtx_ctx_self, hd, Dev.onCtx_ctx_self, taken_ctx]
  · rw [commit_dev, World.answer_ctx, World.onDev_d, Dev.onCtx_ctx_ne _ _ hne, hd, Dev.onCtx_ctx_ne _ _ hne, taken_ctx]
  · simp only [World.onDev_d, Dev.onCtx_regs, hd]
  · simp only [World.onDev_d, Dev.onCtx_out, hd]; rfl
  · simp only [World.onDev_d, Dev.onCtx_hl, hd]

end Sys2Proof.Machine
end

section
/-! SUPPORT. Blocks in the stores: the effects of a command reach the state as the command sees them, and what a list of blocks written
one after another leaves. -/

namespace Sys2Proof.Machine

/-! ## The effects listed and the stores as the command sees them -/

/-- The effects that a world lists are those its stores have had since `m`. -/
def World.tracks (m : Memory) (w : World) : Prop := w.wr.reverse.foldl applyWr m = w.mem

theorem State.world_tracks (s : State) : s.world.tracks s.mem := rfl
theorem State.taken_tracks (s : State) (h : HostCmd) : (s.taken h).tracks s.mem := rfl

theorem World.put_tracks {m : Memory} {w : World} (h : w.tracks m) (x : Wr) : (w.put x).tracks m := by
  unfold World.tracks at h ⊢
  rw [World.put_wr, List.reverse_cons, List.foldl_append, h]
  rfl

theorem World.putBlk_tracks {m : Memory} {w : World} (h : w.tracks m) (a : Nat) (data : List Byte) (syn : W32) :
    (w.putBlk a data syn).tracks m := World.put_tracks (World.put_tracks h _) _

/-- A command leaves the stores as it sees them. -/
theorem commit_mem_tracks {s : State} {w : World} (h : w.tracks s.mem) : (commit s w).mem = w.mem := h

/-! ## One block -/

theorem tget_applySyn_self (m : Memory) (a : Nat) (v : W32) : tget 0 (applyWr m (.syn a v)).syn a = v := by
  by_cases hv : v = 0
  · simp [applyWr, hv, tget]
  · simp only [applyWr, if_neg hv, tget_tput_self]

theorem tget_applySyn_ne (m : Memory) {a b : Nat} (v : W32) (h : b ≠ a) : tget 0 (applyWr m (.syn a v)).syn b = tget 0 m.syn b := by
  by_cases hv : v = 0
  · simp [applyWr, hv, tget, tfind_tdel_ne _ h]
  · simp only [applyWr, hv, if_false, tget_tput_ne _ _ _ h]

theorem putBlk_wf {w : World} (h : w.mem.wf = true) (a : Nat) (data : List Byte) (syn : W32) : (w.putBlk a data syn).mem.wf = true :=
  applyWr_wf _ _ (applyWr_wf _ _ h)

theorem readByte_putBlk (w : World) (a : Nat) (data : List Byte) (syn : W32) (k : Nat) :
    readByte (w.putBlk a data syn).mem k = if a ≤ k ∧ k < a + 512 then ((padTo 512 data)[k - a]?).getD 0 else readByte w.mem k := by
  rw [World.putBlk, World.put_mem, World.put_mem, readByte_syn, readByte_data, padTo_length]

theorem synOf_putBlk_self (w : World) (a : Nat) (data : List Byte) (syn : W32) : (w.putBlk a data syn).synOf a = syn :=
  tget_applySyn_self ..

theorem synOf_putBlk_ne (w : World) {a b : Nat} (data : List Byte) (syn : W32) (h : b ≠ a) : (w.putBlk a data syn).synOf b = w.synOf b :=
  tget_applySyn_ne _ _ h

theorem map_getElem?_range {α : Type} (l : List α) (d : α) : (List.range l.length).map (fun i => (l[i]?).getD d) = l := by
  apply List.ext_getElem
  · simp
  · intro i h1 h2
    simp [h2]

/-- A run of bytes whose bytes are known. -/
theorem readBytes_of_bytes {m : Memory} (hm : m.wf = true) {a : Nat} {bs : List Byte}
    (h : ∀ i, i < bs.length → readByte m (a + i) = (bs[i]?).getD 0) : readBytes m a bs.length = bs := by
  rw [readBytes_eq m hm, ← map_getElem?_range bs 0]
  simp only [List.length_map, List.length_range]
  exact List.map_congr_left (fun i hi => h i (List.mem_range.mp hi))

/-- Two runs of bytes that read the same byte for byte. -/
theorem readBytes_congr {m m' : Memory} (hm : m.wf = true) (hm' : m'.wf = true) {a n : Nat}
    (h : ∀ k, a ≤ k → k < a + n → readByte m' k = readByte m k) : readBytes m' a n = readBytes m a n := by
  rw [readBytes_eq m hm, readBytes_eq m' hm']
  exact List.map_congr_left (fun i hi => h _ (Nat.le_add_right ..) (Nat.add_lt_add_left (List.mem_range.mp hi) _))

theorem readBytes_putBlk_self {w : World} (h : w.mem.wf = true) (a : Nat) (data : List Byte) (syn : W32) :
    readBytes (w.putBlk a data syn).mem a 512 = padTo 512 data := by
  have hlen : (padTo 512 data).length = 512 := padTo_length ..
  have := readBytes_of_bytes (putBlk_wf h a data syn) (a := a) (bs := padTo 512 data) (fun i hi => by
    rw [readByte_putBlk, if_pos (by omega), Nat.add_sub_cancel_left])
  rwa [hlen] at this

/-! ## A list of blocks, written one after another -/

/-- Blocks written one after another: address, data and check difference of each. -/
def World.putBlks (w : World) (l : List (Nat × List Byte × W32)) : World := l.foldl (fun w e => w.putBlk e.1 e.2.1 e.2.2) w

theorem World.putBlks_cons (w : World) (e : Nat × List Byte × W32) (l : List (Nat × List Byte × W32)) :
    w.putBlks (e :: l) = (w.putBlk e.1 e.2.1 e.2.2).putBlks l := rfl

theorem World.putBlks_append (w : World) (l l' : List (Nat × List Byte × W32)) : w.putBlks (l ++ l') = (w.putBlks l).putBlks l' :=
  List.foldl_append ..

theorem World.putBlks_tracks {m : Memory} {w : World} (h : w.tracks m) (l : List (Nat × List Byte × W32)) : (w.putBlks l).tracks m :=
  foldl_keeps (World.tracks m) _ _ (fun _ _ _ hv => World.putBlk_tracks hv ..) w h

theorem World.putBlks_wf {w : World} (h : w.mem.wf = true) (l : List (Nat × List Byte × W32)) : (w.putBlks l).mem.wf = true :=
  foldl_keeps (fun v : World => v.mem.wf = true) _ _ (fun _ _ _ hv => putBlk_wf hv ..) w h

theorem World.putBlks_d (w : World) (l : List (Nat × List Byte × W32)) : (w.putBlks l).d = w.d := by
  unfold World.putBlks
  refine foldl_keeps (fun v : World => v.d = w.d) _ l (fun v e _ hv => ?_) w rfl
  rw [World.putBlk_d, hv]

/-- A byte outside every block written reads as before. -/
theorem World.putBlks_readByte_out (w : World) (l : List (Nat × List Byte × W32)) {k : Nat} (h : ∀ e ∈ l, k < e.1 ∨ e.1 + 512 ≤ k) :
    readByte (w.putBlks l).mem k = readByte w.mem k := by
  unfold World.putBlks
  refine foldl_keeps (fun v : World => readByte v.mem k = readByte w.mem k) _ l (fun v e he hv => ?_) w rfl
  rw [readByte_putBlk, if_neg (by have := h e he; omega), hv]

/-- The check of a block that is not written is as before. -/
theorem World.putBlks_synOf_ne (w : World) (l : List (Nat × List Byte × W32)) {a : Nat} (h : ∀ e ∈ l, a ≠ e.1) :
    (w.putBlks l).synOf a = w.synOf a := by
  unfold World.putBlks
  refine foldl_keeps (fun v : World => v.synOf a = w.synOf a) _ l (fun v e he hv => ?_) w rfl
  rw [synOf_putBlk_ne v _ _ (h e he), hv]

/-- A block stands as it was last written, where no later one overlaps it. -/
theorem World.putBlks_last {w : World} (hw : w.mem.wf = true) (l l' : List (Nat × List Byte × W32)) (a : Nat) (data : List Byte)
    (syn : W32) (h : ∀ e ∈ l', a + 512 ≤ e.1 ∨ e.1 + 512 ≤ a) :
    readBytes (w.putBlks (l ++ (a, data, syn) :: l')).mem a 512 = padTo 512 data ∧
      (w.putBlks (l ++ (a, data, syn) :: l')).synOf a = syn := by
  rw [World.putBlks_append, World.putBlks_cons]
  have hwf := World.putBlks_wf hw l
  refine ⟨?_, ?_⟩
  · rw [readBytes_congr (putBlk_wf hwf a data syn) (World.putBlks_wf (putBlk_wf hwf a data syn) l')
      (fun k h1 h2 => World.putBlks_readByte_out _ _ (fun e he => by have := h e he; omega)), readBytes_putBlk_self hwf]
  · rw [World.putBlks_synOf_ne _ _ (fun e he => by have := h e he; omega), synOf_putBlk_self]

/-! ## Runs of whole blocks -/

/-- A field of an address above the bits of a block's bytes is the same all over the block. -/
theorem bitsOf_block {a i : Nat} (ha : a % 512 = 0) (hi : i < 512) (hi' lo : Nat) (hlo : 9 ≤ lo) :
    bitsOf (a + i) hi' lo = bitsOf a hi' lo := by
  have : (2 : Nat) ^ lo = 512 * 2 ^ (lo - 9) := by rw [show (512 : Nat) = 2 ^ 9 by rfl, ← Nat.pow_add]; congr 1; omega
  have hdiv : (a + i) / 512 = a / 512 := by omega
  simp only [bitsOf, Nat.shiftRight_eq_div_pow, this, ← Nat.div_div_eq_div_mul, hdiv]

theorem tierOf_block {a i : Nat} (ha : a % 512 = 0) (hi : i < 512) : tierOf (a + i) = tierOf a := bitsOf_block ha hi _ _ (by decide)
theorem towerOf_block {a i : Nat} (ha : a % 512 = 0) (hi : i < 512) : towerOf (a + i) = towerOf a := bitsOf_block ha hi _ _ (by decide)
theorem courseOf_block {a i : Nat} (ha : a % 512 = 0) (hi : i < 512) : courseOf (a + i) = courseOf a := by
  simp only [courseOf, towerOf_block ha hi, bitsOf_block ha hi 56 53 (by decide)]

/-- The last byte of a block of the stores is mapped where the first is. -/
theorem addrOk_block {far a i : Nat} (hfar : far % 512 = 0) (ha : a % 512 = 0) (hi : i < 512) (h : addrOk far a = true) :
    addrOk far (a + i) = true := by
  have hlow : bitsOf a 41 0 < far → bitsOf (a + i) 41 0 < far := by
    simp only [bitsOf, Nat.shiftRight_zero]
    intro hlt
    omega
  unfold addrOk at h ⊢
  simp only [tierOf_block ha hi, towerOf_block ha hi, bitsOf_block ha hi 56 53 (by decide), bitsOf_block ha hi 52 23 (by decide),
    bitsOf_block ha hi 56 31 (by decide), bitsOf_block ha hi 56 35 (by decide), bitsOf_block ha hi 56 42 (by decide),
    bitsOf_block ha hi 56 32 (by decide)]
  simp only [Bool.and_eq_true, decide_eq_true_eq] at h ⊢
  refine ⟨by omega, ?_⟩
  obtain ⟨_, h⟩ := h
  split at h <;> simp_all

/-- A run that may be read or written begins with a block that may be. -/
theorem memRunOk_one {d : Dev} {a n : Nat} (h : d.memRunOk a n = true) : d.memRunOk a 1 = true := by
  have hfar : farBytes d % 512 = 0 := by unfold farBytes; omega
  simp only [Dev.memRunOk, runOk, Bool.and_eq_true, beq_iff_eq, decide_eq_true_eq] at h ⊢
  obtain ⟨⟨hal, htier⟩, hok, _⟩ := h
  have hlast : a + 512 * 1 - 1 = a + 511 := by omega
  refine ⟨⟨hal, htier⟩, hok, ?_⟩
  simp [hlast, addrOk_block hfar hal (show 511 < 512 by decide) hok, tierOf_block hal (show 511 < 512 by decide),
    towerOf_block hal (show 511 < 512 by decide), courseOf_block hal (show 511 < 512 by decide)]

end Sys2Proof.Machine
end

section
/-! SUPPORT and PROOFS. MEM_WRITE, MEM_READ, MEM_FILL and MEM_COPY as they start (R434). -/

namespace Sys2Proof.Machine

/-! ## MEM_WRITE -/

/-- The block at an index of a list that is written stands as given, where no later block overlaps it. -/
theorem World.putBlks_at {w : World} (hw : w.mem.wf = true) {l : List (Nat × List Byte × W32)} {k a : Nat} {data : List Byte} {syn : W32}
    (hk : l[k]? = some (a, data, syn)) (h : ∀ n e, k < n → l[n]? = some e → a + 512 ≤ e.1 ∨ e.1 + 512 ≤ a) :
    readBytes (w.putBlks l).mem a 512 = padTo 512 data ∧ (w.putBlks l).synOf a = syn := by
  have hsplit : l = l.take k ++ (a, data, syn) :: l.drop (k + 1) := by
    obtain ⟨hlt, hget⟩ := List.getElem?_eq_some_iff.mp hk
    rw [← hget, List.getElem_cons_drop, List.take_append_drop]
  rw [hsplit]
  refine World.putBlks_last hw _ _ _ _ _ (fun e he => ?_)
  obtain ⟨n, hn⟩ := List.getElem?_of_mem he
  rw [List.getElem?_drop] at hn
  exact h _ e (by omega) hn

/-- Payload blocks as a run of blocks from an address. -/
def runOf (a : Nat) (p : List Blk) : List (Nat × List Byte × W32) := ((runBlocks a p.length).zip p).map (fun e => (e.1, e.2.data, blkSyn e.2))

theorem runOf_getElem? (a : Nat) (p : List Blk) (k : Nat) : (runOf a p)[k]? = (p[k]?).map (fun b => (a + 512 * k, b.data, blkSyn b)) := by
  by_cases hk : k < p.length <;> simp [runOf, runBlocks, List.zip, hk]

theorem writeBlocks_good {p : List Blk} (h : ∀ b ∈ p, blkSyn b = 0 ∨ blkSyn b = poisonMark) : writeBlocks p = (p, stOk, 0) := by
  have hgood : p.takeWhile (fun b => blkSyn b == 0 || blkSyn b == poisonMark) = p := by
    induction p with
    | nil => rfl
    | cons b p ih =>
      have hb : (blkSyn b == 0 || blkSyn b == poisonMark) = true := by
        simpa using h b List.mem_cons_self
      rw [List.takeWhile_cons, if_pos hb, ih (fun c hc => h c (List.mem_cons_of_mem b hc))]
  simp only [writeBlocks, hgood, if_true]

theorem World.storeBlocks_near (w : World) (h : HostCmd) {a : Nat} (p : List Blk) (ha : tierOf a ≠ 3) :
    w.storeBlocks h a p = w.putBlks (runOf a p) := by
  rw [World.storeBlocks, if_neg ha, World.putBlks, runOf, List.foldl_map]

theorem Dev.runBad_none {d : Dev} {h : HostCmd} {n most : Nat} (hr : d.memRunOk (pair h.p0 h.p1) n = true) (h1 : n ≠ 0) (h2 : n ≤ most) :
    d.runBad h n most = none := by
  simp [Dev.runBad, firstParam, hr, memRunOk_one hr, h1, h2]

theorem World.onStores_ok {w : World} {h : HostCmd} {op a : Nat} {k : World → World} (hf : w.d.runFenced a = false) :
    w.onStores h op a k = k w := by simp [World.onStores, hf]

theorem Dev.runClosed_false {d : Dev} {a n : Nat} (hh : d.runHeld a = false) (hl : d.runOffLadder a n) : d.runClosed a n = false := by
  have : d.ladders.any (fun l => !l.after && overlaps (farCanon a) (512 * n) (farCanon l.block) 512) = false := by
    rw [List.any_eq_false]
    intro l hmem
    cases hx : l.after
    · simp [hl l hmem hx]
    · simp
  simp [Dev.runClosed, hh, this]

/-- The count of poisoned blocks that MEM_WRITE carries. -/
def carriedOf (p : List Blk) : Nat := (p.filter (fun b => blkSyn b == poisonMark)).length

theorem World.goMemWrite_near {w : World} {h : HostCmd} (hb : memWriteBad w.d h = none) (hf : w.d.runFenced (pair h.p0 h.p1) = false)
    (hc : w.d.runClosed (pair h.p0 h.p1) h.payload.length = false) (ht : tierOf (pair h.p0 h.p1) ≠ 3)
    (hp : ∀ b ∈ h.payload, blkSyn b = 0 ∨ blkSyn b = poisonMark) :
    w.goMemWrite h = (World.carried (w.putBlks (runOf (pair h.p0 h.p1) h.payload)) (towerOf (pair h.p0 h.p1)) (carriedOf h.payload)).answer
      h 0x201 stOk 0 := by
  rw [World.goMemWrite, World.onParams_ok hb, World.onStores_ok hf, hc]
  simp only [World.memWrite, writeBlocks_good hp, World.storeBlocks_near w h _ ht, ht, if_false, false_and, carriedOf]
  rfl

/-- The counters of poisoned blocks are no part of the timebase. -/
theorem World.carried_fretNum (w : World) (a n : Nat) : (w.carried (towerOf a) n).d.fretNum = w.d.fretNum :=
  w.d.count_fretNum _ _ _ (by
    have : towerOf a < 8 := Nat.mod_lt _ (by decide)
    unfold FT_FRET_NUM MEMR twBase
    omega)

/-- Settles O13: the payload is a run of blocks written one after another. -/
theorem memWriteStoresItsBlocks : Obligations.MemWriteStoresItsBlocks := by
  unfold Obligations.MemWriteStoresItsBlocks
  intro h s hm ha a hfree hoff ht hp
  obtain ⟨hok, hfence, hheld⟩ := hfree
  have hlen : h.payload.length ≠ 0 ∧ h.payload.length ≤ 65536 := by
    have := ha.2.length
    simp only [memWriteOp, Bool.and_eq_true, decide_eq_true_eq] at this
    omega
  have hbad : memWriteBad (s.dev.taken h) h = none := Dev.runBad_none hok hlen.1 hlen.2
  let w := (s.taken h).putBlks (runOf a h.payload)
  have hexec : exec (.memWrite h) s =
      .next (commit s ((w.carried (towerOf a) (carriedOf h.payload)).answer h 0x201 stOk 0)) :=
    runLive_admitted_eq (f := doMemWrite h) ⟨ha.1, ha.2.withBad memWriteBad⟩ rfl hbad
      (World.goMemWrite_near (w := s.taken h) hbad hfence (Dev.runClosed_false hheld hoff) ht hp)
  have hmem : (commit s ((w.carried (towerOf a) (carriedOf h.payload)).answer h 0x201 stOk 0)).mem = w.mem :=
    commit_mem_tracks (s := s) (w := w) (World.putBlks_tracks (s.taken_tracks h) _)
  have hd : w.d = s.dev.taken h := World.putBlks_d ..
  refine ⟨_, hexec, fun k b hk => ?_, fun x hx => ?_, ?_, ?_⟩
  · rw [hmem]
    refine World.putBlks_at (w := s.taken h) hm (k := k) (by rw [runOf_getElem?, hk]; rfl) (fun n e hn he => ?_)
    rw [runOf_getElem?, Option.map_eq_some_iff] at he
    obtain ⟨b', _, rfl⟩ := he
    dsimp only
    omega
  · rw [hmem]
    have hrun : ∀ e ∈ runOf a h.payload, x < e.1 ∨ e.1 + 512 ≤ x := fun e he => by
      obtain ⟨n, hn⟩ := List.getElem?_of_mem he
      rw [runOf_getElem?, Option.map_eq_some_iff] at hn
      obtain ⟨b', hb', rfl⟩ := hn
      have := (List.getElem?_eq_some_iff.mp hb').1
      dsimp only
      omega
    exact ⟨World.putBlks_readByte_out _ _ hrun, World.putBlks_synOf_ne _ _ (fun e he => by have := hrun e he; omega)⟩
  · refine World.reply_says_of_fretNum ?_ ?_ h 0x201 stOk 0 0 []
    · rw [World.carried_fretNum, hd, taken_fretNum]
    · rw [World.carried, World.count_d, Dev.count_out, hd]
      rfl
  · refine World.answer_hl ?_ ha.2.fresh ..
    rw [World.carried, World.count_d, Dev.count_hl, hd]

/-! ## MEM_READ -/

theorem World.goMemRead_near {w : World} {h : HostCmd} {bad : List Nat} (hb : memReadBad w.d h = none)
    (hf : w.d.runFenced (pair h.p0 h.p1) = false) (hh : w.d.runHeld (pair h.p0 h.p1) = false) (ht : tierOf (pair h.p0 h.p1) ≠ 3)
    (hg : ∀ x ∈ runBlocks (pair h.p0 h.p1) h.p2.toNat, w.failing bad x = false) :
    w.goMemRead h bad = w.memReply h ((runBlocks (pair h.p0 h.p1) h.p2.toNat).map w.carry) := by
  have hnone : (runBlocks (pair h.p0 h.p1) h.p2.toNat).filter (w.failing bad) = [] := by
    rw [List.filter_eq_nil_iff]
    exact fun x hx => by simp [hg x hx]
  rw [World.goMemRead, World.onParams_ok hb, World.onStores_ok hf, hh]
  simp [World.memRead, ht, hnone]

/-- What MEM_READ replies with: OK, or POISONED and the number of poisoned blocks. -/
theorem World.memReply_eq (w : World) (h : HostCmd) (bl : List Blk) (ht : tierOf (pair h.p0 h.p1) ≠ 3) :
    w.memReply h bl = (w.carried (towerOf (pair h.p0 h.p1)) (carriedOf bl)).reply h 0x202
      (if carriedOf bl = 0 then stOk else stPoisoned) (if carriedOf bl = 0 then 0 else sat16 (carriedOf bl)) 0 bl := by
  simp only [World.memReply, if_neg ht]
  by_cases hn : carriedOf bl = 0
  · rw [if_pos hn, if_pos hn]
    exact if_pos hn
  · rw [if_neg hn, if_neg hn]
    exact if_neg hn

theorem memRead_replies {h : HostCmd} {bad : List Nat} {s : State} (ha : s.admits h (plainOp 0x202 [3])) (h1 : 1 ≤ h.p2.toNat)
    (h2 : h.p2.toNat ≤ 65536) (hfree : Dev.runFree s.dev.counted (pair h.p0 h.p1) h.p2.toNat) (ht : tierOf (pair h.p0 h.p1) ≠ 3)
    (hg : ∀ x ∈ runBlocks (pair h.p0 h.p1) h.p2.toNat, s.world.failing bad x = false) :
    let bl := (runBlocks (pair h.p0 h.p1) h.p2.toNat).map s.world.carry
    exec (.memRead h bad) s = .next (commit s (((s.taken h).carried (towerOf (pair h.p0 h.p1)) (carriedOf bl)).reply h 0x202
      (if carriedOf bl = 0 then stOk else stPoisoned) (if carriedOf bl = 0 then 0 else sat16 (carriedOf bl)) 0 bl)) := by
  intro bl
  obtain ⟨hok, hfence, hheld⟩ := hfree
  have hbad : memReadBad (s.dev.taken h) h = none := Dev.runBad_none hok (by omega) h2
  exact runLive_admitted_eq (f := doMemRead h bad) ⟨ha.1, ha.2.withBad memReadBad⟩ rfl hbad
    ((World.goMemRead_near (w := s.taken h) hbad hfence hheld ht hg).trans (World.memReply_eq _ h bl ht))

/-! ## MEM_FILL and MEM_COPY -/

theorem memFill_accepted {h : HostCmd} {s : State} (ha : s.admits h (plainOp 0x203 [])) (h1 : 1 ≤ h.p2.toNat) (h2 : h.p2.toNat ≤ 2 ^ 24)
    (hok : s.dev.counted.memRunOk (pair h.p0 h.p1) h.p2.toNat = true) (hf : s.dev.counted.runFenced (pair h.p0 h.p1) = false) :
    exec (.memFill h) s = .next { s with dev := s.dev.counted.accepted h 0x203 } := by
  have hbad : memFillBad (s.dev.taken h) h = none := Dev.runBad_none hok (by omega) h2
  refine runLive_admitted_dev (f := doMemFill h) ha rfl rfl ?_
  rw [World.goMemFill, World.onParams_ok hbad, World.onStores_ok (w := s.taken h) hf, State.taken_accept]

theorem Dev.copyBad_none {d : Dev} {h : HostCmd} (h1 : 1 ≤ (copyArgs h).2.2) (h2 : (copyArgs h).2.2 ≤ 2 ^ 24)
    (hs : d.memRunOk (copyArgs h).1 (copyArgs h).2.2 = true) (hd : d.memRunOk (copyArgs h).2.1 (copyArgs h).2.2 = true) :
    d.copyBad h = none := by
  have hne : (copyArgs h).2.2 ≠ 0 := by omega
  simp [Dev.copyBad, firstParam, hs, hd, memRunOk_one hs, memRunOk_one hd, hne]
  exact h2

theorem World.goMemCopy_accepts {w : World} {h : HostCmd} (hb : w.d.copyBad h = none) (hs : w.d.runFenced (copyArgs h).1 = false)
    (hd : w.d.runFenced (copyArgs h).2.1 = false) :
    w.goMemCopy h = if tierOf (copyArgs h).1 = 3 then (w.accept h 0x204).onDev (fun d => d.farAsk h.port.val (hostWho h) 0xFFFF 1 false
      false ((runBlocks (copyArgs h).1 (copyArgs h).2.2).map (fun x => (bitsOf x 41 0, none)))) else w.accept h 0x204 := by
  simp only [World.goMemCopy, hb, hs, hd, Bool.false_eq_true, if_false]

/-- Settles O14: MEM_READ replies with the blocks as they stand; the other two are accepted. -/
theorem memReadReturnsFillAndCopyAreAccepted : Obligations.MemReadReturnsFillAndCopyAreAccepted := by
  unfold Obligations.MemReadReturnsFillAndCopyAreAccepted
  refine ⟨fun h bad s ha h1 h2 => ?_, fun h s ha h1 h2 hok hf => memFill_accepted ha h1 h2 hok hf, fun h s ha => ?_⟩
  · intro a bl n hfree ht hg
    refine ⟨_, memRead_replies ha h1 h2 hfree ht hg, rfl, World.reply_hl ?_ ha.2.fresh .., ?_⟩
    · rw [World.carried, World.count_d, Dev.count_hl]
    · refine (World.reply_says_of_fretNum (d := s.dev) ?_ ?_ ..).trans (congrArg (fun o => s.dev.said ++ [o]) ?_)
      · rw [World.carried_fretNum, taken_fretNum]
      · rw [World.carried, World.count_d, Dev.count_out]
        rfl
      · change _ = if carriedOf bl = 0 then _ else _
        split <;> rfl
  · intro src dst n h1 h2 hs hsf hd hdf d ask
    refine runLive_admitted_dev (f := doMemCopy h) ha rfl rfl ?_
    rw [World.goMemCopy_accepts (w := s.taken h) (Dev.copyBad_none h1 h2 hs hd) hsf hdf, State.taken_accept]
    split <;> rfl

end Sys2Proof.Machine
end

section
/-! SUPPORT. A register field after a register of its own or another was written: the fields of the same word that a write leaves. -/

namespace Sys2Proof.Machine

/-! ## The parts of a word around a field that was set -/

theorem withField_toNat (v : W64) {hi lo : Nat} (x : Nat) (hlo : lo ≤ hi) (hhi : hi < 64) :
    (withField v hi lo x).toNat =
      2 ^ (hi + 1) * (v.toNat / 2 ^ (hi + 1)) + (2 ^ lo * (x % 2 ^ (hi + 1 - lo)) + v.toNat % 2 ^ lo) := by
  obtain ⟨n, hn⟩ : ∃ n, hi + 1 = lo + n := ⟨hi + 1 - lo, by omega⟩
  rw [hn, show lo + n - lo = n by omega]
  have hv := Nat.div_add_mod v.toNat (2 ^ lo)
  have hq := Nat.div_add_mod (v.toNat / 2 ^ lo) (2 ^ n)
  have hdiv : v.toNat / 2 ^ (lo + n) = v.toNat / 2 ^ lo / 2 ^ n := by rw [Nat.pow_add, Nat.div_div_eq_div_mul]
  have hsub : v.toNat - 2 ^ lo * (v.toNat / 2 ^ lo % 2 ^ n) = 2 ^ (lo + n) * (v.toNat / 2 ^ (lo + n)) + v.toNat % 2 ^ lo := by
    have : 2 ^ lo * (v.toNat / 2 ^ lo) = 2 ^ (lo + n) * (v.toNat / 2 ^ lo / 2 ^ n) + 2 ^ lo * (v.toNat / 2 ^ lo % 2 ^ n) := by
      conv => lhs; rw [← hq]
      rw [Nat.mul_add, Nat.pow_add, Nat.mul_assoc]
    rw [hdiv]; omega
  have hlt : 2 ^ (lo + n) * (v.toNat / 2 ^ (lo + n)) + (2 ^ lo * (x % 2 ^ n) + v.toNat % 2 ^ lo) < 2 ^ 64 := by
    have hx : 2 ^ lo * (x % 2 ^ n) + v.toNat % 2 ^ lo < 2 ^ (lo + n) := by
      have h1 : x % 2 ^ n + 1 ≤ 2 ^ n := Nat.mod_lt _ (Nat.two_pow_pos n)
      have h2 := Nat.mul_le_mul_left (2 ^ lo) h1
      have h3 := Nat.mod_lt v.toNat (Nat.two_pow_pos lo)
      rw [Nat.pow_add]; rw [Nat.mul_add] at h2; omega
    have hA : v.toNat / 2 ^ (lo + n) + 1 ≤ 2 ^ (64 - (lo + n)) :=
      Nat.div_lt_of_lt_mul (by rw [← Nat.pow_add, show lo + n + (64 - (lo + n)) = 64 by omega]; exact v.isLt)
    have hB := Nat.mul_le_mul_left (2 ^ (lo + n)) hA
    rw [← Nat.pow_add, show lo + n + (64 - (lo + n)) = 64 by omega, Nat.mul_add] at hB
    omega
  rw [withField, BitVec.toNat_ofNat, show hi + 1 - lo = n by omega, shiftLeft_and_mask, and_mask_shiftLeft, hsub,
    Nat.mod_eq_of_lt (by omega)]
  omega

/-- A field above or below the one that was set is as it was. -/
theorem fieldOf_withField_ne (v : W64) {hi lo p q : Nat} (x : Nat) (hlo : lo ≤ hi) (hhi : hi < 64) (hd : hi < q ∨ p < lo) :
    fieldOf (withField v hi lo x) p q = fieldOf v p q := by
  simp only [fieldOf, bitsOf, Nat.shiftRight_eq_div_pow, withField_toNat v x hlo hhi]
  have hin : 2 ^ lo * (x % 2 ^ (hi + 1 - lo)) + v.toNat % 2 ^ lo < 2 ^ (hi + 1) := by
    have h1 : x % 2 ^ (hi + 1 - lo) + 1 ≤ 2 ^ (hi + 1 - lo) := Nat.mod_lt _ (Nat.two_pow_pos _)
    have h2 := Nat.mul_le_mul_left (2 ^ lo) h1
    have h3 := Nat.mod_lt v.toNat (Nat.two_pow_pos lo)
    rw [← Nat.pow_add, show lo + (hi + 1 - lo) = hi + 1 by omega, Nat.mul_add] at h2
    omega
  rcases hd with hd | hd
  · obtain ⟨n, rfl⟩ : ∃ n, q = hi + 1 + n := ⟨q - (hi + 1), by omega⟩
    rw [Nat.pow_add 2 (hi + 1) n, ← Nat.div_div_eq_div_mul, ← Nat.div_div_eq_div_mul, Nat.mul_add_div (Nat.two_pow_pos _),
      Nat.div_eq_of_lt hin, Nat.add_zero]
  · by_cases hpq : q ≤ p
    · have hlow : (2 ^ (hi + 1) * (v.toNat / 2 ^ (hi + 1)) + (2 ^ lo * (x % 2 ^ (hi + 1 - lo)) + v.toNat % 2 ^ lo)) % 2 ^ (p + 1) =
          v.toNat % 2 ^ (p + 1) := by
        have hA : 2 ^ (p + 1) ∣ 2 ^ (hi + 1) := Nat.pow_dvd_pow 2 (by omega)
        have hB : 2 ^ (p + 1) ∣ 2 ^ lo := Nat.pow_dvd_pow 2 (by omega)
        rw [Nat.add_mod, Nat.mod_eq_zero_of_dvd (Nat.dvd_mul_right_of_dvd hA _), Nat.zero_add, Nat.mod_mod, Nat.add_mod,
          Nat.mod_eq_zero_of_dvd (Nat.dvd_mul_right_of_dvd hB _), Nat.zero_add, Nat.mod_mod, Nat.mod_mod_of_dvd _ hB]
      have hsplit : ∀ m : Nat, m / 2 ^ q % 2 ^ (p + 1 - q) = m % 2 ^ (p + 1) / 2 ^ q := fun m => by
        rw [← Nat.mod_mul_right_div_self, ← Nat.pow_add, show q + (p + 1 - q) = p + 1 by omega]
      rw [hsplit, hsplit, hlow]
    · simp [show p + 1 - q = 0 by omega, Nat.mod_one]

/-! ## Registers and fields of the device after a write -/

theorem Dev.setReg_rget_self (d : Dev) (a : Nat) (v : W64) : rget (d.setReg a v).regs a = v := rget_rput_self ..
theorem Dev.setReg_rget_ne (d : Dev) {a b : Nat} (v : W64) (h : b ≠ a) : rget (d.setReg a v).regs b = rget d.regs b :=
  rget_rput_ne _ _ h
theorem Dev.setFld_rget_ne (d : Dev) {a b : Nat} (hi lo x : Nat) (h : b ≠ a) : rget (d.setFld a hi lo x).regs b = rget d.regs b :=
  rget_rset_ne _ _ _ _ h
theorem Dev.setBit_rget_ne (d : Dev) {a b : Nat} (n : Nat) (h : b ≠ a) : rget (d.setBit a n).regs b = rget d.regs b :=
  d.setFld_rget_ne n n 1 h
theorem Dev.count_rget_ne (d : Dev) {a b : Nat} (hi lo n : Nat) (h : b ≠ a) : rget (d.count a hi lo n).regs b = rget d.regs b := by
  unfold Dev.count
  split
  · rfl
  · exact rget_rcount_ne _ _ _ _ h

theorem Dev.fld_congr {d e : Dev} {a : Nat} (h : rget d.regs a = rget e.regs a) (hi lo : Nat) : d.fld a hi lo = e.fld a hi lo := by
  simp only [Dev.fld, rfld, h]

theorem Dev.setReg_fld_ne (d : Dev) {a b : Nat} (v : W64) (hi lo : Nat) (h : b ≠ a) : (d.setReg a v).fld b hi lo = d.fld b hi lo :=
  Dev.fld_congr (d.setReg_rget_ne v h) hi lo
theorem Dev.setReg_fld_self (d : Dev) (a : Nat) (v : W64) (hi lo : Nat) : (d.setReg a v).fld a hi lo = fieldOf v hi lo := by
  simp only [Dev.fld, rfld, d.setReg_rget_self]
theorem Dev.setFld_fld_ne (d : Dev) {a b : Nat} (hi lo x p q : Nat) (h : b ≠ a) : (d.setFld a hi lo x).fld b p q = d.fld b p q :=
  Dev.fld_congr (d.setFld_rget_ne hi lo x h) p q
theorem Dev.setBit_fld_ne (d : Dev) {a b : Nat} (n p q : Nat) (h : b ≠ a) : (d.setBit a n).fld b p q = d.fld b p q :=
  d.setFld_fld_ne n n 1 p q h

/-- A field reads as it was set. -/
theorem Dev.setFld_fld_self (d : Dev) (a : Nat) {hi lo : Nat} (x : Nat) (hlo : lo ≤ hi) (hhi : hi < 64) :
    (d.setFld a hi lo x).fld a hi lo = x % 2 ^ (hi + 1 - lo) := by
  rw [Dev.fld, rfld, Dev.setFld_regs, rget_rset_self, fieldOf_withField _ _ hlo hhi]

/-- A field set to a value that fits reads that value. -/
theorem Dev.setFld_fld_fits (d : Dev) (a : Nat) {hi lo : Nat} (x : Nat) (hlo : lo ≤ hi) (hhi : hi < 64) (hx : x % 2 ^ (hi + 1 - lo) = x) :
    (d.setFld a hi lo x).fld a hi lo = x := (Dev.setFld_fld_self d a x hlo hhi).trans hx

theorem Dev.setBit_fld_self (d : Dev) (a : Nat) {n : Nat} (hn : n < 64) : (d.setBit a n).fld a n n = 1 := by
  rw [Dev.setBit, d.setFld_fld_self a 1 (Nat.le_refl n) hn]
  simp

/-- Setting a field leaves the fields beside it. -/
theorem Dev.setFld_fld_beside (d : Dev) (a : Nat) {hi lo p q : Nat} (x : Nat) (hlo : lo ≤ hi) (hhi : hi < 64) (hd : hi < q ∨ p < lo) :
    (d.setFld a hi lo x).fld a p q = d.fld a p q := by
  rw [Dev.fld, rfld, Dev.setFld_regs, rget_rset_self, fieldOf_withField_ne _ _ hlo hhi hd]
  rfl

theorem Dev.setBit_fld_beside (d : Dev) (a : Nat) {n p q : Nat} (hn : n < 64) (hd : n < q ∨ p < n) :
    (d.setBit a n).fld a p q = d.fld a p q := d.setFld_fld_beside a 1 (Nat.le_refl n) hn hd

theorem Dev.setReg_fretNum (d : Dev) {a : Nat} (v : W64) (h : FT_FRET_NUM ≠ a) : (d.setReg a v).fretNum = d.fretNum :=
  d.setReg_fld_ne v 63 0 h
theorem Dev.setFld_fretNum (d : Dev) {a : Nat} (hi lo x : Nat) (h : FT_FRET_NUM ≠ a) : (d.setFld a hi lo x).fretNum = d.fretNum :=
  d.setFld_fld_ne hi lo x 63 0 h
theorem Dev.setBit_fretNum (d : Dev) {a : Nat} (n : Nat) (h : FT_FRET_NUM ≠ a) : (d.setBit a n).fretNum = d.fretNum :=
  d.setBit_fld_ne n 63 0 h

/-! ## What a change of registers alone leaves -/

theorem Dev.RegsOnly.out {d d' : Dev} (h : d.RegsOnly d') : d'.out = d.out := (congrArg Dev.out h :)
theorem Dev.RegsOnly.hl {d d' : Dev} (h : d.RegsOnly d') : d'.hl = d.hl := (congrArg Dev.hl h :)
theorem Dev.RegsOnly.ctxs {d d' : Dev} (h : d.RegsOnly d') : d'.ctxs = d.ctxs := (congrArg Dev.ctxs h :)
theorem Dev.RegsOnly.courses {d d' : Dev} (h : d.RegsOnly d') : d'.courses = d.courses := (congrArg Dev.courses h :)
theorem Dev.RegsOnly.hedge {d d' : Dev} (h : d.RegsOnly d') : d'.hedge = d.hedge := (congrArg Dev.hedge h :)
theorem Dev.RegsOnly.ft {d d' : Dev} (h : d.RegsOnly d') : d'.ft = d.ft := (congrArg Dev.ft h :)
theorem Dev.RegsOnly.links {d d' : Dev} (h : d.RegsOnly d') : d'.links = d.links := (congrArg Dev.links h :)
theorem Dev.RegsOnly.towers {d d' : Dev} (h : d.RegsOnly d') : d'.towers = d.towers := (congrArg Dev.towers h :)
theorem Dev.RegsOnly.svcs {d d' : Dev} (h : d.RegsOnly d') : d'.svcs = d.svcs := (congrArg Dev.svcs h :)
theorem Dev.RegsOnly.rx {d d' : Dev} (h : d.RegsOnly d') : d'.rx = d.rx := (congrArg Dev.rx h :)
theorem Dev.RegsOnly.log {d d' : Dev} (h : d.RegsOnly d') : d'.log = d.log := (congrArg Dev.log h :)
theorem Dev.RegsOnly.board {d d' : Dev} (h : d.RegsOnly d') : d'.board = d.board := (congrArg Dev.board h :)
theorem Dev.RegsOnly.bundles {d d' : Dev} (h : d.RegsOnly d') : d'.bundles = d.bundles := (congrArg Dev.bundles h :)

/-- Writes to registers of a list, none of them `b`, leave `b`. -/
theorem foldl_rget_ne {β : Type} {f : Dev → β → Dev} {b : Nat} (xs : List β)
    (h : ∀ (d : Dev), ∀ x ∈ xs, rget (f d x).regs b = rget d.regs b) (d : Dev) : rget (xs.foldl f d).regs b = rget d.regs b :=
  foldl_keeps (fun e : Dev => rget e.regs b = rget d.regs b) f xs (fun a x hx ha => (h a x hx).trans ha) d rfl

/-- Writes to registers f 0, f 1, … give each its value. -/
theorem foldl_setReg_rget {f : Nat → Nat} (g : Nat → W64) (hf : ∀ j k, f j = f k → j = k) {n k : Nat} (hk : k < n) (d : Dev) :
    rget ((List.range n).foldl (fun d k => d.setReg (f k) (g k)) d).regs (f k) = g k :=
  foldl_range_at (fun k (d : Dev) => rget d.regs (f k)) (fun (d : Dev) k => d.setReg (f k) (g k)) (fun k _ => g k)
    (fun _ d => d.setReg_rget_self _ _) (fun _ _ d hne => d.setReg_rget_ne _ (fun he => hne (hf _ _ he))) hk d

end Sys2Proof.Machine
end

section
/-! SUPPORT and PROOFS. Host commands of the fret, the firmware, the towers and the services, and registers that act. -/

namespace Sys2Proof.Machine

/-! ## The final answer of a command that changed the device -/

/-- The final reply of a taken command whose work brought the device to `e`, the host link aside. -/
theorem reply_worked {w : World} {d e : Dev} {h : HostCmd} {op : Nat} {st det : W16} {p : W32} {bl : List Blk}
    (hw : w.d = { e with hl := (d.taken h).hl }) (he : e.hl = d.hl) (hf : (h.port.val, h.tag) ∉ d.hl.outstanding) :
    w.reply h op st det p bl = { w with d := e.replied h op st det p bl } := by
  have hsame := replied_same (h := h) (op := op) (st := st) (det := det) (p := p) (bl := bl)
    (⟨rfl, rfl, rfl, rfl, rfl⟩ : SameWire e { e with hl := (d.taken h).hl })
  have hrest : e.replied h op st det p bl = _ := Dev.replyPkt_eq e h op st det p bl
  rw [replyPkt_replied] at hrest
  rw [reply_taken (d := d) (by rw [hw]) hf, hw, hsame, hrest, ← he]

/-- A live host command, admitted, whose work brings the device to `e` and answers OK. -/
theorem runLive_repliedOk {s : State} {h : HostCmd} {c : OpSpec} {k f : World → World} {op : Nat} {e : Dev} (ha : s.admits h c)
    (hf : f s.world = s.world.admitCmd h c k) (hb : c.bad (s.dev.taken h) h = none) (he : e.hl = s.dev.hl)
    (hk : k (s.taken h) = World.answer { s.world with d := { e with hl := (s.dev.taken h).hl } } h op stOk 0) :
    runLive s f = .next { s with dev := e.repliedOk h op } :=
  runLive_admitted_dev ha hf hb (hk.trans (reply_worked rfl he ha.2.fresh))

/-! ## FRET_CONFIG, DRONE_RAISE and ROUTE_LOAD -/

theorem noneActive {d : Dev} (h : ∀ e ∈ d.ctxs, e.2.active = false) : d.ctxs.any (fun e => e.2.active) = false := by
  simpa using h

theorem droneBad_abort {d : Dev} {h : HostCmd} (h0 : h.p0 = 1) : droneBad d h = none := by simp [droneBad, firstParam, h0]

theorem droneBad_hold {d : Dev} {h : HostCmd} (h0 : h.p0 = 2) (h1 : 1 ≤ h.p1.toNat) (h2 : h.p1.toNat ≤ 65535) : droneBad d h = none := by
  have hz : h.p1.toNat ≠ 0 := by omega
  simp [droneBad, firstParam, h0, hz, h2]

theorem droneBad_flag {d : Dev} {h : HostCmd} (h0 : h.p0 = 3) (h1 : h.p1.toNat ≤ 7) : droneBad d h = none := by
  simp [droneBad, firstParam, h0, h1]

/-- What ROUTE_LOAD leaves: the image, its digest and what EF_ROUTE_INFO says of it. -/
def Dev.loadRoute (d : Dev) (b : List Byte) : Dev :=
  let len := numAt b 12 4
  let dig := shake256 32 (b.take len)
  let e := (List.range 4).foldl (fun d k => d.setReg (EF_ROUTE_DIGEST k) (BitVec.ofNat 64 (numAt dig (8 * k) 8)))
    { d with hedge := { d.hedge with route := b.take len } }
  e.setReg EF_ROUTE_INFO (BitVec.ofNat 64 ((1 <<< 63) + (diameter b <<< 16) + numAt b 6 2))

/-- Beside the image, ROUTE_LOAD changes registers alone. -/
theorem Dev.loadRoute_regsOnly (d : Dev) (b : List Byte) :
    Dev.RegsOnly { d with hedge := { d.hedge with route := b.take (numAt b 12 4) } } (d.loadRoute b) :=
  (foldl_regsOnly (fun d k => d.setReg_regsOnly (EF_ROUTE_DIGEST k) _) (List.range 4) _).trans (Dev.setReg_regsOnly _ _ _)

theorem Dev.loadRoute_route (d : Dev) (b : List Byte) : (d.loadRoute b).hedge.route = b.take (numAt b 12 4) :=
  congrArg Hedge.route (d.loadRoute_regsOnly b).hedge
theorem Dev.loadRoute_out (d : Dev) (b : List Byte) : (d.loadRoute b).out = d.out := (d.loadRoute_regsOnly b).out
theorem Dev.loadRoute_hl (d : Dev) (b : List Byte) : (d.loadRoute b).hl = d.hl := (d.loadRoute_regsOnly b).hl

/-- The registers that ROUTE_LOAD writes are the four of the digest and EF_ROUTE_INFO. -/
theorem Dev.loadRoute_rget (d : Dev) (b : List Byte) {a : Nat} (hi : a ≠ EF_ROUTE_INFO) (hd : ∀ k, k < 4 → a ≠ EF_ROUTE_DIGEST k) :
    rget (d.loadRoute b).regs a = rget d.regs a := by
  unfold Dev.loadRoute
  rw [Dev.setReg_rget_ne _ _ hi, foldl_rget_ne _ (fun d k hk => d.setReg_rget_ne _ (hd k (List.mem_range.1 hk)))]

theorem Dev.loadRoute_digest (d : Dev) (b : List Byte) {k : Nat} (hk : k < 4) :
    rget (d.loadRoute b).regs (EF_ROUTE_DIGEST k) = BitVec.ofNat 64 (numAt (shake256 32 (b.take (numAt b 12 4))) (8 * k) 8) := by
  unfold Dev.loadRoute
  rw [Dev.setReg_rget_ne _ _ (by simp only [EF_ROUTE_DIGEST, EF_ROUTE_INFO]; omega)]
  exact foldl_setReg_rget (f := EF_ROUTE_DIGEST) (fun k => BitVec.ofNat 64 (numAt _ (8 * k) 8))
    (fun j k h => by simp only [EF_ROUTE_DIGEST] at h; omega) hk _

theorem Dev.loadRoute_fretNum (d : Dev) (b : List Byte) : (d.loadRoute b).fretNum = d.fretNum :=
  Dev.fld_congr (d.loadRoute_rget b (by decide) (fun k _ => by simp only [FT_FRET_NUM, EF_ROUTE_DIGEST]; omega)) 63 0

/-- The work of ROUTE_LOAD once it is admitted. -/
def World.goRouteLoad (h : HostCmd) (w : World) : World :=
  let b := payloadBytes h.payload
  let len := numAt b 12 4
  let n := numAt b 6 2
  if b.length < len ∨ len < 512 + 96 * n + n * n then w.answer h 0x304 stBadLength 44
  else if w.d.ctxs.any (fun e => e.2.active) then w.answer h 0x304 stContextState 0
  else match routeBad b with
    | some r => w.answer h 0x304 stBadParam (BitVec.ofNat 16 r)
    | none => (w.onDev (fun d => d.loadRoute b)).answer h 0x304 stOk 0

theorem World.goRouteLoad_ok {w : World} {h : HostCmd} (hlen : numAt (payloadBytes h.payload) 12 4 ≤ (payloadBytes h.payload).length)
    (hn : 512 + 96 * numAt (payloadBytes h.payload) 6 2 + numAt (payloadBytes h.payload) 6 2 * numAt (payloadBytes h.payload) 6 2 ≤
      numAt (payloadBytes h.payload) 12 4)
    (hidle : w.d.ctxs.any (fun e => e.2.active) = false) (hr : routeBad (payloadBytes h.payload) = none) :
    World.goRouteLoad h w = (w.onDev (fun d => d.loadRoute (payloadBytes h.payload))).answer h 0x304 stOk 0 := by
  unfold World.goRouteLoad
  rw [if_neg (by omega), if_neg (by rw [hidle]; decide), hr]

/-- Settles O17: each command passes its checks, changes the device and answers OK. -/
theorem fretConfigDroneRaiseRouteLoad : Obligations.FretConfigDroneRaiseRouteLoad := by
  unfold Obligations.FretConfigDroneRaiseRouteLoad
  refine ⟨?_, fun h s ha h0 => ?_, fun h s ha h0 h1 h2 => ?_, fun h s ha h0 h1 => ?_, ?_⟩
  · intro h s ha p g l a hp0 hp hp' hg hg' hp1 hl hsum hfret hidle d
    refine runLive_repliedOk (f := doFretConfig h) (e := d) ha rfl rfl rfl ?_
    have hdia : (s.dev.taken h).fld FT_DIAMETER 31 16 = s.dev.fld FT_DIAMETER 31 16 := taken_fld h 31 16 (by decide)
    have hnum := taken_fretNum s.dev h
    have hany : (s.taken h).d.ctxs.any (fun e => e.2.active) = false := noneActive (d := s.dev) hidle
    simp only [hany]
    rw [if_neg (by omega), if_neg (by simp only [hdia]; omega), if_neg (by simp only [hnum]; omega)]
    rfl
  · refine runLive_repliedOk (f := doDroneRaise h) ⟨ha.1, ha.2.withBad droneBad⟩ (by simp only [doDroneRaise, h0]; rfl)
      (droneBad_abort (d := s.dev.taken h) h0) rfl ?_
    refine (World.onParams_ok (w := s.taken h) (droneBad_abort (d := s.dev.taken h) h0)).trans ?_
    rfl
  · refine runLive_repliedOk (f := doDroneRaise h) ⟨ha.1, ha.2.withBad droneBad⟩ (by simp only [doDroneRaise, h0]; rfl)
      (droneBad_hold (d := s.dev.taken h) h0 h1 h2) rfl ?_
    refine (World.onParams_ok (w := s.taken h) (droneBad_hold (d := s.dev.taken h) h0 h1 h2)).trans ?_
    rfl
  · refine runLive_repliedOk (f := doDroneRaise h) ⟨ha.1, ha.2.withBad droneBad⟩ (by simp only [doDroneRaise, h0]; rfl)
      (droneBad_flag (d := s.dev.taken h) h0 h1) rfl ?_
    refine (World.onParams_ok (w := s.taken h) (droneBad_flag (d := s.dev.taken h) h0 h1)).trans ?_
    rfl
  · intro h s ha b len dig hlen hn hidle hroute
    have hany : (s.taken h).d.ctxs.any (fun e => e.2.active) = false := noneActive (d := s.dev) hidle
    have hexec := runLive_admitted_eq (f := doRouteLoad h) (k := World.goRouteLoad h) ha rfl rfl (World.goRouteLoad_ok hlen hn hany hroute)
    refine ⟨_, hexec, rfl, ?_, fun k hk => ?_, ?_⟩
    · rw [commit_dev, World.answer_d, Dev.settle_hedge, Dev.replyPkt_hedge, World.onDev_d, Dev.loadRoute_route]
    · rw [commit_dev, World.answer_d, Dev.settle_regs, Dev.replyPkt_regs, World.onDev_d]
      exact Dev.loadRoute_digest _ _ hk
    · exact World.reply_says_of_fretNum (w := World.onDev (s.taken h) (fun d => d.loadRoute b))
        ((Dev.loadRoute_fretNum (s.dev.taken h) b).trans (taken_fretNum s.dev h)) (Dev.loadRoute_out (s.dev.taken h) b) ..

end Sys2Proof.Machine
end

section
/-! SUPPORT and PROOFS. What reports (events, log entries, fault bits, raised flags) change of a device, the state of a link, and the registers
that act when they are written. -/

namespace Sys2Proof.Machine

/-! ## Reports -/

/-- Beside the registers of a list, `e` differs from `d` in raised flags, events and the log alone. -/
structure Dev.Tells (R : List Nat) (d e : Dev) : Prop where
  only : e = { d with
    regs := e.regs, log := e.log, ft := { d.ft with posFlags := e.ft.posFlags, freshPos := e.ft.freshPos },
    hl := { d.hl with events := e.hl.events, lost := e.hl.lost } }
  regs : ∀ a, a ∉ R → rget e.regs a = rget d.regs a

variable {R : List Nat} {d e f : Dev}

theorem Dev.Tells.refl (R : List Nat) (d : Dev) : Dev.Tells R d d := ⟨rfl, fun _ _ => rfl⟩

theorem Dev.Tells.trans (h : Dev.Tells R d e) (k : Dev.Tells R e f) : Dev.Tells R d f where
  only := by rw [k.only, h.only]
  regs a ha := (k.regs a ha).trans (h.regs a ha)

theorem Dev.Tells.links (h : Dev.Tells R d e) : e.links = d.links := (congrArg Dev.links h.only :)
theorem Dev.Tells.courses (h : Dev.Tells R d e) : e.courses = d.courses := (congrArg Dev.courses h.only :)
theorem Dev.Tells.ctxs (h : Dev.Tells R d e) : e.ctxs = d.ctxs := (congrArg Dev.ctxs h.only :)
theorem Dev.Tells.towers (h : Dev.Tells R d e) : e.towers = d.towers := (congrArg Dev.towers h.only :)
theorem Dev.Tells.hedge (h : Dev.Tells R d e) : e.hedge = d.hedge := (congrArg Dev.hedge h.only :)
theorem Dev.Tells.out (h : Dev.Tells R d e) : e.out = d.out := (congrArg Dev.out h.only :)
theorem Dev.Tells.fld (h : Dev.Tells R d e) {a : Nat} (ha : a ∉ R) (hi lo : Nat) : e.fld a hi lo = d.fld a hi lo :=
  Dev.fld_congr (h.regs a ha) hi lo

theorem Dev.setReg_tells (d : Dev) {a : Nat} (v : W64) (ha : a ∈ R) : Dev.Tells R d (d.setReg a v) :=
  ⟨rfl, fun _ hb => d.setReg_rget_ne v fun h => hb (h ▸ ha)⟩
theorem Dev.setFld_tells (d : Dev) {a : Nat} (hi lo x : Nat) (ha : a ∈ R) : Dev.Tells R d (d.setFld a hi lo x) :=
  ⟨rfl, fun _ hb => d.setFld_rget_ne hi lo x fun h => hb (h ▸ ha)⟩
theorem Dev.setBit_tells (d : Dev) {a : Nat} (n : Nat) (ha : a ∈ R) : Dev.Tells R d (d.setBit a n) := d.setFld_tells n n 1 ha
theorem Dev.count_tells (d : Dev) {a : Nat} (hi lo n : Nat) (ha : a ∈ R) : Dev.Tells R d (d.count a hi lo n) :=
  ⟨by unfold Dev.count; split <;> rfl, fun _ hb => d.count_rget_ne hi lo n fun h => hb (h ▸ ha)⟩
theorem Dev.raise_tells (R : List Nat) (d : Dev) (n : Nat) : Dev.Tells R d (d.raise n) := ⟨rfl, fun _ _ => rfl⟩

theorem Dev.log_tells (R : List Nat) (d : Dev) (x : LogEntry) : Dev.Tells R d (d.log_ x) where
  only := by
    unfold Dev.log_
    generalize (if x.tower = 0xFF then d.custodyTower else x.tower) = q
    dsimp only
    split <;> rfl
  regs a _ := by rw [Dev.logEntry_regs]

theorem Dev.event_tells (d : Dev) (code : Nat) (st det : W16) (ctx : Nat) (tag : W16) (bl : List Blk) (hl : HL_EVENTS_LOST ∈ R)
    (hf : HL_FAULT ∈ R) : Dev.Tells R d (d.event code st det ctx tag bl) := by
  simp only [Dev.event]
  split
  · have hlost : Dev.Tells R d { d with hl := { d.hl with lost := d.hl.lost + 1 } } := ⟨rfl, fun _ _ => rfl⟩
    have hbits := (hlost.trans (Dev.count_tells _ 63 0 1 hl)).trans (Dev.setBit_tells _ 0 hf)
    split
    · exact hbits.trans (Dev.log_tells ..)
    · exact hbits
  · exact ⟨rfl, fun _ _ => rfl⟩

/-! ## The state of a link -/

theorem linkBase_lt {l : Nat} (hl : l < 32) : (l < 24 ∧ linkBase l = 0x50100 + l / 3 * 0x1000000 + l % 3 * 0x80) ∨
    (24 ≤ l ∧ linkBase l = 0x40100 + (l - 24) * 0x40) := by
  unfold linkBase twBase
  split <;> omega

/-- The status register of a link is none of the registers that a change of its state reports in, nor its counters and controls. -/
theorem linkBase_ne_status {l : Nat} : linkBase l ≠ HL_STATUS := by
  unfold linkBase twBase HL_STATUS
  split <;> omega

theorem linkBase_not_mem {l : Nat} (_ : l < 32) :
    linkBase l ∉ [FT_HOLD_CAUSE, EFR (l / 3) + 0x10, EFR (l / 3) + 0x18, HL_FAULT, HL_EVENTS_LOST, HL_STATUS, linkRetrains l, linkCtrl l] := by
  simp only [List.mem_cons, List.not_mem_nil, or_false, linkBase, linkRetrains, linkCtrl, twBase, EFR, HL_FAULT, HL_EVENTS_LOST,
    HL_STATUS, FT_HOLD_CAUSE]
  split <;> omega

theorem linkCtrl_not_mem {l : Nat} (_hl : l < 32) :
    linkCtrl l ∉ [FT_HOLD_CAUSE, EFR (l / 3) + 0x10, EFR (l / 3) + 0x18, HL_FAULT, HL_EVENTS_LOST, HL_STATUS, linkRetrains l, linkBase l] := by
  simp only [List.mem_cons, List.not_mem_nil, or_false, linkBase, linkRetrains, linkCtrl, twBase, EFR, HL_FAULT, HL_EVENTS_LOST,
    HL_STATUS, FT_HOLD_CAUSE]
  split <;> omega

theorem Dev.hlStatus_tells (d : Dev) (hs : HL_STATUS ∈ R) : Dev.Tells R d d.hlStatus := by
  unfold Dev.hlStatus
  dsimp only
  split
  · exact (Dev.setFld_tells _ 7 0 _ hs).trans (Dev.setFld_tells _ 8 8 _ hs)
  · exact Dev.setFld_tells _ 7 0 _ hs

/-- A link takes a state: HL_STATUS follows it. -/
theorem Dev.setLinkState_tells (d : Dev) (l s : Nat) : Dev.Tells [HL_STATUS] (d.setFld (linkBase l) 19 16 s) (d.setLinkState l s) := by
  unfold Dev.setLinkState
  dsimp only
  split
  · exact Dev.hlStatus_tells _ (by simp)
  · exact Dev.Tells.refl ..

theorem Dev.setLinkState_linkState (d : Dev) (l : Nat) {s : Nat} (hs : s < 16) : (d.setLinkState l s).linkState l = s := by
  rw [Dev.linkState, (d.setLinkState_tells l s).fld (by simpa using linkBase_ne_status), Dev.setFld_fld_self _ _ _ (by decide) (by decide)]
  exact Nat.mod_eq_of_lt hs

theorem Dev.setLinkState_rget_ne (d : Dev) {l a : Nat} (s : Nat) (ha : a ≠ linkBase l) (hs : a ≠ HL_STATUS) :
    rget (d.setLinkState l s).regs a = rget d.regs a := by
  rw [(d.setLinkState_tells l s).regs a (by simpa using hs), Dev.setFld_rget_ne _ _ _ _ ha]

theorem Dev.setLinkState_links (d : Dev) (l s : Nat) : (d.setLinkState l s).links = d.links := (d.setLinkState_tells l s).links

/-- The registers in which the loss of a link is reported. -/
def linkLostRegs (l : Nat) : List Nat := [EFR (l / 3) + 0x10, EFR (l / 3) + 0x18, HL_FAULT, HL_EVENTS_LOST]

theorem World.linkLost_tells (w : World) (l s : Nat) : Dev.Tells (linkLostRegs l) (w.d.setLinkState l s) (w.linkLost l s).d := by
  have hlost : HL_EVENTS_LOST ∈ linkLostRegs l := by simp [linkLostRegs]
  have hfault : HL_FAULT ∈ linkLostRegs l := by simp [linkLostRegs]
  unfold World.linkLost
  dsimp only
  split
  · split
    · refine (((((Dev.raise_tells _ _ flagAbort).trans (Dev.setBit_tells _ 5 ?_)).trans (Dev.setReg_tells _ _ ?_)).trans
        (Dev.event_tells _ _ _ _ _ _ _ hlost hfault))).trans (Dev.log_tells ..)
      · simp [linkLostRegs]
      · simp [linkLostRegs]
    · exact Dev.Tells.refl ..
  · split
    · exact (((Dev.setBit_tells _ 2 hfault).trans (Dev.raise_tells _ _ flagAbort)).trans (Dev.event_tells _ _ _ _ _ _ _ hlost hfault)).trans
        (Dev.log_tells ..)
    · exact Dev.Tells.refl ..

theorem World.linkLost_mem (w : World) (l s : Nat) : (w.linkLost l s).mem = w.mem := by
  unfold World.linkLost
  dsimp only
  split <;> split <;> rfl

theorem World.linkLost_wr (w : World) (l s : Nat) : (w.linkLost l s).wr = w.wr := by
  unfold World.linkLost
  dsimp only
  split <;> split <;> rfl

theorem World.linkLost_links (w : World) (l s : Nat) : (w.linkLost l s).d.links = w.d.links :=
  (w.linkLost_tells l s).links.trans (Dev.setLinkState_links ..)

theorem World.linkLost_linkState (w : World) {l s : Nat} (hl : l < 32) (hs : s < 16) : (w.linkLost l s).d.linkState l = s := by
  have hn : linkBase l ∉ linkLostRegs l := fun h => linkBase_not_mem hl (by simp only [linkLostRegs, List.mem_cons] at h ⊢; grind)
  exact ((w.linkLost_tells l s).fld hn 19 16).trans (w.d.setLinkState_linkState l hs)

theorem World.linkLost_linkCtrl (w : World) {l s : Nat} (hl : l < 32) : rget (w.linkLost l s).d.regs (linkCtrl l) = rget w.d.regs (linkCtrl l) := by
  have hn := linkCtrl_not_mem hl
  simp only [List.mem_cons, not_or] at hn
  obtain ⟨-, h10, h18, hf, hlost, hs, -, hb, -⟩ := hn
  rw [(w.linkLost_tells l s).regs _ (by simp [linkLostRegs, h10, h18, hf, hlost]), Dev.setLinkState_rget_ne _ _ hb hs]

/-- A link goes down: it is in its reset state but for its cable. -/
theorem World.linkDown_linkState (w : World) {l : Nat} (hl : l < 32) : (w.linkDown l).d.linkState l = 0 := by
  unfold World.linkDown
  dsimp only
  split
  · assumption
  · exact World.linkLost_linkState _ hl (by decide)

theorem World.linkDown_links (w : World) (l : Nat) :
    (w.linkDown l).d.links = (w.d.onLink l (fun x => { Link.init with cable := x.cable })).links := by
  unfold World.linkDown
  dsimp only
  split
  · rfl
  · exact World.linkLost_links ..

theorem World.linkDown_linkCtrl (w : World) {l : Nat} (hl : l < 32) :
    rget (w.linkDown l).d.regs (linkCtrl l) = rget w.d.regs (linkCtrl l) := by
  unfold World.linkDown
  dsimp only
  split
  · rfl
  · exact World.linkLost_linkCtrl _ hl

theorem World.linkDown_mem (w : World) (l : Nat) : (w.linkDown l).mem = w.mem := by
  unfold World.linkDown
  dsimp only
  split
  · rfl
  · exact World.linkLost_mem ..

theorem World.linkDown_wr (w : World) (l : Nat) : (w.linkDown l).wr = w.wr := by
  unfold World.linkDown
  dsimp only
  split
  · rfl
  · exact World.linkLost_wr ..

/-! ## Retraining -/

theorem Dev.onLink_link_self (d : Dev) (l : Nat) (f : Link → Link) : (d.onLink l f).link l = f (d.link l) := tget_tput_self ..
theorem Dev.onLink_link_ne (d : Dev) {l k : Nat} (f : Link → Link) (h : k ≠ l) : (d.onLink l f).link k = d.link k := tget_tput_ne _ _ _ h
theorem Dev.link_congr {d e : Dev} (h : d.links = e.links) (l : Nat) : d.link l = e.link l := congrArg (tget Link.init · l) h

/-- What a link is as it starts to retrain. -/
def Dev.retrainStart (d : Dev) (l : Nat) (full : Bool) : Dev :=
  let s := d.linkState l
  d.onLink l (fun x => { x with
    retraining := true, full := full, wasNarrow := if (d.link l).retraining then (d.link l).wasNarrow else s == 3 || s == 4, nakRun := 0 })

theorem World.retrain_d (w : World) (l : Nat) (full : Bool) :
    (w.retrain l full).d = Dev.count (Dev.setLinkState
      (if l < 24 then (w.d.retrainStart l full).setBit FT_HOLD_CAUSE 3 else w.d.retrainStart l full) l 1) (linkRetrains l) 31 0 1 := rfl

theorem Dev.ite_setBit_links (d : Dev) (b : Prop) [Decidable b] (a n : Nat) : (if b then d.setBit a n else d).links = d.links := by
  split <;> rfl

theorem World.retrain_link (w : World) (l : Nat) (full : Bool) :
    ((w.retrain l full).d.link l).retraining = true ∧ ((w.retrain l full).d.link l).full = full := by
  have h : (w.retrain l full).d.link l = (w.d.retrainStart l full).link l := by
    refine Dev.link_congr ?_ l
    rw [World.retrain_d, (Dev.count_regsOnly _ _ _ _ _).links, Dev.setLinkState_links, Dev.ite_setBit_links]
  rw [h, Dev.retrainStart, Dev.onLink_link_self]
  exact ⟨rfl, rfl⟩

theorem World.retrain_linkState (w : World) {l : Nat} (hl : l < 32) (full : Bool) : (w.retrain l full).d.linkState l = 1 := by
  have hn := linkBase_not_mem hl
  simp only [List.mem_cons, not_or] at hn
  rw [World.retrain_d, Dev.linkState, Dev.count_fld_ne _ _ _ _ _ _ (by grind)]
  exact Dev.setLinkState_linkState _ _ (by decide)

/-- A port that retrains asks for a hold (R52). -/
theorem World.retrain_holdCause (w : World) {l : Nat} (hl : l < 24) (full : Bool) : (w.retrain l full).d.fld FT_HOLD_CAUSE 3 3 = 1 := by
  have hn := linkBase_not_mem (l := l) (by omega)
  have hr : FT_HOLD_CAUSE ≠ linkRetrains l := by
    unfold linkRetrains FT_HOLD_CAUSE linkBase twBase
    rw [if_pos hl, if_pos hl]
    omega
  simp only [List.mem_cons, not_or] at hn
  rw [World.retrain_d, Dev.count_fld_ne _ _ _ _ _ _ hr, Dev.fld_congr (Dev.setLinkState_rget_ne _ _ (Ne.symm hn.1) (by decide)), if_pos hl]
  exact Dev.setBit_fld_self _ _ (by decide)

theorem World.retrain_mem (w : World) (l : Nat) (full : Bool) : (w.retrain l full).mem = w.mem := rfl
theorem World.retrain_wr (w : World) (l : Nat) (full : Bool) : (w.retrain l full).wr = w.wr := rfl

/-! ## The registers with an action of their own -/

theorem World.setRetrainFull_narrow {w : World} {l : Nat} (hs : w.d.linkState l = 3 ∨ w.d.linkState l = 4)
    (hr : (w.d.link l).retraining = false) : w.setRetrainFull l = w.retrain l true := by simp [World.setRetrainFull, hs, hr]

theorem World.setRetrainFull_other {w : World} {l : Nat} (hs : ¬ (w.d.linkState l = 3 ∨ w.d.linkState l = 4)) : w.setRetrainFull l = w := by
  simp [World.setRetrainFull, hs]

/-- A DISABLE bit as it was written. -/
theorem World.disableSet_linkDisabled (w : World) (l x : Nat) : (w.setFld (linkCtrl l) 1 1 x).d.linkDisabled l = (x % 2 == 1) := by
  rw [Dev.linkDisabled, World.setFld_d, Dev.setFld_fld_self _ _ _ (Nat.le_refl 1) (by decide), Nat.add_sub_cancel, Nat.pow_one]

theorem Dev.linkDisabled_congr {d e : Dev} {l : Nat} (h : rget d.regs (linkCtrl l) = rget e.regs (linkCtrl l)) :
    d.linkDisabled l = e.linkDisabled l := by rw [Dev.linkDisabled, Dev.linkDisabled, Dev.fld_congr h]

theorem commit_mem_of_wr {s : State} {w : World} (hw : w.wr = []) : (commit s w).mem = s.mem := commit_mem_nil hw

/-- DISABLE set: the link is down. -/
theorem setDisable_on {s : State} (l : Nat) (hl : l < 32) :
    let t := commit s (World.setDisable s.world l true)
    t.mem = s.mem ∧ t.dev.linkState l = 0 ∧ t.dev.linkDisabled l = true := by
  refine ⟨commit_mem_nil ((World.linkDown_wr ..).trans rfl), World.linkDown_linkState _ hl, ?_⟩
  refine (Dev.linkDisabled_congr (World.linkDown_linkCtrl _ hl)).trans ?_
  exact World.disableSet_linkDisabled s.world l 1

/-- DISABLE cleared on a link that is down with its cable there: it trains. -/
theorem setDisable_off {s : State} (l : Nat) (hl : l < 32) (hs : s.dev.linkState l = 0) (hc : (s.dev.link l).cable = true) :
    let t := commit s (World.setDisable s.world l false)
    t.mem = s.mem ∧ t.dev.linkState l = 1 ∧ t.dev.linkDisabled l = false := by
  have hn := linkBase_not_mem hl
  have hm := linkCtrl_not_mem hl
  simp only [List.mem_cons, not_or] at hn hm
  have hs' : (s.world.setFld (linkCtrl l) 1 1 0).d.linkState l = 0 := (Dev.setFld_fld_ne _ _ _ _ _ _ (by grind)).trans hs
  have ht : World.setDisable s.world l false = World.onDev (s.world.setFld (linkCtrl l) 1 1 0) (fun d => d.setLinkState l 1) := by
    unfold World.setDisable
    dsimp only
    simp only [Bool.false_eq_true, if_false]
    exact if_pos ⟨hs', hc⟩
  rw [ht]
  refine ⟨commit_mem_nil rfl, Dev.setLinkState_linkState _ _ (by decide), ?_⟩
  refine (Dev.linkDisabled_congr (Dev.setLinkState_rget_ne _ _ (by grind) (by grind))).trans ?_
  exact World.disableSet_linkDisabled s.world l 0

/-- A write of FH_CTRL or FH_WINDOW. -/
theorem World.writeFh_row {w : World} {a : Nat} {r : RegRow} (v : W64) (hr : regRow a = some r) :
    w.writeFh a v = w.onDev (fun d => { d.setReg a (rowWrite r (rget d.regs a) v) with fhRestart := true }) := by
  unfold World.writeFh
  rw [hr]

theorem writeFh_commit {s : State} {a : Nat} (v : W64) (ha : (regRow a).isSome = true) :
    ∃ t r, .next (commit s (World.writeFh s.world a v)) = (Host.Outcome.next t : Host.Outcome State Fault Refusal) ∧ regRow a = some r ∧
      rget t.dev.regs a = rowWrite r (rget s.dev.regs a) v ∧ t.dev.fhRestart = true ∧ t.mem = s.mem := by
  obtain ⟨r, hr⟩ := Option.isSome_iff_exists.1 ha
  rw [World.writeFh_row v hr]
  exact ⟨_, r, rfl, hr, Dev.setReg_rget_self .., rfl, commit_mem_nil rfl⟩

theorem retrainFull_commit {s : State} {l : Nat} (hl : l < 32) (hs : s.dev.linkState l = 3 ∨ s.dev.linkState l = 4)
    (hr : (s.dev.link l).retraining = false) :
    World.setRetrainFull s.world l = World.retrain s.world l true ∧ (commit s (World.retrain s.world l true)).mem = s.mem ∧
      (World.retrain s.world l true).d.linkState l = 1 ∧ ((World.retrain s.world l true).d.link l).retraining = true ∧
      ((World.retrain s.world l true).d.link l).full = true :=
  ⟨World.setRetrainFull_narrow hs hr, commit_mem_nil rfl, World.retrain_linkState _ hl _, (World.retrain_link ..).1, (World.retrain_link ..).2⟩

/-- Settles O22: each register's action is one operation of the model. -/
theorem registerActionsAct : Obligations.RegisterActionsAct := by
  unfold Obligations.RegisterActionsAct
  refine ⟨fun v s hl => ?_, fun v s hl => ?_, fun v s hl => ?_, fun k s hl => ?_, fun s hl => ?_, fun p s hl hs hr => ?_,
    fun q s hl hs hr => ?_, fun p s hl hs => ?_, fun p s hl => ?_, fun q s hl => ?_, fun p s hl hs hc => ?_, fun q s hl hs hc => ?_⟩
  · refine (runLive_live hl (doMemFarBudgetWrite v)).trans ?_
    have hv : (v.zeroExtend 64).toNat = v.toNat := by
      rw [BitVec.toNat_setWidth, Nat.mod_eq_of_lt (by omega)]
    unfold doMemFarBudgetWrite World.writeFarBudget
    rw [hv]
    rfl
  · obtain ⟨t, r, ht, hrow⟩ := writeFh_commit (s := s) (a := FH_CTRL) (v.zeroExtend 64) (by decide)
    exact ⟨t, r, (runLive_live hl (doFhCtrlWrite v)).trans ht, hrow⟩
  · obtain ⟨t, r, ht, hrow⟩ := writeFh_commit (s := s) (a := FH_WINDOW) (v.zeroExtend 64) (by decide)
    exact ⟨t, r, (runLive_live hl (doFhWindowWrite v)).trans ht, hrow⟩
  · exact runLive_live hl (doFlush k)
  · exact runLive_live hl doWearRecordWrite
  · obtain ⟨he, hm, hst, hre, hfu⟩ := retrainFull_commit (l := p.val) (by omega) hs hr
    exact ⟨_, (runLive_live hl (doRetrainFull p)).trans (congrArg (fun w => Host.Outcome.next (commit s w)) he), hm, hst, hre, hfu,
      World.retrain_holdCause _ p.isLt _⟩
  · obtain ⟨he, hm, hst, hre, hfu⟩ := retrainFull_commit (l := 24 + q.val) (by omega) hs hr
    exact ⟨_, (runLive_live hl (doQuarterRetrainFull q)).trans (congrArg (fun w => Host.Outcome.next (commit s w)) he), hm, hst, hre, hfu⟩
  · have hfull : ¬ (s.dev.linkState p.val = 3 ∨ s.dev.linkState p.val = 4) := by omega
    exact (runLive_live hl (doRetrainFull p)).trans
      (congrArg (fun w => Host.Outcome.next (commit s w)) (World.setRetrainFull_other (w := s.world) hfull))
  · exact ⟨_, runLive_live hl (doPortDisable p true), setDisable_on p.val (by omega)⟩
  · exact ⟨_, runLive_live hl (doQuarterDisable q true), setDisable_on (24 + q.val) (by omega)⟩
  · exact ⟨_, runLive_live hl (doPortDisable p false), setDisable_off p.val (by omega) hs hc⟩
  · exact ⟨_, runLive_live hl (doQuarterDisable q false), setDisable_off (24 + q.val) (by omega) hs hc⟩

end Sys2Proof.Machine
end

section
/-! SUPPORT and PROOFS. The host commands of the towers and of field update. -/

namespace Sys2Proof.Machine

/-! ## What ACCEPTED leaves -/

theorem replied_eq (d : Dev) (h : HostCmd) (op : Nat) (st det : W16) (p : W32) (bl : List Blk) :
    d.replied h op st det p bl = { d with links := (d.replied h op st det p bl).links, out := (d.replied h op st det p bl).out } := by
  have hp := Dev.replyPkt_eq d h op st det p bl
  rwa [replyPkt_replied] at hp

theorem Dev.accepted_towers (d : Dev) (h : HostCmd) (op : Nat) : (d.accepted h op).towers = d.towers :=
  (congrArg Dev.towers (replied_eq d h op stAccepted 0 0 []) :)

theorem Dev.accepted_fw (d : Dev) (h : HostCmd) (op : Nat) : (d.accepted h op).fw = d.fw :=
  (congrArg Dev.fw (replied_eq d h op stAccepted 0 0 []) :)

theorem Dev.accepted_regs (d : Dev) (h : HostCmd) (op : Nat) : (d.accepted h op).regs = d.regs :=
  (congrArg Dev.regs (replied_eq d h op stAccepted 0 0 []) :)

theorem counted_accepted_said (d : Dev) (h : HostCmd) (op : Nat) :
    (d.counted.accepted h op).said = d.said ++ [replyOf d h op stAccepted 0 0 []] := by
  have hs : (d.counted.accepted h op).said = d.counted.said ++ [replyOf d.counted h op stAccepted 0 0 []] := Dev.replied_said ..
  rw [hs, replyOf_congr (counted_fretNum d)]
  rfl

/-! ## BIST_RUN, TOWER_FENCE and TOWER_RESTORE -/

theorem onTower_tower_self (d : Dev) (t : Nat) (f : Tower → Tower) : (d.onTower t f).tower t = f (d.tower t) := tget_tput_self ..
theorem onTower_tower_ne (d : Dev) {t k : Nat} (f : Tower → Tower) (h : k ≠ t) : (d.onTower t f).tower k = d.tower k :=
  tget_tput_ne _ _ _ h

/-- A tower that has entered BIST (R488). -/
def inBist (x : Tower) : Prop := x.bist = true ∧ x.lasting = 0 ∧ x.narrowings = 0

theorem enterTest_inBist {d : Dev} {t : Nat} (k : Nat) (h : inBist (d.tower t)) : inBist ((d.enterTest k).tower t) := by
  unfold Dev.enterTest
  by_cases ht : t = keyTower k
  · subst ht
    rw [onTower_tower_self]
    split <;> exact h
  · rw [onTower_tower_ne _ _ ht]
    exact h

theorem enterTest_tower_ne (d : Dev) {t k : Nat} (h : t ≠ keyTower k) : (d.enterTest k).tower t = d.tower t :=
  onTower_tower_ne _ _ h

theorem keyTower_bundleKey {t cls i : Nat} (hc : cls < 5) (hi : i < 512) : keyTower (bundleKey t cls i) = t := by
  unfold keyTower bundleKey
  omega

theorem bundleCount_le (t cls : Nat) : bundleCount t cls ≤ 512 := by
  unfold bundleCount
  split
  · decide
  · decide
  · decide
  · split <;> decide
  · decide

/-- The tests that BIST_RUN enters for a tower. -/
def Dev.enterTests (d : Dev) (t : Nat) : Dev :=
  (List.range 5).foldl (fun d cls => (List.range (bundleCount t cls)).foldl (fun d i => d.enterTest (bundleKey t cls i)) d) d

/-- What is true of a device and kept by every test entered for tower `t` is kept by all of them. -/
theorem enterTests_keeps {P : Dev → Prop} {t : Nat} (h : ∀ d cls i, cls < 5 → i < 512 → P d → P (d.enterTest (bundleKey t cls i))) {d : Dev}
    (hd : P d) : P (d.enterTests t) := by
  unfold Dev.enterTests
  refine foldl_keeps P _ _ (fun d cls hcls hd => ?_) d hd
  exact foldl_keeps P _ _ (fun d i hi hd => h d cls i (List.mem_range.1 hcls)
    (Nat.lt_of_lt_of_le (List.mem_range.1 hi) (bundleCount_le t cls)) hd) d hd

/-- A tower as BIST_RUN enters it (its set of tests `set`). -/
def Tower.startBist (x : Tower) (t set : Nat) : Tower :=
  { x with
    bist := true, lasting := 0, narrowings := 0
    field := if set ≠ 1 then x.field ++ (fieldPass t).filter (fun k => !x.field.contains k) else x.field }

/-- What BIST_RUN does to one tower. -/
def Dev.startBist (d : Dev) (set t : Nat) : Dev :=
  let e := d.onTower t (fun x => x.startBist t set)
  if set = 2 then e else e.enterTests t

theorem Dev.startBist_keeps {P : Dev → Prop} {d : Dev} (set t : Nat) (hset : P (d.onTower t (fun x => x.startBist t set)))
    (h : ∀ d cls i, cls < 5 → i < 512 → P d → P (d.enterTest (bundleKey t cls i))) : P (d.startBist set t) := by
  unfold Dev.startBist
  dsimp only
  split
  · exact hset
  · exact enterTests_keeps h hset

theorem Dev.startBist_inBist (d : Dev) (set t : Nat) : inBist ((d.startBist set t).tower t) := by
  refine Dev.startBist_keeps (P := fun d => inBist (d.tower t)) set t ?_ fun d cls i _ _ hd => enterTest_inBist _ hd
  rw [onTower_tower_self]
  exact ⟨rfl, rfl, rfl⟩

theorem Dev.startBist_tower_ne (d : Dev) {set t k : Nat} (hk : k ≠ t) : (d.startBist set t).tower k = d.tower k := by
  refine Dev.startBist_keeps (P := fun e => e.tower k = d.tower k) set t (onTower_tower_ne _ _ hk) fun e cls i hc hi he => ?_
  rw [enterTest_tower_ne _ (by rwa [keyTower_bundleKey hc hi]), he]

theorem Dev.startBist_out (d : Dev) (set t : Nat) : (d.startBist set t).out = d.out :=
  Dev.startBist_keeps (P := fun e => e.out = d.out) set t rfl fun _ _ _ _ _ he => he

/-- BIST_RUN on a list of towers: each is entered, every other one is as it was. -/
theorem startBist_fold_tower (set : Nat) (ts : List Nat) (d : Dev) (k : Nat) :
    (k ∈ ts → inBist ((ts.foldl (fun d t => d.startBist set t) d).tower k)) ∧
    (k ∉ ts → (ts.foldl (fun d t => d.startBist set t) d).tower k = d.tower k) := by
  induction ts generalizing d with
  | nil => exact ⟨fun h => absurd h (by simp), fun _ => rfl⟩
  | cons t ts ih =>
    obtain ⟨hin, hout⟩ := ih (d.startBist set t)
    refine ⟨fun hk => ?_, fun hk => ?_⟩
    · by_cases hts : k ∈ ts
      · exact hin hts
      · obtain rfl : k = t := by simpa [hts] using hk
        rw [List.foldl_cons, hout hts]
        exact d.startBist_inBist set k
    · rw [List.mem_cons, not_or] at hk
      rw [List.foldl_cons, hout hk.2, d.startBist_tower_ne hk.1]

theorem startBist_fold_out (set : Nat) (ts : List Nat) (d : Dev) : (ts.foldl (fun d t => d.startBist set t) d).out = d.out :=
  foldl_keeps (fun e : Dev => e.out = d.out) _ _ (fun e t _ he => (e.startBist_out set t).trans he) d rfl

/-- A fold of changes of the device, seen on the device. -/
theorem foldl_onDev {β : Type} (f : β → Dev → Dev) (xs : List β) (w : World) :
    xs.foldl (fun w x => World.onDev w (f x)) w = World.onDev w (fun d => xs.foldl (fun d x => f x d) d) := by
  induction xs generalizing w with
  | nil => rfl
  | cons x xs ih => rw [List.foldl_cons, ih]; rfl

theorem bistBad_none {d : Dev} {h : HostCmd} (h0 : h.p0 ≠ 0) (h0' : h.p0.toNat < 256) (h1 : 1 ≤ h.p1.toNat) (h1' : h.p1.toNat ≤ 3) :
    bistBad d h = none := by
  have hz : h.p1 ≠ 0 := fun he => by rw [he] at h1; exact absurd h1 (by decide)
  unfold bistBad
  split
  · rfl
  · simp_all [firstParam]

theorem fenceBad_none {d : Dev} {h : HostCmd} (h0 : h.p0.toNat < 8) : fenceBad d h = none := by simp [fenceBad, firstParam, h0]

theorem restoreBad_none {d : Dev} {h : HostCmd} (h0 : h.p0.toNat < 8) (hf : d.fenced h.p0.toNat = true) : restoreBad d h = none := by
  simp [restoreBad, firstParam, h0, hf]

theorem taken_cool {s : State} {h : HostCmd} (hot : s.dev.fld FT_HOLD_STATUS 15 14 ≠ 2) : (s.taken h).d.tooHot = false := by
  have hf : (s.taken h).d.fld FT_HOLD_STATUS 15 14 = s.dev.fld FT_HOLD_STATUS 15 14 := taken_fld h 15 14 (by decide)
  simp only [Dev.tooHot, hf]
  simpa using hot

/-- BIST_RUN, its parameters good and no tower of it fenced. -/
theorem bistRun_exec {s : State} {h : HostCmd} (ha : s.admits h (wardenOp 0x601 [2, 3])) (hot : s.dev.fld FT_HOLD_STATUS 15 14 ≠ 2)
    (h0 : h.p0 ≠ 0) (h0' : h.p0.toNat < 256) (h1 : 1 ≤ h.p1.toNat) (h1' : h.p1.toNat ≤ 3)
    (hf : ((List.range 8).filter (bitOf h.p0.toNat)).any s.dev.fenced = false) :
    exec (.bistRun h) s = .next { s with dev :=
      ((List.range 8).filter (bitOf h.p0.toNat)).foldl (fun d t => d.startBist h.p1.toNat t) (s.dev.counted.accepted h 0x601) } := by
  have hbad : bistBad (s.dev.taken h) h = none := bistBad_none h0 h0' h1 h1'
  have hf' : ((List.range 8).filter (bitOf h.p0.toNat)).any (s.taken h).d.fenced = false := by
    rw [show (s.taken h).d.fenced = s.dev.fenced from funext (taken_fenced s.dev h)]
    exact hf
  refine runLive_admitted_dev (f := doBistRun h) ⟨ha.1, ha.2.withBad bistBad⟩ rfl hbad ?_
  dsimp only
  rw [if_neg (by rw [taken_cool hot]; decide), World.onParams_ok (w := s.taken h) hbad, if_neg (by rw [hf']; decide), State.taken_accept]
  exact foldl_onDev (fun t d => d.startBist h.p1.toNat t) _ _

/-- Settles O21: each command is accepted and its work is one change of its towers. -/
theorem towerCommandsRun : Obligations.TowerCommandsRun := by
  unfold Obligations.TowerCommandsRun
  refine ⟨fun h s ha hot h0 h0' h1 h1' hf => ?_, fun h s ha h0 hf => ?_, fun h s ha h0 hf => ?_, fun h s ha h0 hf => ?_⟩
  · have hmem : ∀ k, k ∈ (List.range 8).filter (bitOf h.p0.toNat) ↔ k < 8 ∧ bitOf h.p0.toNat k = true := fun k => by
      rw [List.mem_filter, List.mem_range]
    have hany : ((List.range 8).filter (bitOf h.p0.toNat)).any s.dev.fenced = false := by
      rw [List.any_eq_false]
      exact fun k hk => by rw [hf k ((hmem k).1 hk).1 ((hmem k).1 hk).2]; decide
    refine ⟨_, bistRun_exec ha hot h0 h0' h1 h1' hany, rfl, fun k hk hb => ?_, fun k hb => ?_, ?_⟩
    · exact (startBist_fold_tower _ _ _ k).1 ((hmem k).2 ⟨hk, hb⟩)
    · have hnot : k ∉ (List.range 8).filter (bitOf h.p0.toNat) := fun hm => by
        have := ((hmem k).1 hm).2
        rw [hb] at this
        exact absurd this (by decide)
      refine ((startBist_fold_tower _ _ _ k).2 hnot).trans ?_
      exact congrArg (tget Tower.init · k) (Dev.accepted_towers ..)
    · rw [Dev.said, startBist_fold_out]
      exact counted_accepted_said ..
  · refine (runLive_admitted (f := doTowerFence h) ⟨ha.1, ha.2.withBad fenceBad⟩ rfl (fenceBad_none (d := s.dev.taken h) h0)).trans ?_
    rw [World.onParams_ok (w := s.taken h) (fenceBad_none (d := s.dev.taken h) h0)]
    dsimp only
    rw [if_neg (by rw [taken_fenced, hf]; decide), State.taken_accept]
  · refine runLive_repliedOk (f := doTowerFence h) (e := s.dev.counted) ⟨ha.1, ha.2.withBad fenceBad⟩ rfl (fenceBad_none (d := s.dev.taken h) h0) rfl ?_
    rw [World.onParams_ok (w := s.taken h) (fenceBad_none (d := s.dev.taken h) h0)]
    dsimp only
    rw [if_pos (by rw [taken_fenced, hf])]
    rfl
  · have hbad : restoreBad (s.dev.taken h) h = none := restoreBad_none h0 (by rw [taken_fenced, hf])
    refine runLive_admitted_dev (f := doTowerRestore h) ⟨ha.1, ha.2.withBad restoreBad⟩ rfl hbad ?_
    rw [World.onParams_ok (w := s.taken h) hbad]
    dsimp only
    rw [State.taken_accept]
    rfl

/-! ## Field update (R461 to R464) -/

theorem Dev.wdShared_regsOnly (d : Dev) : d.RegsOnly d.wdShared :=
  foldl_regsOnly (fun d i => (d.setReg_regsOnly (WD (wardenTower i) + 0x20) _).trans (Dev.setReg_regsOnly _ (WD (wardenTower i) + 0x28) _))
    (List.range 2) d

theorem Dev.wdShared_rget (d : Dev) {a : Nat} (ha : ∀ i, i < 2 → a ≠ WD (wardenTower i) + 0x20 ∧ a ≠ WD (wardenTower i) + 0x28) :
    rget d.wdShared.regs a = rget d.regs a := by
  unfold Dev.wdShared
  refine foldl_rget_ne _ (fun d i hi => ?_) d
  obtain ⟨h20, h28⟩ := ha i (List.mem_range.1 hi)
  dsimp only
  rw [Dev.setReg_rget_ne _ _ h28, Dev.setReg_rget_ne _ _ h20]

theorem Dev.wdShared_fretNum (d : Dev) : d.wdShared.fretNum = d.fretNum :=
  Dev.fld_congr (d.wdShared_rget fun i hi => by simp only [FT_FRET_NUM, WD, twBase, wardenTower]; omega) 63 0

/-- A commit that is taken back: the update's state, and no commit fret. -/
theorem Dev.uncommit_fw (d : Dev) (st : Nat) : (d.uncommit st).fw.state = st ∧ (d.uncommit st).fw.commit = 0 := by
  have h : (d.uncommit st).fw = _ := (Dev.wdShared_regsOnly _).fw
  rw [h]
  exact ⟨rfl, rfl⟩

/-- The update is committed at a fret. -/
def Dev.commitFw (d : Dev) (a : Nat) : Dev := ({ d with fw := { d.fw with state := 3, commit := a } }).wdShared

theorem Dev.commitFw_fw (d : Dev) (a : Nat) : (d.commitFw a).fw = { d.fw with state := 3, commit := a } := (Dev.wdShared_regsOnly _).fw
theorem Dev.commitFw_out (d : Dev) (a : Nat) : (d.commitFw a).out = d.out := (Dev.wdShared_regsOnly _).out

theorem Dev.stageBad_none {d : Dev} {h : HostCmd}
    (hs : d.fw.state < 3) (h0 : h.p0.toNat < 512) (hc : bitsOf h.p0.toNat 7 0 ≤ 7)
    (hd : ¬ (bitsOf h.p0.toNat 7 0 = 0 ∧ bitOf h.p0.toNat 8 = true))
    (hm : bitsOf h.p0.toNat 7 0 = 0 ∨ allBlocks (d.stagedOf 0) 8 = true)
    (hl : bitOf h.p0.toNat 8 = true ∨ h.p2.toNat =
      (if bitsOf h.p0.toNat 7 0 = 0 then 8 else (manEntry (d.image d.inactive 0) (bitsOf h.p0.toNat 7 0)).length / 512))
    (hn : h.p1.toNat + h.payload.length ≤ h.p2.toNat) : d.stageBad h = none := by
  have hlen : (if bitOf h.p0.toNat 8 = true then h.p2.toNat else
      if bitsOf h.p0.toNat 7 0 = 0 then 8 else (manEntry (d.image d.inactive 0) (bitsOf h.p0.toNat 7 0)).length / 512) = h.p2.toNat := by
    rcases hl with hl | hl
    · rw [if_pos hl]
    · rw [← hl, ite_self]
  have hblk : ¬ (bitsOf h.p0.toNat 7 0 ≠ 0 ∧ (!allBlocks (d.stagedOf 0) 8) = true) := by
    rintro ⟨hne, hall⟩
    rcases hm with hm | hm
    · exact hne hm
    · rw [hm] at hall; exact absurd hall (by decide)
  have hcomp : ¬ (512 ≤ h.p0.toNat ∨ 7 < bitsOf h.p0.toNat 7 0 ∨ (bitsOf h.p0.toNat 7 0 = 0 ∧ bitOf h.p0.toNat 8 = true)) := by
    rintro (h | h | h)
    · omega
    · omega
    · exact hd h
  unfold Dev.stageBad
  simp only [hlen]
  rw [if_neg (by omega), if_neg hcomp, if_neg hblk]
  simp [firstParam, hn]

theorem World.goFwStage_ok {w : World} {h : HostCmd} (hs : w.d.fw.state < 3) (hb : w.d.stageBad h = none)
    (hm : bitsOf h.p0.toNat 7 0 = 0 ∨ allBlocks (w.d.stagedOf 0) 8 = true) :
    w.goFwStage h = (w.onDev (fun d => d.stage (bitsOf h.p0.toNat 7 0) (bitOf h.p0.toNat 8) h.p1.toNat (payloadBytes h.payload))).answer
      h 0x401 stOk 0 := by
  have hblk : ¬ (bitsOf h.p0.toNat 7 0 ≠ 0 ∧ (!allBlocks (w.d.stagedOf 0) 8) = true) := by
    rintro ⟨hne, hall⟩
    rcases hm with hm | hm
    · exact hne hm
    · rw [hm] at hall; exact absurd hall (by decide)
  unfold World.goFwStage
  rw [if_neg (by omega), World.onParams_ok hb, if_neg hblk]

theorem World.goFwCommitAt_ok {w : World} {h : HostCmd} (hot : w.d.tooHot = false) (hb : commitBad w.d h = none) (hs : w.d.fw.state = 2) :
    w.goFwCommitAt h = (w.accept h 0x403).onDev (fun d => d.commitFw (pair h.p0 h.p1)) := by
  unfold World.goFwCommitAt Dev.commitFw
  dsimp only
  rw [if_neg (by rw [hot]; decide), World.onParams_ok hb, if_neg (by rw [hs]; decide)]

theorem World.goFwAbort_staged {w : World} {h : HostCmd} (hs : w.d.fw.state < 3) :
    w.goFwAbort h = (w.onDev (fun d => { d with fw := { d.fw with state := 0, staged := [], deltas := [] } })).answer h 0x404 stOk 0 := by
  unfold World.goFwAbort
  dsimp only
  rw [if_neg (by omega), if_neg (by omega)]

theorem World.goFwAbort_committed {w : World} {h : HostCmd} (hs : w.d.fw.state = 3) :
    w.goFwAbort h = (w.onDev (fun d => (d.opEnded 0x403 (fun _ => true) stManifestIncomplete 0).uncommit 2)).answer h 0x404 stOk 0 := by
  unfold World.goFwAbort
  dsimp only
  rw [if_neg (by omega), if_pos hs]

theorem commitBad_none {d : Dev} {h : HostCmd} (ha : d.fretNum + 64 < pair h.p0 h.p1) : commitBad d h = none := by
  unfold commitBad
  split
  · rfl
  · simp [firstParam, ha]

/-- Settles O18: each command in the state that takes it is one change of the update's state. -/
theorem firmwareCommandsRun : Obligations.FirmwareCommandsRun := by
  unfold Obligations.FirmwareCommandsRun
  refine ⟨?_, fun h s ha => ?_, fun h s ha hot hfret hst => ?_, fun h s ha hst => ?_, fun h s ha hst => ?_⟩
  · intro h s ha comp delta d len hst h0 hc hd hm hl hn
    have hbad : d.stageBad h = none := Dev.stageBad_none (d := d) hst h0 hc hd hm hl hn
    refine runLive_admitted_dev (f := doFwStage h) ⟨ha.1, ha.2.withBad Dev.stageBad⟩ rfl hbad ?_
    refine (World.goFwStage_ok (w := s.taken h) hst hbad hm).trans ?_
    exact reply_taken (d := s.dev) rfl ha.2.fresh
  · exact runLive_admitted_dev (f := doFwVerify h) ha rfl rfl (State.taken_accept s h 0x402)
  · have hbad : commitBad (s.dev.taken h) h = none := commitBad_none (by rwa [taken_fretNum])
    have hgo := (World.goFwCommitAt_ok (w := s.taken h) (taken_cool hot) hbad hst)
    rw [State.taken_accept] at hgo
    refine ⟨_, runLive_admitted_dev (f := doFwCommitAt h) ⟨ha.1, ha.2.withBad commitBad⟩ rfl hbad hgo, rfl, ?_, ?_⟩
    · refine (Dev.commitFw_fw _ _).trans ?_
      rw [Dev.accepted_fw]
      rfl
    · exact (congrArg (List.filter _) (Dev.commitFw_out _ _)).trans (counted_accepted_said s.dev h 0x403)
  · refine ⟨_, runLive_admitted_eq (f := doFwAbort h) ha rfl rfl (World.goFwAbort_staged (w := s.taken h) hst), rfl, ?_, ?_⟩
    · rw [commit_dev, World.answer_d, Dev.settle_fw, Dev.replyPkt_fw]
      rfl
    · exact World.answer_says (d := s.dev) rfl rfl ..
  · refine ⟨_, runLive_admitted_eq (f := doFwAbort h) ha rfl rfl (World.goFwAbort_committed (w := s.taken h) hst), rfl, ?_⟩
    rw [commit_dev, World.answer_d, Dev.settle_fw, Dev.replyPkt_fw]
    exact Dev.uncommit_fw _ 2

end Sys2Proof.Machine
end

section
/-! SUPPORT and PROOFS. FAR_MAP and the commands of the hedge. -/

namespace Sys2Proof.Machine

/-! ## FAR_MAP (R446) -/

theorem farMapBad_none {d : Dev} {h : HostCmd} (h0 : 1 ≤ h.p0.toNat) (h0' : h.p0.toNat ≤ 4096) (h1 : h.p1.toNat ≤ 0xFFF6F) :
    farMapBad d h = none := by
  have hz : h.p0 ≠ 0 := fun he => by rw [he] at h0; exact absurd h0 (by decide)
  have hz' : ¬ h.p0 = 0#32 := hz
  have h1' : h.p1.toNat ≤ 1048431 := h1
  simp [farMapBad, firstParam, hz', h0', h1']

/-- HL_FAR_MAP takes a capacity and a bandwidth. -/
def Dev.mapFar (d : Dev) (g b : Nat) : Dev := (d.setFld HL_FAR_MAP 12 0 g).setFld HL_FAR_MAP 51 32 b

theorem Dev.mapFar_rget_ne (d : Dev) (g b : Nat) {a : Nat} (ha : a ≠ HL_FAR_MAP) : rget (d.mapFar g b).regs a = rget d.regs a := by
  rw [Dev.mapFar, Dev.setFld_rget_ne _ _ _ _ ha, Dev.setFld_rget_ne _ _ _ _ ha]

theorem Dev.mapFar_capacity (d : Dev) {g : Nat} (b : Nat) (hg : g ≤ 4096) : (d.mapFar g b).fld HL_FAR_MAP 12 0 = g := by
  rw [Dev.mapFar, Dev.setFld_fld_beside _ _ _ (by decide) (by decide) (by decide), Dev.setFld_fld_self _ _ _ (by decide) (by decide)]
  exact Nat.mod_eq_of_lt (by omega)

theorem Dev.mapFar_bandwidth (d : Dev) (g : Nat) {b : Nat} (hb : b ≤ 0xFFF6F) : (d.mapFar g b).fld HL_FAR_MAP 51 32 = b := by
  rw [Dev.mapFar, Dev.setFld_fld_self _ _ _ (by decide) (by decide)]
  exact Nat.mod_eq_of_lt (by omega)

/-- The work of FAR_MAP once its parameters are good. -/
def World.goFarMap (w : World) (h : HostCmd) : World :=
  if h.p0.toNat < w.d.fld HL_FAR_MAP 12 0 ∧ w.d.ctxs.any (fun e => e.2.active) then w.answer h 0x205 stContextState (paramAt 0)
  else
    let w := w.onDev (fun d => d.mapFar h.p0.toNat h.p1.toNat)
    let w := if w.d.fld MEM_FAR_BUDGET 19 0 < h.p1.toNat + 144 then w.writeFarBudget (BitVec.ofNat 64 (h.p1.toNat + 144)) else w
    w.answer h 0x205 stOk 0

theorem farMap_exec {s : State} {h : HostCmd} (ha : s.admits h (plainOp 0x205 [2, 3])) (h0 : 1 ≤ h.p0.toNat) (h0' : h.p0.toNat ≤ 4096)
    (h1 : h.p1.toNat ≤ 0xFFF6F) : exec (.farMap h) s = .next (commit s (World.goFarMap (s.taken h) h)) := by
  have hbad : farMapBad (s.dev.taken h) h = none := farMapBad_none h0 h0' h1
  refine (runLive_admitted (f := doFarMap h) ⟨ha.1, ha.2.withBad farMapBad⟩ rfl hbad).trans ?_
  rw [World.onParams_ok (w := s.taken h) hbad]
  rfl

theorem taken_farMap (d : Dev) (h : HostCmd) (hi lo : Nat) : (d.taken h).fld HL_FAR_MAP hi lo = d.fld HL_FAR_MAP hi lo :=
  taken_fld h hi lo (by decide)

/-- What FAR_MAP needs to map: the capacity does not shrink, or no context runs. -/
theorem farMap_fits {d : Dev} {g : Nat} (hf : d.fld HL_FAR_MAP 12 0 ≤ g ∨ ∀ e ∈ d.ctxs, e.2.active = false) :
    ¬ (g < d.fld HL_FAR_MAP 12 0 ∧ d.ctxs.any (fun e => e.2.active) = true) := by
  rintro ⟨hlt, hany⟩
  rcases hf with hf | hf
  · omega
  · rw [noneActive hf] at hany
    exact absurd hany (by decide)

theorem farMap_notFits {d : Dev} {g : Nat} (hf : ¬ (d.fld HL_FAR_MAP 12 0 ≤ g ∨ ∀ e ∈ d.ctxs, e.2.active = false)) :
    g < d.fld HL_FAR_MAP 12 0 ∧ d.ctxs.any (fun e => e.2.active) = true := by
  rw [not_or] at hf
  refine ⟨by omega, ?_⟩
  refine Classical.byContradiction fun hany => ?_
  exact hf.2 (by simpa using hany)

theorem mapFar_budget (d : Dev) (h : HostCmd) (g b : Nat) :
    ((d.taken h).mapFar g b).fld MEM_FAR_BUDGET 19 0 = d.fld MEM_FAR_BUDGET 19 0 :=
  (Dev.fld_congr (Dev.mapFar_rget_ne _ _ _ (by decide)) 19 0).trans (taken_fld h 19 0 (by decide))

theorem World.goFarMap_refused {w : World} {h : HostCmd}
    (hf : h.p0.toNat < w.d.fld HL_FAR_MAP 12 0 ∧ w.d.ctxs.any (fun e => e.2.active) = true) :
    w.goFarMap h = w.answer h 0x205 stContextState (paramAt 0) := if_pos hf

theorem World.goFarMap_covered {w : World} {h : HostCmd}
    (hf : ¬ (h.p0.toNat < w.d.fld HL_FAR_MAP 12 0 ∧ w.d.ctxs.any (fun e => e.2.active) = true))
    (hb : h.p1.toNat + 144 ≤ (w.d.mapFar h.p0.toNat h.p1.toNat).fld MEM_FAR_BUDGET 19 0) :
    w.goFarMap h = (w.onDev (fun d => d.mapFar h.p0.toNat h.p1.toNat)).answer h 0x205 stOk 0 := by
  unfold World.goFarMap
  rw [if_neg hf]
  exact congrArg (fun w => World.answer w h 0x205 stOk 0) (if_neg (by rw [World.onDev_d]; omega))

theorem World.goFarMap_widened {w : World} {h : HostCmd}
    (hf : ¬ (h.p0.toNat < w.d.fld HL_FAR_MAP 12 0 ∧ w.d.ctxs.any (fun e => e.2.active) = true))
    (hb : (w.d.mapFar h.p0.toNat h.p1.toNat).fld MEM_FAR_BUDGET 19 0 < h.p1.toNat + 144) (h1 : h.p1.toNat ≤ 0xFFF6F) :
    w.goFarMap h = World.answer (World.revalidate ((w.onDev (fun d => d.mapFar h.p0.toNat h.p1.toNat)).setFld MEM_FAR_BUDGET 19 0
      (h.p1.toNat + 144)) stPlanOverrun) h 0x205 stOk 0 := by
  have hv : (BitVec.ofNat 64 (h.p1.toNat + 144)).toNat % 2 ^ 20 = h.p1.toNat + 144 := by
    rw [BitVec.toNat_ofNat]
    omega
  unfold World.goFarMap
  rw [if_neg hf]
  refine congrArg (fun w => World.answer w h 0x205 stOk 0) ((if_pos hb).trans ?_)
  rw [World.writeFarBudget, hv]

/-! ## HEDGE_JOIN and HEDGE_LEAVE -/

theorem Dev.setFt_fld (d : Dev) (f : Ft → Ft) (a hi lo : Nat) : (d.setFt f).fld a hi lo = d.fld a hi lo := rfl

theorem Dev.join_hl (d : Dev) (size rank leader succ dia : Nat) : (d.join size rank leader succ dia).hl = d.hl := rfl
theorem Dev.join_out (d : Dev) (size rank leader succ dia : Nat) : (d.join size rank leader succ dia).out = d.out := rfl

/-- The word of FT_LEADER that a join writes. -/
def leaderWord (rank leader succ : Nat) : Nat :=
  ((if rank = leader then 1 else if rank = succ then 2 else 0) <<< 48) + ((if succ = 0xFFFF then 0x7FF else succ) <<< 32) +
    (leader <<< 16) + rank

theorem Dev.join_rget_leader (d : Dev) (size rank leader succ dia : Nat) :
    rget (d.join size rank leader succ dia).regs FT_LEADER = BitVec.ofNat 64 (leaderWord rank leader succ) := by
  unfold Dev.join
  simp only [Dev.setFt_regs]
  rw [Dev.setFld_rget_ne _ _ _ _ (by decide), Dev.setFld_rget_ne _ _ _ _ (by decide), Dev.setReg_rget_ne _ _ (by decide),
    Dev.setReg_rget_ne _ _ (by decide), Dev.setReg_rget_ne _ _ (by decide), Dev.setReg_rget_self]
  rfl

theorem Dev.join_rget_diameter (d : Dev) (size rank leader succ dia : Nat) :
    rget (d.join size rank leader succ dia).regs FT_DIAMETER = BitVec.ofNat 64 ((settleMin dia <<< 16) + dia) := by
  unfold Dev.join
  simp only [Dev.setFt_regs]
  rw [Dev.setFld_rget_ne _ _ _ _ (by decide), Dev.setFld_rget_ne _ _ _ _ (by decide), Dev.setReg_rget_ne _ _ (by decide),
    Dev.setReg_rget_ne _ _ (by decide), Dev.setReg_rget_self]

theorem Dev.join_rget_pos (d : Dev) (size rank leader succ dia : Nat) :
    rget (d.join size rank leader succ dia).regs FT_POS = 0 ∧ rget (d.join size rank leader succ dia).regs FT_HOLD_FRETS = 0 := by
  unfold Dev.join
  simp only [Dev.setFt_regs]
  constructor
  · rw [Dev.setFld_rget_ne _ _ _ _ (by decide), Dev.setFld_rget_ne _ _ _ _ (by decide), Dev.setReg_rget_ne _ _ (by decide),
      Dev.setReg_rget_self]
  · rw [Dev.setFld_rget_ne _ _ _ _ (by decide), Dev.setFld_rget_ne _ _ _ _ (by decide), Dev.setReg_rget_self]

theorem Dev.join_holdStatus (d : Dev) (size rank leader succ dia : Nat) :
    (d.join size rank leader succ dia).fld FT_HOLD_STATUS 18 18 = 0 ∧ (d.join size rank leader succ dia).fld FT_HOLD_STATUS 19 19 = 0 := by
  unfold Dev.join
  simp only [Dev.setFt_fld]
  constructor
  · rw [Dev.setFld_fld_beside _ _ _ (by decide) (by decide) (by decide), Dev.setFld_fld_fits _ _ _ (by decide) (by decide) (by decide)]
  · exact Dev.setFld_fld_fits _ _ _ (by decide) (by decide) (by decide)

/-- The fields of the FT_LEADER word. -/
theorem leaderWord_fields {rank leader succ : Nat} (hr : rank < 1024) (hl : leader < 1024) (hs : succ = 0xFFFF ∨ succ < 1024) :
    let v := BitVec.ofNat 64 (leaderWord rank leader succ)
    fieldOf v 9 0 = rank ∧ fieldOf v 25 16 = leader ∧ fieldOf v 42 32 = (if succ = 0xFFFF then 0x7FF else succ) ∧
      fieldOf v 49 48 = (if rank = leader then 1 else if rank = succ then 2 else 0) ∧ fieldOf v 63 56 = 0 := by
  have hrole : (if rank = leader then 1 else if rank = succ then 2 else 0) < 3 := by
    split
    · decide
    · split <;> decide
  have hsucc : (if succ = 0xFFFF then 0x7FF else succ) < 2048 := by split <;> omega
  generalize hx : (if rank = leader then 1 else if rank = succ then 2 else 0) = role at hrole
  generalize hy : (if succ = 0xFFFF then 0x7FF else succ) = next at hsucc
  simp only [leaderWord, hx, hy, fieldOf, bitsOf, BitVec.toNat_ofNat, Nat.shiftRight_eq_div_pow, Nat.shiftLeft_eq]
  omega

theorem settleMin_fields {dia : Nat} (hd : dia ≤ 16) :
    let v := BitVec.ofNat 64 ((settleMin dia <<< 16) + dia)
    fieldOf v 10 0 = dia ∧ fieldOf v 31 16 = settleMin dia := by
  have hs : settleMin dia < 65536 := by
    unfold settleMin ceilDiv
    omega
  generalize settleMin dia = m at hs
  simp only [fieldOf, bitsOf, BitVec.toNat_ofNat, Nat.shiftRight_eq_div_pow, Nat.shiftLeft_eq]
  omega

/-- The work of HEDGE_JOIN. -/
def World.goHedgeJoin (w : World) (h : HostCmd) : World :=
  let img := w.d.hedge.route
  let dia := diameter img
  let clk := w.d.board.clkMode
  if h.p0.toNat = 0 ∨ 1024 < h.p0.toNat ∨ clk = 3 ∨ (clk = 0 ∧ 1 < h.p0.toNat) ∨
      (img.isEmpty ∧ 1 < h.p0.toNat) ∨ (!img.isEmpty ∧ routeN img ≠ h.p0.toNat) then w.badParam h 0x301 0
  else if h.p0.toNat ≤ h.p1.toNat then w.badParam h 0x301 1
  else if h.p0.toNat ≤ h.p2.toNat then w.badParam h 0x301 2
  else if h.p3.toNat ≠ 0xFFFF ∧ (h.p0.toNat ≤ h.p3.toNat ∨ h.p3.toNat = h.p2.toNat) then w.badParam h 0x301 3
  else match w.d.wrongPort img h.p1.toNat with
    | some l => w.answer h 0x301 stBadParam (BitVec.ofNat 16 l)
    | none =>
      if 16 < dia ∨ w.d.settleLen < settleMin dia then w.badParam h 0x301 0
      else (w.accept h 0x301).onDev (fun d => d.join h.p0.toNat h.p1.toNat h.p2.toNat h.p3.toNat dia)

theorem World.goHedgeJoin_ok {w : World} {h : HostCmd} (h0 : 1 ≤ h.p0.toNat) (h0' : h.p0.toNat ≤ 1024) (h1 : h.p1.toNat < h.p0.toNat)
    (h2 : h.p2.toNat < h.p0.toNat) (h3 : h.p3.toNat = 0xFFFF ∨ (h.p3.toNat < h.p0.toNat ∧ h.p3.toNat ≠ h.p2.toNat))
    (hc : w.d.board.clkMode ≠ 3) (hc0 : w.d.board.clkMode ≠ 0 ∨ h.p0.toNat = 1)
    (hi : w.d.hedge.route = [] ∧ h.p0.toNat = 1 ∨ w.d.hedge.route ≠ [] ∧ routeN w.d.hedge.route = h.p0.toNat)
    (hw : w.d.wrongPort w.d.hedge.route h.p1.toNat = none) (hd : diameter w.d.hedge.route ≤ 16)
    (hs : settleMin (diameter w.d.hedge.route) ≤ w.d.settleLen) :
    w.goHedgeJoin h = (w.accept h 0x301).onDev
      (fun d => d.join h.p0.toNat h.p1.toNat h.p2.toNat h.p3.toNat (diameter w.d.hedge.route)) := by
  have himg : ¬ ((w.d.hedge.route.isEmpty = true ∧ 1 < h.p0.toNat) ∨
      ((!w.d.hedge.route.isEmpty) = true ∧ routeN w.d.hedge.route ≠ h.p0.toNat)) := by
    rcases hi with ⟨he, h1⟩ | ⟨hne, hn⟩
    · simp [he, h1]
    · simp [hne, hn]
  unfold World.goHedgeJoin
  dsimp only
  have hsize : ¬ (h.p0.toNat = 0 ∨ 1024 < h.p0.toNat ∨ w.d.board.clkMode = 3 ∨ (w.d.board.clkMode = 0 ∧ 1 < h.p0.toNat) ∨
      (w.d.hedge.route.isEmpty = true ∧ 1 < h.p0.toNat) ∨ ((!w.d.hedge.route.isEmpty) = true ∧ routeN w.d.hedge.route ≠ h.p0.toNat)) := by
    rintro (hx | hx | hx | hx | hx)
    · omega
    · omega
    · exact hc hx
    · exact hc0.elim (fun hn => hn hx.1) (fun he => by omega)
    · exact himg hx
  rw [if_neg hsize, if_neg (by omega), if_neg (by omega),
    if_neg (by omega), hw]
  exact if_neg (by omega)

theorem taken_settleLen (d : Dev) (h : HostCmd) : (d.taken h).settleLen = d.settleLen := taken_fld h _ _ (by decide)

theorem Dev.accepted_hedge (d : Dev) (h : HostCmd) (op : Nat) : (d.accepted h op).hedge = d.hedge :=
  (congrArg Dev.hedge (replied_eq d h op stAccepted 0 0 []) :)
theorem Dev.accepted_ft (d : Dev) (h : HostCmd) (op : Nat) : (d.accepted h op).ft = d.ft :=
  (congrArg Dev.ft (replied_eq d h op stAccepted 0 0 []) :)

theorem Dev.join_hedge (d : Dev) (size rank leader succ dia : Nat) :
    (d.join size rank leader succ dia).hedge = { d.hedge with joined := true, size := size, rank := rank } := rfl
theorem Dev.join_ft (d : Dev) (size rank leader succ dia : Nat) :
    (d.join size rank leader succ dia).ft =
      { d.ft with adopt := decide (rank ≠ leader), aligned := 0, leaderHold := false, markerSeen := false } := rfl

theorem hedgeJoin_exec {s : State} {h : HostCmd} (ha : s.admits h (wardenOp 0x301 [])) (h0 : 1 ≤ h.p0.toNat) (h0' : h.p0.toNat ≤ 1024)
    (h1 : h.p1.toNat < h.p0.toNat) (h2 : h.p2.toNat < h.p0.toNat)
    (h3 : h.p3.toNat = 0xFFFF ∨ (h.p3.toNat < h.p0.toNat ∧ h.p3.toNat ≠ h.p2.toNat)) (hc : s.dev.board.clkMode ≠ 3)
    (hc0 : s.dev.board.clkMode ≠ 0 ∨ h.p0.toNat = 1)
    (hi : s.dev.hedge.route = [] ∧ h.p0.toNat = 1 ∨ s.dev.hedge.route ≠ [] ∧ routeN s.dev.hedge.route = h.p0.toNat)
    (hw : (s.dev.taken h).wrongPort s.dev.hedge.route h.p1.toNat = none) (hd : diameter s.dev.hedge.route ≤ 16)
    (hs : settleMin (diameter s.dev.hedge.route) ≤ s.dev.settleLen) :
    exec (.hedgeJoin h) s = .next { s with dev :=
      (s.dev.counted.accepted h 0x301).join h.p0.toNat h.p1.toNat h.p2.toNat h.p3.toNat (diameter s.dev.hedge.route) } := by
  refine runLive_admitted_dev (f := doHedgeJoin h) (k := fun w => World.goHedgeJoin w h) ha rfl rfl ?_
  rw [World.goHedgeJoin_ok (w := s.taken h) h0 h0' h1 h2 h3 hc hc0 hi hw hd ((taken_settleLen s.dev h).symm ▸ hs), State.taken_accept]
  rfl

/-- A device that leaves its hedge stands alone. -/
def Dev.leaveHedge (d : Dev) : Dev :=
  let d := { d with hedge := { d.hedge with joined := false, size := 1, rank := 0 } }
  let d := (d.setReg FT_LEADER (resetWord FT_LEADER)).setReg FT_DIAMETER (resetWord FT_DIAMETER)
  let d := (d.setFld FT_HOLD_STATUS 18 18 0).setFld FT_HOLD_STATUS 19 19 0
  d.setFt (fun f => { f with adopt := false, aligned := 0, leaderHold := false })

theorem Dev.leaveHedge_only (d : Dev) : d.leaveHedge = { d with
    hedge := { d.hedge with joined := false, size := 1, rank := 0 }
    ft := { d.ft with adopt := false, aligned := 0, leaderHold := false }
    regs := d.leaveHedge.regs } := rfl

theorem Dev.leaveHedge_leader (d : Dev) : rget d.leaveHedge.regs FT_LEADER = resetWord FT_LEADER ∧
    rget d.leaveHedge.regs FT_DIAMETER = resetWord FT_DIAMETER := by
  unfold Dev.leaveHedge
  simp only [Dev.setFt_regs]
  constructor
  · rw [Dev.setFld_rget_ne _ _ _ _ (by decide), Dev.setFld_rget_ne _ _ _ _ (by decide), Dev.setReg_rget_ne _ _ (by decide),
      Dev.setReg_rget_self]
  · rw [Dev.setFld_rget_ne _ _ _ _ (by decide), Dev.setFld_rget_ne _ _ _ _ (by decide), Dev.setReg_rget_self]

theorem Dev.leaveHedge_holdStatus (d : Dev) :
    d.leaveHedge.fld FT_HOLD_STATUS 18 18 = 0 ∧ d.leaveHedge.fld FT_HOLD_STATUS 19 19 = 0 := by
  unfold Dev.leaveHedge
  simp only [Dev.setFt_fld]
  constructor
  · rw [Dev.setFld_fld_beside _ _ _ (by decide) (by decide) (by decide), Dev.setFld_fld_fits _ _ _ (by decide) (by decide) (by decide)]
  · exact Dev.setFld_fld_fits _ _ _ (by decide) (by decide) (by decide)

theorem Dev.leaveHedge_rget_ne (d : Dev) {b : Nat} (hl : b ≠ FT_LEADER) (hd : b ≠ FT_DIAMETER) (hs : b ≠ FT_HOLD_STATUS) :
    rget d.leaveHedge.regs b = rget d.regs b := by
  unfold Dev.leaveHedge
  simp only [Dev.setFt_regs]
  rw [Dev.setFld_rget_ne _ _ _ _ hs, Dev.setFld_rget_ne _ _ _ _ hs, Dev.setReg_rget_ne _ _ hd, Dev.setReg_rget_ne _ _ hl]

/-- Settles O16: what FAR_MAP writes, what a join writes and what a leave writes, each read back from its register. -/
theorem farMapHedgeJoinAndLeave : Obligations.FarMapHedgeJoinAndLeave := by
  unfold Obligations.FarMapHedgeJoinAndLeave
  refine ⟨?_, ?_, fun h s ha => ?_⟩
  · intro h s ha h0 h0' h1 d fits
    have hcond : ∀ hi lo, (s.taken h).d.fld HL_FAR_MAP hi lo = s.dev.fld HL_FAR_MAP hi lo := taken_farMap s.dev h
    refine ⟨⟨Dev.mapFar_capacity _ _ h0', Dev.mapFar_bandwidth _ _ h1, fun b hb => Dev.mapFar_rget_ne _ _ _ hb⟩, fun hf hb => ?_,
      fun hf hb => ⟨?_, ?_⟩, fun hf => ?_⟩
    · rw [farMap_exec ha h0 h0' h1, World.goFarMap_covered (w := s.taken h) (by rw [hcond]; exact farMap_fits (d := s.dev) hf)
        (by rw [mapFar_budget s.dev h]; exact hb)]
      exact congrArg (fun w => Host.Outcome.next (commit s w)) (reply_worked (d := s.dev) (e := d) rfl rfl ha.2.fresh)
    · rw [Dev.setFld_fld_self _ _ _ (by decide) (by decide)]
      exact Nat.mod_eq_of_lt (by omega)
    · rw [farMap_exec ha h0 h0' h1, World.goFarMap_widened (w := s.taken h) (by rw [hcond]; exact farMap_fits (d := s.dev) hf)
        (by rw [mapFar_budget s.dev h]; exact hb) h1]
      rfl
    · rw [farMap_exec ha h0 h0' h1, World.goFarMap_refused (w := s.taken h) (by rw [hcond]; exact farMap_notFits (d := s.dev) hf)]
      exact congrArg (fun w => Host.Outcome.next (commit s w)) (answer_taken (w := s.taken h) (d := s.dev) rfl ha.2.fresh)
  · intro h s ha size rank img dia h0 h0' h1 h2 h3 hc hc0 hi hw hd hs
    have hrank : rank < 1024 := by omega
    have hlead : h.p2.toNat < 1024 := by omega
    have hsucc : h.p3.toNat = 0xFFFF ∨ h.p3.toNat < 1024 := by omega
    obtain ⟨hrk, hle, hsu, hro, hep⟩ := leaderWord_fields hrank hlead hsucc
    obtain ⟨hdi, hse⟩ := settleMin_fields hd
    refine ⟨_, hedgeJoin_exec ha h0 h0' h1 h2 h3 hc hc0 hi hw hd hs, rfl, ?_, ?_, ?_, ?_, ?_, ?_, ?_, ?_, ?_, ?_, ?_, ?_, ?_, rfl, rfl, ?_⟩
    · rw [Dev.join_hedge, Dev.accepted_hedge]
      rfl
    · rw [Dev.fld, rfld, Dev.join_rget_leader]
      exact hrk
    · rw [Dev.fld, rfld, Dev.join_rget_leader]
      exact hle
    · rw [Dev.fld, rfld, Dev.join_rget_leader]
      exact hsu
    · rw [Dev.fld, rfld, Dev.join_rget_leader]
      exact hro
    · rw [Dev.fld, rfld, Dev.join_rget_leader]
      exact hep
    · rw [Dev.fld, rfld, Dev.join_rget_diameter]
      exact hdi
    · rw [Dev.fld, rfld, Dev.join_rget_diameter]
      exact hse
    · exact (Dev.join_rget_pos ..).1
    · exact (Dev.join_rget_pos ..).2
    · exact (Dev.join_holdStatus ..).1
    · exact (Dev.join_holdStatus ..).2
    · rw [Dev.join_ft, Dev.accepted_ft]
      rfl
    · exact (congrArg (List.filter _) (Dev.join_out ..)).trans (counted_accepted_said s.dev h 0x301)
  · have hexec : exec (.hedgeLeave h) s = .next (commit s (World.answer (World.onDev (s.taken h) Dev.leaveHedge) h 0x302 stOk 0)) :=
      runLive_admitted (f := doHedgeLeave h) ha rfl rfl
    have hregs : ∀ a, rget (commit s (World.answer (World.onDev (s.taken h) Dev.leaveHedge) h 0x302 stOk 0)).dev.regs a =
        rget (s.dev.taken h).leaveHedge.regs a := fun a => by
      rw [commit_dev, World.answer_d, Dev.settle_regs, Dev.replyPkt_regs, World.onDev_d]
    have hrest : ((s.dev.taken h).leaveHedge).hedge = { s.dev.hedge with joined := false, size := 1, rank := 0 } ∧
        ((s.dev.taken h).leaveHedge).ft = { s.dev.ft with adopt := false, aligned := 0, leaderHold := false } := ⟨rfl, rfl⟩
    refine ⟨_, hexec, rfl, ?_, ?_, ?_, ?_, ?_, fun b hl hd hs => ?_, ?_, ?_, ?_, ?_, ?_⟩
    · rw [commit_dev, World.answer_d, Dev.settle_hedge, Dev.replyPkt_hedge, World.onDev_d]
      exact hrest.1
    · rw [hregs, (Dev.leaveHedge_leader _).1]
    · rw [hregs, (Dev.leaveHedge_leader _).2]
    · exact (Dev.fld_congr (hregs _) 18 18).trans (Dev.leaveHedge_holdStatus _).1
    · exact (Dev.fld_congr (hregs _) 19 19).trans (Dev.leaveHedge_holdStatus _).2
    · rw [hregs, Dev.leaveHedge_rget_ne _ hl hd hs]
      rfl
    · rw [commit_dev, World.answer_d, Dev.settle_ft, Dev.replyPkt_ft, World.onDev_d]
      exact hrest.2
    · rw [commit_dev, World.answer_d, Dev.settle_ctxs, Dev.replyPkt_ctxs, World.onDev_d]
      rfl
    · rw [commit_dev, World.answer_d, Dev.settle_courses, Dev.replyPkt_courses, World.onDev_d]
      rfl
    · exact World.answer_hl (w := World.onDev (s.taken h) Dev.leaveHedge) (d := s.dev) rfl ha.2.fresh ..
    · exact World.reply_says_of_fretNum (w := World.onDev (s.taken h) Dev.leaveHedge) (d := s.dev)
        ((Dev.fld_congr (Dev.leaveHedge_rget_ne _ (by decide) (by decide) (by decide)) 63 0).trans (taken_fretNum s.dev h)) rfl ..

end Sys2Proof.Machine
end

section
/-! SUPPORT and PROOFS. What is taken out of the courses with a context, and the commands of the services. -/

namespace Sys2Proof.Machine

/-! ## Changes inside the courses -/

/-- `e` differs from `d` in the courses and their registers alone. -/
structure Dev.CoursesOnly (d e : Dev) : Prop where
  only : e = { d with regs := e.regs, courses := e.courses }
  regs : ∀ a, a < 0x10000000 → rget e.regs a = rget d.regs a

theorem Dev.CoursesOnly.refl (d : Dev) : d.CoursesOnly d := ⟨rfl, fun _ _ => rfl⟩

theorem Dev.CoursesOnly.trans {d e f : Dev} (h : d.CoursesOnly e) (k : e.CoursesOnly f) : d.CoursesOnly f where
  only := by rw [k.only, h.only]
  regs a ha := (k.regs a ha).trans (h.regs a ha)

theorem Dev.CoursesOnly.ctxs {d e : Dev} (h : d.CoursesOnly e) : e.ctxs = d.ctxs := (congrArg Dev.ctxs h.only :)
theorem Dev.CoursesOnly.svcs {d e : Dev} (h : d.CoursesOnly e) : e.svcs = d.svcs := (congrArg Dev.svcs h.only :)
theorem Dev.CoursesOnly.out {d e : Dev} (h : d.CoursesOnly e) : e.out = d.out := (congrArg Dev.out h.only :)
theorem Dev.CoursesOnly.hl {d e : Dev} (h : d.CoursesOnly e) : e.hl = d.hl := (congrArg Dev.hl h.only :)
theorem Dev.CoursesOnly.fld {d e : Dev} (h : d.CoursesOnly e) {a : Nat} (ha : a < 0x10000000) (hi lo : Nat) :
    e.fld a hi lo = d.fld a hi lo := Dev.fld_congr (h.regs a ha) hi lo
theorem Dev.CoursesOnly.fretNum {d e : Dev} (h : d.CoursesOnly e) : e.fretNum = d.fretNum := h.fld (by decide) 63 0

theorem Dev.setReg_coursesOnly (d : Dev) {a : Nat} (v : W64) (ha : 0x10000000 ≤ a) : d.CoursesOnly (d.setReg a v) :=
  ⟨rfl, fun _ hb => d.setReg_rget_ne v (by omega)⟩
theorem Dev.setFld_coursesOnly (d : Dev) {a : Nat} (hi lo x : Nat) (ha : 0x10000000 ≤ a) : d.CoursesOnly (d.setFld a hi lo x) :=
  ⟨rfl, fun _ hb => d.setFld_rget_ne hi lo x (by omega)⟩
theorem Dev.onCourse_coursesOnly (d : Dev) (c : Nat) (f : Course → Course) : d.CoursesOnly (d.onCourse c f) := ⟨rfl, fun _ _ => rfl⟩

theorem foldl_coursesOnly {β : Type} {f : Dev → β → Dev} (h : ∀ (d : Dev) b, d.CoursesOnly (f d b)) (xs : List β) (d : Dev) :
    d.CoursesOnly (xs.foldl f d) :=
  foldl_keeps (Dev.CoursesOnly d ·) f xs (fun a b _ ha => ha.trans (h a b)) d (.refl d)

theorem ccBase_le (c : Nat) : 0x10000000 ≤ ccBase c := Nat.le_add_right ..

theorem Dev.dropLines_coursesOnly (d : Dev) (c i : Nat) : d.CoursesOnly (d.dropLines c i) := by
  unfold Dev.dropLines
  split
  · exact (d.setFld_coursesOnly 0 0 0 (ccBase_le c)).trans (Dev.onCourse_coursesOnly ..)
  · split
    · exact d.onCourse_coursesOnly ..
    · exact .refl d

/-- The scalar registers of a set are taken out of the table. -/
def Dev.dropSregs (d : Dev) (c n : Nat) : Dev :=
  { d with regs := d.regs.filter (fun e => decide (e.1 < CC_SREG c n 0) || decide (CC_SREG c n 0 + 0x100 ≤ e.1)) }

theorem Dev.dropSregs_coursesOnly (d : Dev) (c n : Nat) : d.CoursesOnly (d.dropSregs c n) where
  only := rfl
  regs a ha := by
    refine (rget_filter (fun k => decide (k < CC_SREG c n 0) || decide (CC_SREG c n 0 + 0x100 ≤ k)) d.regs a).trans (if_pos ?_)
    have hlo : a < CC_SREG c n 0 := by
      have := ccBase_le c
      unfold CC_SREG
      omega
    simp [hlo]

theorem Dev.clearSet_coursesOnly (d : Dev) (c n : Nat) : d.CoursesOnly (d.clearSet c n) := by
  have hc := ccBase_le c
  have hset : 0x10000000 ≤ CC_SET c n := by unfold CC_SET; omega
  have hpos : 0x10000000 ≤ CC_POS c n := by unfold CC_POS; omega
  have hregs : d.CoursesOnly (((d.dropSregs c n).setReg (CC_SET c n) 0).setReg (CC_POS c n) 0) :=
    ((d.dropSregs_coursesOnly c n).trans (Dev.setReg_coursesOnly _ 0 hset)).trans (Dev.setReg_coursesOnly _ 0 hpos)
  unfold Dev.clearSet
  exact hregs.trans (Dev.onCourse_coursesOnly _ c _)

theorem Dev.closeAccum_coursesOnly (d : Dev) (c g : Nat) : d.CoursesOnly (d.closeAccum c g) := by
  have hc : 0x10000000 ≤ AB c := Nat.le_trans (ccBase_le c) (Nat.le_add_right ..)
  unfold Dev.closeAccum
  refine Dev.CoursesOnly.trans ?_ (Dev.onCourse_coursesOnly ..)
  refine Dev.CoursesOnly.trans ?_ (Dev.setFld_coursesOnly _ _ _ _ hc)
  refine Dev.CoursesOnly.trans ?_ (Dev.setFld_coursesOnly _ _ _ _ hc)
  refine Dev.CoursesOnly.trans ?_ (Dev.setReg_coursesOnly _ _ (by omega))
  refine Dev.CoursesOnly.trans ?_ (Dev.setFld_coursesOnly _ _ _ _ (by omega))
  refine Dev.CoursesOnly.trans ?_ (Dev.setFld_coursesOnly _ _ _ _ (by omega))
  exact Dev.setFld_coursesOnly _ _ _ _ (by omega)

theorem Dev.dropGroups_coursesOnly (d : Dev) (c i : Nat) : d.CoursesOnly (d.dropGroups c i) := by
  have hc : 0x10000000 ≤ AB c := Nat.le_trans (ccBase_le c) (Nat.le_add_right ..)
  unfold Dev.dropGroups
  refine foldl_coursesOnly (fun d g => ?_) _ d
  split
  · exact (d.closeAccum_coursesOnly c g).trans (Dev.setReg_coursesOnly _ _ (by omega))
  · exact .refl d

/-- What a context leaves behind in the courses is taken out: nothing outside them changes. -/
theorem Dev.dropResident_coursesOnly (d : Dev) (i : Nat) : d.CoursesOnly (d.dropResident i) := by
  unfold Dev.dropResident
  refine foldl_coursesOnly (fun d c => ?_) _ d
  refine Dev.CoursesOnly.trans ?_ (Dev.dropGroups_coursesOnly ..)
  refine (d.dropLines_coursesOnly c i).trans ?_
  split
  · exact Dev.clearSet_coursesOnly ..
  · exact .refl _

/-! ## SVC_START (R404) -/

theorem Dev.onSvc_svc_self (d : Dev) (i : Nat) (f : Service → Service) : (d.onSvc i f).svc i = f (d.svc i) := tget_tput_self ..
theorem Dev.onSvc_svc_ne (d : Dev) {i k : Nat} (f : Service → Service) (h : k ≠ i) : (d.onSvc i f).svc k = d.svc k :=
  tget_tput_ne _ _ _ h

theorem Dev.ctx_congr {d e : Dev} (h : d.ctxs = e.ctxs) (i : Nat) : d.ctx i = e.ctx i := congrArg (tget Ctx.init · i) h
theorem Dev.svc_congr {d e : Dev} (h : d.svcs = e.svcs) (i : Nat) : d.svc i = e.svc i := congrArg (tget Service.init · i) h

/-- The courses that a service's context leaves when its mask changes. -/
def Dev.leaveCourses (d : Dev) (i : Nat) (mask : BitVec 96) : Dev := if mask != (d.ctx i).mask then d.dropResident i else d

theorem Dev.leaveCourses_coursesOnly (d : Dev) (i : Nat) (mask : BitVec 96) : d.CoursesOnly (d.leaveCourses i mask) := by
  unfold Dev.leaveCourses
  split
  · exact d.dropResident_coursesOnly i
  · exact .refl d

/-- The configuration a service takes from its block. -/
def configured (b : List Byte) (v : Service) : Service :=
  { v with active := true, share := numAt b 1 1, config := b, alt := 0, due := [], bases := [], next := none, asked := none }

/-- The context a service that starts takes. -/
def servingCtx (mask : BitVec 96) (moved : Bool) (x : Ctx) : Ctx :=
  { x with
    st := if x.active && !moved then x.st else .runnable, kind := 2, tabValid := true, begun := true, mask := mask, tabMask := mask }

/-- A service that is set up, and its context: what SVC_START leaves of the device beside the courses. -/
def Dev.serve (d : Dev) (i share : Nat) (mask : BitVec 96) (moved : Bool) (b : List Byte) : Dev :=
  (((d.onSvc i (configured b)).setFld (CTX_SVC i) 63 63 1).setFld (CTX_SVC i) 55 48 share).onCtx i (servingCtx mask moved)

theorem Dev.onCtx_fld (d : Dev) (i : Nat) (f : Ctx → Ctx) (a hi lo : Nat) : (d.onCtx i f).fld a hi lo = d.fld a hi lo := rfl
theorem Dev.onSvc_fld (d : Dev) (i : Nat) (f : Service → Service) (a hi lo : Nat) : (d.onSvc i f).fld a hi lo = d.fld a hi lo := rfl

section Serve
variable (d : Dev) (i share : Nat) (mask : BitVec 96) (moved : Bool) (b : List Byte)

theorem Dev.serve_svcs : (d.serve i share mask moved b).svcs = (d.onSvc i (configured b)).svcs := by
  rw [Dev.serve, Dev.onCtx_svcs, Dev.setFld_svcs, Dev.setFld_svcs]

theorem Dev.serve_ctxs : (d.serve i share mask moved b).ctxs = (d.onCtx i (servingCtx mask moved)).ctxs := by
  have h : ∀ e : Dev, e.ctxs = d.ctxs → (e.onCtx i (servingCtx mask moved)).ctxs = (d.onCtx i (servingCtx mask moved)).ctxs :=
    fun e he => by simp only [Dev.onCtx, Dev.setCtx, Dev.ctx, he]
  exact h _ (by rw [Dev.setFld_ctxs, Dev.setFld_ctxs, Dev.onSvc_ctxs])

theorem Dev.serve_svc_self : (d.serve i share mask moved b).svc i = configured b (d.svc i) :=
  (Dev.svc_congr (Dev.serve_svcs d i share mask moved b) i).trans (Dev.onSvc_svc_self d i (configured b))
theorem Dev.serve_svc_ne {k : Nat} (h : k ≠ i) : (d.serve i share mask moved b).svc k = d.svc k :=
  (Dev.svc_congr (Dev.serve_svcs d i share mask moved b) k).trans (Dev.onSvc_svc_ne d (configured b) h)
theorem Dev.serve_ctx_self : (d.serve i share mask moved b).ctx i = servingCtx mask moved (d.ctx i) :=
  (Dev.ctx_congr (Dev.serve_ctxs d i share mask moved b) i).trans (Dev.onCtx_ctx_self d i _)
theorem Dev.serve_ctx_ne {k : Nat} (h : k ≠ i) : (d.serve i share mask moved b).ctx k = d.ctx k :=
  (Dev.ctx_congr (Dev.serve_ctxs d i share mask moved b) k).trans (Dev.onCtx_ctx_ne d _ h)
theorem Dev.serve_hl : (d.serve i share mask moved b).hl = d.hl := by
  rw [Dev.serve, Dev.onCtx_hl, Dev.setFld_hl, Dev.setFld_hl, Dev.onSvc_hl]
theorem Dev.serve_out : (d.serve i share mask moved b).out = d.out := by
  rw [Dev.serve, Dev.onCtx_out, Dev.setFld_out, Dev.setFld_out, Dev.onSvc_out]

theorem Dev.serve_svcReg : (d.serve i share mask moved b).fld (CTX_SVC i) 63 63 = 1 ∧
    (d.serve i share mask moved b).fld (CTX_SVC i) 55 48 = share % 256 := by
  unfold Dev.serve
  rw [Dev.onCtx_fld, Dev.onCtx_fld]
  constructor
  · rw [Dev.setFld_fld_beside _ _ _ (by decide) (by decide) (by decide), Dev.setFld_fld_fits _ _ _ (by decide) (by decide) (by decide)]
  · exact Dev.setFld_fld_self _ _ _ (by decide) (by decide)

theorem CTX_SVC_ne_fretNum : FT_FRET_NUM ≠ CTX_SVC i := by
  unfold FT_FRET_NUM CTX_SVC
  omega

theorem Dev.serve_fretNum : (d.serve i share mask moved b).fretNum = d.fretNum := by
  have hne := CTX_SVC_ne_fretNum i
  unfold Dev.serve Dev.fretNum
  rw [Dev.onCtx_fld, Dev.setFld_fld_ne _ _ _ _ _ _ hne, Dev.setFld_fld_ne _ _ _ _ _ _ hne, Dev.onSvc_fld]

end Serve

/-- The mask that a service's block names. -/
def svcMask (b : List Byte) : BitVec 96 := BitVec.ofNat 96 (numAt b 4 12)

theorem Dev.configure_eq (d : Dev) (i : Nat) (b : List Byte) :
    d.configure i b = (d.leaveCourses i (svcMask b)).serve i (numAt b 1 1) (svcMask b) (svcMask b != (d.ctx i).mask) b := rfl

/-- What SVC_START leaves of a device whose service does not run. -/
theorem Dev.configure_spec (d : Dev) (i : Nat) (b : List Byte) :
    (d.configure i b).svc i = configured b (d.svc i) ∧
    (d.configure i b).ctx i = servingCtx (svcMask b) (svcMask b != (d.ctx i).mask) (d.ctx i) ∧
    (∀ k, k ≠ i → (d.configure i b).ctx k = d.ctx k ∧ (d.configure i b).svc k = d.svc k) ∧
    (d.configure i b).fld (CTX_SVC i) 63 63 = 1 ∧ (d.configure i b).fld (CTX_SVC i) 55 48 = numAt b 1 1 % 256 ∧
    (d.configure i b).hl = d.hl ∧ (d.configure i b).out = d.out ∧ (d.configure i b).fretNum = d.fretNum := by
  have hleft := d.leaveCourses_coursesOnly i (svcMask b)
  have heq := Dev.configure_eq d i b
  generalize d.leaveCourses i (svcMask b) = e at hleft heq
  generalize (svcMask b != (d.ctx i).mask) = moved at heq ⊢
  rw [heq]
  have hctx : ∀ k, e.ctx k = d.ctx k := Dev.ctx_congr hleft.ctxs
  have hsvc : ∀ k, e.svc k = d.svc k := Dev.svc_congr hleft.svcs
  refine ⟨?_, ?_, fun k hk => ⟨?_, ?_⟩, (Dev.serve_svcReg ..).1, (Dev.serve_svcReg ..).2, ?_, ?_, ?_⟩
  · rw [Dev.serve_svc_self, hsvc]
  · rw [Dev.serve_ctx_self, hctx]
  · rw [Dev.serve_ctx_ne _ _ _ _ _ _ hk, hctx]
  · rw [Dev.serve_svc_ne _ _ _ _ _ _ hk, hsvc]
  · rw [Dev.serve_hl, hleft.hl]
  · rw [Dev.serve_out, hleft.out]
  · rw [Dev.serve_fretNum, hleft.fretNum]

theorem leNat_lt (b : List Byte) : leNat b < 256 ^ b.length := by
  induction b with
  | nil => decide
  | cons x b ih =>
    rw [leNat, List.length_cons, Nat.pow_succ]
    have := x.isLt
    omega

theorem numAt_lt (b : List Byte) (a n : Nat) : numAt b a n < 256 ^ n := by
  have hlen : ((b.drop a).take n).length ≤ n := by
    rw [List.length_take]
    omega
  exact Nat.lt_of_lt_of_le (leNat_lt _) (Nat.pow_le_pow_right (by decide) hlen)

/-- The work of SVC_START. -/
def World.goSvcStart (h : HostCmd) (w : World) : World :=
  let b := payloadBytes h.payload
  match w.svcBad b with
  | some o => w.badByte h 0x501 o
  | none =>
    let i := numAt b 2 2
    if (maskCourses (svcMask b).toNat).any (fun c => w.d.fenced (c / 12)) then w.answer h 0x501 stStackDegraded 36
    else
      let runs := (w.d.svc i).active && (w.d.ctx i).active
      (w.onDev (fun d => if runs then d.onSvc i (fun s => { s with next := some b }) else d.configure i b)).answer h 0x501 stOk 0

theorem World.goSvcStart_ok {w : World} {h : HostCmd} (hb : w.svcBad (payloadBytes h.payload) = none)
    (hf : (maskCourses (svcMask (payloadBytes h.payload)).toNat).any (fun c => w.d.fenced (c / 12)) = false) :
    World.goSvcStart h w = (w.onDev (fun d =>
      if (w.d.svc (numAt (payloadBytes h.payload) 2 2)).active && (w.d.ctx (numAt (payloadBytes h.payload) 2 2)).active then
        d.onSvc (numAt (payloadBytes h.payload) 2 2) (fun s => { s with next := some (payloadBytes h.payload) })
      else d.configure (numAt (payloadBytes h.payload) 2 2) (payloadBytes h.payload))).answer h 0x501 stOk 0 := by
  unfold World.goSvcStart
  dsimp only
  rw [hb]
  exact if_neg (by rw [hf]; decide)

/-! ## SVC_STOP (R404) -/

/-- A service is at an end: what that leaves of the device. -/
def Dev.endSvc (d : Dev) (i : Nat) : Dev :=
  let d := (d.onSvc i (fun _ => .init)).setFld (CTX_SVC i) 63 63 0
  let d := d.setFld (CTX_SVC i) 55 48 0
  if i = 1 then { d with ckpts := d.ckpts.filter (fun k => k.job.isSome || k.running) } else d

theorem Dev.endSvc_svcs (d : Dev) (i : Nat) : (d.endSvc i).svcs = (d.onSvc i (fun _ => .init)).svcs := by
  have h : (((d.onSvc i (fun _ => .init)).setFld (CTX_SVC i) 63 63 0).setFld (CTX_SVC i) 55 48 0).svcs = (d.onSvc i (fun _ => .init)).svcs := by
    rw [Dev.setFld_svcs, Dev.setFld_svcs]
  unfold Dev.endSvc
  dsimp only
  split
  · exact h
  · exact h

theorem Dev.endSvc_regs (d : Dev) (i : Nat) : (d.endSvc i).regs = ((d.setFld (CTX_SVC i) 63 63 0).setFld (CTX_SVC i) 55 48 0).regs := by
  unfold Dev.endSvc
  dsimp only
  split <;> rfl

theorem Dev.endSvc_svc (d : Dev) (i : Nat) : (d.endSvc i).svc i = .init :=
  (Dev.svc_congr (d.endSvc_svcs i) i).trans (Dev.onSvc_svc_self d i _)

theorem Dev.endSvc_svcReg (d : Dev) (i : Nat) : (d.endSvc i).fld (CTX_SVC i) 63 63 = 0 := by
  rw [Dev.fld, d.endSvc_regs i, ← Dev.fld, Dev.setFld_fld_beside _ _ _ (by decide) (by decide) (by decide),
    Dev.setFld_fld_fits _ _ _ (by decide) (by decide) (by decide)]

/-- The answers of a queue of queries leave the stores and what is to be written. -/
theorem answers_mem (hs : List HostCmd) (op : Nat) (st : W16) (w : World) :
    (hs.foldl (fun w h => World.answer w h op st 0) w).mem = w.mem :=
  foldl_keeps (fun v : World => v.mem = w.mem) (fun w h => World.answer w h op st 0) hs (fun _ _ _ hv => hv) w rfl

theorem World.endService_d (w : World) (i : Nat) (st : W16) :
    (w.endService i st).d = Dev.endSvc ((w.d.svc i).queue.foldl (fun w h => World.answer w h 0x502 st 0) w).d i := rfl

theorem World.endService_mem (w : World) (i : Nat) (st : W16) : (w.endService i st).mem = w.mem :=
  answers_mem (w.d.svc i).queue 0x502 st w

theorem World.goSvcStop_ok {w : World} {h : HostCmd} (hi : h.ctx.toNat < 16) (ha : (w.d.svc h.ctx.toNat).active = true) :
    w.goSvcStop h = (World.onDev (w.endService h.ctx.toNat stContextState)
      (fun d => (d.dropResident h.ctx.toNat).onCtx h.ctx.toNat (fun _ => .init))).answer h 0x503 stOk 0 := by
  unfold World.goSvcStop
  dsimp only
  rw [if_neg (by omega), if_neg (by rw [ha]; decide)]

/-- The context of a service that stopped is FREE, and its registers say so. -/
theorem svcStop_spec (w : World) {i : Nat} (hi : i < 16) (st : W16) :
    let v := World.onDev (w.endService i st) (fun d => (d.dropResident i).onCtx i (fun _ => .init))
    v.d.ctx i = .init ∧ v.d.svc i = .init ∧ v.d.fld (CTX_SVC i) 63 63 = 0 ∧ v.mem = w.mem := by
  have hsvc : (w.endService i st).d.svc i = .init := Dev.endSvc_svc _ i
  have hreg : (w.endService i st).d.fld (CTX_SVC i) 63 63 = 0 := Dev.endSvc_svcReg _ i
  have hmem := w.endService_mem i st
  generalize w.endService i st = v at hsvc hreg hmem
  have hdrop := v.d.dropResident_coursesOnly i
  refine ⟨Dev.onCtx_ctx_self _ i _, (Dev.svc_congr hdrop.svcs i).trans hsvc, (hdrop.fld ?_ 63 63).trans hreg, hmem⟩
  unfold CTX_SVC
  omega

/-! ## SVC_QUERY and CHECKPOINT -/

/-- The work of SVC_QUERY. -/
def World.goSvcQuery (h : HostCmd) (w : World) : World :=
  let b := payloadBytes h.payload
  match w.d.batchBad (b.take 512) with
  | some o => w.badByte h 0x502 o
  | none =>
    let q := batchOf b
    let s := w.d.svc q.inst
    if !s.active then w.answer h 0x502 stNoContext 0
    else if h.payload.length ≠ 1 + ceilDiv (q.queries * bytesFor (numAt s.config 32 1) (numAt s.config 34 2)) 512 then
      w.answer h 0x502 stBadLength 8
    else if 4 ≤ s.queue.length then w.answer h 0x502 stHeld 0
    else w.onDev (fun d => d.onSvc q.inst (fun s => { s with queue := s.queue ++ [h] }))

theorem World.goSvcQuery_ok {w : World} {h : HostCmd} (hb : w.d.batchBad ((payloadBytes h.payload).take 512) = none)
    (ha : (w.d.svc (batchOf (payloadBytes h.payload)).inst).active = true)
    (hl : h.payload.length = 1 + ceilDiv ((batchOf (payloadBytes h.payload)).queries *
      bytesFor (numAt (w.d.svc (batchOf (payloadBytes h.payload)).inst).config 32 1)
        (numAt (w.d.svc (batchOf (payloadBytes h.payload)).inst).config 34 2)) 512)
    (hq : (w.d.svc (batchOf (payloadBytes h.payload)).inst).queue.length < 4) :
    World.goSvcQuery h w = w.onDev (fun d => d.onSvc (batchOf (payloadBytes h.payload)).inst (fun s => { s with queue := s.queue ++ [h] })) := by
  unfold World.goSvcQuery
  dsimp only
  rw [hb]
  dsimp only
  rw [if_neg (by rw [ha]; decide), if_neg (fun hn => hn hl), if_neg (by omega)]

/-- The checkpoint that a CHECKPOINT command asks for. -/
def ckptOf (h : HostCmd) : Ckpt :=
  let b := payloadBytes h.payload
  { ctx := h.ctx.toNat, slot := numAt b 8 1, pos := numAt b 0 8, dest := numAt b 9 1, far := numAt b 16 8, regions := slice b 128 384,
    job := some (h.port, h.tag), running := false, sent := false, total := 0, digest := [] }

theorem World.goCheckpoint_ok {w : World} {h : HostCmd} (h8 : numAt (payloadBytes h.payload) 8 1 ≤ 3)
    (h9 : numAt (payloadBytes h.payload) 9 1 ≤ 1)
    (hf : numAt (payloadBytes h.payload) 9 1 = 0 → w.d.farDestOk (numAt (payloadBytes h.payload) 16 8)
      (streamLen (slice (payloadBytes h.payload) 128 384)) = true)
    (hr : w.d.regionsBad (slice (payloadBytes h.payload) 128 384) = none) (hs : (w.d.ctx h.ctx.toNat).st ≠ .free) :
    w.goCheckpoint h = (w.accept h 0x504).onDev (fun d => { d with ckpts := d.ckpts ++ [ckptOf h] }) := by
  have hgood : firstSome id [when_ (decide (3 < numAt (payloadBytes h.payload) 8 1)) 8, when_ (decide (1 < numAt (payloadBytes h.payload) 9 1)) 9,
      when_ (numAt (payloadBytes h.payload) 9 1 == 0 && !w.d.farDestOk (numAt (payloadBytes h.payload) 16 8)
        (streamLen (slice (payloadBytes h.payload) 128 384))) 16,
      (w.d.regionsBad (slice (payloadBytes h.payload) 128 384)).map (128 + ·)] = none := by
    have hdest : (numAt (payloadBytes h.payload) 9 1 == 0 && !w.d.farDestOk (numAt (payloadBytes h.payload) 16 8)
        (streamLen (slice (payloadBytes h.payload) 128 384))) = false := by
      by_cases hz : numAt (payloadBytes h.payload) 9 1 = 0
      · simp [hf hz]
      · simp [hz]
    simp [firstSome, when_, Nat.not_lt.2 h8, Nat.not_lt.2 h9, hdest, hr]
  unfold World.goCheckpoint
  dsimp only
  rw [hgood]
  exact if_neg hs

theorem Dev.accepted_ckpts (d : Dev) (h : HostCmd) (op : Nat) : (d.accepted h op).ckpts = d.ckpts :=
  (congrArg Dev.ckpts (replied_eq d h op stAccepted 0 0 []) :)

/-! ## The four commands -/

theorem svcStart_exec {s : State} {h : HostCmd} {e : Dev} (ha : s.admits h { wardenOp 0x501 [0, 1, 2, 3] with lenOk := oneBlock })
    (hb : World.svcBad (s.taken h) (payloadBytes h.payload) = none)
    (hf : ∀ c ∈ maskCourses (svcMask (payloadBytes h.payload)).toNat, s.dev.fenced (c / 12) = false) (he : e.hl = s.dev.hl)
    (hk : (if ((s.dev.svc (numAt (payloadBytes h.payload) 2 2)).active && (s.dev.ctx (numAt (payloadBytes h.payload) 2 2)).active) = true then
        (s.dev.taken h).onSvc (numAt (payloadBytes h.payload) 2 2) (fun s => { s with next := some (payloadBytes h.payload) })
      else (s.dev.taken h).configure (numAt (payloadBytes h.payload) 2 2) (payloadBytes h.payload)) = { e with hl := (s.dev.taken h).hl }) :
    exec (.svcStart h) s = .next { s with dev := e.repliedOk h 0x501 } := by
  have hfence : (maskCourses (svcMask (payloadBytes h.payload)).toNat).any (fun c => (s.taken h).d.fenced (c / 12)) = false := by
    rw [List.any_eq_false]
    exact fun c hc => by rw [taken_fenced, hf c hc]; decide
  refine runLive_repliedOk (f := doSvcStart h) (k := World.goSvcStart h) ha rfl rfl he ?_
  rw [World.goSvcStart_ok (w := s.taken h) hb hfence]
  exact congrArg (fun d => World.answer { s.world with d := d } h 0x501 stOk 0) hk

/-! ## The host link plays no part in what leaves the courses -/

/-- The device with another host link. -/
def Dev.withHl (x : Hl) (d : Dev) : Dev := { d with hl := x }

theorem foldl_withHl {β : Type} (x : Hl) {f : Dev → β → Dev} (h : ∀ (d : Dev) b, f (d.withHl x) b = (f d b).withHl x) (xs : List β)
    (d : Dev) : xs.foldl f (d.withHl x) = (xs.foldl f d).withHl x := by
  induction xs generalizing d with
  | nil => rfl
  | cons b xs ih => rw [List.foldl_cons, h, ih, List.foldl_cons]

theorem Dev.dropLines_withHl (x : Hl) (d : Dev) (c i : Nat) : (d.withHl x).dropLines c i = (d.dropLines c i).withHl x := by
  have hc : (d.withHl x).course c = d.course c := rfl
  unfold Dev.dropLines
  rw [hc]
  split
  · rfl
  · split <;> rfl

theorem Dev.setFld_withHl (x : Hl) (d : Dev) (a hi lo v : Nat) : (d.withHl x).setFld a hi lo v = (d.setFld a hi lo v).withHl x := rfl
theorem Dev.setReg_withHl (x : Hl) (d : Dev) (a : Nat) (v : W64) : (d.withHl x).setReg a v = (d.setReg a v).withHl x := rfl
theorem Dev.onCourse_withHl (x : Hl) (d : Dev) (c : Nat) (f : Course → Course) : (d.withHl x).onCourse c f = (d.onCourse c f).withHl x := rfl
theorem Dev.onSvc_withHl (x : Hl) (d : Dev) (i : Nat) (f : Service → Service) : (d.withHl x).onSvc i f = (d.onSvc i f).withHl x := rfl
theorem Dev.onCtx_withHl (x : Hl) (d : Dev) (i : Nat) (f : Ctx → Ctx) : (d.withHl x).onCtx i f = (d.onCtx i f).withHl x := rfl

theorem Dev.closeAccum_withHl (x : Hl) (d : Dev) (c g : Nat) : (d.withHl x).closeAccum c g = (d.closeAccum c g).withHl x := by
  unfold Dev.closeAccum
  dsimp only
  simp only [Dev.setFld_withHl, Dev.setReg_withHl, Dev.onCourse_withHl]

theorem Dev.dropGroups_withHl (x : Hl) (d : Dev) (c i : Nat) : (d.withHl x).dropGroups c i = (d.dropGroups c i).withHl x := by
  unfold Dev.dropGroups
  refine foldl_withHl x (fun d g => ?_) _ d
  have hg : (d.withHl x).groupCtx c g = d.groupCtx c g := rfl
  rw [hg]
  split
  · rw [Dev.closeAccum_withHl, Dev.setReg_withHl]
  · rfl

theorem Dev.serve_withHl (x : Hl) (d : Dev) (i share : Nat) (mask : BitVec 96) (moved : Bool) (b : List Byte) :
    (d.withHl x).serve i share mask moved b = (d.serve i share mask moved b).withHl x := by
  unfold Dev.serve
  rw [Dev.onSvc_withHl, Dev.setFld_withHl, Dev.setFld_withHl, Dev.onCtx_withHl]

theorem Dev.dropResident_withHl (x : Hl) (d : Dev) (i : Nat) : (d.withHl x).dropResident i = (d.dropResident i).withHl x := by
  unfold Dev.dropResident
  refine foldl_withHl x (fun d c => ?_) _ d
  have hset : ((d.dropLines c i).withHl x).setOf c i = (d.dropLines c i).setOf c i := rfl
  dsimp only
  rw [Dev.dropLines_withHl, hset]
  split
  · exact Dev.dropGroups_withHl x (Dev.clearSet _ c _) c i
  · exact Dev.dropGroups_withHl ..

theorem Dev.leaveCourses_withHl (x : Hl) (d : Dev) (i : Nat) (mask : BitVec 96) :
    (d.withHl x).leaveCourses i mask = (d.leaveCourses i mask).withHl x := by
  have hc : (d.withHl x).ctx i = d.ctx i := rfl
  unfold Dev.leaveCourses
  rw [hc, Dev.dropResident_withHl]
  split <;> rfl

/-- A service's configuration does not touch the host link. -/
theorem configure_taken (d : Dev) (h : HostCmd) (i : Nat) (b : List Byte) :
    (d.taken h).configure i b = { d.counted.configure i b with hl := (d.taken h).hl } := by
  have ht : ∀ e : Dev, { e with hl := (d.taken h).hl } = e.withHl (d.taken h).hl := fun _ => rfl
  have hctx : (d.taken h).ctx i = d.counted.ctx i := rfl
  rw [Dev.configure_eq, Dev.configure_eq, ht, hctx, show d.taken h = d.counted.withHl (d.taken h).hl from ht d.counted,
    Dev.leaveCourses_withHl, Dev.serve_withHl]
  rfl

/-- Settles O20: each command, its checks passed, is one change of the service or of the checkpoints. -/
theorem serviceCommandsRun : Obligations.ServiceCommandsRun := by
  unfold Obligations.ServiceCommandsRun
  refine ⟨?_, ?_, fun h s ha hi hact => ?_, ?_⟩
  · intro h s ha b i m hb hf
    refine ⟨fun hv hc => ?_, fun hoff => ?_⟩
    · refine svcStart_exec ha hb hf rfl ?_
      rw [if_pos (by rw [Bool.and_eq_true]; exact ⟨hv, hc⟩)]
      rfl
    · have hrun : ¬ ((s.dev.svc i).active && (s.dev.ctx i).active) = true := by
        rw [Bool.and_eq_true]
        rintro ⟨hv, hc⟩
        rcases hoff with hx | hx
        · rw [hx] at hv; exact absurd hv (by decide)
        · rw [hx] at hc; exact absurd hc (by decide)
      obtain ⟨hsvc, hctx, hne, hrun63, hshare, hhl, hout, hnum⟩ := s.dev.counted.configure_spec i b
      have hexec := svcStart_exec (e := s.dev.counted.configure i b) ha hb hf hhl
        ((if_neg hrun).trans (configure_taken s.dev h i b))
      have hnum' := hnum.trans (counted_fretNum s.dev)
      generalize s.dev.counted.configure i b = e at *
      have hdev := replied_eq e h 0x501 stOk 0 0 []
      have hsvcs : ∀ k, (e.repliedOk h 0x501).svc k = e.svc k := Dev.svc_congr (congrArg Dev.svcs hdev :)
      have hctxs : ∀ k, (e.repliedOk h 0x501).ctx k = e.ctx k := Dev.ctx_congr (congrArg Dev.ctxs hdev :)
      have hregs : (e.repliedOk h 0x501).regs = e.regs := (congrArg Dev.regs hdev :)
      have hfld : ∀ hi lo, (e.repliedOk h 0x501).fld (CTX_SVC i) hi lo = e.fld (CTX_SVC i) hi lo :=
        Dev.fld_congr (congrArg (rget · _) hregs)
      refine ⟨_, hexec, rfl, ?_, ?_, ?_, ?_, ?_, ?_, ?_, ?_, fun hoff => ?_, fun hon hm => ?_, ?_, ?_, fun k hk => ?_, ?_⟩
      · rw [hsvcs, hsvc]; rfl
      · rw [hsvcs, hsvc]; rfl
      · rw [hsvcs, hsvc]; rfl
      · rw [hsvcs, hsvc]; rfl
      · rw [hctxs, hctx]; rfl
      · rw [hctxs, hctx]; rfl
      · rw [hctxs, hctx]; rfl
      · rw [hctxs, hctx]; rfl
      · rw [hctxs, hctx]
        refine if_neg ?_
        rcases hoff with hx | hx
        · rw [show (s.dev.counted.ctx i).active = false from hx, Bool.false_and]
          decide
        · have hmoved : (svcMask b != (s.dev.counted.ctx i).mask) = true := bne_iff_ne.2 (Ne.symm hx)
          rw [hmoved, Bool.not_true, Bool.and_false]
          decide
      · rw [hctxs, hctx]
        refine if_pos ?_
        have hsame : (svcMask b != (s.dev.counted.ctx i).mask) = false := bne_eq_false_iff_eq.2 hm.symm
        rw [hsame, show (s.dev.counted.ctx i).active = true from hon]
        rfl
      · rw [hfld, hrun63]
      · rw [hfld, hshare]
        exact Nat.mod_eq_of_lt (numAt_lt b 1 1)
      · rw [hctxs, hsvcs, (hne k hk).1, (hne k hk).2]
        exact ⟨rfl, rfl⟩
      · refine (Dev.replied_said ..).trans ?_
        rw [replyOf_congr hnum', Dev.said, hout]
        rfl
  · intro h s ha b q v hb hact hl hq
    exact runLive_admitted_dev (f := doSvcQuery h) (k := World.goSvcQuery h) ha rfl rfl
      (World.goSvcQuery_ok (w := s.taken h) hb hact hl hq)
  · have hspec := svcStop_spec (s.taken h) hi stContextState
    refine ⟨?_, hspec⟩
    exact runLive_admitted_eq (f := doSvcStop h) ha rfl rfl (World.goSvcStop_ok (w := s.taken h) hi hact)
  · intro h s ha b r h8 h9 hf hr hst k
    have hgo := World.goCheckpoint_ok (w := s.taken h) h8 h9 hf hr hst
    rw [State.taken_accept] at hgo
    refine runLive_admitted_dev (f := doCheckpoint h) ha rfl rfl (hgo.trans ?_)
    simp only [World.onDev, Dev.accepted_ckpts]
    rfl

end Sys2Proof.Machine
end

section
/-! SUPPORT and PROOFS. Drone frames and fret markers, sent and received (R62, R73). -/

namespace Sys2Proof.Machine

/-! ## Frames on every port in service -/

theorem foldl_emit (f : Nat → Out) (ls : List Nat) (d : Dev) :
    ls.foldl (fun d l => d.emit (f l)) d = { d with out := d.out ++ ls.map f } := by
  induction ls generalizing d with
  | nil => simp
  | cons l ls ih => rw [List.foldl_cons, ih]; simp [Dev.emit]

/-- A good frame of the fret is folded into the word and passed on. -/
def Dev.foldFrame (d : Dev) (l : Nat) (frame : List Byte) : Dev :=
  let e := d.setFt (fun f => { f with word := foldWord d.ft.word (BitVec.ofNat 128 (numAt frame 4 16)) })
  (e.portsUp.filter (· != l)).foldl (fun d x => d.emit (.drone x
    (e.droneBytes (numAt frame 1 1) (foldWord e.ft.sample (BitVec.ofNat 128 (numAt frame 4 16)))))) e

theorem foldl_emit_regs (f : Nat → Out) (ls : List Nat) (d : Dev) : (ls.foldl (fun d l => d.emit (f l)) d).regs = d.regs := by rw [foldl_emit]
theorem foldl_emit_ft (f : Nat → Out) (ls : List Nat) (d : Dev) : (ls.foldl (fun d l => d.emit (f l)) d).ft = d.ft := by rw [foldl_emit]

theorem Dev.foldFrame_regs (d : Dev) (l : Nat) (frame : List Byte) : (d.foldFrame l frame).regs = d.regs :=
  (foldl_emit_regs _ _ _).trans (Dev.setFt_regs d _)

theorem Dev.foldFrame_ft (d : Dev) (l : Nat) (frame : List Byte) :
    (d.foldFrame l frame).ft = { d.ft with word := foldWord d.ft.word (BitVec.ofNat 128 (numAt frame 4 16)) } :=
  foldl_emit_ft _ _ _

theorem doDroneFrameRx_good {w : World} {p : Fin 24} {frame : List Byte} (hup : w.d.linkUp p.val = true) (hok : frameOk 1 frame = true)
    (hn : numAt frame 2 2 = w.d.fretNum % 65536) (hs : w.d.ft.settled = false) :
    doDroneFrameRx p frame w = w.onDev (fun d => d.foldFrame p.val frame) := by
  unfold doDroneFrameRx
  dsimp only
  rw [if_neg (by rw [hup]; decide), if_neg (by rw [hok, hn, bne_self_eq_false]; decide), if_neg (by rw [hs]; decide)]
  rfl

/-- Settles O27: a frame sent is one more output of every port in service; a frame received is folded, dropped or late. -/
theorem droneFramesCarryTheWord : Obligations.DroneFramesCarryTheWord := by
  unfold Obligations.DroneFramesCarryTheWord
  refine ⟨fun s hl hs => ?_, fun p f s hl hup hok hnum hs => ?_, fun p f s hl hup hbad => ?_⟩
  · refine runLive_eq_dev hl ?_
    have hs' : s.world.d.ft.settled = false := hs
    unfold doDroneFrameSend
    rw [if_neg (by rw [hs']; decide)]
    simp only [World.onDev, foldl_emit]
    rfl
  · have hft := s.dev.foldFrame_ft p.val f
    exact ⟨_, (runLive_live hl (doDroneFrameRx p f)).trans
      (congrArg (fun w => Host.Outcome.next (commit s w)) (doDroneFrameRx_good (w := s.world) hup hok hnum hs)),
      (congrArg Ft.word hft :), rfl, s.dev.foldFrame_regs p.val f, (congrArg Ft.sample hft :)⟩
  · refine runLive_eq_dev hl ?_
    have hup' : s.world.d.linkUp p.val = true := hup
    have hdrop : (!frameOk 1 f || numAt f 2 2 != s.world.d.fretNum % 65536) = true := by
      rcases hbad with h | h
      · rw [h]; rfl
      · rw [bne_iff_ne.2 (show numAt f 2 2 ≠ s.world.d.fretNum % 65536 from h), Bool.or_true]
    unfold doDroneFrameRx
    dsimp only
    rw [if_neg (by rw [hup']; decide), if_pos hdrop]
    rfl

/-! ## Markers -/

/-- What a marker of the leader that the device heeds leaves: the offset, whether the leader is lost still, and how many frets were aligned. -/
def Dev.heed (d : Dev) (stays agree near lost : Bool) (off : Int) (m : Nat × Nat × Nat × Nat) : Dev :=
  let e := if stays then d else (d.setFld FT_HOLD_STATUS 18 18 0).setFld FT_LEADER 63 56 0
  let e := e.setFld FT_HOLD_STATUS 19 19 (if agree then 0 else 1)
  let e := e.setFld FT_ALIGN 15 0 (off % 65536).toNat
  e.setFt (fun f => { f with
    markerSeen := f.guard, marker := some m, aligned := if near then f.aligned + 1 else 0, leaderHold := f.leaderHold || !near || lost })

/-- A device that has still to take the leader's count takes it. -/
def Dev.adoptCount (d : Dev) (n : Nat) : Dev :=
  if d.ft.adopt then (d.setReg FT_FRET_NUM (BitVec.ofNat 64 n - 1)).setFt (fun f => { f with adopt := false }) else d

section Heed
variable (d : Dev) (stays agree near lost : Bool) (off : Int) (m : Nat × Nat × Nat × Nat)

theorem Dev.ite_ft (b : Bool) (x y : Dev) (hx : x.ft = d.ft) (hy : y.ft = d.ft) : (if b then x else y).ft = d.ft := by
  split
  · exact hx
  · exact hy

theorem Dev.heed_ft : (d.heed stays agree near lost off m).ft = { d.ft with
    markerSeen := d.ft.guard, marker := some m, aligned := if near then d.ft.aligned + 1 else 0,
    leaderHold := d.ft.leaderHold || !near || lost } := by
  cases stays <;> rfl

theorem Dev.heed_align : (d.heed stays agree near lost off m).fld FT_ALIGN 15 0 = (off % 65536).toNat := by
  unfold Dev.heed
  dsimp only
  rw [Dev.setFt_fld, Dev.setFld_fld_self _ _ _ (by decide) (by decide)]
  exact Nat.mod_eq_of_lt (by omega)

theorem Dev.heed_lost : (d.heed stays agree near lost off m).fld FT_HOLD_STATUS 18 18 = if stays then d.fld FT_HOLD_STATUS 18 18 else 0 := by
  unfold Dev.heed
  dsimp only
  rw [Dev.setFt_fld, Dev.setFld_fld_ne _ _ _ _ _ _ (by decide), Dev.setFld_fld_beside _ _ _ (by decide) (by decide) (by decide)]
  cases stays
  · rw [if_neg (by decide), if_neg (by decide), Dev.setFld_fld_ne _ _ _ _ _ _ (by decide),
      Dev.setFld_fld_fits _ _ _ (by decide) (by decide) (by decide)]
  · rfl

theorem Dev.adoptCount_rget_ne (n : Nat) {a : Nat} (ha : a ≠ FT_FRET_NUM) : rget (d.adoptCount n).regs a = rget d.regs a := by
  unfold Dev.adoptCount
  split
  · rw [Dev.setFt_regs, Dev.setReg_rget_ne _ _ ha]
  · rfl

theorem Dev.adoptCount_fretNum (n : Nat) (h : d.ft.adopt = true) : rget (d.adoptCount n).regs FT_FRET_NUM = BitVec.ofNat 64 n - 1 := by
  unfold Dev.adoptCount
  rw [if_pos h, Dev.setFt_regs, Dev.setReg_rget_self]

/-- What of the markers a device knows after one that it heeds. -/
theorem Dev.heed_marks (n : Nat) :
    let f := ((d.heed stays agree near lost off m).adoptCount n).ft
    f.markerSeen = d.ft.guard ∧ f.marker = some m ∧ f.aligned = if near then d.ft.aligned + 1 else 0 := by
  have hkeep : ∀ e : Dev, (e.adoptCount n).ft.markerSeen = e.ft.markerSeen ∧ (e.adoptCount n).ft.marker = e.ft.marker ∧
      (e.adoptCount n).ft.aligned = e.ft.aligned := fun e => by
    unfold Dev.adoptCount
    split <;> exact ⟨rfl, rfl, rfl⟩
  obtain ⟨hseen, hmark, hal⟩ := hkeep (d.heed stays agree near lost off m)
  dsimp only
  rw [hseen, hmark, hal, Dev.heed_ft]
  exact ⟨rfl, rfl, rfl⟩

end Heed

theorem World.adopt_eq (w : World) (n : Nat) :
    (if False ∨ w.d.ft.adopt = true then (w.setReg FT_FRET_NUM (BitVec.ofNat 64 n - 1)).setFt (fun f => { f with adopt := false }) else w) =
      w.onDev (fun d => d.adoptCount n) := by
  unfold Dev.adoptCount World.onDev
  by_cases h : w.d.ft.adopt = true
  · exact (if_pos (Or.inr h)).trans (congrArg (fun d => { w with d := d }) (if_pos h)).symm
  · exact (if_neg (not_or.2 ⟨not_false, h⟩)).trans (congrArg (fun d => { w with d := d }) (if_neg h)).symm

/-- The leader's own marker is taken (no takeover). -/
theorem World.takeMarker_own {w : World} {b : List Byte} {arrival : Int} (hl : numAt b 24 2 = w.d.fld FT_LEADER 25 16) :
    let off := markerOffset (numAt b 1 1) (numAt b 12 4) (numAt b 16 4) arrival
    ∃ agree : Bool, w.takeMarker b arrival = w.onDev (fun d => (d.heed
      (d.fld FT_HOLD_STATUS 18 18 == 1 && !d.ft.adopt && d.fld FT_LEADER 42 32 == 0x7FF) agree
      (decide (-8000 ≤ off) && decide (off ≤ 8000)) (d.fld FT_HOLD_STATUS 18 18 == 1) off
      (numAt b 4 8, numAt b 12 4, numAt b 16 4, numAt b 20 4)).adoptCount (numAt b 4 8)) := by
  intro off
  have hno : decide (numAt b 24 2 ≠ w.d.fld FT_LEADER 25 16) = false := decide_eq_false (fun h => h hl)
  refine ⟨numAt b 12 4 == w.d.period && numAt b 16 4 == w.d.guardLen && numAt b 20 4 == w.d.settleLen, ?_⟩
  unfold World.takeMarker
  dsimp only
  simp only [hno, Bool.not_false, Bool.and_true, Bool.false_eq_true, if_false]
  exact World.adopt_eq (World.onDev w (fun d => d.heed _ _ _ _ off _)) (numAt b 4 8)

theorem doFretMarkerSend_sends {w : World} {copy : Nat} {m : Nat × Nat × Nat × Nat} (hg : w.d.ft.guard = true) (hc : copy < 4)
    (ha : w.d.announced = some m) : doFretMarkerSend copy w =
      { w with d := { w.d with out := w.d.out ++ w.d.portsUp.map (fun l => .marker l (w.d.markerBytes m copy)) } } := by
  unfold doFretMarkerSend
  rw [ha]
  dsimp only
  rw [if_pos ⟨hg, hc⟩, World.onDev]
  exact congrArg (fun d => { w with d := d }) (foldl_emit _ _ _)

theorem doFretMarkerRx_takes {w : World} {p : Fin 24} {m : Marker} (hup : w.d.linkUp p.val = true) (hok : frameOk 2 m.bytes = true)
    (hj : w.d.hedge.joined = true) (hf : w.d.follows = true) (hs : w.d.ft.markerSeen = false)
    (hl : numAt m.bytes 24 2 = w.d.fld FT_LEADER 25 16) (hp : w.d.markerPort (numAt m.bytes 24 2) = some p.val)
    (hg : w.d.ft.guard = true ∨ w.d.ft.adopt = true) : doFretMarkerRx p m w = w.takeMarker m.bytes m.offset := by
  have hgo : (w.d.ft.guard || w.d.ft.adopt) = true := by simpa using hg
  unfold doFretMarkerRx
  dsimp only
  rw [if_neg (by rw [hup]; decide), if_neg (by rw [hok]; decide), if_pos]
  rw [hj, hs, hgo, hp, if_pos hf, ← hl]
  simp

/-- Settles O28: a marker sent is one more output of every port in service; one taken is what `World.takeMarker_own` gives. -/
theorem markersAlignFollowers : Obligations.MarkersAlignFollowers := by
  unfold Obligations.MarkersAlignFollowers
  refine ⟨fun copy m s hl hg hc ha => ?_, fun copy s hl ha => ?_, ?_,
    fun p m s hl hup hbad => ?_⟩
  · exact runLive_eq_dev hl (doFretMarkerSend_sends (w := s.world) hg hc ha)
  · refine runLive_eq_dev hl ?_
    have ha' : s.world.d.announced = none := ha
    unfold doFretMarkerSend
    rw [ha']
    rfl
  · intro p m s hl hup hok hj hf hs hlead hp hg off
    obtain ⟨agree, htake⟩ := World.takeMarker_own (w := s.world) (b := m.bytes) (arrival := m.offset) hlead
    have hexec : exec (.fretMarkerRx p m) s = _ := (runLive_live hl (doFretMarkerRx p m)).trans (congrArg (fun w => Host.Outcome.next (commit s w))
      ((doFretMarkerRx_takes (w := s.world) hup hok hj hf hs hlead hp hg).trans htake))
    have hst : ∀ stays, ((s.dev.heed stays agree (decide (-8000 ≤ off) && decide (off ≤ 8000)) (s.dev.fld FT_HOLD_STATUS 18 18 == 1) off
        (numAt m.bytes 4 8, numAt m.bytes 12 4, numAt m.bytes 16 4, numAt m.bytes 20 4)).adoptCount (numAt m.bytes 4 8)).fld
          FT_HOLD_STATUS 18 18 = if stays then s.dev.fld FT_HOLD_STATUS 18 18 else 0 := fun stays =>
      (Dev.fld_congr (Dev.adoptCount_rget_ne _ _ (by decide)) 18 18).trans (Dev.heed_lost ..)
    obtain ⟨hseen, hmark, hal⟩ := s.dev.heed_marks (s.dev.fld FT_HOLD_STATUS 18 18 == 1 && !s.dev.ft.adopt && s.dev.fld FT_LEADER 42 32 == 0x7FF)
      agree (decide (-8000 ≤ off) && decide (off ≤ 8000)) (s.dev.fld FT_HOLD_STATUS 18 18 == 1) off
      (numAt m.bytes 4 8, numAt m.bytes 12 4, numAt m.bytes 16 4, numAt m.bytes 20 4) (numAt m.bytes 4 8)
    refine ⟨_, hexec, rfl, ?_, ?_, ?_, fun hx => ?_, fun hx hy => ?_, fun hx => ?_, ?_⟩
    · exact hseen
    · exact hmark
    · exact (Dev.fld_congr (Dev.adoptCount_rget_ne _ _ (by decide)) 15 0).trans (Dev.heed_align ..)
    · refine (hst _).trans (if_neg ?_)
      show ¬ (s.dev.fld FT_HOLD_STATUS 18 18 == 1 && !s.dev.ft.adopt && s.dev.fld FT_LEADER 42 32 == 0x7FF) = true
      rcases hx with hx | hx
      · simp [hx]
      · simp [hx]
    · refine (hst _).trans ?_
      show (if (s.dev.fld FT_HOLD_STATUS 18 18 == 1 && !s.dev.ft.adopt && s.dev.fld FT_LEADER 42 32 == 0x7FF) = true then _ else 0) = _
      rw [hx, hy]
      have hbit : s.dev.fld FT_HOLD_STATUS 18 18 < 2 := fld_lt s.dev FT_HOLD_STATUS 18 18
      split
      · rfl
      · next hn =>
        have hne : ¬ s.dev.fld FT_HOLD_STATUS 18 18 = 1 := by simpa using hn
        omega
    · refine Dev.adoptCount_fretNum _ _ ?_
      rw [Dev.heed_ft]
      exact hx
    · refine hal.trans ?_
      by_cases hn : -8000 ≤ off ∧ off ≤ 8000
      · simp [hn.1, hn.2]
      · rw [if_neg hn]
        simpa using fun h1 => not_and.1 hn h1
  · refine runLive_eq_dev hl ?_
    have hup' : s.world.d.linkUp p.val = true := hup
    unfold doFretMarkerRx
    dsimp only
    rw [if_neg (by rw [hup']; decide), if_pos (by rw [hbad]; rfl)]
    rfl

end Sys2Proof.Machine
end

section
/-! SUPPORT and PROOFS. The leader, the configuration and the first fret of a context (R47, R71, R73, R392). -/

namespace Sys2Proof.Machine

/-- The successor takes over: it leads from here on (R73). -/
def Dev.takeOver (d : Dev) : Dev :=
  let d := (((d.setFld FT_LEADER 49 48 1).setFld FT_LEADER 25 16 d.hedge.rank).setFld FT_LEADER 42 32 0x7FF).setFld FT_LEADER 63 56 0
  (d.setFld FT_HOLD_STATUS 18 18 0).setFt (fun f => { f with leaderHold := false, aligned := 0 })

theorem Dev.takeOver_spec (d : Dev) (hr : d.hedge.rank < 1024) :
    d.takeOver.fld FT_LEADER 49 48 = 1 ∧ d.takeOver.fld FT_LEADER 25 16 = d.hedge.rank ∧ d.takeOver.fld FT_LEADER 42 32 = 0x7FF ∧
      d.takeOver.fld FT_HOLD_STATUS 18 18 = 0 := by
  have hne : FT_LEADER ≠ FT_HOLD_STATUS := by decide
  unfold Dev.takeOver
  refine ⟨?_, ?_, ?_, ?_⟩
  · rw [Dev.setFt_fld, Dev.setFld_fld_ne _ _ _ _ _ _ hne, Dev.setFld_fld_beside _ _ _ (by decide) (by decide) (by decide),
      Dev.setFld_fld_beside _ _ _ (by decide) (by decide) (by decide), Dev.setFld_fld_beside _ _ _ (by decide) (by decide) (by decide),
      Dev.setFld_fld_fits _ _ _ (by decide) (by decide) (by decide)]
  · rw [Dev.setFt_fld, Dev.setFld_fld_ne _ _ _ _ _ _ hne, Dev.setFld_fld_beside _ _ _ (by decide) (by decide) (by decide),
      Dev.setFld_fld_beside _ _ _ (by decide) (by decide) (by decide), Dev.setFld_fld_self _ _ _ (by decide) (by decide)]
    exact Nat.mod_eq_of_lt hr
  · rw [Dev.setFt_fld, Dev.setFld_fld_ne _ _ _ _ _ _ hne, Dev.setFld_fld_beside _ _ _ (by decide) (by decide) (by decide),
      Dev.setFld_fld_fits _ _ _ (by decide) (by decide) (by decide)]
  · rw [Dev.setFt_fld, Dev.setFld_fld_fits _ _ _ (by decide) (by decide) (by decide)]

theorem doLeaderTakeover_due {w : World} (hj : w.d.hedge.joined = true) (hr : w.d.role = 2) (hn : 64 ≤ w.d.fld FT_LEADER 63 56) :
    doLeaderTakeover w = (w.onDev Dev.takeOver).event 0x815 stOk 1 0xFFFF (w.d.takeOver.leaderBlock w.d.takeOver.fretNum) := by
  unfold doLeaderTakeover
  refine if_pos ?_
  rw [hj, hr, decide_eq_true hn]
  rfl

/-- An event is reported in HL_EVENTS_LOST and HL_FAULT alone. -/
theorem Dev.event_fld (d : Dev) (code : Nat) (st det : W16) (ctx : Nat) (tag : W16) (bl : List Blk) {a : Nat} (hl : a ≠ HL_EVENTS_LOST)
    (hf : a ≠ HL_FAULT) (hi lo : Nat) : (d.event code st det ctx tag bl).fld a hi lo = d.fld a hi lo :=
  (d.event_tells (R := [HL_EVENTS_LOST, HL_FAULT]) code st det ctx tag bl (by simp) (by simp)).fld (by simp [hl, hf]) hi lo

/-- The fret takes a new configuration (R47). -/
def Dev.applyCfg (d : Dev) (p g l : Nat) : Dev :=
  ((d.setFld FT_FRET_PERIOD 20 0 p).setFld FT_GUARD 18 0 g).setFld FT_DRONE_SETTLE 19 0 l

theorem Dev.applyCfg_spec (d : Dev) {p g l : Nat} (hp : p < 2 ^ 21) (hg : g < 2 ^ 19) (hl : l < 2 ^ 20) :
    (d.applyCfg p g l).fld FT_FRET_PERIOD 20 0 = p ∧ (d.applyCfg p g l).fld FT_GUARD 18 0 = g ∧
      (d.applyCfg p g l).fld FT_DRONE_SETTLE 19 0 = l := by
  unfold Dev.applyCfg
  refine ⟨?_, ?_, ?_⟩
  · rw [Dev.setFld_fld_ne _ _ _ _ _ _ (by decide), Dev.setFld_fld_ne _ _ _ _ _ _ (by decide),
      Dev.setFld_fld_self _ _ _ (by decide) (by decide)]
    exact Nat.mod_eq_of_lt hp
  · rw [Dev.setFld_fld_ne _ _ _ _ _ _ (by decide), Dev.setFld_fld_self _ _ _ (by decide) (by decide)]
    exact Nat.mod_eq_of_lt hg
  · rw [Dev.setFld_fld_self _ _ _ (by decide) (by decide)]
    exact Nat.mod_eq_of_lt hl

theorem doFretConfigApply_due {w : World} {n p g l : Nat} (hc : w.d.ft.pendingCfg = some (n, p, g, l)) (hn : n ≤ w.d.fretNum)
    (hl : w.d.ft.latched = false) :
    doFretConfigApply w = w.onDev (fun d => (d.applyCfg p g l).setFt (fun f => { f with pendingCfg := none })) := by
  unfold doFretConfigApply
  rw [hc]
  exact if_pos ⟨hn, by rw [hl]; rfl⟩

theorem doCtxStartFret_starts {w : World} {i : Nat} (ha : (w.d.ctx i).active = true) (hb : (w.d.ctx i).begun = false)
    (hn : (w.d.ctx i).startFret ≤ w.d.fretNum) (hl : w.d.ft.latched = false)
    (hk : (World.ckptByService (w.onDev (fun d => d.onCtx i (fun x => { x with begun := true }))) i).d.ft = w.d.ft) :
    doCtxStartFret i w = World.ckptByService (w.onDev (fun d => d.onCtx i (fun x => { x with begun := true }))) i := by
  unfold doCtxStartFret
  dsimp only
  refine (if_pos ⟨ha, by rw [hb]; rfl, hn, by rw [hl]; rfl⟩).trans (if_neg ?_)
  rw [hk, hl, Bool.false_and]
  decide

theorem World.ckptByService_ft (w : World) (i : Nat) : (w.ckptByService i).d.ft = w.d.ft := by
  unfold World.ckptByService
  exact iteInduction (motive := fun v : World => v.d.ft = w.d.ft) (fun _ => rfl) (fun _ => rfl)

theorem World.ckptByService_off {w : World} {i : Nat} (hs : (w.d.svc 1).active = false) : w.ckptByService i = w := by
  unfold World.ckptByService
  dsimp only
  refine if_neg ?_
  rw [hs]
  simp only [Bool.false_and]
  decide

/-- Settles O29: each event, its condition met, is one change of the device. -/
theorem leaderAndFretEventsAct : Obligations.LeaderAndFretEventsAct := by
  unfold Obligations.LeaderAndFretEventsAct
  refine ⟨fun s hl hj hr hn hrank => ?_, fun s hl hh ha hs => ?_, fun s n p g l hl hc hn hlat hp hg hl' => ?_, ?_⟩
  · obtain ⟨hrole, hlead, hnext, hlost⟩ := s.dev.takeOver_spec hrank
    refine ⟨_, (runLive_live hl doLeaderTakeover).trans (congrArg (fun w => Host.Outcome.next (commit s w))
      (doLeaderTakeover_due (w := s.world) hj hr hn)), rfl, ?_, ?_, ?_, ?_⟩
    · exact (Dev.event_fld _ _ _ _ _ _ _ (by decide) (by decide) _ _).trans hrole
    · exact (Dev.event_fld _ _ _ _ _ _ _ (by decide) (by decide) _ _).trans hlead
    · exact (Dev.event_fld _ _ _ _ _ _ _ (by decide) (by decide) _ _).trans hnext
    · exact (Dev.event_fld _ _ _ _ _ _ _ (by decide) (by decide) _ _).trans hlost
  · refine runLive_eq_dev hl ?_
    refine if_pos ?_
    rw [show s.world.d = s.dev from rfl, hh, hs, decide_eq_true ha]
    rfl
  · obtain ⟨hper, hgu, hse⟩ := s.dev.applyCfg_spec hp hg hl'
    exact ⟨_, (runLive_live hl doFretConfigApply).trans (congrArg (fun w => Host.Outcome.next (commit s w))
      (doFretConfigApply_due (w := s.world) hc hn hlat)), rfl, hper, hgu, hse, rfl⟩
  · intro i s hl ha hb hn hlat d
    have hgo := doCtxStartFret_starts (w := s.world) ha hb hn hlat (World.ckptByService_ft _ i)
    refine ⟨(runLive_live hl (doCtxStartFret i)).trans (congrArg (fun w => Host.Outcome.next (commit s w)) hgo), fun hs => ?_⟩
    exact runLive_eq_dev hl (hgo.trans (World.ckptByService_off hs))

end Sys2Proof.Machine
end

section
/-! SUPPORT and PROOFS. Routines: what the next instruction leaves, and the instructions that write a scalar register (R149). -/

namespace Sys2Proof.Machine

/-! ## The next instruction -/

theorem World.finish_regs (w : World) (j : Job) : (w.finish j).d.regs = w.d.regs := rfl

theorem World.unitFault_regs (w : World) (j : Job) (st : W16) : (w.unitFault j st).d.regs = w.d.regs := by
  unfold World.unitFault
  simp only [World.log_d, Dev.logEntry_regs, World.onDev_d, Dev.stopCtx, Dev.onCtx_regs, World.finish_regs]

theorem World.unitFault_mem (w : World) (j : Job) (st : W16) : (w.unitFault j st).mem = w.mem := rfl
theorem World.unitFault_wr (w : World) (j : Job) (st : W16) : (w.unitFault j st).wr = w.wr := rfl

/-- What a stop of a routine writes to CC_FAULT_INFO. -/
def ccFaultInfo (w : World) (c : Nat) (r : Routine) : W64 :=
  BitVec.ofNat 64 ((r.set <<< 48) + ((r.pc % 4096) <<< 32) + w.d.fld (CC_POS c r.set) 31 0)

theorem World.ccStop_fst (w : World) (c : Nat) (r : Routine) (bit : Nat) : (w.ccStop c r bit).1 =
    ((w.setBit (CC_FAULT c) bit).setReg (CC_FAULT_INFO c) (ccFaultInfo (w.setBit (CC_FAULT c) bit) c r)).onRoutine c none := rfl

theorem World.onRoutine_regs (w : World) (c : Nat) (f : Option Routine) : (w.onRoutine c f).d.regs = w.d.regs := rfl

/-- A routine that stops reports in CC_FAULT and CC_FAULT_INFO, and nowhere else. -/
theorem World.ccFault_rget (w : World) (c : Nat) (r : Routine) (bit : Nat) (st : W16) {a : Nat} (hf : a ≠ CC_FAULT c)
    (hi : a ≠ CC_FAULT_INFO c) : rget (w.ccFault c r bit st).d.regs a = rget w.d.regs a := by
  have hstop : rget (w.ccStop c r bit).1.d.regs a = rget w.d.regs a := by
    rw [World.ccStop_fst, World.onRoutine_regs, World.setReg_d, Dev.setReg_rget_ne _ _ hi, World.setBit_d, Dev.setBit_rget_ne _ _ hf]
  unfold World.ccFault
  split
  · next v j hv =>
    rw [hv] at hstop
    rw [World.unitFault_regs]
    exact hstop
  · next v hv =>
    rw [hv] at hstop
    exact hstop

theorem World.ccFault_mem (w : World) (c : Nat) (r : Routine) (bit : Nat) (st : W16) : (w.ccFault c r bit st).mem = w.mem := by
  have hstop : (w.ccStop c r bit).1.mem = w.mem := rfl
  unfold World.ccFault
  split
  · next v j hv => rw [World.unitFault_mem]; rw [hv] at hstop; exact hstop
  · next v hv => rw [hv] at hstop; exact hstop

theorem World.ccFault_wr (w : World) (c : Nat) (r : Routine) (bit : Nat) (st : W16) : (w.ccFault c r bit st).wr = w.wr := by
  have hstop : (w.ccStop c r bit).1.wr = w.wr := rfl
  unfold World.ccFault
  split
  · next v j hv => rw [World.unitFault_wr]; rw [hv] at hstop; exact hstop
  · next v hv => rw [hv] at hstop; exact hstop

/-- What is kept by a routine's stop and by its going on is kept by its next instruction. -/
theorem World.ccNext_keeps {P : World → Prop} (w : World) (c : Nat) (r : Routine) (pc : Nat) (loops : List LoopSt)
    (hf : ∀ r bit st, P (w.ccFault c r bit st)) (hr : ∀ r, P (w.onRoutine c r)) : P (w.ccNext c r pc loops) := by
  unfold World.ccNext World.ccCheck
  dsimp only
  split
  · exact hf _ _ _
  · split
    · exact hf _ _ _
    · exact hr _

theorem World.ccNext_rget (w : World) (c : Nat) (r : Routine) (pc : Nat) (loops : List LoopSt) {a : Nat} (hf : a ≠ CC_FAULT c)
    (hi : a ≠ CC_FAULT_INFO c) : rget (w.ccNext c r pc loops).d.regs a = rget w.d.regs a :=
  World.ccNext_keeps (P := fun v => rget v.d.regs a = rget w.d.regs a) w c r pc loops (fun r bit st => w.ccFault_rget c r bit st hf hi)
    (fun _ => rfl)

theorem World.ccNext_mem (w : World) (c : Nat) (r : Routine) (pc : Nat) (loops : List LoopSt) : (w.ccNext c r pc loops).mem = w.mem :=
  World.ccNext_keeps (P := fun v => v.mem = w.mem) w c r pc loops (fun r bit st => w.ccFault_mem c r bit st) (fun _ => rfl)

theorem World.ccNext_wr (w : World) (c : Nat) (r : Routine) (pc : Nat) (loops : List LoopSt) : (w.ccNext c r pc loops).wr = w.wr :=
  World.ccNext_keeps (P := fun v => v.wr = w.wr) w c r pc loops (fun r bit st => w.ccFault_wr c r bit st) (fun _ => rfl)

/-! ## Scalar registers -/

theorem CC_SREG_ne_fault (c n k : Nat) : CC_SREG c n k ≠ CC_FAULT c ∧ CC_SREG c n k ≠ CC_FAULT_INFO c := by
  unfold CC_SREG CC_FAULT CC_FAULT_INFO
  omega

theorem sreg_congr {d e : Dev} {c n k : Nat} (h : rget d.regs (CC_SREG c n k) = rget e.regs (CC_SREG c n k)) : d.sreg c n k = e.sreg c n k := by
  unfold Dev.sreg
  rw [h]

theorem Dev.setSreg_rget_ne (d : Dev) {c n k a : Nat} (v : W64) (h : a ≠ CC_SREG c n k) : rget (d.setSreg c n k v).regs a = rget d.regs a := by
  unfold Dev.setSreg
  split
  · rfl
  · exact Dev.setReg_rget_ne _ _ h

theorem World.ccNext_sreg (w : World) (c : Nat) (r : Routine) (pc : Nat) (loops : List LoopSt) (n k : Nat) :
    (w.ccNext c r pc loops).d.sreg c n k = w.d.sreg c n k :=
  sreg_congr (w.ccNext_rget c r pc loops (CC_SREG_ne_fault c n k).1 (CC_SREG_ne_fault c n k).2)

/-- A scalar register is written and the routine goes on. -/
theorem setSreg_wrote {s : State} {c n : Nat} {r : Routine} (rd : Fin 32) (v : W64) (pc : Nat) (loops : List LoopSt) :
    wroteReg s (commit s ((s.world.onDev (fun d => d.setSreg c n rd.val v)).ccNext c r pc loops)) c n rd v.toNat := by
  refine ⟨?_, fun k hk => ?_, fun a ha hf hi => ?_, commit_mem_nil (World.ccNext_wr ..)⟩
  · rw [commit_dev, World.ccNext_sreg, World.onDev_d, sreg_setSreg_self]
    split <;> rfl
  · rw [commit_dev, World.ccNext_sreg, World.onDev_d]
    refine sreg_congr (Dev.setSreg_rget_ne _ _ ?_)
    have hne : k.val ≠ rd.val := fun h => hk (Fin.ext h)
    unfold CC_SREG
    omega
  · rw [commit_dev, World.ccNext_rget _ _ _ _ _ hf hi, World.onDev_d]
    exact Dev.setSreg_rget_ne _ _ ha

/-- An instruction that writes rd, at the routine's pc. -/
theorem ccReg_wrote {s : State} {c word : Nat} {r : Routine} (h : s.ccAt c word r) (rd : Fin 32) (f : (Fin 32 → W64) → W64) :
    ∃ t, runLive s (fun w => w.ccReg c word rd f) = .next t ∧ wroteReg s t c r.set rd (f (fun k => s.dev.sreg c r.set k.val)).toNat := by
  have hat : s.world.d.ccAt c word = some r := h.2
  refine ⟨_, (runLive_live h.1 _).trans ?_, setSreg_wrote (r := r) rd _ (r.pc + 1) r.loops⟩
  refine congrArg (fun w => Host.Outcome.next (commit s w)) ?_
  show s.world.ccReg c word rd f = _
  unfold World.ccReg
  rw [hat]
  rfl

theorem ccT_wrote {op : Nat} {f : W64 → W64 → W64} {g : W64 → W64 → Nat} (hfg : ∀ a b, (f a b).toNat = g a b) {s : State} {c : Nat}
    {rd ra rb : Fin 32} {r : Routine} (h : s.ccAt c (encT op rd ra rb) r) :
    ∃ t, runLive s (fun w => w.ccT c op rd ra rb f) = .next t ∧
      wroteReg s t c r.set rd (g (s.dev.sreg c r.set ra.val) (s.dev.sreg c r.set rb.val)) := by
  obtain ⟨t, ht, hw⟩ := ccReg_wrote h rd (fun x => f (x ra) (x rb))
  exact ⟨t, ht, hfg _ _ ▸ hw⟩

theorem ccI_wrote {op : Nat} {imm : W16} {f : W64 → W64} {g : W64 → Nat} (hfg : ∀ a, (f a).toNat = g a) {s : State} {c : Nat}
    {rd ra : Fin 32} {r : Routine} (h : s.ccAt c (encI op rd ra imm) r) :
    ∃ t, runLive s (fun w => w.ccI c op rd ra imm f) = .next t ∧ wroteReg s t c r.set rd (g (s.dev.sreg c r.set ra.val)) := by
  obtain ⟨t, ht, hw⟩ := ccReg_wrote h rd (fun x => f (x ra))
  exact ⟨t, ht, hfg _ ▸ hw⟩

/-! ## The results, as numbers (R149) -/

theorem boolWord_toNat (b : Bool) : (boolWord b).toNat = if b then 1 else 0 := by cases b <;> rfl

theorem sub_toNat (a b : W64) : (a - b).toNat = (2 ^ 64 + a.toNat - b.toNat) % 2 ^ 64 := by
  rw [BitVec.toNat_sub]
  have := b.isLt
  congr 1
  omega

theorem shiftLeft_toNat (a : W64) (n : Nat) : (a <<< n).toNat = a.toNat * 2 ^ n % 2 ^ 64 := by
  rw [BitVec.toNat_shiftLeft, Nat.shiftLeft_eq]

theorem ushiftRight_toNat (a : W64) (n : Nat) : (a >>> n).toNat = a.toNat / 2 ^ n := by
  rw [BitVec.toNat_ushiftRight, Nat.shiftRight_eq_div_pow]

theorem sshiftRight_toNat (a : W64) (n : Nat) : (a.sshiftRight n).toNat = ((a.toInt / 2 ^ n) % 2 ^ 64).toNat := by
  rw [BitVec.sshiftRight, BitVec.toNat_ofInt, Int.shiftRight_eq_div_pow]
  norm_cast

theorem slt_toNat (a b : W64) : (boolWord (a.slt b)).toNat = if a.toInt < b.toInt then 1 else 0 := by
  rw [boolWord_toNat, BitVec.slt]
  simp only [decide_eq_true_eq]

theorem ult_toNat (a b : W64) : (boolWord (a.ult b)).toNat = if a.toNat < b.toNat then 1 else 0 := by
  rw [boolWord_toNat, BitVec.ult]
  simp only [decide_eq_true_eq]

theorem mulhu_toNat (a b : W64) : (BitVec.ofNat 64 (a.toNat * b.toNat / 2 ^ 64)).toNat = a.toNat * b.toNat / 2 ^ 64 := by
  refine Nat.mod_eq_of_lt (Nat.div_lt_of_lt_mul ?_)
  exact Nat.mul_lt_mul'' a.isLt b.isLt

theorem ite_slt_toNat (a b x y : W64) : (if a.slt b then x else y).toNat = if a.toInt < b.toInt then x.toNat else y.toNat := by
  rw [apply_ite BitVec.toNat, BitVec.slt]
  simp only [decide_eq_true_eq]

/-- Settles O32: each instruction writes rd by `ccT_wrote`, its result as a number. -/
theorem registerInstructionsCompute : Obligations.RegisterInstructionsCompute := by
  unfold Obligations.RegisterInstructionsCompute ccTTable
  simp only [List.forall_mem_cons, List.not_mem_nil, false_imp_iff, implies_true, and_true]
  refine ⟨fun c rd ra rb s r h => ccT_wrote BitVec.toNat_add h, fun c rd ra rb s r h => ccT_wrote sub_toNat h,
    fun c rd ra rb s r h => ccT_wrote BitVec.toNat_and h, fun c rd ra rb s r h => ccT_wrote BitVec.toNat_or h,
    fun c rd ra rb s r h => ccT_wrote BitVec.toNat_xor h,
    fun c rd ra rb s r h => ccT_wrote (fun a b => shiftLeft_toNat a (shamt b)) h,
    fun c rd ra rb s r h => ccT_wrote (fun a b => ushiftRight_toNat a (shamt b)) h,
    fun c rd ra rb s r h => ccT_wrote (fun a b => sshiftRight_toNat a (shamt b)) h,
    fun c rd ra rb s r h => ccT_wrote slt_toNat h, fun c rd ra rb s r h => ccT_wrote ult_toNat h,
    fun c rd ra rb s r h => ccT_wrote BitVec.toNat_mul h, fun c rd ra rb s r h => ccT_wrote mulhu_toNat h,
    fun c rd ra rb s r h => ccT_wrote (fun a b => ite_slt_toNat a b a b) h,
    fun c rd ra rb s r h => ccT_wrote (fun a b => ite_slt_toNat a b b a) h,
    fun c rd ra rb s r h => ccT_wrote (fun a b => boolWord_toNat _) h,
    fun c rd ra rb s r h => ccT_wrote (fun a b => boolWord_toNat _) h,
    fun c rd ra rb s r h => ccT_wrote (fun a b => boolWord_toNat _) h⟩

theorem zext_toNat (imm : W16) : (zext imm).toNat = imm.toNat := by
  rw [zext, BitVec.toNat_setWidth]
  have := imm.isLt
  omega

theorem sext_eq (imm : W16) : sext imm = BitVec.ofInt 64 imm.toInt := by
  rw [← BitVec.ofInt_toInt (x := sext imm), sext, BitVec.toInt_signExtend_of_le (by decide)]

theorem add_sext_toNat (a : W64) (imm : W16) : (a + sext imm).toNat = ((a.toInt + imm.toInt) % 2 ^ 64).toNat := by
  have h : a + sext imm = BitVec.ofInt 64 (a.toInt + imm.toInt) := by
    rw [BitVec.ofInt_add, BitVec.ofInt_toInt, sext_eq]
  rw [h, BitVec.toNat_ofInt]
  norm_cast

theorem sext_shiftLeft_toNat (imm : W16) : (sext imm <<< 16).toNat = ((imm.toInt * 2 ^ 16) % 2 ^ 64).toNat := by
  have h : sext imm <<< 16 = BitVec.ofInt 64 (imm.toInt * 2 ^ 16) := by
    rw [BitVec.shiftLeft_eq_mul_twoPow, BitVec.ofInt_mul, sext_eq]
    rfl
  rw [h, BitVec.toNat_ofInt]
  norm_cast

theorem and_zext_toNat (a : W64) (imm : W16) : (a &&& zext imm).toNat = a.toNat &&& imm.toNat := by rw [BitVec.toNat_and, zext_toNat]
theorem or_zext_toNat (a : W64) (imm : W16) : (a ||| zext imm).toNat = a.toNat ||| imm.toNat := by rw [BitVec.toNat_or, zext_toNat]
theorem xor_zext_toNat (a : W64) (imm : W16) : (a ^^^ zext imm).toNat = a.toNat ^^^ imm.toNat := by rw [BitVec.toNat_xor, zext_toNat]

theorem shlori_toNat (a : W64) (imm : W16) : ((a <<< 16) ||| zext imm).toNat = (a.toNat * 2 ^ 16 % 2 ^ 64) ||| imm.toNat := by
  rw [or_zext_toNat, shiftLeft_toNat]

/-- Settles O33: each instruction writes rd by `ccI_wrote`; RDSP writes the special value. -/
theorem immediateInstructionsCompute : Obligations.ImmediateInstructionsCompute := by
  unfold Obligations.ImmediateInstructionsCompute ccITable
  refine ⟨?_, fun c rd imm s r h => ccI_wrote (fun _ => sext_shiftLeft_toNat imm) h, fun c rd ra imm s r h => ?_⟩
  · simp only [List.forall_mem_cons, List.not_mem_nil, false_imp_iff, implies_true, and_true]
    exact ⟨fun c rd ra imm s r h => ccI_wrote (fun a => add_sext_toNat a imm) h,
      fun c rd ra imm s r h => ccI_wrote (fun a => and_zext_toNat a imm) h,
      fun c rd ra imm s r h => ccI_wrote (fun a => or_zext_toNat a imm) h,
      fun c rd ra imm s r h => ccI_wrote (fun a => xor_zext_toNat a imm) h,
      fun c rd ra imm s r h => ccI_wrote (fun a => shiftLeft_toNat a (shimm imm)) h,
      fun c rd ra imm s r h => ccI_wrote (fun a => ushiftRight_toNat a (shimm imm)) h,
      fun c rd ra imm s r h => ccI_wrote (fun a => sshiftRight_toNat a (shimm imm)) h,
      fun c rd ra imm s r h => ccI_wrote (fun a => shlori_toNat a imm) h⟩
  · have hat : s.world.d.ccAt c.val (encI 0x3A rd ra imm) = some r := h.2
    have hv := setSreg_wrote (s := s) (c := c.val) (n := r.set) (r := r) rd
      (BitVec.ofNat 64 (s.dev.special c.val r (imm.toNat % 8))) (r.pc + 1) r.loops
    rw [BitVec.toNat_ofNat] at hv
    refine ⟨_, (runLive_live h.1 (doCcRdsp c rd ra imm)).trans (congrArg (fun w => Host.Outcome.next (commit s w)) ?_), hv⟩
    show doCcRdsp c rd ra imm s.world = _
    unfold doCcRdsp
    rw [hat]
    rfl

/-- Settles O34: s0 reads zero by its definition, and O32 says what an instruction whose rd is s0 leaves. -/
theorem s0ReadsZero : Obligations.S0ReadsZero := by
  unfold Obligations.S0ReadsZero
  refine ⟨fun s c n => rfl, fun e he c ra rb k s t r h hexec => ?_⟩
  obtain ⟨t', ht', hrd, hothers, -⟩ := registerInstructionsCompute e he c 0 ra rb s r h
  obtain rfl : t' = t := Host.Outcome.next.inj (ht'.symm.trans hexec)
  by_cases hk : k = 0
  · subst hk
    rfl
  · exact hothers k hk

/-! ## Branches -/

theorem ccB_next {s : State} {c op : Nat} {ra rb : Fin 32} {off : W16} {r : Routine} (h : s.ccAt c (encI op ra rb off) r)
    (p : W64 → W64 → Bool) : runLive s (fun w => w.ccB c op ra rb off p) = .next (commit s (s.world.ccNext c r
      (if p (s.dev.sreg c r.set ra.val) (s.dev.sreg c r.set rb.val) then r.pc + off.toNat else r.pc + 1) r.loops)) := by
  have hat : s.world.d.ccAt c (encI op ra rb off) = some r := h.2
  refine (runLive_live h.1 _).trans (congrArg (fun w => Host.Outcome.next (commit s w)) ?_)
  show s.world.ccB c op ra rb off p = _
  unfold World.ccB
  rw [hat]
  rfl

theorem ccJmp_next {s : State} {c : Fin 96} {off : W16} {r : Routine} (h : s.ccAt c.val (encI 0x36 0 0 off) r) :
    exec (.ccJmp c off) s = .next (commit s (s.world.ccNext c.val r (r.pc + off.toNat) r.loops)) := by
  have hexec : exec (.ccJmp c off) s = runLive s (fun w => w.ccB c.val 0x36 0 0 off (fun _ _ => true)) := rfl
  rw [hexec, ccB_next h]
  exact congrArg (fun pc => Host.Outcome.next (commit s (s.world.ccNext c.val r pc r.loops))) (if_pos rfl)

/-- A routine in no loop goes on where its next instruction is good and its cost fits. -/
theorem World.ccNext_goes {w : World} {c : Nat} {r : Routine} {pc : Nat} (hl : r.loops = []) (hok : ccInstrOk r.code r.wmask r.rmask pc = true)
    (hc : r.cost + ((ccOp (ccOpcode (ccWord r.code r.pc))).map (·.cost)).getD 0 +
      ((ccOp (ccOpcode (ccWord r.code pc))).map (·.cost)).getD 0 ≤ r.wc) :
    w.ccNext c r pc r.loops = w.onRoutine c (some { r with
      pc := pc, cost := r.cost + ((ccOp (ccOpcode (ccWord r.code r.pc))).map (·.cost)).getD 0 }) := by
  unfold World.ccNext
  rw [hl]
  dsimp only [ccLoopEnd]
  unfold World.ccCheck
  dsimp only
  rw [if_neg (by rw [hok]; decide), if_neg (by omega), ← hl]

theorem World.onRoutine_routine (w : World) (c : Nat) (f : Option Routine) : ((w.onRoutine c f).d.course c).routine = f := by
  unfold World.onRoutine Dev.onCourse Dev.setCourse Dev.course
  rw [World.onDev_d, tget_tput_self]

/-- The opcode of an instruction word. -/
theorem ccOpcode_encI {op : Nat} (ho : op < 64) (rd ra : Fin 32) (imm : W16) : ccOpcode (encI op rd ra imm) = op := by
  have := imm.isLt
  unfold ccOpcode encI
  simp only [bitsOf, Nat.shiftRight_eq_div_pow, Nat.shiftLeft_eq]
  omega

theorem ccAt_word {s : State} {c word : Nat} {r : Routine} (h : s.ccAt c word r) : ccWord r.code r.pc = word := by
  have hat : s.dev.ccAt c word = some r := h.2
  unfold Dev.ccAt at hat
  split at hat
  · next q hq =>
    split at hat
    · next hw =>
      obtain rfl := Option.some.inj hat
      exact hw.2
    · exact absurd hat (by simp)
  · exact absurd hat (by simp)

/-- What a branch leaves. -/
theorem branch_spec {s : State} {c op : Nat} {ra rb : Fin 32} {off : W16} {r : Routine} (ho : op < 64)
    (hcost : ((ccOp op).map (·.cost)).getD 0 = 2) {p q : W64 → W64 → Bool} (hpq : ∀ a b, p a b = q a b)
    (h : s.ccAt c (encI op ra rb off) r) :
    let pc := if q (s.dev.sreg c r.set ra.val) (s.dev.sreg c r.set rb.val) then r.pc + off.toNat else r.pc + 1
    ∃ t, runLive s (fun w => w.ccB c op ra rb off p) = .next t ∧ t = commit s (s.world.ccNext c r pc r.loops) ∧ t.mem = s.mem ∧
      (∀ a, a ≠ CC_FAULT c → a ≠ CC_FAULT_INFO c → rget t.dev.regs a = rget s.dev.regs a) ∧
      (r.loops = [] → ccInstrOk r.code r.wmask r.rmask pc = true →
        r.cost + 2 + ((ccOp (ccOpcode (ccWord r.code pc))).map (·.cost)).getD 0 ≤ r.wc →
        (t.dev.course c).routine = some { r with pc := pc, cost := r.cost + 2 }) := by
  intro pc
  have hword : ((ccOp (ccOpcode (ccWord r.code r.pc))).map (·.cost)).getD 0 = 2 := by
    rw [ccAt_word h, ccOpcode_encI ho, hcost]
  have hexec := ccB_next h p
  rw [hpq] at hexec
  refine ⟨_, hexec, rfl, commit_mem_nil (World.ccNext_wr ..), fun a hf hi => World.ccNext_rget _ _ _ _ _ hf hi, fun hl hok hc => ?_⟩
  rw [commit_dev, World.ccNext_goes hl hok (by rw [hword]; exact hc), World.onRoutine_routine, hword]

theorem not_slt (a b : W64) : (!a.slt b) = decide (b.toInt ≤ a.toInt) := by
  rw [BitVec.slt, ← decide_not]
  exact decide_eq_decide.2 Int.not_lt

theorem not_ult (a b : W64) : (!a.ult b) = decide (b.toNat ≤ a.toNat) := by
  rw [BitVec.ult, ← decide_not]
  exact decide_eq_decide.2 Nat.not_lt

/-- Settles O35: each branch by `branch_spec`, JMP by `ccB_next`. -/
theorem branchesChooseTheNextInstruction : Obligations.BranchesChooseTheNextInstruction := by
  unfold Obligations.BranchesChooseTheNextInstruction ccBTable
  refine ⟨?_, fun c off s r h => ccJmp_next h⟩
  simp only [List.forall_mem_cons, List.not_mem_nil, false_imp_iff, implies_true, and_true]
  refine ⟨fun c ra rb off s r h => ?_, fun c ra rb off s r h => ?_, fun c ra rb off s r h => ?_, fun c ra rb off s r h => ?_,
    fun c ra rb off s r h => ?_, fun c ra rb off s r h => ?_⟩
  · exact branch_spec (op := 0x30) (q := fun a b => a == b)
      (p := fun a b => a == b) (by decide) (by decide) (fun _ _ => rfl) h
  · exact branch_spec (op := 0x31) (q := fun a b => a != b)
      (p := fun a b => a != b) (by decide) (by decide) (fun _ _ => rfl) h
  · exact branch_spec (op := 0x32) (q := fun a b => decide (a.toInt < b.toInt))
      (p := fun a b => a.slt b) (by decide) (by decide) (fun _ _ => rfl) h
  · exact branch_spec (op := 0x33) (q := fun a b => decide (b.toInt ≤ a.toInt))
      (p := fun a b => !a.slt b) (by decide) (by decide) not_slt h
  · exact branch_spec (op := 0x34) (q := fun a b => decide (a.toNat < b.toNat))
      (p := fun a b => a.ult b) (by decide) (by decide) (fun _ _ => rfl) h
  · exact branch_spec (op := 0x35) (q := fun a b => decide (b.toNat ≤ a.toNat))
      (p := fun a b => !a.ult b) (by decide) (by decide) not_ult h

end Sys2Proof.Machine
end

section
/-! SUPPORT and PROOFS. Loads and stores of a routine (R153, R163), a routine's start, and SET_PRED (R94). -/

namespace Sys2Proof.Machine

/-! ## Loads and stores -/

theorem leBytes_length (n x : Nat) : (leBytes n x).length = n := by
  induction n generalizing x with
  | zero => rfl
  | succ n ih => rw [leBytes, List.length_cons, ih]

theorem leBytes_mod (n x : Nat) : leBytes n (x % 2 ^ (8 * n)) = leBytes n x := by
  induction n generalizing x with
  | zero => rfl
  | succ n ih =>
    have hp : 2 ^ (8 * (n + 1)) = 256 * 2 ^ (8 * n) := by rw [Nat.mul_add, Nat.pow_add, Nat.mul_comm]
    have hlow : x % 2 ^ (8 * (n + 1)) % 256 = x % 256 := by rw [hp, Nat.mod_mul_right_mod]
    have hhigh : x % 2 ^ (8 * (n + 1)) / 256 = x / 256 % 2 ^ (8 * n) := by rw [hp, Nat.mod_mul_right_div_self]
    rw [leBytes, leBytes, hlow, hhigh, ih]

/-- Where a load or store of a routine goes: what `ccMem` does with a good block of the own course store. -/
theorem World.ccMem_load {w : World} {c op n : Nat} {rd ra : Fin 32} {imm : W16} {bad : Bool} {r : Routine}
    (hat : w.d.ccAt c (encI op rd ra imm) = some r)
    (hp : ccPlace c r.ctx (w.d.sreg c r.set ra.val + sext imm).toNat n = .store)
    (hf : w.failing (if bad then [blockOf (w.d.sreg c r.set ra.val + sext imm).toNat] else [])
      (blockOf (w.d.sreg c r.set ra.val + sext imm).toNat) = false)
    (hq : w.poisoned (blockOf (w.d.sreg c r.set ra.val + sext imm).toNat) = false) :
    w.ccMem c op n false rd ra imm bad = (w.onDev (fun d => d.setSreg c r.set rd.val
      (BitVec.ofNat 64 (leNat (readBytes w.mem (w.d.sreg c r.set ra.val + sext imm).toNat n))))).ccNext c r (r.pc + 1) r.loops := by
  unfold World.ccMem
  rw [hat]
  dsimp only
  rw [hp]
  dsimp only
  rw [if_neg (by rw [hf]; decide), if_neg (by rw [hq]; decide), if_neg (by decide)]

theorem World.ccMem_store {w : World} {c op n : Nat} {rd ra : Fin 32} {imm : W16} {bad : Bool} {r : Routine}
    (hat : w.d.ccAt c (encI op rd ra imm) = some r)
    (hp : ccPlace c r.ctx (w.d.sreg c r.set ra.val + sext imm).toNat n = .store)
    (hf : w.failing (if bad then [blockOf (w.d.sreg c r.set ra.val + sext imm).toNat] else [])
      (blockOf (w.d.sreg c r.set ra.val + sext imm).toNat) = false)
    (hq : w.poisoned (blockOf (w.d.sreg c r.set ra.val + sext imm).toNat) = false) :
    w.ccMem c op n true rd ra imm bad = (w.put (.data (w.d.sreg c r.set ra.val + sext imm).toNat
      (leBytes n (w.d.sreg c r.set rd.val).toNat))).ccNext c r (r.pc + 1) r.loops := by
  unfold World.ccMem
  rw [hat]
  dsimp only
  rw [hp]
  dsimp only
  rw [if_neg (by rw [hf]; decide), if_neg (by rw [hq]; decide), if_pos rfl, leBytes_mod]

theorem World.ccMem_window {w : World} {c op n : Nat} {rd ra : Fin 32} {imm : W16} {bad : Bool} {r : Routine} {x : W64}
    (hat : w.d.ccAt c (encI op rd ra imm) = some r)
    (hp : ccPlace c r.ctx (w.d.sreg c r.set ra.val + sext imm).toNat n = .window)
    (hx : w.d.readReg (offOf (w.d.sreg c r.set ra.val + sext imm).toNat) = some x) :
    w.ccMem c op n false rd ra imm bad = (w.onDev (fun d => d.setSreg c r.set rd.val (BitVec.ofNat 64 x.toNat))).ccNext c r (r.pc + 1)
      r.loops := by
  unfold World.ccMem
  rw [hat]
  dsimp only
  rw [hp]
  dsimp only
  rw [if_neg (by decide), hx]

theorem ccLoad_wrote {s : State} {c op n : Nat} {rd ra : Fin 32} {imm : W16} {bad : Bool} {r : Routine} (h : s.ccAt c (encI op rd ra imm) r)
    (hp : ccPlace c r.ctx (ccAddr s c r ra imm) n = .store)
    (hf : s.world.failing (if bad then [blockOf (ccAddr s c r ra imm)] else []) (blockOf (ccAddr s c r ra imm)) = false)
    (hq : s.world.poisoned (blockOf (ccAddr s c r ra imm)) = false) :
    ∃ t, runLive s (fun w => w.ccMem c op n false rd ra imm bad) = .next t ∧
      wroteReg s t c r.set rd (leNat (readBytes s.mem (ccAddr s c r ra imm) n) % 2 ^ 64) := by
  have hv := setSreg_wrote (s := s) (c := c) (n := r.set) (r := r) rd (BitVec.ofNat 64 (leNat (readBytes s.mem (ccAddr s c r ra imm) n)))
    (r.pc + 1) r.loops
  rw [BitVec.toNat_ofNat] at hv
  exact ⟨_, (runLive_live h.1 _).trans (congrArg (fun w => Host.Outcome.next (commit s w))
    (World.ccMem_load (w := s.world) h.2 hp hf hq)), hv⟩

theorem ccStore_stored {s : State} {c op n : Nat} {rd ra : Fin 32} {imm : W16} {bad : Bool} {r : Routine} (h : s.ccAt c (encI op rd ra imm) r)
    (hm : s.memInv) (hp : ccPlace c r.ctx (ccAddr s c r ra imm) n = .store)
    (hf : s.world.failing (if bad then [blockOf (ccAddr s c r ra imm)] else []) (blockOf (ccAddr s c r ra imm)) = false)
    (hq : s.world.poisoned (blockOf (ccAddr s c r ra imm)) = false) :
    ∃ t, runLive s (fun w => w.ccMem c op n true rd ra imm bad) = .next t ∧
      readBytes t.mem (ccAddr s c r ra imm) n = leBytes n (s.dev.sreg c r.set rd.val).toNat ∧
      (∀ x, x < ccAddr s c r ra imm ∨ ccAddr s c r ra imm + n ≤ x → readByte t.mem x = readByte s.mem x) ∧
      (∀ k : Fin 32, t.dev.sreg c r.set k.val = s.dev.sreg c r.set k.val) := by
  have hmem : (commit s ((s.world.put (.data (ccAddr s c r ra imm) (leBytes n (s.dev.sreg c r.set rd.val).toNat))).ccNext c r (r.pc + 1)
      r.loops)).mem = applyWr s.mem (.data (ccAddr s c r ra imm) (leBytes n (s.dev.sreg c r.set rd.val).toNat)) := by
    rw [commit_mem, World.ccNext_wr]
    rfl
  have hlen := leBytes_length n (s.dev.sreg c r.set rd.val).toNat
  refine ⟨_, (runLive_live h.1 _).trans (congrArg (fun w => Host.Outcome.next (commit s w))
    (World.ccMem_store (w := s.world) h.2 hp hf hq)), ?_, fun x hx => ?_, fun k => ?_⟩
  · refine (congrArg (readBytes · (ccAddr s c r ra imm) n) hmem).trans ?_
    have hread := readBytes_of_bytes (applyWr_wf s.mem (.data (ccAddr s c r ra imm) (leBytes n (s.dev.sreg c r.set rd.val).toNat)) hm)
      (a := ccAddr s c r ra imm) (bs := leBytes n (s.dev.sreg c r.set rd.val).toNat) fun i hi => by
        rw [readByte_data, if_pos ⟨Nat.le_add_right .., by omega⟩, Nat.add_sub_cancel_left]
    rwa [hlen] at hread
  · refine (congrArg (readByte · x) hmem).trans (readByte_data_out _ _ _ ?_)
    rw [hlen]
    exact hx
  · rw [commit_dev, World.ccNext_sreg]
    rfl

/-- Settles O37: loads by `ccLoad_wrote`, stores by `ccStore_stored`, the window by `World.ccMem_window`. -/
theorem loadsAndStoresMoveBytes : Obligations.LoadsAndStoresMoveBytes := by
  unfold Obligations.LoadsAndStoresMoveBytes
  refine ⟨?_, ?_, fun c rd ra imm bad s r x h hp hx => ?_⟩
  · intro c rd ra imm bad s r n h a hp hf hq
    rcases h with ⟨rfl, h⟩ | ⟨rfl, h⟩
    · exact ccLoad_wrote (op := 0x20) h hp hf hq
    · exact ccLoad_wrote (op := 0x21) h hp hf hq
  · intro c rd ra imm bad s r n h hm a hp hf hq
    rcases h with ⟨rfl, h⟩ | ⟨rfl, h⟩
    · exact ccStore_stored (op := 0x22) h hm hp hf hq
    · exact ccStore_stored (op := 0x23) h hm hp hf hq
  · have hv := setSreg_wrote (s := s) (c := c.val) (n := r.set) (r := r) rd (BitVec.ofNat 64 x.toNat) (r.pc + 1) r.loops
    rw [BitVec.toNat_ofNat, Nat.mod_eq_of_lt x.isLt] at hv
    exact ⟨_, (runLive_live h.1 (doCcLd c rd ra imm bad)).trans (congrArg (fun w => Host.Outcome.next (commit s w))
      (World.ccMem_window (w := s.world) h.2 hp hx)), hv⟩

/-! ## Lines -/

/-- A line of a course after one line of it was changed. -/
theorem lineAt_onLine_self (d : Dev) (c i : Nat) (f : LineSt → LineSt) : lineAt ((d.onLine c i f).course c) i = (lineAt (d.course c) i).map f := by
  unfold Dev.onLine Dev.onCourse Dev.setCourse Dev.course lineAt
  rw [tget_tput_self, List.getElem?_modify_eq]
  rfl

theorem lineAt_onLine_ne (d : Dev) (c : Nat) {i k : Nat} (f : LineSt → LineSt) (h : k ≠ i) :
    lineAt ((d.onLine c i f).course c) k = lineAt (d.course c) k := by
  unfold Dev.onLine Dev.onCourse Dev.setCourse Dev.course lineAt
  rw [tget_tput_self]
  exact List.getElem?_modify_ne _ _ (Ne.symm h)

theorem lineAt_congr {d e : Dev} (h : d.courses = e.courses) (c i : Nat) : lineAt (d.course c) i = lineAt (e.course c) i :=
  congrArg (fun t => lineAt (tget Course.init t c) i) h

/-- What a line that its unit may work on is. -/
theorem World.ready_spec {w : World} {c i unit : Nat} {j : Job} (h : w.ready c i unit = some j) :
    j.course = c ∧ j.idx = i ∧ ∃ l, lineAt (w.d.course c) i = some l ∧ l.phase = .launched ∧ j.ln = l.ln ∧ j.prog = l.prog ∧ l.ln.unit = unit := by
  unfold World.ready at h
  split at h
  · next l q hl hj =>
    split at h
    · next hw =>
      obtain rfl := Option.some.inj h
      unfold Dev.jobOf at hj
      rw [hl] at hj
      split at hj
      · next l' ctx hl' hr =>
        obtain rfl := Option.some.inj hl'
        obtain rfl := Option.some.inj hj
        exact ⟨rfl, rfl, _, hl, hw.1, rfl, rfl, hw.2.1⟩
      · exact absurd hj (by simp)
    · exact absurd h (by simp)
  · exact absurd h (by simp)

/-- A unit's command whose work may go on. -/
theorem runWork_go {s : State} {k : Work} {f : World → World} {w : World} (hl : s.live) (hf : f s.world = w) (hgo : s.writesGo k w) :
    runWork s k f = .next (s.workDone k w) := by
  have hheld : (w.wrote s.world).filter (s.dev.writeWaits (whoLine k.course.val k.line)) = [] := by
    rw [List.filter_eq_nil_iff]
    exact fun a ha => by rw [hgo a ha]; decide
  unfold runWork
  rw [runLive_live hl]
  refine congrArg (fun w => Host.Outcome.next (commit s w)) ?_
  show s.world.work k f = _
  unfold World.work
  dsimp only
  rw [hf, show s.world.d = s.dev from rfl, hheld]
  rfl

/-- Work that writes nothing may always go on. -/
theorem writesGo_of_wr {s : State} {k : Work} {w : World} (hw : w.wr = []) : s.writesGo k w := by
  intro a ha
  have : w.wrote s.world = [] := by
    unfold World.wrote
    rw [hw]
    rfl
  rw [this] at ha
  exact absurd ha (by simp)

/-! ## A routine's start -/

theorem World.consumed_wr (w : World) (t n unit ctx : Nat) : (w.consumed t n unit ctx).wr = w.wr := by
  unfold World.consumed
  split <;> rfl

theorem World.ccCheck_wr (w : World) (c : Nat) (r : Routine) : (w.ccCheck c r).wr = w.wr := by
  unfold World.ccCheck
  split
  · exact World.ccFault_wr ..
  · dsimp only
    split
    · exact World.ccFault_wr ..
    · rfl

theorem doCcRoutine_starts {w : World} {k : Work} {j : Job} (hj : w.ready k.course.val k.line unitCc = some j)
    (hr : (w.d.course j.course).routine = none) (ht : tierOf j.ln.desc = 0) (ha : addrOk 0 j.ln.desc = true)
    (hc : courseOf j.ln.desc = j.course) (h16 : w.checkBlocks j k.bad (blocksOf j.ln.desc 16) = none)
    (hbl : w.checkBlocks j k.bad (blocksOf j.ln.desc (16 + 4 * min (ccHdr (w.seenBytes j.ln.desc 16)).len 4096)) = none) :
    doCcRoutine k w = World.ccCheck (World.progress (w.consumed (j.course / 12)
      (w.poisonCount (blocksOf j.ln.desc (16 + 4 * min (ccHdr (w.seenBytes j.ln.desc 16)).len 4096))) unitCc j.ctx) j 1) j.course
      (ccStart j (ccWords (min (ccHdr (w.seenBytes j.ln.desc 16)).len 4096)
        (w.seenBytes (j.ln.desc + 16) (4 * min (ccHdr (w.seenBytes j.ln.desc 16)).len 4096))) (ccHdr (w.seenBytes j.ln.desc 16))) := by
  have hown : (!(tierOf j.ln.desc == 0 && addrOk 0 j.ln.desc && courseOf j.ln.desc == j.course)) = false := by
    rw [ht, ha, hc]
    simp
  unfold doCcRoutine
  rw [hj]
  dsimp only
  rw [if_neg (by rw [hr]; decide), if_neg (by rw [hown]; decide), h16]
  dsimp only
  rw [hbl]

/-! ## SET_PRED -/

/-- A predicate takes a value: its register, and its line. -/
def Dev.setPred (d : Dev) (j : Job) (v : Bool) : Dev :=
  (d.setFld (CC_SET j.course j.set) (16 + j.ln.pred % 4) (16 + j.ln.pred % 4) (if v then 1 else 0)).onLine j.course j.idx
    (fun l => { l with wrote := some v })

theorem doSetPred_sets {w : World} {c : Fin 96} {line : Nat} {j : Job} (hj : w.ready c.val line unitSetPred = some j) :
    doSetPred c line w = (w.onDev (fun d => d.setPred j (w.d.condition j.word j.course j.set j.ln.desc))).finish j := by
  unfold doSetPred
  rw [hj]
  rfl

theorem Dev.setPred_fld (d : Dev) (j : Job) (v : Bool) :
    (d.setPred j v).fld (CC_SET j.course j.set) (16 + j.ln.pred % 4) (16 + j.ln.pred % 4) = if v then 1 else 0 := by
  refine (Dev.setFld_fld_self d (CC_SET j.course j.set) (if v then 1 else 0) (Nat.le_refl _) (by omega)).trans ?_
  rw [Nat.add_sub_cancel_left]
  cases v <;> rfl

theorem Dev.setPred_rget_ne (d : Dev) (j : Job) (v : Bool) {a : Nat} (ha : a ≠ CC_SET j.course j.set) :
    rget (d.setPred j v).regs a = rget d.regs a := Dev.setFld_rget_ne d _ _ _ ha

theorem World.finish_rget (w : World) (j : Job) (a : Nat) : rget (w.finish j).d.regs a = rget w.d.regs a := rfl
theorem World.finish_fld (w : World) (j : Job) (a hi lo : Nat) : (w.finish j).d.fld a hi lo = w.d.fld a hi lo := rfl

theorem World.finish_courses (w : World) (j : Job) :
    (w.finish j).d.courses = (w.d.onLine j.course j.idx (fun l => { l with phase := .worked, idle := 0 })).courses := rfl

/-- Settles O39: a routine's start by `doCcRoutine_starts`, SET_PRED by the lines' rules. -/
theorem routineAndPredicateLines : Obligations.RoutineAndPredicateLines := by
  unfold Obligations.RoutineAndPredicateLines
  refine ⟨?_, fun c line s j l hl hj hline => ?_⟩
  · intro k s j hl hj hr a h n bl ht ha hc h16 hbl r
    refine ⟨runWork_go hl (doCcRoutine_starts (w := s.world) hj hr ht ha hc h16 hbl) (writesGo_of_wr ?_), rfl, rfl, rfl, rfl, rfl⟩
    rw [World.ccCheck_wr, World.progress_wr, World.consumed_wr]
    rfl
  · obtain ⟨hc, hi, -⟩ := World.ready_spec hj
    have hrun := doSetPred_sets (w := s.world) hj
    refine ⟨_, (runLive_live hl (doSetPred c line)).trans (congrArg (fun w => Host.Outcome.next (commit s w)) hrun), commit_mem_nil rfl,
      ?_, fun a ha => ?_, ?_⟩
    · exact (World.finish_fld _ j _ _ _).trans (Dev.setPred_fld s.dev j _)
    · exact (World.finish_rget _ j _).trans (Dev.setPred_rget_ne s.dev j _ ha)
    · rw [commit_dev, lineAt_congr (World.finish_courses ..), ← hc, ← hi, lineAt_onLine_self, World.onDev_d, Dev.setPred, lineAt_onLine_self,
        hc, hi, show lineAt ((Dev.setFld s.world.d _ _ _ _).course c.val) line = some l from hline]
      rfl

end Sys2Proof.Machine
end

section
/-! SUPPORT and PROOFS. Lines that launch, wait and complete (R83, R94 to R97). -/

namespace Sys2Proof.Machine

/-! ## A table that holds a course twice -/

/-- A line of the matrix unit at OFFSET 300 without a predicate, in a phase. -/
def plainLine (p : LinePhase) : LineSt :=
  { ln := { offset := 300, unit := 2, pred := 0, path := 0, dep := 0xFF, wcCompute := 1000000, wcXfer := 1000000, desc := 0, window := 0xFFFF },
    phase := p, prog := 0, idle := 0, read := [], word := 0, late := false, wrote := none, resend := false, farLate := false, overrun := false }

/-- A course that runs context 16 with one line in its buffer. -/
def oneLine (p : LinePhase) : Course := { Course.init with lines := [plainLine p], runner := some 16 }

/-- The line of course 0 is at its OFFSET, and a second entry of the table of courses for course 0 holds a line of the same unit that
has launched. `tget` reads the first entry, `World.unitBusy` looks at both, and the first write drops the second. -/
def twiceListed : State :=
  { State.reset with dev := { Dev.reset with
      level := .run, courses := [(0, oneLine .waiting), (0, oneLine .launched)],
      ft := { Dev.reset.ft with latched := true, cycle := 256 } } }

theorem twiceListed_offsetReached : twiceListed.offsetReached (0 : Fin 96).val 0 (plainLine .waiting) := by
  refine ⟨rfl, ?_⟩
  decide +kernel

theorem twiceListed_unitBusy :
    twiceListed.world.unitBusy (((twiceListed.dev.course (0 : Fin 96).val).runner).getD 0) (0 : Fin 96).val (plainLine .waiting).ln = true := by
  decide +kernel

/-- The phase of a course's line in the state that follows, where there is one. -/
def phaseAfter (o : Host.Outcome State Fault Refusal) (c line : Nat) : Option LinePhase :=
  match o with
  | .next t => (lineAt (t.dev.course c) line).map LineSt.phase
  | _ => none

theorem twiceListed_launches : phaseAfter (exec (.lineLaunch 0 0) twiceListed) 0 0 = some .launched := by
  decide +kernel

/-- Refutes O30: a table of courses that lists course 0 twice keeps its unit busy only until the line's own entry is written, so the line
launches where the third clause has it held. -/
theorem not_linesLaunchSkipOrWait : ¬ Obligations.LinesLaunchSkipOrWait := by
  unfold Obligations.LinesLaunchSkipOrWait
  rintro ⟨-, -, held, -⟩
  obtain ⟨t, run, -, -, line⟩ :=
    held 0 0 twiceListed _ twiceListed_offsetReached (by decide +kernel) (by decide +kernel) (.inl twiceListed_unitBusy)
  have launched := twiceListed_launches
  rw [run] at launched
  replace launched : (lineAt (t.dev.course (0 : Fin 96).val) 0).map LineSt.phase = some .launched := launched
  rw [line] at launched
  exact absurd launched (by decide)

/-! ## Completion -/

/-- A live command leaves what its effect makes of the stores and the device as they are. -/
theorem runLive_eq_world {s : State} {f : World → World} {w : World} (hl : s.live) (hf : f s.world = w) :
    runLive s f = .next (commit s w) := by
  rw [runLive_live hl]
  exact congrArg (fun w => Host.Outcome.next (commit s w)) hf


/-- A line's completion counts at most one register. -/
theorem World.lineCounted_keeps {P : World → Prop} (w : World) (c unit : Nat) (hw : P w) (hc : ∀ a, P (w.count a 63 0 1)) :
    P (w.lineCounted c unit) := by
  have shown : ∀ (b : Bool) a, P (if b then w.count a 63 0 1 else w) := fun b a => iteInduction (fun _ => hc a) (fun _ => hw)
  unfold World.lineCounted
  dsimp only
  split
  case h_1 | h_2 | h_4 | h_5 | h_6 => exact hc _
  case h_3 => exact iteInduction (motive := P) (fun _ => hc _) (fun _ => shown _ _)
  case h_7 | h_8 => exact shown _ _
  case h_9 => exact hw

theorem World.lineCounted_wr (w : World) (c unit : Nat) : (w.lineCounted c unit).wr = w.wr :=
  World.lineCounted_keeps (P := fun v => v.wr = w.wr) w c unit rfl (fun _ => rfl)

theorem World.lineCounted_regsOnly (w : World) (c unit : Nat) : w.d.RegsOnly (w.lineCounted c unit).d :=
  World.lineCounted_keeps (P := fun v => w.d.RegsOnly v.d) w c unit rfl (fun a => Dev.count_regsOnly w.d a 63 0 1)

theorem Dev.unitIdle_regsOnly (d : Dev) (c unit : Nat) : d.RegsOnly (d.unitIdle c unit) := by
  unfold Dev.unitIdle
  dsimp only
  split
  case h_9 => rfl
  case h_1 | h_2 | h_4 | h_5 | h_6 => exact Dev.setReg_regsOnly ..
  all_goals exact Dev.setFld_regsOnly ..

/-- What a unit shows when its work is over depends on the registers alone. -/
theorem Dev.unitIdle_regs_congr {d e : Dev} (c unit : Nat) (h : d.regs = e.regs) : (d.unitIdle c unit).regs = (e.unitIdle c unit).regs := by
  unfold Dev.unitIdle
  dsimp only
  split <;> simp only [Dev.setReg_regs, Dev.setFld_regs, h]

theorem doLineComplete_worked {w : World} {c : Fin 96} {line : Nat} {l : LineSt} (hl : lineAt (w.d.course c.val) line = some l)
    (hp : l.phase = .worked) (hq : w.lineQuiet c.val line l.ln = true) : doLineComplete c line w =
      (w.lineCounted c.val l.ln.unit).onDev (fun d =>
        (d.onLine c.val line (fun l => { l with phase := .done })).unitIdle c.val l.ln.unit) := by
  unfold doLineComplete
  rw [hl]
  exact if_pos ⟨hp, hq⟩

/-- Settles O31: a worked line's entry alone changes in the table of courses, and the fret's hold bit stops a launch. -/
theorem linesCompleteAndHoldsStop : Obligations.LinesCompleteAndHoldsStop := by
  unfold Obligations.LinesCompleteAndHoldsStop
  refine ⟨fun c line s l live hl hp hq => ?_, fun c line s live hold => ?_⟩
  · refine ⟨_, runLive_eq_world live (doLineComplete_worked (w := s.world) hl hp hq), ?_⟩
    generalize hw : s.world.lineCounted c.val l.ln.unit = w
    have counted := hw ▸ s.world.lineCounted_regsOnly c.val l.ln.unit
    have idle := (w.d.onLine c.val line (fun l => { l with phase := .done })).unitIdle_regsOnly c.val l.ln.unit
    have lines : ∀ k, lineAt (((w.d.onLine c.val line (fun l => { l with phase := .done })).unitIdle c.val l.ln.unit).course c.val) k =
        lineAt ((w.d.onLine c.val line (fun l => { l with phase := .done })).course c.val) k :=
      fun k => lineAt_congr idle.courses c.val k
    have before : ∀ k, lineAt (w.d.course c.val) k = lineAt (s.dev.course c.val) k := fun k => lineAt_congr counted.courses c.val k
    refine ⟨?_, ?_, Dev.unitIdle_regs_congr _ _ rfl, fun k hk => ?_, ?_⟩
    · exact commit_mem_nil ((hw ▸ World.lineCounted_wr ..).trans rfl)
    · refine (lines line).trans ?_
      rw [lineAt_onLine_self, before, hl]
      rfl
    · exact ((lines k).trans (lineAt_onLine_ne _ _ _ hk)).trans (before k)
    · exact idle.ctxs.trans counted.ctxs
  · refine (runLive_eq_dev (d := s.dev) live ?_).trans rfl
    show doLineLaunch c line s.world = s.world
    unfold doLineLaunch
    split
    · rfl
    · exact if_neg fun h => by
        obtain ⟨-, -, run, -⟩ := h
        exact absurd (hold.symm.trans run) (by decide)

end Sys2Proof.Machine
end

section
/-! SUPPORT and PROOFS. The leak pin, the management bus and the boundary-scan port (R558). -/

namespace Sys2Proof.Machine

theorem smb_answers {s : State} (hl : s.live) (f : World → World) (b : List Byte) (hf : f s.world = s.world.smb b) :
    runLive s f = .next { s with dev := { s.dev with out := s.dev.out ++ [.smb b] } } :=
  runLive_eq_dev hl hf

/-! ## The leak pin -/

/-- The leak pin has been seen. -/
def World.leaked (w : World) : World := w.onDev (fun d => { d with board := { d.board with leak := true } })

/-- The leak is shown in THM_DEVICE and on the alert pin. -/
def World.leakShown (w : World) : World := w.leaked.onDev (fun d => (d.setFld THM_DEVICE 8 8 1).alert)

theorem doLeak_powerOn {w : World} (h : w.d.level = .powerOn) : doLeak w = w.leaked := if_pos h

theorem doLeak_outside {w : World} (h : w.d.level ≠ .powerOn) :
    doLeak w = if w.d.board.leak then w.leakShown else w.leakShown.log { entry 0x46 0xFF 0x15 with index := 0xFFFF } := if_neg h

theorem World.leakShown_fld (w : World) : w.leakShown.d.fld THM_DEVICE 8 8 = 1 :=
  w.leaked.d.setFld_fld_self THM_DEVICE 1 (by decide) (by decide)

/-- The leak pin is seen in every level; outside power-on reset it is shown in THM_DEVICE, and logged when it is new. -/
theorem doLeak_spec (w : World) :
    (doLeak w).wr = w.wr ∧ (doLeak w).d.board.leak = true ∧ (w.d.level ≠ .powerOn → (doLeak w).d.fld THM_DEVICE 8 8 = 1) ∧
      (w.d.level = .powerOn → (doLeak w).d.regs = w.d.regs) := by
  by_cases h : w.d.level = .powerOn
  · rw [doLeak_powerOn h]
    exact ⟨rfl, rfl, fun n => absurd h n, fun _ => rfl⟩
  · rw [doLeak_outside h]
    split
    · exact ⟨rfl, rfl, fun _ => w.leakShown_fld, fun n => absurd n h⟩
    · refine ⟨rfl, ?_, fun _ => ?_, fun n => absurd n h⟩
      · rw [World.log_d, Dev.logEntry_board]
        rfl
      · exact (Dev.fld_congr (by rw [World.log_d, Dev.logEntry_regs]) 8 8).trans w.leakShown_fld

/-- A command that runs in every level and writes nothing. -/
theorem run_keeps {s : State} {f : World → World} (hf : (f s.world).wr = []) :
    ∃ t, run s f = .next t ∧ t.mem = s.mem ∧ t.dev = (f s.world).d :=
  ⟨_, rfl, commit_mem_nil hf, rfl⟩

/-! ## The management bus and the boundary-scan port -/

/-- The status answer begins with the levels, the pins and a zero byte; the hottest zone and the input power follow. -/
theorem doSmbStatus_spec (w : World) :
    ∃ (v : World) (b : List Byte), doSmbStatus w = v.smb b ∧ v.mem = w.mem ∧ v.wr = w.wr ∧ v.d.out = w.d.out ∧ v.d.regs = w.d.regs ∧
      b.take 4 = leBytes 1 (w.d.fld THM_DEVICE 5 4) ++ leBytes 1 (w.d.fld THM_DEVICE 3 2) ++
        leBytes 1 (w.d.fld HL_STATUS 9 9 + (if w.d.board.leak then 2 else 0) + (if w.d.railAlert then 4 else 0)) ++ leBytes 1 0 := by
  unfold doSmbStatus
  dsimp only
  split
  · exact ⟨_, _, rfl, rfl, rfl, rfl, rfl, rfl⟩
  · exact ⟨_, _, rfl, rfl, rfl, rfl, rfl, rfl⟩

/-- A capture of `n` cells shifts `n` bits out, and the port keeps what the command leaves in it. -/
theorem capture_spec (w : World) (n : Nat) (f : Board → Board) :
    let v := ((w.freeBits n).1.tap f).emit (.jtag (w.freeBits n).2)
    v.wr = w.wr ∧ v.d.board = f w.d.board ∧ (w.freeBits n).2.length = n ∧ v.d.out = w.d.out ++ [.jtag (w.freeBits n).2] ∧
      v.d.regs = w.d.regs :=
  ⟨rfl, rfl, by simp [World.freeBits], rfl, rfl⟩

/-! ## The obligation -/

/-- Settles O60: each pin and port command by what it leaves of the device, the free bits of a capture by their number alone. -/
theorem boardPinsAndPortsAnswer : Obligations.BoardPinsAndPortsAnswer := by
  unfold Obligations.BoardPinsAndPortsAnswer
  refine ⟨fun s => ?_, fun e he s live => ?_, fun s live => ?_, fun tdi s => ⟨_, rfl, rfl, rfl, rfl⟩,
    fun s => ⟨_, rfl, rfl, rfl, rfl, rfl⟩, fun bits s => ?_, fun s => ?_, fun s => rfl⟩
  · obtain ⟨wr, leak, shown, quiet⟩ := doLeak_spec s.world
    obtain ⟨t, run, mem, dev⟩ := run_keeps wr
    exact ⟨t, run, mem, dev ▸ leak, dev ▸ shown, dev ▸ quiet⟩
  · simp only [smbTable, List.mem_cons, List.not_mem_nil, or_false] at he
    obtain rfl | rfl | rfl := he
    · exact smb_answers live doSmbIdent _ rfl
    · exact smb_answers live doSmbInput _ rfl
    · exact smb_answers live doSmbCause _ rfl
  · obtain ⟨v, b, answer, -, wr, out, regs, front⟩ := doSmbStatus_spec s.world
    refine ⟨_, b, runLive_eq_world live answer, commit_mem_nil wr, ?_, regs, front⟩
    exact congrArg (· ++ [Out.smb b]) out
  · obtain ⟨wr, board, length, out, regs⟩ := capture_spec s.world bits.length (fun b => { b with tapInstr := 2, cells := bits })
    exact ⟨_, _, rfl, commit_mem_nil wr, congrArg Board.cells board, length, out, regs⟩
  · obtain ⟨wr, board, length, out, regs⟩ := capture_spec s.world s.dev.board.cells.length (fun b => { b with tapInstr := 3 })
    exact ⟨_, _, rfl, commit_mem_nil wr, congrArg Board.tapInstr board, length, out, regs⟩

end Sys2Proof.Machine
end

section
/-! SUPPORT and PROOFS. Training, retraining, lane loss and the cable of a link (R336, R343 to R345, R420, R421, R550). -/

namespace Sys2Proof.Machine

/-! ## What leaves a link's status as it is -/

/-- From one device to the next the status register of a link is the same, and so are its lane order and whether it retrains. -/
structure Dev.StillLink (l : Nat) (d e : Dev) : Prop where
  status : rget e.regs (linkBase l) = rget d.regs (linkBase l)
  reversed : (e.link l).reversed = (d.link l).reversed
  inverted : (e.link l).inverted = (d.link l).inverted
  retraining : (e.link l).retraining = (d.link l).retraining

theorem Dev.StillLink.refl (l : Nat) (d : Dev) : Dev.StillLink l d d := ⟨rfl, rfl, rfl, rfl⟩

section
variable {l : Nat} {d e f : Dev} {R : List Nat}

theorem Dev.StillLink.trans (h : Dev.StillLink l d e) (k : Dev.StillLink l e f) : Dev.StillLink l d f :=
  ⟨k.status.trans h.status, k.reversed.trans h.reversed, k.inverted.trans h.inverted, k.retraining.trans h.retraining⟩

theorem Dev.StillLink.of_same (hr : e.regs = d.regs) (hl : e.links = d.links) : Dev.StillLink l d e := by
  have link := Dev.link_congr hl l
  exact ⟨by rw [hr], by rw [link], by rw [link], by rw [link]⟩

theorem Dev.Tells.stillLink (h : Dev.Tells R d e) (hl : linkBase l ∉ R) : Dev.StillLink l d e := by
  have link := Dev.link_congr h.links l
  exact ⟨h.regs _ hl, by rw [link], by rw [link], by rw [link]⟩

theorem Dev.StillLink.fld (h : Dev.StillLink l d e) (hi lo : Nat) : e.fld (linkBase l) hi lo = d.fld (linkBase l) hi lo :=
  Dev.fld_congr h.status hi lo

theorem Dev.StillLink.linkState (h : Dev.StillLink l d e) : e.linkState l = d.linkState l := h.fld 19 16
theorem Dev.StillLink.lanesFailed (h : Dev.StillLink l d e) : e.lanesFailed l = d.lanesFailed l := h.fld _ _

end

theorem iter_stillLink {l : Nat} {f : Dev → Dev} (h : ∀ d, Dev.StillLink l d (f d)) (n : Nat) (d : Dev) : Dev.StillLink l d (iter f n d) := by
  induction n generalizing d with
  | zero => exact Dev.StillLink.refl ..
  | succ n ih => exact (h d).trans (ih (f d))

theorem foldl_stillLink {β : Type} {l : Nat} {f : World → β → World} (h : ∀ w b, Dev.StillLink l w.d (f w b).d) (xs : List β) (w : World) :
    Dev.StillLink l w.d (xs.foldl f w).d :=
  foldl_keeps (fun v : World => Dev.StillLink l w.d v.d) f xs (fun v b _ hv => hv.trans (h v b)) w (Dev.StillLink.refl ..)

theorem Dev.wire_same (d : Dev) (l seq : Nat) (f : TxFlit) : (d.wire l seq f).regs = d.regs ∧ (d.wire l seq f).links = d.links := by
  cases f <;> exact ⟨rfl, rfl⟩

theorem Dev.onLink_stillLink (d : Dev) (l : Nat) {f : Link → Link} (hr : (f (d.link l)).reversed = (d.link l).reversed)
    (hi : (f (d.link l)).inverted = (d.link l).inverted) (ht : (f (d.link l)).retraining = (d.link l).retraining) :
    Dev.StillLink l d (d.onLink l f) := by
  have link := d.onLink_link_self l f
  exact ⟨rfl, by rw [link, hr], by rw [link, hi], by rw [link, ht]⟩

theorem Dev.sendOne_stillLink (d : Dev) (l : Nat) : Dev.StillLink l d (d.sendOne l) := by
  unfold Dev.sendOne
  dsimp only
  split
  · split
    · exact Dev.StillLink.refl ..
    · have wired := Dev.wire_same d l (d.link l).nextSeq
      exact (Dev.StillLink.of_same (wired _).1 (wired _).2).trans (Dev.onLink_stillLink _ _ rfl rfl rfl)
  · exact Dev.StillLink.refl ..

theorem Dev.pump_stillLink (d : Dev) (l : Nat) : Dev.StillLink l d (d.pump l) := iter_stillLink (fun d => d.sendOne_stillLink l) _ d

theorem linkBase_ne_counters (l : Nat) : linkBase l ≠ linkReplays l ∧ linkBase l ≠ linkRetrains l := by
  unfold linkReplays linkRetrains
  split <;> omega

theorem Dev.resendFrom_stillLink (d : Dev) (l seq : Nat) : Dev.StillLink l d (d.resendFrom l seq) := by
  unfold Dev.resendFrom
  dsimp only
  have sent : ∀ (xs : List (Nat × TxFlit)) (d : Dev), Dev.StillLink l d (xs.foldl (fun d e => d.wire l e.1 e.2) d) := fun xs d =>
    foldl_keeps (fun e => Dev.StillLink l d e) (fun (d : Dev) (e : Nat × TxFlit) => d.wire l e.1 e.2) xs
      (fun e b _ h => h.trans (Dev.StillLink.of_same (e.wire_same l b.1 b.2).1 (e.wire_same l b.1 b.2).2)) d (Dev.StillLink.refl ..)
  exact (sent _ d).trans ((Dev.count_tells (R := [linkReplays l]) _ 63 0 _ (by simp)).stillLink (by simpa using (linkBase_ne_counters l).1))

theorem World.revalidate_stillLink (w : World) (l : Nat) (cause : W16) : Dev.StillLink l w.d (w.revalidate cause).d := by
  unfold World.revalidate
  refine foldl_stillLink (fun w e => ?_) _ w
  dsimp only
  split
  · exact Dev.StillLink.refl ..
  · split
    · exact Dev.StillLink.of_same rfl rfl
    · split
      · refine Dev.StillLink.trans ?_ ((Dev.log_tells [] _ _).stillLink (by simp))
        exact Dev.StillLink.of_same rfl rfl
      · exact Dev.StillLink.of_same rfl rfl

theorem World.linkNarrowed_stillLink (w : World) {l : Nat} (hl : l < 32) (s : Nat) : Dev.StillLink l w.d (w.linkNarrowed l s).d := by
  have hn : linkBase l ∉ [HL_FAULT, HL_EVENTS_LOST] := fun h => linkBase_not_mem hl (by simp only [List.mem_cons] at h ⊢; grind)
  have told : ∀ (v : World) (code : Nat) (det : W16) (x : LogEntry), Dev.StillLink l v.d ((v.event code stOk det 0xFFFF []).log x).d :=
    fun v code det x => ((Dev.event_tells v.d code stOk det 0xFFFF 0xFFFF [] (by simp) (by simp)).trans (Dev.log_tells _ _ _)).stillLink hn
  unfold World.linkNarrowed
  dsimp only
  split
  · exact (told w _ _ _).trans (World.revalidate_stillLink ..)
  · exact (told w _ _ _).trans (World.revalidate_stillLink ..)

theorem World.revalidate_wr (w : World) (cause : W16) : (w.revalidate cause).wr = w.wr := by
  unfold World.revalidate
  refine foldl_keeps (fun v : World => v.wr = w.wr) _ _ (fun v e _ hv => ?_) w rfl
  dsimp only
  split
  · exact hv
  · split
    · exact hv
    · split <;> exact hv

theorem World.linkNarrowed_wr (w : World) (l s : Nat) : (w.linkNarrowed l s).wr = w.wr := by
  unfold World.linkNarrowed
  dsimp only
  split <;> exact World.revalidate_wr ..

/-! ## The lanes of a link -/

theorem lanes_bounds (l : Nat) : lanesLo l ≤ lanesLo l + laneCount l - 1 ∧ lanesLo l + laneCount l - 1 < 64 ∧ 20 ≤ lanesLo l ∧
    lanesLo l + laneCount l - 1 + 1 - lanesLo l = laneCount l := by
  unfold lanesLo laneCount
  split <;> omega

theorem Dev.lanesFailed_lt (d : Dev) (l : Nat) : d.lanesFailed l < 2 ^ laneCount l := by
  obtain ⟨-, -, -, width⟩ := lanes_bounds l
  exact width ▸ fld_lt d (linkBase l) _ _

theorem Dev.setLanes_lanesFailed (d : Dev) (l : Nat) {v : Nat} (hv : v < 2 ^ laneCount l) : (d.setLanes l v).lanesFailed l = v := by
  obtain ⟨lo, hi, -, width⟩ := lanes_bounds l
  rw [Dev.lanesFailed, Dev.setLanes, Dev.setFld_fld_self _ _ _ lo hi, width, Nat.mod_eq_of_lt hv]

theorem Dev.onLink_lanesFailed (d : Dev) (l k : Nat) (f : Link → Link) : (d.onLink l f).lanesFailed k = d.lanesFailed k :=
  Dev.fld_congr (by rw [Dev.onLink_regs]) _ _

theorem Dev.lanesFailed_or_lt (d : Dev) (l x : Nat) : d.lanesFailed l ||| x % 2 ^ laneCount l < 2 ^ laneCount l :=
  Nat.or_lt_two_pow (d.lanesFailed_lt l) (Nat.mod_lt _ (Nat.two_pow_pos _))

theorem Dev.setLinkState_lanesFailed (d : Dev) (l s : Nat) : (d.setLinkState l s).lanesFailed l = d.lanesFailed l := by
  obtain ⟨-, -, above, -⟩ := lanes_bounds l
  refine ((Dev.setLinkState_tells d l s).fld (by simpa using linkBase_ne_status) _ _).trans ?_
  exact Dev.setFld_fld_beside _ _ _ (by decide) (by decide) (.inl (by omega))

theorem widthState_le (l failed : Nat) : 2 ≤ widthState l failed ∧ widthState l failed ≤ 5 := by
  unfold widthState
  dsimp only
  repeat' split
  all_goals omega

/-! ## The end of a training -/

/-- What a link is in a state: its state, its failed lanes and whether it retrains are those given, and the order of its lanes. -/
structure Dev.LinkIs (d : Dev) (l s lanes : Nat) (x : Link) : Prop where
  state : d.linkState l = s
  lanes : d.lanesFailed l = lanes
  reversed : (d.link l).reversed = x.reversed
  inverted : (d.link l).inverted = x.inverted
  retraining : (d.link l).retraining = x.retraining

/-- A link that takes a state keeps its lanes, and what follows keeps its status. -/
theorem Dev.StillLink.linkIs {d e : Dev} {l s : Nat} (h : Dev.StillLink l (d.setLinkState l s) e) (hs : s < 16) :
    e.LinkIs l s (d.lanesFailed l) (d.link l) := by
  have link := Dev.link_congr (Dev.setLinkState_links d l s) l
  exact ⟨h.linkState.trans (Dev.setLinkState_linkState d l hs), h.lanesFailed.trans (Dev.setLinkState_lanesFailed d l s),
    by rw [h.reversed, link], by rw [h.inverted, link], by rw [h.retraining, link]⟩

theorem World.linkLost_stillLink (w : World) {l : Nat} (hl : l < 32) (s : Nat) : Dev.StillLink l (w.d.setLinkState l s) (w.linkLost l s).d :=
  (w.linkLost_tells l s).stillLink fun h => linkBase_not_mem hl (by simp only [linkLostRegs, List.mem_cons] at h ⊢; grind)

/-- The device as a training leaves it before its link takes its new state: the flight time of a port, the lanes, and a link afresh. -/
def World.lanesTrained (w : World) (l s failed : Nat) (r : TrainResult) : World :=
  World.onDev (if l < 24 then w.setFld (linkBase l) 39 32 r.flight.toNat else w) (fun d => (d.setLanes l failed).onLink l (fun x =>
    x.trained (if l < 24 ∧ s ≤ 4 then some (r.nbrRank.toNat, r.nbrPort.toNat) else none) r))

/-- A link that comes up: its state, what a narrowed link brings, and the flits that wait. -/
def World.comesUp (w : World) (l s : Nat) : World :=
  let w := w.onDev (fun d => d.setLinkState l s)
  let w := if s = 3 ∨ s = 4 then w.linkNarrowed l s else w
  w.onDev (fun d => d.pump l)

theorem World.comesUp_linkIs (w : World) {l s : Nat} (hl : l < 32) (hs : s < 16) :
    (w.comesUp l s).d.LinkIs l s (w.d.lanesFailed l) (w.d.link l) := by
  refine Dev.StillLink.linkIs ?_ hs
  unfold World.comesUp
  dsimp only
  split
  · exact (World.linkNarrowed_stillLink (w.onDev fun d => d.setLinkState l s) hl s).trans (Dev.pump_stillLink ..)
  · exact Dev.pump_stillLink ..

theorem World.comesUp_wr (w : World) (l s : Nat) : (w.comesUp l s).wr = w.wr := by
  unfold World.comesUp
  dsimp only
  split
  · exact World.linkNarrowed_wr ..
  · rfl

theorem World.linkLost_linkIs (w : World) {l s : Nat} (hl : l < 32) (hs : s < 16) :
    (w.linkLost l s).d.LinkIs l s (w.d.lanesFailed l) (w.d.link l) :=
  (w.linkLost_stillLink hl s).linkIs hs

theorem World.lanesTrained_spec (w : World) (l s : Nat) {failed : Nat} (r : TrainResult) (hf : failed < 2 ^ laneCount l) :
    (w.lanesTrained l s failed r).wr = w.wr ∧ (w.lanesTrained l s failed r).d.lanesFailed l = failed ∧
      ((w.lanesTrained l s failed r).d.link l).reversed = (r.order == [7, 6, 5, 4, 3, 2, 1, 0]) ∧
      ((w.lanesTrained l s failed r).d.link l).inverted = r.invert.toNat := by
  unfold World.lanesTrained
  have link : ∀ (d : Dev) (f : Link → Link), ((d.setLanes l failed).onLink l f).link l = f ((d.setLanes l failed).link l) :=
    fun d f => Dev.onLink_link_self ..
  refine ⟨?_, ?_, ?_, ?_⟩
  · split <;> rfl
  · rw [World.onDev_d, Dev.onLink_lanesFailed, Dev.setLanes_lanesFailed _ _ hf]
  · rw [World.onDev_d, link]; rfl
  · rw [World.onDev_d, link]; rfl

/-- The state in which a training leaves a link. -/
def trainedState (l failed : Nat) (r : TrainResult) : Nat := if l < 24 ∧ 8 < r.flight.toNat then 6 else widthState l failed

theorem trainedState_lt (l failed : Nat) (r : TrainResult) : trainedState l failed r < 16 := by
  have := (widthState_le l failed).2
  unfold trainedState
  split <;> omega

theorem doPortTrainDone_trains {w : World} {l : Fin 32} {r : TrainResult} (hs : w.d.linkState l.val = 1)
    (hr : (w.d.link l.val).retraining = false) (ho : trainOrderOk r l.val = true) :
    let failed := w.d.lanesFailed l.val ||| r.failed.toNat % 2 ^ laneCount l.val
    let s := trainedState l.val failed r
    doPortTrainDone l r w = if 5 ≤ s then (w.lanesTrained l.val s failed r).linkLost l.val s else (w.lanesTrained l.val s failed r).comesUp l.val s := by
  have order : (if (decide (l.val < 24) && decide (8 < r.flight.toNat)) = true then 6 else
      widthState l.val (w.d.lanesFailed l.val ||| r.failed.toNat % 2 ^ laneCount l.val)) =
      trainedState l.val (w.d.lanesFailed l.val ||| r.failed.toNat % 2 ^ laneCount l.val) r := by
    unfold trainedState
    simp only [Bool.and_eq_true, decide_eq_true_eq]
  unfold doPortTrainDone
  dsimp only
  rw [if_neg (by simp [hs, hr, ho]), order]
  rfl

theorem doPortTrainDone_stays {w : World} {l : Fin 32} {r : TrainResult} (ho : trainOrderOk r l.val = false) : doPortTrainDone l r w = w := by
  unfold doPortTrainDone
  exact if_pos (by simp [ho])

/-- A training of a link whose lanes arrive in an order it takes: the lanes, the state and the order that come of it. -/
theorem portTrainDone_spec {w : World} {l : Fin 32} {r : TrainResult} (hs : w.d.linkState l.val = 1)
    (hr : (w.d.link l.val).retraining = false) (ho : trainOrderOk r l.val = true) :
    let failed := w.d.lanesFailed l.val ||| r.failed.toNat % 2 ^ laneCount l.val
    (doPortTrainDone l r w).wr = w.wr ∧ (doPortTrainDone l r w).d.lanesFailed l.val = failed ∧
      (doPortTrainDone l r w).d.linkState l.val = trainedState l.val failed r ∧
      ((doPortTrainDone l r w).d.link l.val).reversed = (r.order == [7, 6, 5, 4, 3, 2, 1, 0]) ∧
      ((doPortTrainDone l r w).d.link l.val).inverted = r.invert.toNat := by
  intro failed
  have lt := trainedState_lt l.val failed r
  obtain ⟨wr, lanes, reversed, inverted⟩ := w.lanesTrained_spec l.val (trainedState l.val failed r) r (w.d.lanesFailed_or_lt l.val r.failed.toNat)
  rw [doPortTrainDone_trains hs hr ho]
  split
  · have is := (w.lanesTrained l.val (trainedState l.val failed r) failed r).linkLost_linkIs l.isLt lt
    exact ⟨(World.linkLost_wr ..).trans wr, is.lanes.trans lanes, is.state, is.reversed.trans reversed, is.inverted.trans inverted⟩
  · have is := (w.lanesTrained l.val (trainedState l.val failed r) failed r).comesUp_linkIs l.isLt lt
    exact ⟨(World.comesUp_wr ..).trans wr, is.lanes.trans lanes, is.state, is.reversed.trans reversed, is.inverted.trans inverted⟩

/-! ## The end of a retraining -/

/-- The device as a retraining leaves it before its link takes its new state. -/
def World.lanesRetrained (w : World) (l lanes : Nat) : World :=
  w.onDev (fun d => (d.setLanes l lanes).onLink l (fun x => { x with retraining := false, full := false, nakRun := 0 }))

/-- The flits that a link has not seen acknowledged leave again. -/
def World.resendAll (w : World) (l : Nat) : World :=
  match (w.d.link l).replay with
  | e :: _ => w.onDev (fun d => d.resendFrom l e.1)
  | [] => w

theorem World.resendAll_stillLink (w : World) (l : Nat) : Dev.StillLink l w.d (w.resendAll l).d := by
  unfold World.resendAll
  split
  · exact Dev.resendFrom_stillLink ..
  · exact Dev.StillLink.refl ..

theorem World.resendAll_wr (w : World) (l : Nat) : (w.resendAll l).wr = w.wr := by
  unfold World.resendAll
  split <;> rfl

/-- A link that comes up again: its state, the flits it has to send again, what a link narrowed anew brings, and the flits that wait. -/
def World.comesBack (w : World) (l s : Nat) (wasNarrow : Bool) : World :=
  let w := (w.onDev (fun d => d.setLinkState l s)).resendAll l
  let w := if (s = 3 ∨ s = 4) && !wasNarrow then w.linkNarrowed l s else w
  w.onDev (fun d => d.pump l)

theorem World.comesBack_linkIs (w : World) {l s : Nat} (hl : l < 32) (hs : s < 16) (wasNarrow : Bool) :
    (w.comesBack l s wasNarrow).d.LinkIs l s (w.d.lanesFailed l) (w.d.link l) := by
  have again := (w.onDev (fun d => d.setLinkState l s)).resendAll_stillLink l
  refine Dev.StillLink.linkIs (again.trans ?_) hs
  unfold World.comesBack
  dsimp only
  split
  · exact (World.linkNarrowed_stillLink _ hl s).trans (Dev.pump_stillLink ..)
  · exact Dev.pump_stillLink ..

theorem World.comesBack_wr (w : World) (l s : Nat) (wasNarrow : Bool) : (w.comesBack l s wasNarrow).wr = w.wr := by
  have again := (w.onDev (fun d => d.setLinkState l s)).resendAll_wr l
  unfold World.comesBack
  dsimp only
  split
  · exact (World.linkNarrowed_wr ..).trans again
  · exact again

/-- The lanes that have failed when a retraining ends: those the test found, and unless every lane was tested those that had failed. -/
def Dev.retrainLanes (d : Dev) (l : Nat) (failed : BitVec 8) : Nat :=
  if (d.link l).full then failed.toNat % 2 ^ laneCount l else d.lanesFailed l ||| failed.toNat % 2 ^ laneCount l

theorem Dev.retrainLanes_lt (d : Dev) (l : Nat) (failed : BitVec 8) : d.retrainLanes l failed < 2 ^ laneCount l := by
  unfold Dev.retrainLanes
  split
  · exact Nat.mod_lt _ (Nat.two_pow_pos _)
  · exact d.lanesFailed_or_lt ..

theorem World.lanesRetrained_spec (w : World) (l : Nat) {lanes : Nat} (lt : lanes < 2 ^ laneCount l) :
    (w.lanesRetrained l lanes).d.lanesFailed l = lanes ∧ ((w.lanesRetrained l lanes).d.link l).retraining = false := by
  constructor
  · rw [World.lanesRetrained, World.onDev_d, Dev.onLink_lanesFailed, Dev.setLanes_lanesFailed _ _ lt]
  · rw [World.lanesRetrained, World.onDev_d, Dev.onLink_link_self]

theorem doPortRetrainDone_trains {w : World} {l : Fin 32} {failed : BitVec 8} (hr : (w.d.link l.val).retraining = true) :
    doPortRetrainDone l failed w =
      if widthState l.val (w.d.retrainLanes l.val failed) = 5 then
        (w.lanesRetrained l.val (w.d.retrainLanes l.val failed)).linkLost l.val 5
      else (w.lanesRetrained l.val (w.d.retrainLanes l.val failed)).comesBack l.val (widthState l.val (w.d.retrainLanes l.val failed))
        (w.d.link l.val).wasNarrow := by
  unfold doPortRetrainDone
  dsimp only
  rw [if_neg (by simp [hr])]
  rfl

theorem portRetrainDone_spec {w : World} {l : Fin 32} {failed : BitVec 8} {lanes : Nat} (hr : (w.d.link l.val).retraining = true)
    (hl : w.d.retrainLanes l.val failed = lanes) :
    (doPortRetrainDone l failed w).wr = w.wr ∧ (doPortRetrainDone l failed w).d.lanesFailed l.val = lanes ∧
      (doPortRetrainDone l failed w).d.linkState l.val = widthState l.val lanes ∧
      ((doPortRetrainDone l failed w).d.link l.val).retraining = false := by
  have lt := w.d.retrainLanes_lt l.val failed
  rw [doPortRetrainDone_trains hr]
  rw [hl] at lt ⊢
  have width := (widthState_le l.val lanes).2
  obtain ⟨set, ends⟩ := w.lanesRetrained_spec l.val lt
  have wr : (w.lanesRetrained l.val lanes).wr = w.wr := rfl
  generalize w.lanesRetrained l.val lanes = v at *
  split
  case isTrue h5 =>
    have is := v.linkLost_linkIs (s := 5) l.isLt (by decide)
    exact ⟨(World.linkLost_wr ..).trans wr, is.lanes.trans set, is.state.trans h5.symm, is.retraining.trans ends⟩
  case isFalse =>
    have is := v.comesBack_linkIs (s := widthState l.val lanes) l.isLt (by omega) (w.d.link l.val).wasNarrow
    exact ⟨(World.comesBack_wr ..).trans wr, is.lanes.trans set, is.state, is.retraining.trans ends⟩

/-! ## A lane lost -/

theorem linkBase_ne_holdCause {l : Nat} (hl : l < 32) : linkBase l ≠ FT_HOLD_CAUSE := fun h =>
  linkBase_not_mem hl (by rw [h]; exact List.mem_cons_self)

theorem World.retrain_lanesFailed (w : World) {l : Nat} (hl : l < 32) (full : Bool) :
    (w.retrain l full).d.lanesFailed l = w.d.lanesFailed l := by
  have held : ∀ d : Dev, (if l < 24 then d.setBit FT_HOLD_CAUSE 3 else d).lanesFailed l = d.lanesFailed l := fun d => by
    split
    · exact Dev.setBit_fld_ne _ _ _ _ (linkBase_ne_holdCause hl)
    · rfl
  rw [World.retrain_d]
  refine (Dev.count_fld_ne _ _ _ _ _ _ (linkBase_ne_counters l).2).trans ?_
  refine (Dev.setLinkState_lanesFailed ..).trans ((held _).trans ?_)
  exact Dev.onLink_lanesFailed ..

theorem or_two_pow_ne {n lane : Nat} (h : bitOf n lane = false) : n ||| 2 ^ lane ≠ n := by
  intro same
  have bit : (n ||| 2 ^ lane).testBit lane = true := by rw [Nat.testBit_or, Nat.testBit_two_pow_self, Bool.or_true]
  rw [same, Nat.testBit_eq_decide_div_mod_eq] at bit
  rw [bitOf, beq_eq_false_iff_ne, Nat.shiftRight_eq_div_pow] at h
  exact h (of_decide_eq_true bit)

theorem World.lanesFail_one {w : World} {l lane : Nat} (hu : w.d.linkUp l = true) (hn : lane < laneCount l)
    (hb : bitOf (w.d.lanesFailed l) lane = false) :
    w.lanesFail l (2 ^ lane) =
      let v := w.onDev (fun d => d.setLanes l (w.d.lanesFailed l ||| 2 ^ lane))
      if widthState l (w.d.lanesFailed l ||| 2 ^ lane) = 5 then
        (v.onDev (fun d => d.onLink l (fun x => { x with retraining := false, full := false }))).linkLost l 5
      else v.retrain l (v.d.link l).full := by
  unfold World.lanesFail
  dsimp only
  rw [Nat.mod_eq_of_lt (Nat.pow_lt_pow_right (by decide) hn), if_neg (or_two_pow_ne hb), if_neg (by simp [hu])]

theorem laneLossOfLock_spec {w : World} {l : Fin 32} {lane : Fin 8} {lanes : Nat} (hu : w.d.linkUp l.val = true)
    (hn : lane.val < laneCount l.val) (hb : bitOf (w.d.lanesFailed l.val) lane.val = false)
    (hl : w.d.lanesFailed l.val ||| 2 ^ lane.val = lanes) :
    (doLaneLossOfLock l lane w).wr = w.wr ∧ (doLaneLossOfLock l lane w).d.lanesFailed l.val = lanes ∧
      (widthState l.val lanes = 5 → (doLaneLossOfLock l lane w).d.linkState l.val = 5) ∧
      (widthState l.val lanes ≠ 5 → (doLaneLossOfLock l lane w).d.linkState l.val = 1 ∧
        ((doLaneLossOfLock l lane w).d.link l.val).retraining = true) := by
  have lt : lanes < 2 ^ laneCount l.val :=
    hl ▸ Nat.or_lt_two_pow (w.d.lanesFailed_lt l.val) (Nat.pow_lt_pow_right (by decide) hn)
  have set := Dev.setLanes_lanesFailed w.d l.val lt
  rw [doLaneLossOfLock, World.lanesFail_one hu hn hb, hl]
  dsimp only
  split
  case isTrue h5 =>
    have is := (World.onDev (w.onDev (fun d => d.setLanes l.val lanes)) (fun d =>
      d.onLink l.val (fun x => { x with retraining := false, full := false }))).linkLost_linkIs (s := 5) l.isLt (by decide)
    refine ⟨World.linkLost_wr .., is.lanes.trans ?_, fun _ => is.state, fun n => absurd h5 n⟩
    exact (Dev.onLink_lanesFailed ..).trans set
  case isFalse h5 =>
    exact ⟨World.retrain_wr .., (World.retrain_lanesFailed _ l.isLt _).trans set, fun n => absurd n h5,
      fun _ => ⟨World.retrain_linkState _ l.isLt _, (World.retrain_link ..).1⟩⟩

/-! ## The cable -/

theorem doCableConnect_cable (w : World) (l : Fin 32) :
    (doCableConnect l w).wr = w.wr ∧ ((doCableConnect l w).d.link l.val).cable = true := by
  unfold doCableConnect
  dsimp only
  split
  · refine ⟨rfl, ?_⟩
    rw [World.onDev_d, Dev.link_congr (Dev.setLinkState_links ..), World.onDev_d, Dev.onLink_link_self]
  · refine ⟨rfl, ?_⟩
    rw [World.onDev_d, Dev.onLink_link_self]

theorem doCableConnect_trains {w : World} {l : Fin 32} (hl : w.d.level = .run) (hs : w.d.linkState l.val = 0)
    (hd : w.d.linkDisabled l.val = false) : (doCableConnect l w).d.linkState l.val = 1 := by
  have goes : doCableConnect l w =
      World.onDev (w.onDev (fun d => d.onLink l.val (fun x => { x with cable := true }))) (fun d => d.setLinkState l.val 1) :=
    if_pos ⟨hl, hs, Bool.not_eq_true' _ ▸ (Dev.linkDisabled_congr (by rw [World.onDev_d, Dev.onLink_regs])).trans hd⟩
  rw [goes]
  exact Dev.setLinkState_linkState _ _ (by decide)

theorem doCableConnect_reset {w : World} {l : Fin 32} (hl : w.d.level ≠ .run) : (doCableConnect l w).d.regs = w.d.regs := by
  have stays : doCableConnect l w = w.onDev (fun d => d.onLink l.val (fun x => { x with cable := true })) := if_neg fun h => hl h.1
  rw [stays]
  rfl

theorem doCableDisconnect_spec (w : World) (l : Fin 32) :
    (doCableDisconnect l w).wr = w.wr ∧ ((doCableDisconnect l w).d.link l.val).cable = false ∧
      (w.d.level = .run → (doCableDisconnect l w).d.linkState l.val = 0) := by
  unfold doCableDisconnect
  dsimp only
  generalize hv : w.onDev (fun d => d.onLink l.val (fun x => { x with cable := false })) = v
  have cable : (v.d.link l.val).cable = false := by
    rw [← hv, World.onDev_d, Dev.onLink_link_self]
  have wr : v.wr = w.wr := hv ▸ rfl
  have level : v.d.level = w.d.level := hv ▸ rfl
  split
  · refine ⟨(World.linkDown_wr ..).trans wr, ?_, fun _ => World.linkDown_linkState _ l.isLt⟩
    rw [Dev.link_congr (World.linkDown_links ..), Dev.onLink_link_self]
    exact cable
  · next h => exact ⟨wr, cable, fun n => absurd (level.trans n) h⟩

/-! ## The obligation -/

/-- Settles O52: a link that takes a state keeps its lanes and its order through all that its new state brings. -/
theorem linksTrainAndFail : Obligations.LinksTrainAndFail := by
  unfold Obligations.LinksTrainAndFail
  refine ⟨fun l r s live hs hr => ⟨fun ho => ?_, fun ho => ?_⟩, fun l failed s live hr => ?_, fun l lane s live hu hn hb => ?_,
    fun l s live hs hd => ?_, fun l s => ?_, fun l s => ?_⟩
  · obtain ⟨wr, spec⟩ := portTrainDone_spec (w := s.world) hs hr ho
    exact ⟨_, runLive_eq_world live rfl, commit_mem_nil wr, spec⟩
  · exact runLive_eq_dev live (doPortTrainDone_stays ho)
  · obtain ⟨wr, spec⟩ := portRetrainDone_spec (w := s.world) (failed := failed) hr rfl
    exact ⟨_, runLive_eq_world live rfl, commit_mem_nil wr, spec⟩
  · obtain ⟨wr, spec⟩ := laneLossOfLock_spec (w := s.world) hu hn hb rfl
    exact ⟨_, runLive_eq_world live rfl, commit_mem_nil wr, spec⟩
  · obtain ⟨wr, cable⟩ := doCableConnect_cable s.world l
    exact ⟨_, rfl, commit_mem_nil wr, doCableConnect_trains live hs hd, cable⟩
  · obtain ⟨-, cable⟩ := doCableConnect_cable s.world l
    exact ⟨_, rfl, cable, doCableConnect_reset (w := s.world)⟩
  · obtain ⟨wr, cable, down⟩ := doCableDisconnect_spec s.world l
    exact ⟨_, rfl, commit_mem_nil wr, cable, down⟩

end Sys2Proof.Machine
end

section
/-! SUPPORT and PROOFS. The flits of a link: CRC, votes, SEQ, acknowledgement and replay (R336 to R340). -/

namespace Sys2Proof.Machine

/-! ## Flits that leave -/

/-- From one device to the next only flits have left. -/
structure Dev.OnlyFlits (d e : Dev) : Prop where
  only : e = { d with out := e.out }
  said : e.said = d.said

theorem Dev.OnlyFlits.refl (d : Dev) : Dev.OnlyFlits d d := ⟨rfl, rfl⟩

section
variable {d e f : Dev}

theorem Dev.OnlyFlits.trans (h : Dev.OnlyFlits d e) (k : Dev.OnlyFlits e f) : Dev.OnlyFlits d f :=
  ⟨by rw [k.only, h.only], k.said.trans h.said⟩

theorem Dev.OnlyFlits.links (h : Dev.OnlyFlits d e) : e.links = d.links := (congrArg Dev.links h.only :)
theorem Dev.OnlyFlits.regs (h : Dev.OnlyFlits d e) : e.regs = d.regs := (congrArg Dev.regs h.only :)
theorem Dev.OnlyFlits.srx (h : Dev.OnlyFlits d e) : e.srx = d.srx := (congrArg Dev.srx h.only :)
theorem Dev.OnlyFlits.ft (h : Dev.OnlyFlits d e) : e.ft = d.ft := (congrArg Dev.ft h.only :)
theorem Dev.OnlyFlits.hedge (h : Dev.OnlyFlits d e) : e.hedge = d.hedge := (congrArg Dev.hedge h.only :)

end

theorem Dev.emit_onlyFlits (d : Dev) {o : Out} (ho : o.isFlit = true) : Dev.OnlyFlits d (d.emit o) :=
  ⟨rfl, by simp [Dev.said, Dev.emit, ho]⟩

theorem Dev.sendIdle_onlyFlits (d : Dev) (l : Nat) : Dev.OnlyFlits d (d.sendIdle l) := by
  unfold Dev.sendIdle
  dsimp only
  split
  · exact Dev.emit_onlyFlits d rfl
  · exact Dev.OnlyFlits.refl d

theorem Dev.sendLink_onlyFlits (d : Dev) (l : Nat) (m : LinkMsg) : Dev.OnlyFlits d (d.sendLink l m) := Dev.emit_onlyFlits d rfl

theorem Dev.sendVote_onlyFlits (d : Dev) : Dev.OnlyFlits d d.sendVote :=
  foldl_keeps (fun e => Dev.OnlyFlits d e) Dev.sendIdle _ (fun e l _ h => h.trans (e.sendIdle_onlyFlits l)) d (Dev.OnlyFlits.refl d)

/-! ## The hold vote of a flit -/

/-- The fret state once the hold vote of a flit's header is folded: that of a peer port counts. -/
def Dev.votedFt (d : Dev) (l h : Nat) : Ft := if l < 24 then d.ft.vote (bitOf h 13) (bitsOf h 31 16) (bitsOf h 15 14) else d.ft

/-- The hold vote changes the fret state alone, and a vote that it changes leaves in flits. -/
structure World.Voted (w : World) (l h : Nat) (v : World) : Prop where
  mem : v.mem = w.mem
  wr : v.wr = w.wr
  flits : Dev.OnlyFlits { w.d with ft := w.d.votedFt l h } v.d
  still : w.d.votedFt l h = w.d.ft → v = w

theorem World.flitVote_voted (w : World) (l h : Nat) : w.Voted l h (w.flitVote l h) := by
  unfold World.flitVote
  split
  case isTrue hl =>
    have ft : w.d.votedFt l h = w.d.ft.vote (bitOf h 13) (bitsOf h 31 16) (bitsOf h 15 14) := if_pos hl
    refine ⟨rfl, rfl, ?_, ?_⟩
    · rw [ft, World.onDev_d]
      dsimp only
      split
      case isTrue same => rw [same]; exact Dev.OnlyFlits.refl _
      case isFalse => exact Dev.sendVote_onlyFlits _
    · intro same
      rw [ft] at same
      unfold World.onDev
      dsimp only
      rw [if_pos same]
  case isFalse hl =>
    have ft : w.d.votedFt l h = w.d.ft := if_neg hl
    exact ⟨rfl, rfl, ft ▸ Dev.OnlyFlits.refl _, fun _ => rfl⟩

section
variable {w v : World} {l h : Nat}

theorem World.Voted.links (k : w.Voted l h v) : v.d.links = w.d.links := k.flits.links
theorem World.Voted.regs (k : w.Voted l h v) : v.d.regs = w.d.regs := k.flits.regs
theorem World.Voted.srx (k : w.Voted l h v) : v.d.srx = w.d.srx := k.flits.srx
theorem World.Voted.hedge (k : w.Voted l h v) : v.d.hedge = w.d.hedge := k.flits.hedge
theorem World.Voted.said (k : w.Voted l h v) : v.d.said = w.d.said := k.flits.said
theorem World.Voted.link (k : w.Voted l h v) (n : Nat) : v.d.link n = w.d.link n := Dev.link_congr k.links n

end

/-! ## A flit without a number -/

theorem World.plainFlit_bad {w : World} {l typ : Nat} {flit : List Byte} (ht : w.d.takesFlits l typ = true) (hb : flitOk flit = false) :
    w.plainFlit l typ flit = (w.badFlit l, false) := by
  unfold World.plainFlit
  rw [if_neg (by simp [ht]), if_pos (by simp [hb])]

theorem World.plainFlit_other {w : World} {l typ : Nat} {flit : List Byte} (ht : w.d.takesFlits l typ = true) (hb : flitOk flit = true)
    (hn : bitsOf (flitHdr flit) 3 0 ≠ typ) : w.plainFlit l typ flit = (w, false) := by
  unfold World.plainFlit
  rw [if_neg (by simp [ht]), if_neg (by simp [hb]), if_pos hn]

theorem World.plainFlit_good {w : World} {l typ : Nat} {flit : List Byte} (ht : w.d.takesFlits l typ = true) (hb : flitOk flit = true)
    (hn : bitsOf (flitHdr flit) 3 0 = typ) : w.plainFlit l typ flit = (w.flitVote l (flitHdr flit), true) := by
  unfold World.plainFlit
  rw [if_neg (by simp [ht]), if_neg (by simp [hb]), if_neg (by simp [hn])]

theorem linkBase_ne_crcs (l : Nat) : linkBase l ≠ linkCrcs l := by
  unfold linkCrcs
  split <;> omega

theorem World.badFlit_nakked (w : World) (l : Nat) : w.badFlit l = { w with d := w.d.nakked l } := by
  have up : (w.count (linkCrcs l) 63 0 1).d.linkUp l = w.d.linkUp l := by
    unfold Dev.linkUp
    dsimp only
    rw [show (w.count (linkCrcs l) 63 0 1).d.linkState l = w.d.linkState l from Dev.count_fld_ne _ _ _ _ _ _ (linkBase_ne_crcs l)]
  have link : (w.count (linkCrcs l) 63 0 1).d.link l = w.d.link l := rfl
  unfold World.badFlit Dev.nakked Dev.sends
  dsimp only
  rw [up, link]
  split <;> rfl

/-! ## A numbered flit -/

theorem World.numberedFlit_refused {w v : World} {l typ : Nat} {flit : List Byte} (h : w.plainFlit l typ flit = (v, false)) :
    w.numberedFlit l typ flit = (v, false) := by
  unfold World.numberedFlit
  rw [h]
  rfl

theorem World.numberedFlit_outOfOrder {w v : World} {l typ : Nat} {flit : List Byte} (h : w.plainFlit l typ flit = (v, true))
    (hn : bitsOf (flitHdr flit) 12 4 ≠ (v.d.link l).expect) : w.numberedFlit l typ flit = (v, false) := by
  unfold World.numberedFlit
  rw [h]
  exact if_pos hn

/-- A numbered flit has been taken: the next SEQ is expected, and nothing of the link's stream, the registers or the kept scalars changes. -/
structure World.TookFlit (w : World) (l : Nat) (v : World) : Prop where
  wr : v.wr = w.wr
  srx : v.d.srx = w.d.srx
  hedge : v.d.hedge = w.d.hedge
  rx : (v.d.link l).rx = (w.d.link l).rx
  expect : (v.d.link l).expect = ((w.d.link l).expect + 1) % 512

theorem World.TookFlit.sendLink {w v : World} {l : Nat} (k : w.TookFlit l v) (m : LinkMsg) :
    w.TookFlit l (v.onDev (fun d => d.sendLink l m)) := by
  have sent := v.d.sendLink_onlyFlits l m
  have link := Dev.link_congr sent.links l
  exact ⟨k.wr, sent.srx.trans k.srx, sent.hedge.trans k.hedge, by rw [World.onDev_d, link, k.rx], by rw [World.onDev_d, link, k.expect]⟩

theorem World.numberedFlit_next {w v : World} {l typ : Nat} {flit : List Byte} (h : w.plainFlit l typ flit = (v, true))
    (hv : w.Voted l (flitHdr flit) v) (hn : bitsOf (flitHdr flit) 12 4 = (w.d.link l).expect) :
    (w.numberedFlit l typ flit).2 = true ∧ w.TookFlit l (w.numberedFlit l typ flit).1 := by
  have taken : ∀ f : Link → Link, (f (v.d.link l)).rx = (v.d.link l).rx → (f (v.d.link l)).expect = ((v.d.link l).expect + 1) % 512 →
      w.TookFlit l (v.onDev (fun d => d.onLink l f)) := fun f hx he => by
    have self := v.d.onLink_link_self l f
    exact ⟨hv.wr, hv.srx, hv.hedge, by rw [World.onDev_d, self, hx, hv.link], by rw [World.onDev_d, self, he, hv.link]⟩
  have inOrder : ¬ bitsOf (flitHdr flit) 12 4 ≠ (v.d.link l).expect := by rw [hv.link, hn]; simp
  unfold World.numberedFlit
  rw [h]
  dsimp only
  rw [if_neg (by decide), if_neg inOrder]
  refine ⟨rfl, ?_⟩
  have next := fun u : Link → Nat => taken (fun y => { y with expect := (y.expect + 1) % 512, unsaid := u y }) rfl rfl
  split
  · exact (next (fun _ => 0)).sendLink _
  · exact next (fun y => y.unsaid + 1)

/-! ## DATA and SCALAR flits -/

theorem doFlitDataRx_refused {w : World} {l : Fin 32} {flit : List Byte} (h : (w.numberedFlit l.val 1 flit).2 = false) :
    doFlitDataRx l flit w = (w.numberedFlit l.val 1 flit).1 := by
  unfold doFlitDataRx
  dsimp only
  rw [h]
  rfl

theorem doFlitDataRx_quarter {w : World} {l : Fin 32} {flit : List Byte} (hl : 24 ≤ l.val) :
    doFlitDataRx l flit w = (w.numberedFlit l.val 1 flit).1 := by
  unfold doFlitDataRx
  dsimp only
  rw [decide_eq_true hl, Bool.or_true]
  rfl

theorem doFlitDataRx_port {w : World} {l : Fin 32} {flit : List Byte} (h : (w.numberedFlit l.val 1 flit).2 = true) (hl : l.val < 24) :
    doFlitDataRx l flit w = World.rxStream 9 (w.numberedFlit l.val 1 flit).1 l.val
      (((w.numberedFlit l.val 1 flit).1.d.link l.val).rx ++ slice flit 4 248) := by
  unfold doFlitDataRx
  dsimp only
  rw [h, decide_eq_false (by omega)]
  rfl

theorem doFlitScalarRx_refused {w : World} {l : Fin 32} {flit : List Byte} (m : ScalarMsg) (hl : l.val < 24)
    (h : (w.numberedFlit l.val 3 flit).2 = false) : doFlitScalarRx l flit m w = (w.numberedFlit l.val 3 flit).1 := by
  unfold doFlitScalarRx
  dsimp only
  rw [if_neg (by omega), h]
  rfl

theorem doFlitScalarRx_kept {w : World} {l : Fin 32} {flit : List Byte} {m : ScalarMsg} (hl : l.val < 24)
    (h : (w.numberedFlit l.val 3 flit).2 = true) (hm : m.dest.toNat = (w.numberedFlit l.val 3 flit).1.d.hedge.rank)
    (ht : (w.numberedFlit l.val 3 flit).1.tagDiffers none m.src.toNat m.step.toNat m.tag.toNat = []) :
    doFlitScalarRx l flit m w = (w.numberedFlit l.val 3 flit).1.onDev (fun d => { d with srx := d.srx ++ [m] }) := by
  unfold doFlitScalarRx
  dsimp only
  rw [if_neg (by omega), h, if_neg (by decide), if_neg (by simp [hm]), ht]

/-- A packet that is still incomplete waits for its flits. -/
theorem World.rxStream_short (n : Nat) (w : World) (l : Nat) {buf : List Byte} (hz : buf.all (· == 0) = false)
    (hn : buf.length < 32 + 516 * min 32 (pktHdr buf).blocks) :
    World.rxStream (n + 1) w l buf = w.onDev (fun d => d.onLink l (fun x => { x with rx := buf })) := by
  unfold World.rxStream
  rw [hz]
  exact if_pos hn

theorem World.rxStream_zero (n : Nat) (w : World) (l : Nat) {buf : List Byte} (hz : buf.all (· == 0) = true) :
    World.rxStream (n + 1) w l buf = w.onDev (fun d => d.onLink l (fun x => { x with rx := [] })) := by
  unfold World.rxStream
  exact if_pos hz

/-- A whole packet of a good header is received, and the stream goes on behind it. -/
theorem World.rxStream_whole (n : Nat) (w : World) (l : Nat) {buf : List Byte} (hz : buf.all (· == 0) = false)
    (hn : 32 + 516 * min 32 (pktHdr buf).blocks ≤ buf.length) (hok : pktHdrOk (buf.take (32 + 516 * min 32 (pktHdr buf).blocks)) = true)
    (hb : (pktHdr buf).blocks ≤ 32) :
    World.rxStream (n + 1) w l buf = World.rxStream n
      ((w.onDev (fun d => d.onLink l (fun x => x.goodHeader (pktHdr buf)))).rxPacket l (pktHdr buf)
        (buf.take (32 + 516 * min 32 (pktHdr buf).blocks))) l (buf.drop (32 + 516 * min 32 (pktHdr buf).blocks)) := by
  conv => lhs; unfold World.rxStream
  dsimp only
  rw [hz, if_neg (by decide), if_neg (by omega), if_neg (by rw [hok]; simp; omega)]

/-! ## LINK flits -/

/-- What a LINK flit acknowledges and advertises. -/
def World.acked (w : World) (l : Nat) (a : Fin 512) (c : Nat) : World :=
  (w.onDev (fun d => d.onLink l (fun x =>
    let rest := (x.replay.dropWhile (fun (e : Nat × TxFlit) => decide (e.1 ≠ a.val))).drop 1
    if x.replay.any (fun (e : Nat × TxFlit) => e.1 == a.val) then { x with replay := rest, nakRun := 0 } else x))).onDev
      (fun d => d.onLink l (fun x => { x with credit := c }))

theorem doFlitLinkRx_refused {w : World} {l : Fin 32} {flit : List Byte} (m : LinkMsg) (h : (w.plainFlit l.val 2 flit).2 = false) :
    doFlitLinkRx l flit m w = (w.plainFlit l.val 2 flit).1 := by
  unfold doFlitLinkRx
  dsimp only
  rw [h]
  rfl

theorem doFlitLinkRx_ack {w v : World} {l : Fin 32} {flit : List Byte} (a : Fin 512) (c : W16)
    (h : w.plainFlit l.val 2 flit = (v, true)) :
    doFlitLinkRx l flit { ack := some a, nak := none, credit := some c } w =
      (v.acked l.val a c.toNat).onDev (fun d => d.pump l.val) := by
  unfold doFlitLinkRx
  dsimp only
  rw [h]
  rfl

/-- The NAK of a SEQ has been noted. -/
def World.nakNoted (w : World) (l n run : Nat) : World := w.onDev (fun d => d.onLink l (fun x => { x with nakSeq := n, nakRun := run }))

/-- How often in a row a SEQ has been NAKed. -/
def Link.nakRunOf (x : Link) (n : Nat) : Nat := if x.nakSeq = n then x.nakRun + 1 else 1

theorem doFlitLinkRx_nak {w v : World} {l : Fin 32} {flit : List Byte} (n : Fin 512) (h : w.plainFlit l.val 2 flit = (v, true))
    (hr : (v.d.link l.val).nakRunOf n.val < 8) :
    doFlitLinkRx l flit { ack := none, nak := some n, credit := none } w =
      ((v.nakNoted l.val n.val ((v.d.link l.val).nakRunOf n.val)).onDev (fun d => d.resendFrom l.val n.val)).onDev (fun d => d.pump l.val) := by
  unfold doFlitLinkRx
  dsimp only
  rw [h]
  dsimp only
  exact congrArg (fun u : World => u.onDev (fun d => d.pump l.val)) (if_neg (Nat.not_le.2 hr))

theorem doFlitLinkRx_eighth {w v : World} {l : Fin 32} {flit : List Byte} (n : Fin 512) (h : w.plainFlit l.val 2 flit = (v, true))
    (hr : 8 ≤ (v.d.link l.val).nakRunOf n.val) :
    ∃ x : LogEntry, doFlitLinkRx l flit { ack := none, nak := some n, credit := none } w =
      (((v.nakNoted l.val n.val ((v.d.link l.val).nakRunOf n.val)).log x).retrain l.val false).onDev (fun d => d.pump l.val) := by
  unfold doFlitLinkRx
  dsimp only
  rw [h]
  dsimp only
  exact ⟨_, congrArg (fun u : World => u.onDev (fun d => d.pump l.val)) (if_pos hr)⟩

/-- A link with nothing to send sends nothing. -/
theorem Dev.pump_idle {d : Dev} {l : Nat} (h1 : (d.link l).txq = []) (h2 : (d.link l).txq2 = []) : d.pump l = d := by
  rw [Dev.pump, h1, h2]
  rfl

theorem World.acked_link (w : World) (l : Nat) (a : Fin 512) (c : Nat)
    (h : (w.d.link l).replay.any (fun e => e.1 == a.val) = true) :
    (w.acked l a c).d.link l = { w.d.link l with
      replay := ((w.d.link l).replay.dropWhile (fun e => decide (e.1 ≠ a.val))).drop 1, nakRun := 0, credit := c } := by
  unfold World.acked
  dsimp only [World.onDev_d]
  rw [Dev.onLink_link_self, Dev.onLink_link_self, if_pos h]

/-! ## The obligation -/

/-- The commands of the flits, each with the TYPE its row names and its effect on a flit that is not taken. -/
theorem flit_refused {l : Fin 32} {flit : List Byte} {cmd : Instr} {typ : Nat} {m : LinkMsg} {n : ScalarMsg} {s : State}
    (hc : cmd = .flitDataRx l flit ∧ typ = 1 ∨ cmd = .flitLinkRx l flit m ∧ typ = 2 ∨
      cmd = .flitScalarRx l flit n ∧ typ = 3 ∧ l.val < 24 ∨ cmd = .flitTrainRx l flit ∧ typ = 4 ∨ cmd = .flitIdleRx l flit ∧ typ = 0)
    (live : s.live) {d : Dev} (h : s.world.plainFlit l.val typ flit = ({ s.world with d := d }, false)) :
    exec cmd s = .next { s with dev := d } := by
  have numbered := World.numberedFlit_refused h
  obtain ⟨rfl, rfl⟩ | ⟨rfl, rfl⟩ | ⟨rfl, rfl, hl⟩ | ⟨rfl, rfl⟩ | ⟨rfl, rfl⟩ := hc
  · exact runLive_eq_dev (f := doFlitDataRx l flit) live ((doFlitDataRx_refused (by rw [numbered])).trans (by rw [numbered]))
  · exact runLive_eq_dev (f := doFlitLinkRx l flit m) live ((doFlitLinkRx_refused m (by rw [h])).trans (by rw [h]))
  · exact runLive_eq_dev (f := doFlitScalarRx l flit n) live ((doFlitScalarRx_refused n hl (by rw [numbered])).trans (by rw [numbered]))
  · exact runLive_eq_dev (f := doFlitTrainRx l flit) live (congrArg Prod.fst h)
  · exact runLive_eq_dev (f := doFlitIdleRx l flit) live (congrArg Prod.fst h)

theorem State.flitGood.plain {s : State} {l typ : Nat} {flit : List Byte} (h : s.flitGood l typ flit) :
    s.world.plainFlit l typ flit = (s.world.flitVote l (flitHdr flit), true) := by
  obtain ⟨-, takes, ok, type⟩ := h
  exact World.plainFlit_good (w := s.world) takes ok type

theorem State.flitNext.took {s : State} {l typ : Nat} {flit : List Byte} (h : s.flitNext l typ flit) :
    (s.world.numberedFlit l typ flit).2 = true ∧ s.world.TookFlit l (s.world.numberedFlit l typ flit).1 :=
  World.numberedFlit_next h.1.plain (s.world.flitVote_voted l (flitHdr flit)) h.2

/-- A flit of an unlisted TYPE on a link that sends. -/
theorem doUnlistedFlitType_sends {w : World} {l : Fin 32} {flit : List Byte} (hs : w.d.sends l.val = true)
    (hu : flitUnlisted l.val flit = true) :
    doUnlistedFlitType l flit w = if !flitOk flit then w.badFlit l.val else w.count (linkCrcs l.val) 63 0 1 := by
  simp only [Dev.sends, Bool.and_eq_true, Bool.not_eq_true'] at hs
  simp only [flitUnlisted, Bool.or_eq_true, decide_eq_true_eq] at hu
  have unlisted : (decide (bitsOf (flitHdr flit) 3 0 ≤ 4) && !(decide (24 ≤ l.val) && bitsOf (flitHdr flit) 3 0 == 3)) = false := by
    obtain type | quarter := hu
    · rw [decide_eq_false (by omega), Bool.false_and]
    · rw [quarter, Bool.not_true, Bool.and_false]
  unfold doUnlistedFlitType
  dsimp only
  rw [unlisted, hs.1, hs.2]
  rfl

theorem badFlit_commit {s : State} {f : World → World} {l : Nat} (live : s.live) (hf : f s.world = s.world.badFlit l) :
    runLive s f = .next { s with dev := s.dev.nakked l } :=
  runLive_eq_dev live (hf.trans (World.badFlit_nakked s.world l))

/-- Settles O51: every flit goes through the CRC and its hold vote; a numbered one then through the SEQ expected, a LINK flit to the
replay buffer. -/
theorem flitsAdvanceTheLink : Obligations.FlitsAdvanceTheLink := by
  unfold Obligations.FlitsAdvanceTheLink
  refine ⟨fun l flit cmd typ m n s hc live takes => ⟨fun bad => ?_, fun ok other => ?_⟩, fun l flit s live sends unlisted => ⟨fun ok => ?_, fun bad => ?_⟩,
    fun l flit cmd typ s hc good => ?_, fun l flit s next => ?_, fun l flit cmd typ n s hc good order => ?_,
    fun l flit m s next hl rank same => ?_, fun l flit a c s good q1 q2 has => ?_, fun l flit n s good => ?_⟩
  · exact flit_refused hc live ((World.plainFlit_bad (w := s.world) takes bad).trans (by rw [World.badFlit_nakked]; rfl))
  · exact flit_refused hc live (World.plainFlit_other (w := s.world) takes ok other)
  · exact runLive_eq_dev (f := doUnlistedFlitType l flit) live ((doUnlistedFlitType_sends (w := s.world) sends unlisted).trans (by rw [ok]; rfl))
  · exact badFlit_commit (f := doUnlistedFlitType l flit) live ((doUnlistedFlitType_sends (w := s.world) sends unlisted).trans (by rw [bad]; rfl))
  · have voted := s.world.flitVote_voted l.val (flitHdr flit)
    have run : exec cmd s = .next (commit s (s.world.flitVote l.val (flitHdr flit))) := by
      obtain ⟨rfl, rfl⟩ | ⟨rfl, rfl⟩ := hc
      · exact runLive_eq_world (f := doFlitTrainRx l flit) good.1 (congrArg Prod.fst good.plain)
      · exact runLive_eq_world (f := doFlitIdleRx l flit) good.1 (congrArg Prod.fst good.plain)
    refine ⟨_, run, commit_mem_nil voted.wr, voted.regs, voted.links, voted.said, voted.flits.ft, fun same => ?_⟩
    rw [voted.still (voted.flits.ft.symm.trans same)]
    rfl
  · obtain ⟨inOrder, took⟩ := next.took
    have stream : l.val < 24 → exec (.flitDataRx l flit) s = .next (commit s (World.rxStream 9 (s.world.numberedFlit l.val 1 flit).1 l.val
        ((s.dev.link l.val).rx ++ slice flit 4 248))) := fun hl => by
      refine runLive_eq_world (f := doFlitDataRx l flit) next.1.1 ((doFlitDataRx_port inOrder hl).trans ?_)
      rw [took.rx]
      rfl
    have set : ∀ b : List Byte, ((s.world.numberedFlit l.val 1 flit).1.d.onLink l.val (fun x => { x with rx := b })).link l.val =
        { (s.world.numberedFlit l.val 1 flit).1.d.link l.val with rx := b } := fun b => Dev.onLink_link_self ..
    refine ⟨stream, fun hl hz short => ?_, fun hl hz whole ok few rest => ?_, fun hl => ?_⟩
    · refine ⟨_, (stream hl).trans (congrArg (fun w => Host.Outcome.next (commit s w)) (World.rxStream_short 8 _ _ hz short)), commit_mem_nil took.wr, ?_, ?_⟩
      · exact congrArg Link.rx (set _)
      · exact (congrArg Link.expect (set _)).trans took.expect
    · refine (stream hl).trans ?_
      rw [World.rxStream_whole 8 _ _ hz whole ok few, World.rxStream_zero 7 _ _ rest]
    · exact ⟨_, runLive_eq_world (f := doFlitDataRx l flit) next.1.1 (doFlitDataRx_quarter hl), commit_mem_nil took.wr, took.rx, took.expect⟩
  · have voted := s.world.flitVote_voted l.val (flitHdr flit)
    have refused : s.world.numberedFlit l.val typ flit = (s.world.flitVote l.val (flitHdr flit), false) :=
      World.numberedFlit_outOfOrder good.plain (by rw [voted.link]; exact order)
    have run : exec cmd s = .next (commit s (s.world.flitVote l.val (flitHdr flit))) := by
      obtain ⟨rfl, rfl⟩ | ⟨rfl, rfl, hl⟩ := hc
      · exact runLive_eq_world (f := doFlitDataRx l flit) good.1 ((doFlitDataRx_refused (by rw [refused])).trans (by rw [refused]))
      · exact runLive_eq_world (f := doFlitScalarRx l flit n) good.1 ((doFlitScalarRx_refused n hl (by rw [refused])).trans (by rw [refused]))
    exact ⟨_, run, commit_mem_nil voted.wr, voted.links, voted.regs, voted.srx⟩
  · obtain ⟨inOrder, took⟩ := next.took
    have kept := doFlitScalarRx_kept hl inOrder (by rw [took.hedge]; exact rank) same
    refine ⟨_, runLive_eq_world (f := doFlitScalarRx l flit m) next.1.1 kept, commit_mem_nil took.wr, ?_, took.expect⟩
    exact congrArg (· ++ [m]) took.srx
  · have voted := s.world.flitVote_voted l.val (flitHdr flit)
    have acked := (s.world.flitVote l.val (flitHdr flit)).acked_link l.val a c.toNat (by rw [voted.link]; exact has)
    rw [voted.link] at acked
    have idle := Dev.pump_idle (d := ((s.world.flitVote l.val (flitHdr flit)).acked l.val a c.toNat).d) (l := l.val)
      (by rw [acked]; exact q1) (by rw [acked]; exact q2)
    refine ⟨_, runLive_eq_world (f := doFlitLinkRx l flit _) good.1 (doFlitLinkRx_ack a c good.plain), commit_mem_nil voted.wr, ?_, ?_, ?_⟩
    · rw [commit_dev, World.onDev_d, idle]
      exact voted.said
    · rw [commit_dev, World.onDev_d, idle, acked]
      rfl
    · rw [commit_dev, World.onDev_d, idle, acked]
  · have voted := s.world.flitVote_voted l.val (flitHdr flit)
    have run : ((s.world.flitVote l.val (flitHdr flit)).d.link l.val).nakRunOf n.val = (s.dev.link l.val).nakRunOf n.val := by
      rw [voted.link]
      rfl
    refine ⟨fun few => ?_, fun eight => ?_⟩
    · refine runLive_eq_world (f := doFlitLinkRx l flit _) good.1 ((doFlitLinkRx_nak n good.plain (by rw [run]; exact few)).trans ?_)
      rw [run]
      rfl
    · obtain ⟨x, eighth⟩ := doFlitLinkRx_eighth n good.plain (by rw [run]; exact eight)
      rw [run] at eighth
      refine ⟨_, runLive_eq_world (f := doFlitLinkRx l flit _) good.1 eighth, commit_mem_nil voted.wr, ?_, ?_⟩
      · exact (Dev.pump_stillLink ..).linkState.trans (World.retrain_linkState _ l.isLt _)
      · exact (Dev.pump_stillLink ..).retraining.trans (World.retrain_link ..).1

end Sys2Proof.Machine
end

section
/-! SUPPORT and PROOFS. The wardens: boot, heartbeats, custody, the arbiter (R455, R456, R469 to R472). -/

namespace Sys2Proof.Machine

/-! ## The requests of the far store as they are sent -/

/-- A request and the same one once it may have been sent. -/
def FarReq.sentAs (r q : FarReq) : Prop := q = { r with sent := q.sent, tag := q.tag }

/-- One request sent, or left waiting, after those before it. -/
def Dev.pumpOne (s : Dev × List FarReq) (r : FarReq) : Dev × List FarReq :=
  if r.sent || 64 ≤ ((s.2 ++ s.1.hl.far).filter (fun x => x.sent && x.quarter == r.quarter)).length || !s.1.linkUp (24 + r.quarter) then
    (s.1, s.2 ++ [r])
  else
    let tag := tget 0 s.1.hl.nextTag r.quarter
    let r := { r with sent := true, tag := tag }
    let d := { s.1 with hl := { s.1.hl with nextTag := tput s.1.hl.nextTag r.quarter ((tag + 1) % 2 ^ 16) } }
    ((d.emit (.memReq r.quarter r.pkt)).sendHost r.quarter r.pkt, s.2 ++ [r])

theorem Dev.pumpOne_spec (s : Dev × List FarReq) (r : FarReq) :
    s.1.HostOnly (Dev.pumpOne s r).1 ∧ ∃ q, (Dev.pumpOne s r).2 = s.2 ++ [q] ∧ r.sentAs q := by
  unfold Dev.pumpOne
  split
  · exact ⟨.refl _, r, rfl, rfl⟩
  · refine ⟨?_, _, rfl, rfl⟩
    refine Dev.HostOnly.trans (Dev.HostOnly.trans ?_ (Dev.emit_linksOnly _ _).hostOnly) (Dev.sendHost_linksOnly ..).hostOnly
    rfl

theorem Dev.pumpAll_spec (rs : List FarReq) (s : Dev × List FarReq) :
    s.1.HostOnly (rs.foldl Dev.pumpOne s).1 ∧ ∃ qs, (rs.foldl Dev.pumpOne s).2 = s.2 ++ qs ∧ ∀ r ∈ rs, ∃ q ∈ qs, r.sentAs q := by
  induction rs generalizing s with
  | nil => exact ⟨.refl _, [], (List.append_nil _).symm, fun _ h => absurd h List.not_mem_nil⟩
  | cons r rs ih =>
    obtain ⟨host, q, list, same⟩ := Dev.pumpOne_spec s r
    obtain ⟨hosts, qs, lists, sames⟩ := ih (Dev.pumpOne s r)
    refine ⟨host.trans hosts, q :: qs, ?_, fun x hx => ?_⟩
    · rw [List.foldl_cons, lists, list, List.append_assoc, List.singleton_append]
    · obtain rfl | hx := List.mem_cons.1 hx
      · exact ⟨q, List.mem_cons_self, same⟩
      · obtain ⟨y, hy, sent⟩ := sames x hx
        exact ⟨y, List.mem_cons_of_mem _ hy, sent⟩

theorem Dev.pumpFar_spec (d : Dev) : d.HostOnly d.pumpFar ∧ ∀ r ∈ d.hl.far, ∃ q ∈ d.pumpFar.hl.far, r.sentAs q := by
  obtain ⟨host, qs, list, same⟩ := Dev.pumpAll_spec d.hl.far ({ d with hl := { d.hl with far := [] } }, [])
  refine ⟨?_, ?_⟩
  · exact Dev.HostOnly.trans (b := { d with hl := { d.hl with far := [] } }) rfl (host.trans rfl)
  · have far : d.pumpFar.hl.far = qs := list
    rw [far]
    exact same

/-- A request that waits is still asked for when the requests have been pumped. -/
theorem Dev.pumpFar_mem {d : Dev} {r : FarReq} (h : r ∈ d.hl.far) : ∃ q ∈ d.pumpFar.hl.far, r.sentAs q := d.pumpFar_spec.2 r h

/-! ## Boot -/

/-- What the warden in custody takes over from the image it boots. -/
def Dev.bootsCustody (m : List Byte) (c : Nat) (d : Dev) : Dev :=
  let d := if c < 2 then { d with fw := { d.fw with active := c } } else d
  let d := if c = 3 then
      ({ d with free := d.free + 1 }).setReg IDENT_BUILD (Config.freeValue d.free &&& 0xFFFFFFFFFFFFFF00)
    else d.setBuild m (c % 2)
  let d := (List.range d.fw.pendingFloors.length).foldl (fun d k =>
    d.raiseFloor (k + 1) (d.fw.pendingFloors.getD k 0)) d
  let d := { d with fw := { d.fw with pendingFloors := [] } }
  d.setFld HL_STATUS 9 9 1

/-- What a warden leaves of the device as it becomes ready. -/
def Dev.bootsReady (i c : Nat) (m : List Byte) (custody : Bool) (d : Dev) : Dev :=
  let t := wardenTower i
  let d := d.onWarden i (fun y => { y with ready := true, everReady := true })
  let d := d.measureAll c
  let d := if custody then d.bootsCustody m c else d
  let d := d.setFld (WD t) 0 0 1
  let d := d.setFld (WD t) 5 5 (if (manEntry m 2).length = 0 then 0 else 1)
  (d.wdView i).wdShared

theorem raiseFloors_wardens (f : Dev → Nat → Nat × Nat) (xs : List Nat) (d : Dev) :
    (xs.foldl (fun d k => d.raiseFloor (f d k).1 (f d k).2) d).wardens = d.wardens :=
  foldl_keeps (fun e : Dev => e.wardens = d.wardens) (fun d k => d.raiseFloor (f d k).1 (f d k).2) xs (fun _ _ _ h => h) d rfl

theorem Dev.bootsCustody_wardens (m : List Byte) (c : Nat) (d : Dev) : (d.bootsCustody m c).wardens = d.wardens := by
  unfold Dev.bootsCustody
  dsimp only
  rw [Dev.setFld_wardens]
  refine (raiseFloors_wardens (fun d k => (k + 1, d.fw.pendingFloors.getD k 0)) _ _).trans ?_
  split <;> split <;> rfl

theorem Dev.bootsCustody_status (m : List Byte) (c : Nat) (d : Dev) : (d.bootsCustody m c).fld HL_STATUS 9 9 = 1 :=
  Dev.setFld_fld_self _ _ _ (by decide) (by decide)

/-- The registers that show a warden are none of those that both wardens share, nor WD_CUSTODY. -/
theorem WD_ne_shown (i k : Nat) : WD (wardenTower i) ≠ WD (wardenTower k) + 0x20 ∧ WD (wardenTower i) ≠ WD (wardenTower k) + 0x28 ∧
    WD (wardenTower i) ≠ WD (wardenTower k) + 8 := by
  simp only [WD, twBase, wardenTower]
  omega

theorem status_ne_WD (k : Nat) : HL_STATUS ≠ WD (wardenTower k) + 0x20 ∧ HL_STATUS ≠ WD (wardenTower k) + 0x28 ∧
    HL_STATUS ≠ WD (wardenTower k) + 8 ∧ HL_STATUS ≠ WD (wardenTower k) := by
  simp only [WD, twBase, wardenTower, HL_STATUS]
  omega

theorem Dev.wdShown_rget (d : Dev) (i : Nat) {a : Nat} (h8 : a ≠ WD (wardenTower i) + 8)
    (hs : ∀ k, a ≠ WD (wardenTower k) + 0x20 ∧ a ≠ WD (wardenTower k) + 0x28) : rget (d.wdView i).wdShared.regs a = rget d.regs a :=
  (Dev.wdShared_rget _ fun k _ => hs k).trans (Dev.wdView_rget d i h8)

theorem Dev.bootsReady_spec (i c : Nat) (m : List Byte) (custody : Bool) (d : Dev) :
    ((d.bootsReady i c m custody).warden i).ready = true ∧ ((d.bootsReady i c m custody).warden i).everReady = true ∧
      (d.bootsReady i c m custody).fld (WD (wardenTower i)) 0 0 = 1 ∧
      (custody = true → (d.bootsReady i c m custody).fld HL_STATUS 9 9 = 1) := by
  unfold Dev.bootsReady
  dsimp only
  generalize hu : (d.onWarden i (fun y => { y with ready := true, everReady := true })).measureAll c = u
  have wardens : u.wardens = (d.onWarden i (fun y => { y with ready := true, everReady := true })).wardens := hu ▸ rfl
  generalize hv : (if custody = true then u.bootsCustody m c else u) = v
  have same : v.wardens = u.wardens := by
    rw [← hv]
    split
    · exact Dev.bootsCustody_wardens ..
    · rfl
  have warden : ∀ x y z, ((((v.setFld (WD (wardenTower i)) x x 1).setFld (WD (wardenTower i)) y y z).wdView i).wdShared).warden i =
      { d.warden i with ready := true, everReady := true } := fun x y z => by
    rw [Dev.warden, (Dev.wdShared_regsOnly _).wardens, (Dev.wdView_regsOnly ..).wardens, Dev.setFld_wardens, Dev.setFld_wardens, same, wardens,
      Dev.onWarden_wardens, tget_tput_self]
  obtain ⟨s20, s28, s8, s0⟩ := status_ne_WD i
  refine ⟨by rw [warden], by rw [warden], ?_, fun inCustody => ?_⟩
  · refine (Dev.fld_congr (Dev.wdShown_rget _ i (WD_ne_shown i i).2.2 fun k => ⟨(WD_ne_shown i k).1, (WD_ne_shown i k).2.1⟩) 0 0).trans ?_
    rw [Dev.setFld_fld_beside _ _ _ (by decide) (by decide) (.inr (by decide)), Dev.setFld_fld_fits _ _ _ (by decide) (by decide) (by decide)]
  · refine (Dev.fld_congr (Dev.wdShown_rget _ i s8 fun k => ⟨(status_ne_WD k).1, (status_ne_WD k).2.1⟩) 9 9).trans ?_
    rw [Dev.setFld_fld_ne _ _ _ _ _ _ s0, Dev.setFld_fld_ne _ _ _ _ _ _ s0, ← hv, if_pos inCustody, Dev.bootsCustody_status]

/-- A log entry, where there is one, leaves the registers and the wardens. -/
theorem World.ite_log (b : Bool) (w : World) (x : LogEntry) :
    (if b then w.log x else w).wr = w.wr ∧ (if b then w.log x else w).d.regs = w.d.regs ∧ (if b then w.log x else w).d.wardens = w.d.wardens := by
  cases b
  · exact ⟨rfl, rfl, rfl⟩
  · exact ⟨rfl, Dev.logEntry_regs .., Dev.logEntry_wardens ..⟩

/-- The cause of the last reset stands in a warden's code at its first boot. -/
def World.bootCoded (w : World) (i : Nat) : World :=
  if (w.d.warden i).everReady then w else w.setReg (WD (wardenTower i) + 0x18) (BitVec.ofNat 64 (causeCode w.d.allCauses))

/-- A first boot from the other slot is logged. -/
def World.bootNoted (w : World) (i c : Nat) : World :=
  if decide (c < 2) && c != (w.bootCoded i).d.fw.active && !(w.d.warden i).everReady then
    (w.bootCoded i).log { entry 0x53 (wardenTower i) 0x16 with index := (w.bootCoded i).d.fw.active }
  else w.bootCoded i

theorem World.bootCoded_wr (w : World) (i : Nat) : (w.bootCoded i).wr = w.wr := by
  unfold World.bootCoded
  generalize BitVec.ofNat 64 (causeCode w.d.allCauses) = v
  split
  · rfl
  · rw [World.setReg_wr]

theorem World.bootNoted_wr (w : World) (i c : Nat) : (w.bootNoted i c).wr = w.wr := (World.ite_log _ _ _).1.trans (w.bootCoded_wr i)

/-- A warden boots from an image. -/
def World.bootsWith (w : World) (i c : Nat) : World :=
  let x := w.d.warden i
  let cause := causeCode w.d.allCauses
  let m := w.d.bootImage c 0
  let w := (w.bootNoted i c).onDev (fun d => d.bootsReady i c m x.custody)
  if x.custody && !x.everReady then
    w.log { entry 0x57 (wardenTower i) 0x16 with detail := BitVec.ofNat 16 cause, param := w.d.allCauses }
  else w

theorem doWardenReady_boots {w : World} {i : Fin 2} {c : Nat} (hr : (w.d.warden i.val).ready = false) (hc : w.d.bootChoice = some c) :
    doWardenReady i w = w.bootsWith i.val c := by
  unfold doWardenReady
  dsimp only
  split
  case isTrue h => exact absurd (hr.symm.trans h) (by decide)
  case isFalse =>
    split
    case h_1 h => exact absurd (h.symm.trans hc) (by simp)
    case h_2 k h =>
      obtain rfl := Option.some.inj (hc.symm.trans h)
      rfl

theorem doWardenReady_fails {w : World} {i : Fin 2} (hr : (w.d.warden i.val).ready = false) (hc : w.d.bootChoice = none) :
    doWardenReady i w = w.bootFail i.val (if w.d.board.bootSrc = 3 then 0x0021 else 0x0020) := by
  unfold doWardenReady
  dsimp only
  split
  case isTrue h => exact absurd (hr.symm.trans h) (by decide)
  case isFalse =>
    split
    case h_1 => rfl
    case h_2 k h => exact absurd (hc.symm.trans h) (by simp)

theorem World.bootsWith_spec (w : World) (i c : Nat) :
    (w.bootsWith i c).wr = w.wr ∧ ((w.bootsWith i c).d.warden i).ready = true ∧ ((w.bootsWith i c).d.warden i).everReady = true ∧
      (w.bootsWith i c).d.fld (WD (wardenTower i)) 0 0 = 1 ∧
      ((w.d.warden i).custody = true → (w.bootsWith i c).d.fld HL_STATUS 9 9 = 1) := by
  obtain ⟨ready, ever, shown, status⟩ := (w.bootNoted i c).d.bootsReady_spec i c (w.d.bootImage c 0) (w.d.warden i).custody
  obtain ⟨wr, regs, wardens⟩ := World.ite_log ((w.d.warden i).custody && !(w.d.warden i).everReady)
    ((w.bootNoted i c).onDev (fun d => d.bootsReady i c (w.d.bootImage c 0) (w.d.warden i).custody))
    { entry 0x57 (wardenTower i) 0x16 with
      detail := BitVec.ofNat 16 (causeCode w.d.allCauses),
      param := ((w.bootNoted i c).onDev (fun d => d.bootsReady i c (w.d.bootImage c 0) (w.d.warden i).custody)).d.allCauses }
  have warden := congrArg (tget Warden.init · i) wardens
  have fld : ∀ a hi lo, (w.bootsWith i c).d.fld a hi lo = Dev.fld ((w.bootNoted i c).d.bootsReady i c (w.d.bootImage c 0) (w.d.warden i).custody) a hi lo :=
    fun a hi lo => congrArg (rfld · a hi lo) regs
  refine ⟨wr.trans (w.bootNoted_wr i c), ?_, ?_, ?_, fun h => ?_⟩
  · exact (congrArg Warden.ready warden).trans ready
  · exact (congrArg Warden.everReady warden).trans ever
  · rw [fld]; exact shown
  · rw [fld]; exact status h

theorem Dev.log_fld (d : Dev) (x : LogEntry) (a hi lo : Nat) : (d.log_ x).fld a hi lo = d.fld a hi lo :=
  Dev.fld_congr (by rw [Dev.logEntry_regs]) hi lo

theorem World.bootFail_spec (w : World) (i : Nat) {code : Nat} (hc : code < 2 ^ 64) :
    (w.bootFail i code).wr = w.wr ∧ (w.bootFail i code).d.wardens = w.d.wardens ∧
      (w.bootFail i code).d.fld (WD (wardenTower i)) 6 6 = 1 ∧
      (rget (w.bootFail i code).d.regs (WD (wardenTower i) + 0x18)).toNat = code := by
  unfold World.bootFail
  dsimp only
  generalize wardenTower i = t
  refine ⟨?_, ?_, ?_, ?_⟩
  · rw [World.log_wr, World.setReg_wr, World.setBit_wr]
  · rw [World.log_d, Dev.logEntry_wardens, World.setReg_d, Dev.setReg_wardens, World.setBit_d, Dev.setBit_wardens]
  · rw [World.log_d, Dev.log_fld, World.setReg_d, Dev.setReg_fld_ne _ _ _ _ (by omega), World.setBit_d, Dev.setBit_fld_self _ _ (by decide)]
  · rw [World.log_d, Dev.logEntry_regs, World.setReg_d, Dev.setReg_rget_self, BitVec.toNat_ofNat, Nat.mod_eq_of_lt hc]

/-! ## A boot from the host tried again -/

/-- The request with which a boot from the host asks for its image. -/
def bootReq (off count : Nat) : FarReq :=
  { quarter := 0, tag := 0, sent := false, opcode := 0x10, off := off, count := count, reread := false, medium := false,
    who := whoBoot, ctx := 0xFFFF, blocks := [] }

/-- The device with one more request of the far store. -/
def Dev.withReq (d : Dev) (r : FarReq) : Dev := { d with hl := { d.hl with far := d.hl.far ++ [r] } }

theorem Dev.withReq_hostOnly (d : Dev) (r : FarReq) : d.HostOnly (d.withReq r) := rfl

theorem Dev.bootRead_eq (d : Dev) (off count : Nat) : d.bootRead off count = (d.withReq (bootReq off count)).pumpFar := rfl

theorem Dev.bootRead_spec (d : Dev) (off count : Nat) :
    d.HostOnly (d.bootRead off count) ∧
      ∃ q ∈ (d.bootRead off count).hl.far, q.who = whoBoot ∧ q.off = off ∧ q.count = count ∧ q.opcode = 0x10 := by
  rw [Dev.bootRead_eq]
  refine ⟨(d.withReq_hostOnly _).trans (Dev.pumpFar_spec _).1, ?_⟩
  obtain ⟨q, hq, same⟩ := Dev.pumpFar_mem (d := d.withReq (bootReq off count)) (List.mem_append_right _ (List.mem_singleton_self _))
  exact ⟨q, hq, congrArg FarReq.who same, congrArg FarReq.off same, congrArg FarReq.count same, congrArg FarReq.opcode same⟩

theorem Dev.HostOnly.fw {d e : Dev} (h : d.HostOnly e) : e.fw = d.fw := (congrArg Dev.fw h :)

/-- The image asked for so far is dropped and its requests are taken back. -/
def Dev.bootDropped (d : Dev) : Dev :=
  { d with fw := { d.fw with bootImg := [] }, hl := { d.hl with far := d.hl.far.filter (fun r => r.who != whoBoot) } }

theorem doBootRetry_due {w : World} (hb : w.d.hostBoot = true) (hs : w.d.fld HL_STATUS 9 9 = 0) :
    doBootRetry w = w.onDev (fun d => d.bootDropped.bootRead 0 8) := if_pos (by rw [hb, hs]; rfl)

theorem bootRetry_spec {s : State} (live : s.live) (hb : s.dev.hostBoot = true) (hs : s.dev.fld HL_STATUS 9 9 = 0) :
    ∃ t, exec .bootRetry s = .next t ∧ t.mem = s.mem ∧ t.dev.fw.bootImg = [] ∧
      ∃ q ∈ t.dev.hl.far, q.who = whoBoot ∧ q.off = 0 ∧ q.count = 8 ∧ q.opcode = 0x10 := by
  obtain ⟨host, asked⟩ := s.dev.bootDropped.bootRead_spec 0 8
  refine ⟨_, runLive_eq_world live (doBootRetry_due (w := s.world) hb hs), commit_mem_nil rfl, ?_, asked⟩
  exact congrArg Fw.bootImg host.fw

/-! ## Heartbeats -/

theorem Dev.onWarden_warden_self (d : Dev) (i : Nat) (f : Warden → Warden) : (d.onWarden i f).warden i = f (d.warden i) := tget_tput_self ..
theorem Dev.onWarden_warden_ne (d : Dev) {i k : Nat} (f : Warden → Warden) (h : k ≠ i) : (d.onWarden i f).warden k = d.warden k :=
  tget_tput_ne _ _ _ h
theorem Dev.warden_congr {d e : Dev} (h : d.wardens = e.wardens) (i : Nat) : d.warden i = e.warden i := congrArg (tget Warden.init · i) h

theorem heartbeatSend_ready {s : State} {i : Fin 2} (live : s.live) (hr : (s.dev.warden i.val).ready = true) :
    exec (.heartbeatSend i) s = .next { s with dev :=
      { s.dev.onWarden i.val (fun y => { y with seq := ((s.dev.warden i.val).seq + 1) % 2 ^ 16 }) with
        out := s.dev.out ++ [.heartbeat (wardenTower i.val) (BitVec.ofNat 64 (s.dev.warden i.val).epoch)
          (BitVec.ofNat 16 (((s.dev.warden i.val).seq + 1) % 2 ^ 16)) (s.dev.fld (WD (wardenTower i.val)) 4 4 == 1)] } } :=
  runLive_eq_dev (f := doHeartbeatSend i) live (if_pos hr)

theorem heartbeatSend_still {s : State} {i : Fin 2} (live : s.live) (hr : (s.dev.warden i.val).ready = false) :
    exec (.heartbeatSend i) s = .next s :=
  runLive_eq_dev (f := doHeartbeatSend i) (d := s.dev) live (if_neg fun h => absurd (hr.symm.trans h) (by decide))

/-- A heartbeat's SEQ and the end of the run of misses at its hearer. -/
def Dev.heard (d : Dev) (i : Nat) (epoch : W64) (seq : W16) (restarting : Bool) : Dev :=
  Dev.wdView (((d.setFld (WD (wardenTower i) + 0x10) 31 16 seq.toNat).setFld (WD (wardenTower i) + 0x10) 3 0 0).onWarden i (fun x => { x with
    run := 0, gotBeat := true, grace := if restarting then 64 else x.grace - 1, epoch := if x.custody then x.epoch else epoch.toNat })) i

theorem World.setFld_setFld_onDev (w : World) (a h l x h' l' x' : Nat) (g : Dev → Dev) :
    ((w.setFld a h l x).setFld a h' l' x').onDev g = w.onDev (fun d => g ((d.setFld a h l x).setFld a h' l' x')) := by
  unfold World.setFld
  rw [World.onDev_onDev, World.onDev_onDev]

theorem doHeartbeatRx_good {w : World} {i : Fin 2} {epoch : W64} {seq : W16} {re : Bool} {crc : Byte}
    (h : crc8 (beatBytes epoch seq re) = crc.toNat) : doHeartbeatRx i epoch seq re crc w = w.onDev (fun d => d.heard i.val epoch seq re) :=
  (if_neg (by rw [h]; simp)).trans (World.setFld_setFld_onDev ..)

theorem doHeartbeatRx_bad {i : Fin 2} {epoch : W64} {seq : W16} {re : Bool} {crc : Byte}
    (h : crc8 (beatBytes epoch seq re) ≠ crc.toNat) : doHeartbeatRx i epoch seq re crc = doHeartbeatMissed i :=
  funext fun _ => if_pos h

theorem Dev.heard_spec (d : Dev) (i : Nat) (epoch : W64) (seq : W16) (re : Bool) :
    ((d.heard i epoch seq re).warden i).run = 0 ∧ ((d.heard i epoch seq re).warden i).gotBeat = true ∧
      (d.heard i epoch seq re).fld (WD (wardenTower i) + 0x10) 31 16 = seq.toNat ∧
      (d.heard i epoch seq re).fld (WD (wardenTower i) + 0x10) 3 0 = 0 ∧
      ((d.warden i).custody = false → ((d.heard i epoch seq re).warden i).epoch = epoch.toNat) := by
  have warden : (d.heard i epoch seq re).warden i = { d.warden i with
      run := 0, gotBeat := true, grace := if re then 64 else (d.warden i).grace - 1,
      epoch := if (d.warden i).custody then (d.warden i).epoch else epoch.toNat } := by
    rw [Dev.heard, Dev.warden_congr (Dev.wdView_regsOnly ..).wardens, Dev.onWarden_warden_self, Dev.warden_congr (Dev.setFld_wardens ..),
      Dev.warden_congr (Dev.setFld_wardens ..)]
  have beats : WD (wardenTower i) + 0x10 ≠ WD (wardenTower i) + 8 := by omega
  have fld : ∀ hi lo, (d.heard i epoch seq re).fld (WD (wardenTower i) + 0x10) hi lo =
      ((d.setFld (WD (wardenTower i) + 0x10) 31 16 seq.toNat).setFld (WD (wardenTower i) + 0x10) 3 0 0).fld (WD (wardenTower i) + 0x10) hi lo := fun hi lo => by
    rw [Dev.heard]
    exact Dev.fld_congr (by rw [Dev.wdView_rget _ _ beats, Dev.onWarden_regs]) hi lo
  refine ⟨by rw [warden], by rw [warden], ?_, ?_, fun h => by rw [warden, h]; rfl⟩
  · rw [fld]
    generalize WD (wardenTower i) + 0x10 = a
    rw [Dev.setFld_fld_beside _ _ _ (by decide) (by decide) (.inl (by decide)), Dev.setFld_fld_self _ _ _ (by decide) (by decide)]
    exact Nat.mod_eq_of_lt seq.isLt
  · rw [fld]
    generalize WD (wardenTower i) + 0x10 = a
    rw [Dev.setFld_fld_self _ _ _ (by decide) (by decide), Nat.zero_mod]

theorem World.beatMissed_spec (w : World) (i : Nat) :
    (w.beatMissed i).wr = w.wr ∧ ((w.beatMissed i).d.warden i).run = (w.d.warden i).run + 1 ∧
      ((w.beatMissed i).d.warden i).custody = (w.d.warden i).custody := by
  unfold World.beatMissed
  dsimp only
  generalize WD (wardenTower i) + 0x10 = a
  have warden : ((w.count a 63 32 1).count a 3 0 1).d.warden i = w.d.warden i := by
    rw [World.count_d, World.count_d, Dev.warden_congr (Dev.count_regsOnly ..).wardens, Dev.warden_congr (Dev.count_regsOnly ..).wardens]
  rw [World.onDev_d, Dev.onWarden_warden_self, warden, World.onDev_wr, World.count_wr, World.count_wr]
  exact ⟨rfl, rfl, rfl⟩

/-! ## Custody -/

theorem Dev.Tells.wardens {R : List Nat} {d e : Dev} (h : Dev.Tells R d e) : e.wardens = d.wardens := (congrArg Dev.wardens h.only :)
theorem Dev.Tells.fw {R : List Nat} {d e : Dev} (h : Dev.Tells R d e) : e.fw = d.fw := (congrArg Dev.fw h.only :)

/-- An event and a log entry tell of what has happened, in HL_FAULT and HL_EVENTS_LOST at most. -/
theorem World.event_log_tells (w : World) (code : Nat) (st det : W16) (ctx : Nat) (bl : List Blk) (x : LogEntry) :
    Dev.Tells [HL_FAULT, HL_EVENTS_LOST] w.d ((w.event code st det ctx bl).log x).d :=
  (Dev.event_tells w.d code st det ctx 0xFFFF bl (by simp) (by simp)).trans (Dev.log_tells _ _ _)

/-- The standby takes custody with the next epoch, and the arbiter knows of it. -/
def Dev.claimed (d : Dev) (i e : Nat) : Dev :=
  let d := d.onWarden i (fun y => { y with custody := true, epoch := e })
  { d with fw := { d.fw with arbEpoch := max d.fw.arbEpoch e, reverify := d.fw.reverify || d.fw.state == 3 } }

/-- The wardens show who has custody, and both count the change. -/
def Dev.custodyShown (d : Dev) (i : Nat) : Dev :=
  (List.range 2).foldl (fun d k => d.count (WD (wardenTower k) + 0x38) 31 0 1) (d.wdView i)

theorem Dev.custodyShown_regsOnly (d : Dev) (i : Nat) : d.RegsOnly (d.custodyShown i) :=
  (d.wdView_regsOnly i).trans (foldl_regsOnly (fun d k => Dev.count_regsOnly d (WD (wardenTower k) + 0x38) 31 0 1) _ _)

theorem doCustodyClaim_due {w : World} {i : Fin 2} (hr : (w.d.warden i.val).ready = true) (hc : (w.d.warden i.val).custody = false)
    (hl : (w.d.warden i.val).limit ≤ (w.d.warden i.val).run) (hb : (w.d.warden i.val).lostOnce = false ∨ (w.d.warden i.val).gotBeat = true) :
    ∃ det x, doCustodyClaim i w =
      World.log (World.event (w.onDev (fun d => (d.claimed i.val ((w.d.warden i.val).epoch + 1)).custodyShown i.val)) 0x811 stOk det 0xFFFF []) x := by
  have due : ((w.d.warden i.val).ready && !(w.d.warden i.val).custody && decide ((w.d.warden i.val).limit ≤ (w.d.warden i.val).run) &&
      (!(w.d.warden i.val).lostOnce || (w.d.warden i.val).gotBeat)) = true := by
    obtain h | h := hb <;> simp [hr, hc, hl, h]
  exact ⟨_, _, if_pos due⟩

theorem doCustodyClaim_early {w : World} {i : Fin 2} (h : (w.d.warden i.val).run < (w.d.warden i.val).limit) : doCustodyClaim i w = w := by
  have early : ((w.d.warden i.val).ready && !(w.d.warden i.val).custody && decide ((w.d.warden i.val).limit ≤ (w.d.warden i.val).run) &&
      (!(w.d.warden i.val).lostOnce || (w.d.warden i.val).gotBeat)) = false := by
    rw [decide_eq_false (by omega), Bool.and_false, Bool.false_and]
  exact if_neg (by rw [early]; decide)

theorem Dev.claimed_wardens (d : Dev) (i e : Nat) :
    (d.claimed i e).wardens = tput d.wardens i { d.warden i with custody := true, epoch := e } := rfl

theorem Dev.claimed_arbEpoch (d : Dev) (i e : Nat) : (d.claimed i e).fw.arbEpoch = max d.fw.arbEpoch e := rfl

theorem doCustodyClaim_spec {w : World} {i : Fin 2} (hr : (w.d.warden i.val).ready = true)
    (hc : (w.d.warden i.val).custody = false) (hl : (w.d.warden i.val).limit ≤ (w.d.warden i.val).run)
    (hb : (w.d.warden i.val).lostOnce = false ∨ (w.d.warden i.val).gotBeat = true) :
    (doCustodyClaim i w).wr = w.wr ∧ ((doCustodyClaim i w).d.warden i.val).custody = true ∧
      ((doCustodyClaim i w).d.warden i.val).epoch = (w.d.warden i.val).epoch + 1 ∧
      (w.d.warden i.val).epoch + 1 ≤ (doCustodyClaim i w).d.fw.arbEpoch ∧
      (doCustodyClaim i w).d.warden (1 - i.val) = w.d.warden (1 - i.val) := by
  obtain ⟨det, x, claim⟩ := doCustodyClaim_due hr hc hl hb
  have told := World.event_log_tells (w.onDev (fun d => (d.claimed i.val ((w.d.warden i.val).epoch + 1)).custodyShown i.val))
    0x811 stOk det 0xFFFF [] x
  have shown := (w.d.claimed i.val ((w.d.warden i.val).epoch + 1)).custodyShown_regsOnly i.val
  rw [← claim] at told
  have wardens := (told.wardens.trans shown.wardens).trans (Dev.claimed_wardens ..)
  have other : 1 - i.val ≠ i.val := by omega
  refine ⟨?_, ?_, ?_, ?_, ?_⟩
  · rw [claim, World.log_wr, World.event_wr, World.onDev_wr]
  · rw [Dev.warden, wardens, tget_tput_self]
  · rw [Dev.warden, wardens, tget_tput_self]
  · rw [told.fw.trans shown.fw, Dev.claimed_arbEpoch]
    exact Nat.le_max_right ..
  · rw [Dev.warden, wardens, tget_tput_ne _ _ _ other, Dev.warden]

/-! ## The arbiter, and a soundpost that hears nothing -/

theorem doManagementTransaction_grant {w v : World} {i : Fin 2} {epoch : W64} {addr : W32} {value : W64} (h : w.d.fw.arbEpoch < epoch.toNat)
    (hw : World.writeReg (w.onDev (fun d => { d with fw := { d.fw with arbEpoch := epoch.toNat } })) addr.toNat value = some v) :
    doManagementTransaction i epoch addr value w = v := by
  have grant : (decide (w.d.fw.arbEpoch < epoch.toNat) || (epoch.toNat == w.d.fw.arbEpoch && (i.val == 0 ||
      !((w.d.warden (1 - i.val)).custody && (w.d.warden (1 - i.val)).epoch == epoch.toNat)))) = true := by
    rw [decide_eq_true h, Bool.true_or]
  exact (if_pos grant).trans (by rw [hw]; rfl)

theorem doManagementTransaction_refused {w : World} {i : Fin 2} {epoch : W64} {addr : W32} {value : W64} (h : epoch.toNat < w.d.fw.arbEpoch) :
    doManagementTransaction i epoch addr value w = w.wardenReset i.val 0x0013 := by
  have refuse : (decide (w.d.fw.arbEpoch < epoch.toNat) || (epoch.toNat == w.d.fw.arbEpoch && (i.val == 0 ||
      !((w.d.warden (1 - i.val)).custody && (w.d.warden (1 - i.val)).epoch == epoch.toNat)))) = false := by
    rw [decide_eq_false (by omega), beq_false_of_ne (by omega)]
    rfl
  exact if_neg (by rw [refuse]; decide)

theorem Dev.wardenWasReset_fw (d : Dev) (i code : Nat) : (d.wardenWasReset i code).fw = d.fw := by
  rw [Dev.wardenWasReset, Dev.wardenRestarted, (Dev.wdView_regsOnly ..).fw, Dev.onWarden_fw, (Dev.domainCleared_regsOnly ..).fw]

theorem World.wardenReset_spec (w : World) (i code : Nat) :
    (w.wardenReset i code).wr = w.wr ∧ ((w.wardenReset i code).d.warden i).ready = false ∧
      ((w.wardenReset i code).d.warden i).custody = false ∧ (w.wardenReset i code).d.fw = w.d.fw := by
  obtain ⟨wr, host⟩ := w.wardenReset_hostOnly i code
  have warden : (w.wardenReset i code).d.warden i = Warden.afterReset w.d.fw.arbEpoch (w.d.warden i) := by
    rw [Dev.warden, host.wardens, Dev.wardenWasReset_wardens, tget_tput_self]
  exact ⟨wr, by rw [warden]; rfl, by rw [warden]; rfl, host.fw.trans (Dev.wardenWasReset_fw ..)⟩

theorem doSoundpostTimeout_due {w : World} {i : Fin 2} (hl : (w.d.warden i.val).lostOnce = true) (hb : (w.d.warden i.val).gotBeat = false)
    (hc : (w.d.warden i.val).custody = false) :
    ∃ det x, doSoundpostTimeout i w =
      World.log (World.event (w.setBit (WD (wardenTower i.val)) 7) 0x811 stStackDegraded det 0xFFFF []) x :=
  ⟨_, _, if_pos (by rw [hl, hb, hc]; rfl)⟩

theorem soundpostTimeout_spec {s : State} {i : Fin 2} (live : s.live) (hl : (s.dev.warden i.val).lostOnce = true)
    (hb : (s.dev.warden i.val).gotBeat = false) (hc : (s.dev.warden i.val).custody = false) :
    ∃ t, exec (.soundpostTimeout i) s = .next t ∧ t.mem = s.mem ∧ t.dev.fld (WD (wardenTower i.val)) 7 7 = 1 := by
  obtain ⟨det, x, timeout⟩ := doSoundpostTimeout_due (w := s.world) hl hb hc
  have told := World.event_log_tells (World.setBit s.world (WD (wardenTower i.val)) 7) 0x811 stStackDegraded det 0xFFFF [] x
  have apart : WD (wardenTower i.val) ∉ [HL_FAULT, HL_EVENTS_LOST] := by
    simp only [List.mem_cons, List.not_mem_nil, or_false, WD, twBase, HL_FAULT, HL_EVENTS_LOST]
    omega
  refine ⟨_, runLive_eq_world (f := doSoundpostTimeout i) live timeout, commit_mem_nil ?_, (told.fld apart 7 7).trans ?_⟩
  · rw [World.log_wr, World.event_wr, World.setBit_wr]
    rfl
  · rw [World.setBit_d, Dev.setBit_fld_self _ _ (by decide)]

/-! ## The obligation -/

/-- Settles O57: each warden command by the warden's record and the registers that show it. -/
theorem wardensBootAndKeepCustody : Obligations.WardensBootAndKeepCustody := by
  unfold Obligations.WardensBootAndKeepCustody
  refine ⟨fun i s live hr => ⟨fun c hc => ?_, fun hc => ?_⟩, fun i s live hr => ?_, fun s live hb hs => bootRetry_spec live hb hs,
    fun i s live => ⟨fun hr => heartbeatSend_ready live hr, fun hr => heartbeatSend_still live hr⟩, fun i epoch seq re crc s live good => ?_,
    fun i epoch seq re crc s bad => ?_, fun i s live => ?_, fun i s live hr hc hl hb => ?_, fun i s live early => ?_,
    fun i epoch addr value s live => ⟨fun newer w hw => ?_, fun older => ?_⟩, fun i s live hl hb hc => soundpostTimeout_spec live hl hb hc⟩
  · obtain ⟨wr, spec⟩ := s.world.bootsWith_spec i.val c
    exact ⟨_, runLive_eq_world (f := doWardenReady i) live (doWardenReady_boots (w := s.world) hr hc), commit_mem_nil wr, spec⟩
  · obtain ⟨wr, wardens, shown, code⟩ := s.world.bootFail_spec i.val (code := if s.dev.board.bootSrc = 3 then 0x0021 else 0x0020) (by split <;> decide)
    refine ⟨_, runLive_eq_world (f := doWardenReady i) live (doWardenReady_fails (w := s.world) hr hc), commit_mem_nil wr, ?_, shown, code⟩
    exact (congrArg Warden.ready (Dev.warden_congr wardens i.val)).trans hr
  · exact runLive_eq_dev (f := doWardenReady i) (d := s.dev) live (if_pos hr)
  · exact ⟨_, runLive_eq_world (f := doHeartbeatRx i epoch seq re crc) live (doHeartbeatRx_good good), commit_mem_nil rfl,
      s.dev.heard_spec i.val epoch seq re⟩
  · exact congrArg (runLive s) (doHeartbeatRx_bad bad)
  · obtain ⟨wr, spec⟩ := s.world.beatMissed_spec i.val
    exact ⟨_, runLive_eq_world (f := doHeartbeatMissed i) live rfl, commit_mem_nil wr, spec⟩
  · obtain ⟨wr, spec⟩ := doCustodyClaim_spec (w := s.world) hr hc hl hb
    exact ⟨_, runLive_eq_world (f := doCustodyClaim i) live rfl, commit_mem_nil wr, spec⟩
  · exact runLive_eq_dev (f := doCustodyClaim i) (d := s.dev) live (doCustodyClaim_early early)
  · exact runLive_eq_world (f := doManagementTransaction i epoch addr value) live (doManagementTransaction_grant newer hw)
  · obtain ⟨wr, ready, custody, fw⟩ := s.world.wardenReset_spec i.val 0x0013
    exact ⟨_, runLive_eq_world (f := doManagementTransaction i epoch addr value) live (doManagementTransaction_refused older),
      commit_mem_nil wr, ready, custody, congrArg Fw.arbEpoch fw⟩

end Sys2Proof.Machine
end

section
/-! SUPPORT and PROOFS. A firmware update that becomes active (R464, R465): floors, units, restarts, the self-check. -/

namespace Sys2Proof.Machine

/-! ## The floors of the security versions -/

theorem le_firstBelow {p : Nat → Bool} {v fuel i : Nat} (hv : v ≤ fuel) (h : ∀ k, k < v → p (i + k) = false) :
    i + v ≤ (firstBelow p fuel i).getD (i + fuel) := by
  induction fuel generalizing i v with
  | zero => exact Nat.add_le_add_left hv i
  | succ fuel ih =>
    have shift : i + 1 + fuel = i + (fuel + 1) := by omega
    unfold firstBelow
    cases v with
    | zero =>
      split
      · exact Nat.le_refl i
      · have := ih (v := 0) (i := i + 1) (Nat.zero_le _) (fun k hk => absurd hk (Nat.not_lt_zero k))
        rw [shift] at this
        omega
    | succ v =>
      rw [if_neg (by rw [show p i = false from h 0 (Nat.succ_pos v)]; decide)]
      have := ih (v := v) (i := i + 1) (by omega) (fun k hk => by rw [Nat.add_right_comm]; exact h (k + 1) (by omega))
      rw [shift] at this
      omega

theorem firstBelow_false {p : Nat → Bool} {fuel i k : Nat} (hi : i ≤ k) (hk : k < (firstBelow p fuel i).getD (i + fuel)) : p k = false := by
  induction fuel generalizing i with
  | zero => exact absurd hk (by simp only [firstBelow, Option.getD_none]; omega)
  | succ fuel ih =>
    unfold firstBelow at hk
    split at hk
    case isTrue => exact absurd hk (by rw [Option.getD_some]; omega)
    case isFalse h =>
      obtain rfl | later := Nat.eq_or_lt_of_le hi
      · simpa using h
      · have shift : i + 1 + fuel = i + (fuel + 1) := by omega
        exact ih (i := i + 1) later (by rw [shift]; exact hk)

/-- The first bit in the fuses of a component's floor. -/
def floorBase (t : Nat) : Nat := (160 + 8 * (t - 1)) * 8

theorem Dev.le_floor {d : Dev} {t v : Nat} (hv : v ≤ 64) (h : ∀ i, i < v → d.otpBit (floorBase t + i) = true) : v ≤ d.floor t := by
  have := le_firstBelow (p := fun i => !d.otpBit (floorBase t + i)) (i := 0) hv (fun k hk => by rw [Nat.zero_add, h k hk]; rfl)
  rwa [Nat.zero_add, Nat.zero_add] at this

theorem Dev.otpBit_of_floor {d : Dev} {t i : Nat} (h : i < d.floor t) : d.otpBit (floorBase t + i) = true := by
  have := firstBelow_false (p := fun i => !d.otpBit (floorBase t + i)) (i := 0) (fuel := 64) (Nat.zero_le i) (by rw [Nat.zero_add]; exact h)
  simpa using this

theorem Dev.floor_le (d : Dev) (t : Nat) : d.floor t ≤ 64 := by
  refine Classical.byContradiction fun h => ?_
  have bits : ∀ i, i < 64 → d.otpBit (floorBase t + i) = true := fun i hi => Dev.otpBit_of_floor (by omega)
  have none_ : ∀ (fuel i : Nat), i + fuel = 64 → firstBelow (fun i => !d.otpBit (floorBase t + i)) fuel i = none := by
    intro fuel
    induction fuel with
    | zero => exact fun _ _ => rfl
    | succ fuel ih =>
      intro i hi
      unfold firstBelow
      rw [if_neg (by rw [bits i (by omega)]; decide)]
      exact ih (i + 1) (by omega)
  have floor : d.floor t = (firstBelow (fun i => !d.otpBit (floorBase t + i)) 64 0).getD 64 := rfl
  rw [floor, none_ 64 0 rfl] at h
  exact h (Nat.le_refl 64)

/-- From one device to the next fuses have been burnt and nothing else has changed. -/
structure Dev.Burns (d e : Dev) : Prop where
  only : e = { d with fw := { d.fw with burnt := e.fw.burnt } }
  more : ∀ b ∈ d.fw.burnt, b ∈ e.fw.burnt

theorem Dev.Burns.refl (d : Dev) : Dev.Burns d d := ⟨rfl, fun _ h => h⟩

theorem Dev.Burns.trans {d e f : Dev} (h : Dev.Burns d e) (k : Dev.Burns e f) : Dev.Burns d f :=
  ⟨by rw [k.only, h.only], fun b hb => k.more b (h.more b hb)⟩

theorem Dev.otpBit_mono {d e : Dev} (h : ∀ b ∈ d.fw.burnt, b ∈ e.fw.burnt) {n : Nat} (hn : d.otpBit n = true) : e.otpBit n = true := by
  simp only [Dev.otpBit, Bool.or_eq_true, List.contains_iff_mem] at hn ⊢
  exact hn.imp_right (h n)

theorem Dev.floor_mono {d e : Dev} (h : ∀ b ∈ d.fw.burnt, b ∈ e.fw.burnt) (t : Nat) : d.floor t ≤ e.floor t :=
  Dev.le_floor (d.floor_le t) fun _ hi => Dev.otpBit_mono h (Dev.otpBit_of_floor hi)

theorem Dev.raiseFloor_burns (d : Dev) (t v : Nat) : Dev.Burns d (d.raiseFloor t v) := ⟨rfl, fun _ hb => List.mem_append_left _ hb⟩

theorem Dev.raiseFloor_floor (d : Dev) (t : Nat) {v : Nat} (hv : v ≤ 64) : v ≤ (d.raiseFloor t v).floor t := by
  refine Dev.le_floor hv fun i hi => ?_
  by_cases below : i < d.floor t
  · exact Dev.otpBit_mono (d.raiseFloor_burns t v).more (Dev.otpBit_of_floor below)
  · have burnt : floorBase t + i ∈ (d.raiseFloor t v).fw.burnt := by
      refine List.mem_append_right _ (List.mem_map.2 ⟨i - d.floor t, List.mem_range.2 (by omega), ?_⟩)
      show floorBase t + d.floor t + (i - d.floor t) = floorBase t + i
      omega
    simp only [Dev.otpBit, Bool.or_eq_true, List.contains_iff_mem]
    exact .inr burnt

/-- The floors of the components of a list are raised. -/
def Dev.raiseFloors (d : Dev) (svn : Nat → Nat) (xs : List Nat) : Dev := xs.foldl (fun d k => d.raiseFloor (k + 1) (svn k)) d

theorem Dev.raiseFloors_burns (d : Dev) (svn : Nat → Nat) (xs : List Nat) : Dev.Burns d (d.raiseFloors svn xs) :=
  foldl_keeps (fun e => Dev.Burns d e) (fun d k => d.raiseFloor (k + 1) (svn k)) xs (fun e _ _ h => h.trans (e.raiseFloor_burns ..)) d (Dev.Burns.refl d)

theorem Dev.raiseFloors_floor (d : Dev) (svn : Nat → Nat) {xs : List Nat} {n : Nat} (hn : n ∈ xs) (hv : svn n ≤ 64) :
    svn n ≤ (d.raiseFloors svn xs).floor (n + 1) := by
  induction xs generalizing d with
  | nil => exact absurd hn List.not_mem_nil
  | cons x xs ih =>
    obtain rfl | later := List.mem_cons.1 hn
    · exact Nat.le_trans (d.raiseFloor_floor (n + 1) hv) (Dev.floor_mono ((d.raiseFloor (n + 1) (svn n)).raiseFloors_burns svn xs).more _)
    · exact ih (d.raiseFloor (x + 1) (svn x)) later

/-! ## The units load -/

theorem build_ne_WD (k : Nat) : IDENT_BUILD ≠ WD (wardenTower k) ∧ IDENT_BUILD ≠ WD (wardenTower k) + 0x20 ∧
    IDENT_BUILD ≠ WD (wardenTower k) + 0x28 := by
  simp only [WD, twBase, wardenTower, IDENT_BUILD]
  omega

/-- The units' microcode is the new one: its releases stand in IDENT_BUILD. -/
def Dev.unitsLoaded (d : Dev) (m : List Byte) : Dev :=
  let d := (d.setFld IDENT_BUILD 47 32 (manEntry m 4).release).setFld IDENT_BUILD 31 16 (manEntry m 5).release
  { d with fw := { d.fw with loaded := true, hold := false } }

/-- The warden that restarts first. -/
def Dev.standby (d : Dev) : Nat := match d.custodyWarden with | some i => 1 - i | none => 1

/-- Whether something runs that uses microcode an activation replaces. -/
def Dev.unitsBusy (d : Dev) : Bool := (d.replaces 4 || d.replaces 5) && d.ctxs.any (fun e => e.2.active)

theorem doFwUnitLoad_due {w : World} (hs : w.d.fw.state = 4) (hl : w.d.fw.loaded = false) (hc : w.d.fw.commit ≤ w.d.fretNum)
    (hb : w.d.unitsBusy = false) :
    doFwUnitLoad w = World.setFld (w.onDev (fun d => d.unitsLoaded (w.d.image w.d.inactive 0)))
      (WD (wardenTower (w.d.unitsLoaded (w.d.image w.d.inactive 0)).standby)) 4 4 1 :=
  (if_pos ⟨hs, by rw [hl]; rfl, hc, by show (!w.d.unitsBusy) = true; rw [hb]; rfl⟩).trans
    (congrArg (fun k => World.setFld (w.onDev (fun d => d.unitsLoaded (w.d.image w.d.inactive 0))) (WD (wardenTower k)) 4 4 1) rfl)

theorem doFwUnitLoad_busy {w : World} (hb : w.d.unitsBusy = true) : doFwUnitLoad w = w :=
  if_neg fun h => by
    obtain ⟨-, -, -, idle⟩ := h
    exact absurd (show (!w.d.unitsBusy) = true from idle) (by rw [hb]; decide)

theorem doFwUnitLoad_early {w : World} (h : w.d.fw.state ≠ 4 ∨ w.d.fw.loaded = true ∨ w.d.fretNum < w.d.fw.commit) : doFwUnitLoad w = w :=
  if_neg fun due => by
    obtain ⟨state, loaded, commit, -⟩ := due
    obtain h | h | h := h
    · exact h state
    · exact absurd loaded (by rw [h]; decide)
    · omega

theorem Dev.unitsLoaded_spec (d : Dev) (m : List Byte) :
    (d.unitsLoaded m).fw = { d.fw with loaded := true, hold := false } ∧ (d.unitsLoaded m).wardens = d.wardens ∧
      (d.unitsLoaded m).ctxs = d.ctxs ∧ (d.unitsLoaded m).out = d.out ∧
      (d.unitsLoaded m).fld IDENT_BUILD 47 32 = (manEntry m 4).release % 2 ^ 16 ∧
      (d.unitsLoaded m).fld IDENT_BUILD 31 16 = (manEntry m 5).release % 2 ^ 16 ∧
      (d.unitsLoaded m).fld IDENT_BUILD 63 48 = d.fld IDENT_BUILD 63 48 ∧ (d.unitsLoaded m).fld IDENT_BUILD 15 0 = d.fld IDENT_BUILD 15 0 := by
  have fld : ∀ hi lo, (d.unitsLoaded m).fld IDENT_BUILD hi lo =
      ((d.setFld IDENT_BUILD 47 32 (manEntry m 4).release).setFld IDENT_BUILD 31 16 (manEntry m 5).release).fld IDENT_BUILD hi lo := fun _ _ => rfl
  refine ⟨rfl, rfl, rfl, rfl, ?_, ?_, ?_, ?_⟩
  · rw [fld, Dev.setFld_fld_beside _ _ _ (by decide) (by decide) (.inl (by decide)), Dev.setFld_fld_self _ _ _ (by decide) (by decide)]
  · rw [fld, Dev.setFld_fld_self _ _ _ (by decide) (by decide)]
  · rw [fld, Dev.setFld_fld_beside _ _ _ (by decide) (by decide) (.inl (by decide)),
      Dev.setFld_fld_beside _ _ _ (by decide) (by decide) (.inl (by decide))]
  · rw [fld, Dev.setFld_fld_beside _ _ _ (by decide) (by decide) (.inr (by decide)),
      Dev.setFld_fld_beside _ _ _ (by decide) (by decide) (.inr (by decide))]

theorem Dev.custodyWarden_congr {d e : Dev} (h : d.wardens = e.wardens) : d.custodyWarden = e.custodyWarden := by
  rw [Dev.custodyWarden, Dev.custodyWarden, Dev.warden_congr h, Dev.warden_congr h]

theorem Dev.standby_congr {d e : Dev} (h : d.wardens = e.wardens) : d.standby = e.standby := by
  rw [Dev.standby, Dev.standby, Dev.custodyWarden_congr h]

theorem doFwUnitLoad_spec {w : World} (hs : w.d.fw.state = 4) (hl : w.d.fw.loaded = false) (hc : w.d.fw.commit ≤ w.d.fretNum)
    (hb : w.d.unitsBusy = false) :
    let m := w.d.image w.d.inactive 0
    (doFwUnitLoad w).wr = w.wr ∧ (doFwUnitLoad w).d.fw = { w.d.fw with loaded := true, hold := false } ∧
      (doFwUnitLoad w).d.fld IDENT_BUILD 47 32 = (manEntry m 4).release % 2 ^ 16 ∧
      (doFwUnitLoad w).d.fld IDENT_BUILD 31 16 = (manEntry m 5).release % 2 ^ 16 ∧
      (doFwUnitLoad w).d.fld IDENT_BUILD 63 48 = w.d.fld IDENT_BUILD 63 48 ∧
      (doFwUnitLoad w).d.fld IDENT_BUILD 15 0 = w.d.fld IDENT_BUILD 15 0 ∧
      (doFwUnitLoad w).d.fld (WD (wardenTower w.d.standby)) 4 4 = 1 ∧ (doFwUnitLoad w).d.ctxs = w.d.ctxs ∧ (doFwUnitLoad w).d.out = w.d.out := by
  intro m
  obtain ⟨fw, wardens, ctxs, out, b47, b31, b63, b15⟩ := w.d.unitsLoaded_spec m
  rw [doFwUnitLoad_due hs hl hc hb, Dev.standby_congr wardens]
  generalize w.d.standby = k
  have build := fun hi lo => Dev.setFld_fld_ne (w.d.unitsLoaded m) 4 4 1 hi lo (build_ne_WD k).1
  rw [World.setFld_d, World.onDev_d, World.setFld_wr, World.onDev_wr, Dev.setFld_fw, Dev.setFld_ctxs, Dev.setFld_out, build, build, build, build,
    Dev.setFld_fld_self _ _ _ (by decide) (by decide)]
  exact ⟨rfl, fw, b47, b31, b63, b15, rfl, ctxs, out⟩

/-! ## The wardens restart -/

/-- A warden in tower `t` has restarted from a manifest. -/
def Dev.wardenAnew (d : Dev) (t : Nat) (m : List Byte) : Dev :=
  (((d.setBit (RST t) 10).setReg (WD t + 0x18) 0x0014).setFld (WD t) 4 4 0).setFld (WD t) 5 5 (if (manEntry m 2).length = 0 then 0 else 1)

/-- The registers of a restart as one change of the device, whatever their addresses. -/
theorem World.restart_onDev (w : World) (cause codeAt status x : Nat) (code : W64) :
    (((w.setBit cause 10).setReg codeAt code).setFld status 4 4 0).setFld status 5 5 x =
      w.onDev (fun d => (((d.setBit cause 10).setReg codeAt code).setFld status 4 4 0).setFld status 5 5 x) := by
  unfold World.setBit World.setReg World.setFld
  rw [World.onDev_onDev, World.onDev_onDev, World.onDev_onDev]

/-- Whether warden i has to restart now: the standby first. -/
def Dev.restartDue (d : Dev) (i : Nat) : Bool :=
  d.fw.state == 4 && d.fw.loaded && !d.fw.restarted.contains i && (!(d.custodyWarden == some i) || d.fw.restarted.contains (1 - i))

/-- The custody warden is told to restart once the standby has. -/
def World.tellOther (w : World) (i : Nat) (cust : Bool) : World := if cust then w else w.setFld (WD (wardenTower (1 - i))) 4 4 1

/-- The restart of warden i is noted; that of the custody warden leads to the self-check. -/
def Dev.restartNoted (d : Dev) (i : Nat) (cust : Bool) : Dev :=
  { d with fw := { d.fw with restarted := i :: d.fw.restarted, state := if cust then 5 else 4 } }

theorem Dev.restartNoted_regs (d : Dev) (i : Nat) (cust : Bool) : (d.restartNoted i cust).regs = d.regs := rfl
theorem Dev.restartNoted_fld (d : Dev) (i : Nat) (cust : Bool) (a hi lo : Nat) : (d.restartNoted i cust).fld a hi lo = d.fld a hi lo :=
  Dev.fld_congr (by rw [Dev.restartNoted_regs]) hi lo
theorem Dev.restartNoted_wardens (d : Dev) (i : Nat) (cust : Bool) : (d.restartNoted i cust).wardens = d.wardens := rfl
theorem Dev.restartNoted_out (d : Dev) (i : Nat) (cust : Bool) : (d.restartNoted i cust).out = d.out := rfl
theorem Dev.restartNoted_fw (d : Dev) (i : Nat) (cust : Bool) :
    (d.restartNoted i cust).fw = { d.fw with restarted := i :: d.fw.restarted, state := if cust then 5 else 4 } := rfl

theorem doWardenRestartDone_due {w : World} {i : Fin 2} (h : w.d.restartDue i.val = true) :
    doWardenRestartDone i w =
      (World.tellOther (w.onDev (fun d => d.wardenAnew (wardenTower i.val) (w.d.image w.d.inactive 0))) i.val (w.d.custodyWarden == some i.val)).onDev
        (fun d => d.restartNoted i.val (w.d.custodyWarden == some i.val)) := by
  refine (if_pos h).trans ?_
  rw [World.restart_onDev]
  rfl

theorem doWardenRestartDone_still {w : World} {i : Fin 2} (h : w.d.restartDue i.val = false) : doWardenRestartDone i w = w :=
  if_neg fun due => absurd (show w.d.restartDue i.val = true from due) (by rw [h]; decide)

theorem Dev.wardenAnew_regsOnly (d : Dev) (t : Nat) (m : List Byte) : d.RegsOnly (d.wardenAnew t m) := by
  unfold Dev.wardenAnew
  exact ((d.setBit_regsOnly (RST t) 10).trans (Dev.setReg_regsOnly _ (WD t + 0x18) 0x0014)).trans
    ((Dev.setFld_regsOnly _ (WD t) 4 4 0).trans (Dev.setFld_regsOnly _ (WD t) 5 5 _))

theorem Dev.wardenAnew_spec (d : Dev) (t : Nat) (m : List Byte) :
    (rget (d.wardenAnew t m).regs (WD t + 0x18)).toNat = 0x14 ∧ (d.wardenAnew t m).fld (RST t) 10 10 = 1 ∧
      (d.wardenAnew t m).fld (WD t) 4 4 = 0 ∧ (d.wardenAnew t m).fld (WD t) 5 5 = if (manEntry m 2).length = 0 then 0 else 1 := by
  have code : WD t + 0x18 ≠ WD t := by omega
  have cause : RST t ≠ WD t ∧ RST t ≠ WD t + 0x18 := by
    simp only [RST, WD, twBase]
    omega
  unfold Dev.wardenAnew
  generalize RST t = r at *
  generalize WD t + 0x18 = c at *
  generalize WD t = a at *
  refine ⟨?_, ?_, ?_, ?_⟩
  · rw [Dev.setFld_rget_ne _ _ _ _ code, Dev.setFld_rget_ne _ _ _ _ code, Dev.setReg_rget_self]
    rfl
  · rw [Dev.setFld_fld_ne _ _ _ _ _ _ cause.1, Dev.setFld_fld_ne _ _ _ _ _ _ cause.1, Dev.setReg_fld_ne _ _ _ _ cause.2,
      Dev.setBit_fld_self _ _ (by decide)]
  · rw [Dev.setFld_fld_beside _ _ _ (by decide) (by decide) (.inr (by decide)), Dev.setFld_fld_fits _ _ _ (by decide) (by decide) (by decide)]
  · rw [Dev.setFld_fld_self _ _ _ (by decide) (by decide)]
    split <;> rfl

theorem World.tellOther_wr (w : World) (i : Nat) (cust : Bool) : (w.tellOther i cust).wr = w.wr := by
  cases cust
  · exact World.setFld_wr ..
  · rfl

theorem World.tellOther_regsOnly (w : World) (i : Nat) (cust : Bool) : w.d.RegsOnly (w.tellOther i cust).d := by
  cases cust
  · exact Dev.setFld_regsOnly ..
  · rfl

theorem World.tellOther_rget (w : World) (i : Nat) (cust : Bool) {a : Nat} (h : a ≠ WD (wardenTower (1 - i))) :
    rget (w.tellOther i cust).d.regs a = rget w.d.regs a := by
  cases cust
  · exact Dev.setFld_rget_ne _ _ _ _ h
  · rfl

theorem World.tellOther_told (w : World) (i : Nat) : (w.tellOther i false).d.fld (WD (wardenTower (1 - i))) 4 4 = 1 :=
  Dev.setFld_fld_self _ _ _ (by decide) (by decide)

theorem doWardenRestartDone_spec {w : World} {i : Fin 2} (h : w.d.restartDue i.val = true) :
    let cust := w.d.custodyWarden == some i.val
    let t0 := WD (wardenTower i.val)
    let v := (doWardenRestartDone i w).d
    (doWardenRestartDone i w).wr = w.wr ∧
      v.fw = { w.d.fw with restarted := i.val :: w.d.fw.restarted, state := if cust then 5 else 4 } ∧
      (rget v.regs (t0 + 0x18)).toNat = 0x14 ∧ v.fld (RST (wardenTower i.val)) 10 10 = 1 ∧ v.fld t0 4 4 = 0 ∧
      v.fld t0 5 5 = (if (manEntry (w.d.image w.d.inactive 0) 2).length = 0 then 0 else 1) ∧
      (cust = false → v.fld (WD (wardenTower (1 - i.val))) 4 4 = 1) ∧ v.wardens = w.d.wardens ∧ v.out = w.d.out := by
  intro cust t0 v
  have due := doWardenRestartDone_due h
  obtain ⟨code, cause, told, entry⟩ := w.d.wardenAnew_spec (wardenTower i.val) (w.d.image w.d.inactive 0)
  have anew := w.d.wardenAnew_regsOnly (wardenTower i.val) (w.d.image w.d.inactive 0)
  generalize hu : w.onDev (fun d => d.wardenAnew (wardenTower i.val) (w.d.image w.d.inactive 0)) = u at due
  have ud : u.d = w.d.wardenAnew (wardenTower i.val) (w.d.image w.d.inactive 0) := by rw [← hu, World.onDev_d]
  have uwr : u.wr = w.wr := by rw [← hu, World.onDev_wr]
  rw [← ud] at code cause told entry anew
  have only := anew.trans (u.tellOther_regsOnly i.val cust)
  have ne : t0 ≠ WD (wardenTower (1 - i.val)) ∧ t0 + 0x18 ≠ WD (wardenTower (1 - i.val)) ∧ RST (wardenTower i.val) ≠ WD (wardenTower (1 - i.val)) := by
    simp only [t0, RST, WD, twBase, wardenTower]
    omega
  have last : v = (u.tellOther i.val cust).d.restartNoted i.val cust := by
    show (doWardenRestartDone i w).d = _
    rw [due, World.onDev_d]
  have same : ∀ a, a ≠ WD (wardenTower (1 - i.val)) → rget v.regs a = rget u.d.regs a := fun a ha => by
    rw [last, Dev.restartNoted_regs, u.tellOther_rget i.val cust ha]
  refine ⟨?_, ?_, ?_, ?_, ?_, ?_, fun other => ?_, ?_, ?_⟩
  · rw [due, World.onDev_wr, World.tellOther_wr, uwr]
  · rw [last, Dev.restartNoted_fw, only.fw]
  · rw [same _ ne.2.1, code]
  · rw [Dev.fld_congr (same _ ne.2.2), cause]
  · rw [Dev.fld_congr (same _ ne.1), told]
  · rw [Dev.fld_congr (same _ ne.1), entry]
  · rw [last, other, Dev.restartNoted_fld, u.tellOther_told]
  · rw [last, Dev.restartNoted_wardens, only.wardens]
  · rw [last, Dev.restartNoted_out, only.out]

/-! ## The self-check -/

/-- A commit that ends leaves the images and the fuses. -/
theorem Dev.uncommit_eq (d : Dev) (st : Nat) : (d.uncommit st).fw =
    { d.fw with state := st, commit := 0, reverify := false, flashBad := false, loaded := false, restarted := [] } :=
  (Dev.wdShared_regsOnly _).fw

theorem Dev.uncommit_build (d : Dev) (st hi lo : Nat) : (d.uncommit st).fld IDENT_BUILD hi lo = d.fld IDENT_BUILD hi lo :=
  Dev.fld_congr (Dev.wdShared_rget _ fun k _ => (build_ne_WD k).2) hi lo

theorem Dev.uncommit_out (d : Dev) (st : Nat) : (d.uncommit st).out = d.out := (Dev.wdShared_regsOnly _).out

/-- The new slot is the active one. -/
def Dev.slotTaken (d : Dev) (new : Nat) : Dev :=
  { d with fw := { d.fw with active := new, recordSeq := d.fw.recordSeq + 1, staged := [], deltas := [], lastStatus := stOk, lastDetail := 0 } }

/-- The update has ended well: slot, floors, release and measurements are those of the new images, and FW_COMMIT_AT is answered. -/
def Dev.committed (d : Dev) (new cw : Nat) (m : List Byte) : Dev :=
  let d := (d.slotTaken new).raiseFloors (fun k => (manEntry m (k + 1)).svn) (List.range 7)
  let d := (d.setFld IDENT_BUILD 63 48 (manEntry m 1).release).setFld IDENT_BUILD 15 8 new
  let d := (d.measureAll new).uncommit 0
  (d.opEnded 0x403 (fun _ => true) stOk 0).count cw 15 0 1

theorem doFwSelfCheckDone_good {w : World} (hs : w.d.fw.state = 5) :
    doFwSelfCheckDone true w =
      World.event (w.onDev (fun d => d.committed w.d.inactive (WD w.d.custodyTower + 0x30) (w.d.image w.d.inactive 0))) 0x812 stOk 0 0xFFFF [] :=
  if_neg (by rw [hs]; simp)

/-- The update has ended badly: the units' old releases, the old images, and FW_COMMIT_AT is answered with the failure. -/
def Dev.takenBack (d : Dev) (cw : Nat) (old : List Byte) : Dev :=
  let d := (d.setFld IDENT_BUILD 47 32 (manEntry old 4).release).setFld IDENT_BUILD 31 16 (manEntry old 5).release
  let d := d.uncommit 2
  let d := { d with fw := { d.fw with hold := true, lastStatus := stAuthFail, lastDetail := 0x0A00 } }
  (d.opEnded 0x403 (fun _ => true) stAuthFail 0x0A00).count cw 31 16 1

/-- A warden in tower `t` has restarted from the old images. -/
def Dev.wardenBack (old : List Byte) (d : Dev) (i : Nat) : Dev :=
  ((d.setBit (RST (wardenTower i)) 10).setReg (WD (wardenTower i) + 0x18) 0x0014).setFld (WD (wardenTower i)) 5 5 (if (manEntry old 2).length = 0 then 0 else 1)

theorem World.wardensBack_onDev (w : World) (old : List Byte) :
    ([0, 1].foldl (fun (w : World) i =>
      ((w.setBit (RST (wardenTower i)) 10).setReg (WD (wardenTower i) + 0x18) 0x0014).setFld (WD (wardenTower i)) 5 5
        (if (manEntry old 2).length = 0 then 0 else 1)) w) = w.onDev (fun d => [0, 1].foldl (Dev.wardenBack old) d) := by
  have one : ∀ (w : World) (a b c x : Nat) (code : W64), ((w.setBit a 10).setReg b code).setFld c 5 5 x =
      w.onDev (fun d => ((d.setBit a 10).setReg b code).setFld c 5 5 x) := fun w a b c x code => by
    unfold World.setBit World.setReg World.setFld
    rw [World.onDev_onDev, World.onDev_onDev]
  rw [List.foldl_cons, List.foldl_cons, List.foldl_nil, one, one, World.onDev_onDev]
  rfl

theorem doFwSelfCheckDone_bad {w : World} (hs : w.d.fw.state = 5) :
    ∃ x, doFwSelfCheckDone false w =
      World.log (World.event ((w.onDev (fun d => d.takenBack (WD w.d.custodyTower + 0x30) (w.d.image w.d.fw.active 0))).onDev
        (fun d => [0, 1].foldl (Dev.wardenBack (w.d.image w.d.fw.active 0)) d)) 0x812 stAuthFail 0x0A00 0xFFFF []) x := by
  rw [← World.wardensBack_onDev]
  exact ⟨_, if_neg (by rw [hs]; simp)⟩

theorem build_ne_faults : IDENT_BUILD ∉ [HL_FAULT, HL_EVENTS_LOST] := by decide

theorem build_ne_commits (t : Nat) : IDENT_BUILD ≠ WD t + 0x30 := by
  simp only [WD, twBase, IDENT_BUILD]
  omega

theorem Dev.measureAll_fw (d : Dev) (c : Nat) : ∃ x, (d.measureAll c).fw = { d.fw with measure := x } := ⟨_, rfl⟩
theorem Dev.measureAll_regs (d : Dev) (c : Nat) : (d.measureAll c).regs = d.regs := rfl
theorem Dev.measureAll_out (d : Dev) (c : Nat) : (d.measureAll c).out = d.out := rfl

theorem Dev.slotTaken_fw (d : Dev) (new : Nat) : (d.slotTaken new).fw =
    { d.fw with active := new, recordSeq := d.fw.recordSeq + 1, staged := [], deltas := [], lastStatus := stOk, lastDetail := 0 } := rfl
theorem Dev.slotTaken_out (d : Dev) (new : Nat) : (d.slotTaken new).out = d.out := rfl

theorem Dev.Burns.out {d e : Dev} (h : Dev.Burns d e) : e.out = d.out := (congrArg Dev.out h.only :)
theorem Dev.Burns.fw {d e : Dev} (h : Dev.Burns d e) : e.fw = { d.fw with burnt := e.fw.burnt } := (congrArg Dev.fw h.only :)

theorem Dev.committed_spec (d : Dev) (new t : Nat) (m : List Byte) :
    ∃ x, (d.committed new (WD t + 0x30) m).fw =
        { ((d.slotTaken new).raiseFloors (fun k => (manEntry m (k + 1)).svn) (List.range 7)).fw with
          measure := x, state := 0, commit := 0, reverify := false, flashBad := false, loaded := false, restarted := [] } ∧
      (d.committed new (WD t + 0x30) m).fld IDENT_BUILD 63 48 = (manEntry m 1).release % 2 ^ 16 ∧
      (d.committed new (WD t + 0x30) m).fld IDENT_BUILD 15 8 = new % 2 ^ 8 ∧ (d.committed new (WD t + 0x30) m).out = d.out := by
  have raised := (d.slotTaken new).raiseFloors_burns (fun k => (manEntry m (k + 1)).svn) (List.range 7)
  unfold Dev.committed
  dsimp only
  generalize hu : (d.slotTaken new).raiseFloors (fun k => (manEntry m (k + 1)).svn) (List.range 7) = u at *
  generalize hv : (u.setFld IDENT_BUILD 63 48 (manEntry m 1).release).setFld IDENT_BUILD 15 8 new = v
  have vfw : v.fw = u.fw := by rw [← hv, Dev.setFld_fw, Dev.setFld_fw]
  have vout : v.out = u.out := by rw [← hv, Dev.setFld_out, Dev.setFld_out]
  obtain ⟨x, measured⟩ := v.measureAll_fw new
  have ended := (((v.measureAll new).uncommit 0).opEnded 0x403 (fun _ => true) stOk 0).count_regsOnly (WD t + 0x30) 15 0 1
  have build : ∀ hi lo, ((((v.measureAll new).uncommit 0).opEnded 0x403 (fun _ => true) stOk 0).count (WD t + 0x30) 15 0 1).fld IDENT_BUILD hi lo =
      v.fld IDENT_BUILD hi lo := fun hi lo => by
    rw [Dev.count_fld_ne _ _ _ _ _ _ (build_ne_commits t), Dev.fld_congr (by rw [Dev.opEnded_regs]) (e := (v.measureAll new).uncommit 0),
      Dev.uncommit_build, Dev.fld_congr (by rw [Dev.measureAll_regs]) (e := v)]
  refine ⟨x, ?_, ?_, ?_, ?_⟩
  · rw [ended.fw, Dev.opEnded_fw, Dev.uncommit_eq, measured, vfw]
  · rw [build, ← hv, Dev.setFld_fld_beside _ _ _ (by decide) (by decide) (.inl (by decide)), Dev.setFld_fld_self _ _ _ (by decide) (by decide)]
  · rw [build, ← hv, Dev.setFld_fld_self _ _ _ (by decide) (by decide)]
  · rw [ended.out, Dev.opEnded_out, Dev.uncommit_out, Dev.measureAll_out, vout, raised.out, Dev.slotTaken_out]

theorem World.event_tells (w : World) (code : Nat) (st det : W16) (ctx : Nat) (bl : List Blk) :
    Dev.Tells [HL_FAULT, HL_EVENTS_LOST] w.d (w.event code st det ctx bl).d :=
  Dev.event_tells w.d code st det ctx 0xFFFF bl (by simp) (by simp)

/-- A good self-check: the device is the one with the new slot and the raised floors, the update over. -/
theorem doFwSelfCheckDone_good_spec {w : World} (hs : w.d.fw.state = 5) :
    let m := w.d.image w.d.inactive 0
    let v := (doFwSelfCheckDone true w).d
    (doFwSelfCheckDone true w).wr = w.wr ∧
      (∃ x, v.fw = { ((w.d.slotTaken w.d.inactive).raiseFloors (fun k => (manEntry m (k + 1)).svn) (List.range 7)).fw with
        measure := x, state := 0, commit := 0, reverify := false, flashBad := false, loaded := false, restarted := [] }) ∧
      v.fld IDENT_BUILD 63 48 = (manEntry m 1).release % 2 ^ 16 ∧ v.fld IDENT_BUILD 15 8 = w.d.inactive % 2 ^ 8 ∧ v.out = w.d.out := by
  intro m v
  obtain ⟨x, fw, b63, b15, out⟩ := w.d.committed_spec w.d.inactive w.d.custodyTower m
  have told := World.event_tells (w.onDev (fun d => d.committed w.d.inactive (WD w.d.custodyTower + 0x30) m)) 0x812 stOk 0 0xFFFF []
  rw [← doFwSelfCheckDone_good hs, World.onDev_d] at told
  refine ⟨?_, ⟨x, told.fw.trans fw⟩, (told.fld build_ne_faults _ _).trans b63, (told.fld build_ne_faults _ _).trans b15, told.out.trans out⟩
  rw [doFwSelfCheckDone_good hs, World.event_wr, World.onDev_wr]

theorem selfCheck_good {s : State} (live : s.live) (hs : s.dev.fw.state = 5) :
    let m := s.dev.image s.dev.inactive 0
    ∃ t, exec (.fwSelfCheckDone true) s = .next t ∧ t.mem = s.mem ∧ t.dev.fw.active = s.dev.inactive ∧ t.dev.fw.state = 0 ∧
      t.dev.fw.recordSeq = s.dev.fw.recordSeq + 1 ∧ t.dev.fw.commit = 0 ∧ t.dev.fw.lastStatus = stOk ∧ t.dev.fw.lastDetail = 0 ∧
      t.dev.fw.images = s.dev.fw.images ∧ t.dev.fw.staged = [] ∧ t.dev.fw.deltas = [] ∧ (∀ b ∈ s.dev.fw.burnt, b ∈ t.dev.fw.burnt) ∧
      (∀ n, n < 7 → (manEntry m (n + 1)).svn ≤ 63 → (manEntry m (n + 1)).svn ≤ t.dev.floor (n + 1)) ∧
      t.dev.fld IDENT_BUILD 63 48 = (manEntry m 1).release % 2 ^ 16 ∧ t.dev.fld IDENT_BUILD 15 8 = s.dev.inactive % 2 ^ 8 ∧
      t.dev.out = s.dev.out := by
  intro m
  obtain ⟨wr, ⟨x, fw⟩, b63, b15, out⟩ := doFwSelfCheckDone_good_spec (w := s.world) hs
  have raised := (s.dev.slotTaken s.dev.inactive).raiseFloors_burns (fun k => (manEntry m (k + 1)).svn) (List.range 7)
  have floors : ∀ n, n < 7 → (manEntry m (n + 1)).svn ≤ 63 → (manEntry m (n + 1)).svn ≤
      ((s.dev.slotTaken s.dev.inactive).raiseFloors (fun k => (manEntry m (k + 1)).svn) (List.range 7)).floor (n + 1) := fun n hn hv =>
    Dev.raiseFloors_floor _ (fun k => (manEntry m (k + 1)).svn) (List.mem_range.2 hn) (by omega)
  refine ⟨_, runLive_eq_world (f := doFwSelfCheckDone true) live rfl, commit_mem_nil wr, ?_⟩
  rw [commit_dev]
  generalize (doFwSelfCheckDone true s.world).d = v at *
  replace fw : v.fw = { ((s.dev.slotTaken s.dev.inactive).raiseFloors (fun k => (manEntry m (k + 1)).svn) (List.range 7)).fw with
        measure := x, state := 0, commit := 0, reverify := false, flashBad := false, loaded := false, restarted := [] } := fw
  generalize (s.dev.slotTaken s.dev.inactive).raiseFloors (fun k => (manEntry m (k + 1)).svn) (List.range 7) = u at *
  have ufw := raised.fw
  rw [Dev.slotTaken_fw] at ufw
  have burnt : v.fw.burnt = u.fw.burnt := by rw [fw]
  rw [ufw] at fw
  refine ⟨?_, ?_, ?_, ?_, ?_, ?_, ?_, ?_, ?_, fun b hb => ?_, fun n hn hv => ?_, b63, b15, out⟩
  iterate 9 rw [fw]
  · rw [burnt]
    exact raised.more b hb
  · exact Nat.le_trans (floors n hn hv) (Dev.floor_mono (fun b hb => burnt ▸ hb) _)

/-- A warden back from the old images shows the restart; what follows in the other warden's registers does not change that. -/
theorem Dev.wardenBack_spec (d : Dev) (old : List Byte) (i : Nat) :
    (d.wardenBack old i).fld (RST (wardenTower i)) 10 10 = 1 ∧ (rget (d.wardenBack old i).regs (WD (wardenTower i) + 0x18)).toNat = 0x14 := by
  have code : WD (wardenTower i) + 0x18 ≠ WD (wardenTower i) := by omega
  have cause : RST (wardenTower i) ≠ WD (wardenTower i) ∧ RST (wardenTower i) ≠ WD (wardenTower i) + 0x18 := by
    simp only [RST, WD, twBase]
    omega
  unfold Dev.wardenBack
  generalize RST (wardenTower i) = r at *
  generalize WD (wardenTower i) + 0x18 = c at *
  generalize WD (wardenTower i) = a at *
  constructor
  · rw [Dev.setFld_fld_ne _ _ _ _ _ _ cause.1, Dev.setReg_fld_ne _ _ _ _ cause.2, Dev.setBit_fld_self _ _ (by decide)]
  · rw [Dev.setFld_rget_ne _ _ _ _ code, Dev.setReg_rget_self]
    rfl

theorem Dev.wardenBack_rget (d : Dev) (old : List Byte) (i : Nat) {a : Nat} (h : a ≠ RST (wardenTower i) ∧ a ≠ WD (wardenTower i) + 0x18 ∧
    a ≠ WD (wardenTower i)) : rget (d.wardenBack old i).regs a = rget d.regs a := by
  unfold Dev.wardenBack
  rw [Dev.setFld_rget_ne _ _ _ _ h.2.2, Dev.setReg_rget_ne _ _ h.2.1, Dev.setBit_rget_ne _ _ h.1]

theorem Dev.wardenBack_regsOnly (d : Dev) (old : List Byte) (i : Nat) : d.RegsOnly (d.wardenBack old i) := by
  unfold Dev.wardenBack
  exact ((d.setBit_regsOnly _ 10).trans (Dev.setReg_regsOnly _ _ 0x0014)).trans (Dev.setFld_regsOnly _ _ 5 5 _)

/-- Both wardens are back from the old images. -/
def Dev.wardensBack (d : Dev) (old : List Byte) : Dev := [0, 1].foldl (Dev.wardenBack old) d

theorem Dev.wardensBack_regsOnly (d : Dev) (old : List Byte) : d.RegsOnly (d.wardensBack old) :=
  foldl_regsOnly (fun d i => d.wardenBack_regsOnly old i) [0, 1] d

theorem Dev.wardensBack_rget (d : Dev) (old : List Byte) {a : Nat} (h : ∀ i, i < 2 → a ≠ RST (wardenTower i) ∧ a ≠ WD (wardenTower i) + 0x18 ∧
    a ≠ WD (wardenTower i)) : rget (d.wardensBack old).regs a = rget d.regs a := by
  rw [Dev.wardensBack, List.foldl_cons, List.foldl_cons, List.foldl_nil, Dev.wardenBack_rget _ _ _ (h 1 (by decide)),
    Dev.wardenBack_rget _ _ _ (h 0 (by decide))]

theorem Dev.wardensBack_spec (d : Dev) (old : List Byte) {i : Nat} (hi : i < 2) :
    (d.wardensBack old).fld (RST (wardenTower i)) 10 10 = 1 ∧ (rget (d.wardensBack old).regs (WD (wardenTower i) + 0x18)).toNat = 0x14 := by
  rw [Dev.wardensBack, List.foldl_cons, List.foldl_cons, List.foldl_nil]
  obtain rfl | rfl : i = 0 ∨ i = 1 := by omega
  · rw [Dev.fld_congr (Dev.wardenBack_rget _ _ _ (by decide)), Dev.wardenBack_rget _ _ _ (by decide)]
    exact d.wardenBack_spec old 0
  · exact Dev.wardenBack_spec _ old 1

theorem Dev.takenBack_spec (d : Dev) (t : Nat) (old : List Byte) :
    (d.takenBack (WD t + 0x30) old).fw = { d.fw with
        state := 2, commit := 0, reverify := false, flashBad := false, loaded := false, restarted := [], hold := true,
        lastStatus := stAuthFail, lastDetail := 0x0A00 } ∧
      (d.takenBack (WD t + 0x30) old).fld IDENT_BUILD 47 32 = (manEntry old 4).release % 2 ^ 16 ∧
      (d.takenBack (WD t + 0x30) old).fld IDENT_BUILD 31 16 = (manEntry old 5).release % 2 ^ 16 ∧
      (d.takenBack (WD t + 0x30) old).out = d.out := by
  unfold Dev.takenBack
  dsimp only
  generalize hu : (d.setFld IDENT_BUILD 47 32 (manEntry old 4).release).setFld IDENT_BUILD 31 16 (manEntry old 5).release = u
  have ufw : u.fw = d.fw := by rw [← hu, Dev.setFld_fw, Dev.setFld_fw]
  have uout : u.out = d.out := by rw [← hu, Dev.setFld_out, Dev.setFld_out]
  generalize hv : ({ u.uncommit 2 with fw := { (u.uncommit 2).fw with hold := true, lastStatus := stAuthFail, lastDetail := 0x0A00 } } : Dev) = v
  have vregs : v.regs = (u.uncommit 2).regs := by rw [← hv]
  have vout : v.out = (u.uncommit 2).out := by rw [← hv]
  have vfw : v.fw = { (u.uncommit 2).fw with hold := true, lastStatus := stAuthFail, lastDetail := 0x0A00 } := by rw [← hv]
  have ended := (v.opEnded 0x403 (fun _ => true) stAuthFail 0x0A00).count_regsOnly (WD t + 0x30) 31 16 1
  have build : ∀ hi lo, ((v.opEnded 0x403 (fun _ => true) stAuthFail 0x0A00).count (WD t + 0x30) 31 16 1).fld IDENT_BUILD hi lo =
      u.fld IDENT_BUILD hi lo := fun hi lo => by
    rw [Dev.count_fld_ne _ _ _ _ _ _ (build_ne_commits t), Dev.fld_congr (by rw [Dev.opEnded_regs, vregs]) (e := u.uncommit 2), Dev.uncommit_build]
  refine ⟨?_, ?_, ?_, ?_⟩
  · rw [ended.fw, Dev.opEnded_fw, vfw, Dev.uncommit_eq, ufw]
  · rw [build, ← hu, Dev.setFld_fld_beside _ _ _ (by decide) (by decide) (.inl (by decide)), Dev.setFld_fld_self _ _ _ (by decide) (by decide)]
  · rw [build, ← hu, Dev.setFld_fld_self _ _ _ (by decide) (by decide)]
  · rw [ended.out, Dev.opEnded_out, vout, Dev.uncommit_out, uout]

theorem warden_ne_faults (i : Nat) : RST (wardenTower i) ∉ [HL_FAULT, HL_EVENTS_LOST] ∧ WD (wardenTower i) + 0x18 ∉ [HL_FAULT, HL_EVENTS_LOST] := by
  simp only [List.mem_cons, List.not_mem_nil, or_false, RST, WD, twBase, HL_FAULT, HL_EVENTS_LOST]
  omega

theorem build_ne_wardens (i : Nat) : IDENT_BUILD ≠ RST (wardenTower i) ∧ IDENT_BUILD ≠ WD (wardenTower i) + 0x18 ∧ IDENT_BUILD ≠ WD (wardenTower i) := by
  simp only [RST, WD, twBase, wardenTower, IDENT_BUILD]
  omega

theorem doFwSelfCheckDone_bad_spec {w : World} (hs : w.d.fw.state = 5) :
    let old := w.d.image w.d.fw.active 0
    let v := (doFwSelfCheckDone false w).d
    (doFwSelfCheckDone false w).wr = w.wr ∧
      v.fw = { w.d.fw with
        state := 2, commit := 0, reverify := false, flashBad := false, loaded := false, restarted := [], hold := true,
        lastStatus := stAuthFail, lastDetail := 0x0A00 } ∧
      v.fld IDENT_BUILD 47 32 = (manEntry old 4).release % 2 ^ 16 ∧ v.fld IDENT_BUILD 31 16 = (manEntry old 5).release % 2 ^ 16 ∧
      (∀ i, i < 2 → v.fld (RST (wardenTower i)) 10 10 = 1 ∧ (rget v.regs (WD (wardenTower i) + 0x18)).toNat = 0x14) ∧ v.out = w.d.out := by
  intro old v
  obtain ⟨x, bad⟩ := doFwSelfCheckDone_bad hs
  obtain ⟨fw, b47, b31, out⟩ := w.d.takenBack_spec w.d.custodyTower old
  have back := (w.d.takenBack (WD w.d.custodyTower + 0x30) old).wardensBack_regsOnly old
  have told := World.event_log_tells ((w.onDev (fun d => d.takenBack (WD w.d.custodyTower + 0x30) old)).onDev
    (fun d => d.wardensBack old)) 0x812 stAuthFail 0x0A00 0xFFFF [] x
  have build : ∀ hi lo, ((w.d.takenBack (WD w.d.custodyTower + 0x30) old).wardensBack old).fld IDENT_BUILD hi lo =
      (w.d.takenBack (WD w.d.custodyTower + 0x30) old).fld IDENT_BUILD hi lo := fun hi lo =>
    Dev.fld_congr (Dev.wardensBack_rget _ old fun i _ => build_ne_wardens i) hi lo
  have shown := fun i (hi : i < 2) => (w.d.takenBack (WD w.d.custodyTower + 0x30) old).wardensBack_spec old hi
  replace told : Dev.Tells [HL_FAULT, HL_EVENTS_LOST] ((w.d.takenBack (WD w.d.custodyTower + 0x30) old).wardensBack old) v := by
    show Dev.Tells _ _ (doFwSelfCheckDone false w).d
    rw [bad]
    exact told
  refine ⟨?_, told.fw.trans (back.fw.trans fw), ?_, ?_, fun i hi => ⟨?_, ?_⟩, told.out.trans (back.out.trans out)⟩
  · rw [bad, World.log_wr, World.event_wr, World.onDev_wr, World.onDev_wr]
  · rw [told.fld build_ne_faults, build, b47]
  · rw [told.fld build_ne_faults, build, b31]
  · rw [told.fld (warden_ne_faults i).1, (shown i hi).1]
  · rw [told.regs _ (warden_ne_faults i).2, (shown i hi).2]

/-! ## The obligation -/

/-- Settles O58: each step of an activation by what it does to the update's record and to the registers that show it. -/
theorem firmwareActivates : Obligations.FirmwareActivates := by
  unfold Obligations.FirmwareActivates
  refine ⟨fun s live hs hl hc => ⟨fun free => ?_, fun busy => ?_⟩, fun s live early => ?_, fun i s live => ⟨fun due => ?_, fun early => ?_⟩,
    fun s live hs => selfCheck_good live hs, fun s live hs => ?_, fun ok s live hs => ?_, fun i s live hc => ?_, fun i s live hc => ?_⟩
  · obtain ⟨wr, spec⟩ := doFwUnitLoad_spec (w := s.world) hs hl hc free
    exact ⟨_, runLive_eq_world (f := doFwUnitLoad) live rfl, commit_mem_nil wr, spec⟩
  · exact runLive_eq_dev (f := doFwUnitLoad) (d := s.dev) live (doFwUnitLoad_busy busy)
  · exact runLive_eq_dev (f := doFwUnitLoad) (d := s.dev) live (doFwUnitLoad_early early)
  · obtain ⟨wr, spec⟩ := doWardenRestartDone_spec (w := s.world) (i := i) due
    exact ⟨_, runLive_eq_world (f := doWardenRestartDone i) live rfl, commit_mem_nil wr, spec⟩
  · exact runLive_eq_dev (f := doWardenRestartDone i) (d := s.dev) live (doWardenRestartDone_still early)
  · obtain ⟨wr, fw, b47, b31, shown, out⟩ := doFwSelfCheckDone_bad_spec (w := s.world) hs
    refine ⟨_, runLive_eq_world (f := doFwSelfCheckDone false) live rfl, commit_mem_nil wr, ?_⟩
    rw [commit_dev, fw]
    exact ⟨rfl, rfl, rfl, rfl, rfl, rfl, rfl, rfl, rfl, b47, b31, shown, out⟩
  · exact runLive_eq_dev (f := doFwSelfCheckDone ok) (d := s.dev) live (if_pos hs)
  · exact runLive_eq_dev (f := doStagedSlotReverified i) live (if_pos hc)
  · exact runLive_eq_dev (f := doStagedSlotReverified i) (d := s.dev) live (if_neg hc)

end Sys2Proof.Machine
end

section
/-! SUPPORT and PROOFS. Sends, collectives and the scalar lane (R356 to R365). -/

namespace Sys2Proof.Machine

/-! ## A send that keeps its descriptor -/

/-- A launched line of the collective engine whose sends have begun: its descriptor, all zero bytes, sends no block. -/
def sendingLine : LineSt :=
  { plainLine .launched with ln := { (plainLine .launched).ln with unit := unitP2p }, prog := 1 }

/-- Course 0 runs context 16, with that line in its buffer; the line has not kept its descriptor yet. -/
def sendingState : State :=
  { State.reset with dev := { Dev.reset with
      level := .run, courses := [(0, { Course.init with lines := [sendingLine], runner := some 16 })] } }

/-- The work of that line. -/
def sendingJob : Job := { course := 0, idx := 0, ln := sendingLine.ln, set := 0, ctx := 16, pos := 0, prog := 1, word := 0 }

theorem sendingState_ready : sendingState.lineReady (0 : Fin 96) 0 unitP2p sendingJob := ⟨rfl, by rfl⟩

/-- Whether the start of a send's work goes on, and none of its blocks fails its check. -/
def sendMayGo (j : Job) : EfStart → Bool
  | .go w p => (w.checkBlocks j [] (blocksOf p.send.src (512 * p.send.blocks))).isNone
  | _ => false

theorem sendingState_goes : sendMayGo sendingJob (sendingState.world.efStart sendingJob [] 7) = true := by
  decide +kernel

/-- How many descriptors a line has kept in the state that follows, where there is one. -/
def keptAfter (o : Host.Outcome State Fault Refusal) (c line : Nat) : Option Nat :=
  match o with
  | .next t => (lineAt (t.dev.course c) line).map (fun l => l.read.length)
  | _ => none

theorem sendingState_keeps : keptAfter (exec (.p2pSend { course := 0, line := 0, bad := [] }) sendingState) 0 0 = some 1 := by
  decide +kernel

/-- Refutes O46: the start of a send's work keeps its descriptor in the line, so the line that has done its work differs from the
launched one by more than its phase where it had not kept the descriptor before. -/
theorem not_sendsLeaveTheDevice : ¬ Obligations.SendsLeaveTheDevice := by
  unfold Obligations.SendsLeaveTheDevice
  rintro ⟨sends, -, -⟩
  have goes := sendingState_goes
  cases hstart : sendingState.world.efStart sendingJob [] 7 with
  | other | stop w =>
    rw [hstart] at goes
    cases goes
  | go w p =>
    rw [hstart] at goes
    obtain ⟨-, t, run, -, l, before, after⟩ :=
      sends { course := 0, line := 0, bad := [] } sendingState sendingJob w p sendingState_ready hstart (Option.isNone_iff_eq_none.1 goes)
    have kept := sendingState_keeps
    rw [run] at kept
    replace kept : (lineAt (t.dev.course sendingJob.course) sendingJob.idx).map (fun l => l.read.length) = some 1 := kept
    have hl : l = sendingLine := Option.some.inj (before.symm.trans (by rfl))
    rw [after, hl] at kept
    exact absurd kept (by decide)

/-! ## A step of a collective -/

theorem World.deepCorrected_quiet (w : World) (words : List Nat) (h : w.wr = []) : (w.deepCorrected words).wr = [] :=
  List.foldlRecOn (motive := fun u : World => u.wr = []) words _ h
    (fun _ hv _ _ => iteInduction (motive := fun u : World => u.wr = []) (fun _ => (World.count_wr ..).trans hv) (fun _ => hv))

/-- Work that has put nothing leaves the stores as they were. -/
theorem State.workDone_mem {s : State} {k : Work} {w : World} (h : w.wr = []) : (s.workDone k w).mem = s.mem :=
  commit_mem_nil (World.deepCorrected_quiet w _ h)

theorem World.efStatus_wr (w : World) (j : Job) (kind : Nat) (b : Bool) : (w.efStatus j kind b).wr = w.wr := World.setReg_wr ..

theorem World.efShown_wr (w : World) (j : Job) (kind : Nat) : (w.efShown j kind).wr = w.wr := by
  unfold World.efShown
  split
  · exact iteInduction (motive := fun u : World => u.wr = w.wr) (fun _ => World.efStatus_wr ..) (fun _ => rfl)
  · rfl

theorem World.efMerging_wr (w : World) (j : Job) (kind : Nat) : (w.efMerging j kind).wr = w.wr := World.setReg_wr ..

theorem World.efDone_wr (w : World) (j : Job) : (w.efDone j).wr = w.wr := (World.finish_wr ..).trans (World.onDev_wr ..)

theorem World.keepDesc_wr (w : World) (j : Job) (runs : List (Nat × Nat)) : (w.keepDesc j runs).wr = w.wr := rfl

theorem World.efStepState_wr (w : World) (j : Job) : (w.efStepState j).wr = w.wr := by
  unfold World.efStepState World.unitFault World.efFault World.efInfo
  rw [World.log_wr, World.onDev_wr, World.finish_wr, World.setReg_wr, World.setBit_wr]

theorem World.sendBlocks_wr (w : World) (j : Job) (kind dest ctx tag step addr : Nat) (items : List (Nat × Blk)) :
    (w.sendBlocks j kind dest ctx tag step addr items).wr = w.wr :=
  iteInduction (motive := fun u : World => u.wr = w.wr) (fun _ => rfl)
    (fun _ => by rw [World.onDev_wr, World.onDev_wr, World.carried, World.count_wr])

/-- A start that goes on has put nothing since a world. -/
def EfStart.Quiet (w : World) : EfStart → Prop
  | .go v _ => v.wr = w.wr
  | _ => True

theorem World.efStart_quiet (w : World) (j : Job) (bad : List Nat) (kind : Nat) : (w.efStart j bad kind).Quiet w := by
  unfold World.efStart
  split
  · trivial
  · refine iteInduction (motive := EfStart.Quiet w) (fun _ => trivial) (fun _ => iteInduction (fun _ => trivial) (fun _ => ?_))
    extract_lets tables plan kept
    generalize (if (w.readOf j).isEmpty then w.checkBlocks j bad tables else none) = checked
    cases checked with
    | some w' => trivial
    | none =>
      refine iteInduction (motive := EfStart.Quiet w) (fun _ => trivial) (fun _ => iteInduction (fun _ => rfl) (fun _ => ?_))
      split
      · trivial
      · exact iteInduction (motive := EfStart.Quiet w) (fun _ => trivial)
          (fun _ => iteInduction (fun _ => trivial) (fun _ => World.efStatus_wr ..))

/-- The start of a line's work that goes on has put nothing. -/
theorem World.efStart_wr {w v : World} {j : Job} {bad : List Nat} {kind : Nat} {p : EfPlan} (h : w.efStart j bad kind = .go v p) :
    v.wr = w.wr := by
  have quiet := w.efStart_quiet j bad kind
  rwa [h] at quiet

/-- A collective line that may take its step takes it. -/
theorem State.collGoes.coll {s : State} {k : Work} {kind : Nat} {j : Job} {w : World} {p : EfPlan} (h : s.collGoes k kind j w p)
    (f : World → Job → EfPlan → World) : s.world.coll k kind f = (f w j p).efShown j kind := by
  obtain ⟨⟨-, hready⟩, hstart⟩ := h
  unfold World.coll
  rw [hready]
  dsimp only
  rw [hstart]

/-- The step of a collective line whose blocks to write need not wait. -/
theorem State.collGoes.run {s : State} {k : Work} {kind : Nat} {j : Job} {w u : World} {p : EfPlan} (h : s.collGoes k kind j w p)
    {f : World → Job → EfPlan → World} (hf : f w j p = u) (hgo : s.writesGo k (u.efShown j kind)) :
    runWork s k (fun w => w.coll k kind f) = .next (s.workDone k (u.efShown j kind)) :=
  runWork_go h.1.1 ((h.coll f).trans (by rw [hf])) hgo

/-- The step of a collective line that puts nothing. -/
theorem State.collGoes.run_quiet {s : State} {k : Work} {kind : Nat} {j : Job} {w u : World} {p : EfPlan} (h : s.collGoes k kind j w p)
    {f : World → Job → EfPlan → World} (hf : f w j p = u) (hu : u.wr = w.wr) :
    ∃ t, runWork s k (fun w => w.coll k kind f) = .next t ∧ t = s.workDone k (u.efShown j kind) ∧ t.mem = s.mem := by
  have quiet : (u.efShown j kind).wr = [] := (World.efShown_wr u j kind).trans (hu.trans (World.efStart_wr h.2))
  exact ⟨_, h.run hf (writesGo_of_wr quiet), rfl, State.workDone_mem quiet⟩

/-! ## Reduce-scatter -/

theorem World.rsStep_first {w : World} {j : Job} {x : CollDesc} {g : Group} {bad : List Nat} (hprog : j.prog = 0) (hmode : x.mode = 0)
    (hcheck : w.checkBlocks j bad (blocksOf x.src (g.total * elemBits x.fmtIn / 8)) = none) :
    w.rsStep j x g bad = if g.k = 0 then w.rsLast j x g else w.rsSend j x g 0 := by
  unfold World.rsStep
  dsimp only
  rw [if_pos hprog, if_pos hmode, List.append_nil, hcheck, if_pos hmode]

theorem World.rsStep_pack {w : World} {j : Job} {x : CollDesc} {g : Group} {bad : List Nat} (hprog : j.prog = 0) (hmode : x.mode ≠ 0)
    (hcheck : w.checkBlocks j bad (blocksOf x.src (g.total * elemBits x.fmtIn / 8) ++
      blocksOf (x.res + 4 * g.total * w.d.resPhase x.slot) (4 * g.total)) = none) :
    w.rsStep j x g bad = if g.k = 0 then (w.packOwn j x g).packEnd j x g else (w.packOwn j x g).packSend j x g 0 := by
  unfold World.rsStep
  dsimp only
  rw [if_pos hprog, if_neg hmode, hcheck, if_neg hmode]

theorem World.checkBlocks_nil (w : World) (j : Job) (bad : List Nat) : w.checkBlocks j bad [] = none := rfl

theorem World.rsStep_waits {w : World} {j : Job} {x : CollDesc} {g : Group} {bad : List Nat} (hprog : j.prog ≠ 0)
    (hcheck : w.checkBlocks j bad (if j.prog - 1 = 0 ∨ x.mode ≠ 0 then [] else x.nodeBlocks g (j.prog - 1) (g.keep (j.prog - 1 + 1))) = none)
    (hrx : w.d.rxBlocks j.ctx x.tag (g.rankOf (g.p ^^^ 2 ^ (j.prog - 1))) (j.prog - 1)
      (ceilDiv (x.nodeBytes g (j.prog - 1) (g.keep (j.prog - 1 + 1))) 512) = none) :
    w.rsStep j x g bad = w.efStatus j x.kind true := by
  unfold World.rsStep
  dsimp only
  rw [if_neg hprog, hcheck]
  dsimp only
  rw [hrx]

/-- Without compression the nodes of every step but the first are read from the work region. -/
theorem plain_reads {x : CollDesc} (l : Nat) (hmode : x.mode = 0) : (l = 0 ∨ x.mode ≠ 0) = (l = 0) := by
  simp [hmode]

theorem World.rsStep_merges {w : World} {j : Job} {x : CollDesc} {g : Group} {bad : List Nat} {bl : List Blk} (hprog : j.prog ≠ 0)
    (hmode : x.mode = 0)
    (hcheck : w.checkBlocks j bad (if j.prog - 1 = 0 then [] else x.nodeBlocks g (j.prog - 1) (g.keep (j.prog - 1 + 1))) = none)
    (hrx : w.d.rxBlocks j.ctx x.tag (g.rankOf (g.p ^^^ 2 ^ (j.prog - 1))) (j.prog - 1)
      (ceilDiv (x.nodeBytes g (j.prog - 1) (g.keep (j.prog - 1 + 1))) 512) = some bl) :
    w.rsStep j x g bad =
      (let u := ((w.efMerging j x.kind).rsMerge j x g (j.prog - 1) bl).onDev
        (fun d => d.rxDrop j.ctx x.tag (g.rankOf (g.p ^^^ 2 ^ (j.prog - 1))) (j.prog - 1))
      if j.prog < g.k then u.rsSend j x g j.prog else u.rsLast j x g) := by
  unfold World.rsStep
  dsimp only
  rw [if_neg hprog]
  simp only [plain_reads _ hmode, hcheck, hrx, if_pos hmode]
  simp only [Nat.sub_add_cancel (Nat.one_le_iff_ne_zero.2 hprog)]

theorem World.rsStep_packs {w : World} {j : Job} {x : CollDesc} {g : Group} {bad : List Nat} {bl : List Blk} (hprog : j.prog ≠ 0)
    (hmode : x.mode ≠ 0)
    (hrx : w.d.rxBlocks j.ctx x.tag (g.rankOf (g.p ^^^ 2 ^ (j.prog - 1))) (j.prog - 1)
      (ceilDiv (x.nodeBytes g (j.prog - 1) (g.keep (j.prog - 1 + 1))) 512) = some bl) :
    w.rsStep j x g bad =
      (let u := w.efStatus j x.kind false
      if j.prog < g.k then u.packSend j x g j.prog else u.packEnd j x g) := by
  unfold World.rsStep
  dsimp only
  rw [if_neg hprog, if_pos (Or.inr hmode), World.checkBlocks_nil]
  simp only [hrx, if_neg hmode]
  simp only [Nat.sub_add_cancel (Nat.one_le_iff_ne_zero.2 hprog)]

/-- Reduce-scatter and the first half of an all-reduce take the same step. -/
theorem reducing {s : State} {k : Work} {j : Job} {w : World} {p : EfPlan} {cmd : Instr}
    (h : (cmd = .reduceScatter k ∧ s.collGoes k 1 j w p ∧ p.coll.kind = 1) ∨
      (cmd = .allReduce k ∧ s.collGoes k 3 j w p ∧ p.coll.kind = 3 ∧ j.prog ≤ p.g.k)) :
    s.collGoes k p.coll.kind j w p ∧ ∃ f : World → Job → EfPlan → World, f w j p = w.rsStep j p.coll p.g k.bad ∧
      exec cmd s = runWork s k (fun w => w.coll k p.coll.kind f) := by
  obtain ⟨rfl, hgoes, hkind⟩ | ⟨rfl, hgoes, hkind, hhalf⟩ := h
  · exact ⟨hkind ▸ hgoes, fun w j p => w.rsStep j p.coll p.g k.bad, rfl, by rw [hkind]; rfl⟩
  · exact ⟨hkind ▸ hgoes, fun w j p => if j.prog ≤ p.g.k then w.rsStep j p.coll p.g k.bad
      else w.agStep j p.coll p.g p.g.k (j.prog - p.g.k - 1) k.bad, if_pos hhalf, by rw [hkind]; rfl⟩

theorem World.rsSend_wr (w : World) (j : Job) (x : CollDesc) (g : Group) (l : Nat) : (w.rsSend j x g l).wr = w.wr :=
  (World.progress_wr ..).trans (World.sendBlocks_wr ..)

/-- Settles O47: each clause is one case of the step that reduce-scatter and all-reduce share. -/
theorem reduceScatterStepsHalve : Obligations.ReduceScatterStepsHalve := by
  unfold Obligations.ReduceScatterStepsHalve
  refine ⟨fun k s j w p cmd hcmd => ?_, fun k s j w p hgoes hmode => ⟨fun hprog hcheck => ?_, fun hprog hrx => ?_, fun bl hprog hrx => ?_⟩⟩
  · intro x g q l n hmode
    obtain ⟨hgoes, f, hf, hexec⟩ := reducing hcmd
    rw [hexec]
    refine ⟨fun hprog hcheck hk => ?_, fun hprog hcheck hk => ?_, fun hprog hcheck hrx => ?_, fun bl hprog hcheck hrx => ?_⟩
    · exact hgoes.run_quiet (hf.trans ((World.rsStep_first hprog hmode hcheck).trans (if_neg hk))) (World.rsSend_wr ..)
    · exact hgoes.run (hf.trans ((World.rsStep_first hprog hmode hcheck).trans (if_pos hk)))
    · exact hgoes.run_quiet (hf.trans (World.rsStep_waits hprog (by simp only [plain_reads (x := p.coll) _ hmode]; exact hcheck) hrx)) (World.efStatus_wr ..)
    · exact hgoes.run (hf.trans (World.rsStep_merges hprog hmode hcheck hrx))
  · exact hgoes.run (World.rsStep_pack hprog hmode hcheck)
  · exact hgoes.run_quiet (World.rsStep_waits hprog (by rw [if_pos (Or.inr hmode)]; rfl) hrx) (World.efStatus_wr ..)
  · exact hgoes.run (World.rsStep_packs hprog hmode hrx)

/-! ## Gathers -/

/-- All-gather and the second half of an all-reduce take the same step. -/
theorem gathering {s : State} {k : Work} {j : Job} {w : World} {p : EfPlan} {cmd : Instr} {kind base : Nat}
    (h : (cmd = .allGather k ∧ s.collGoes k 2 j w p ∧ kind = 2 ∧ base = 0) ∨
      (cmd = .allReduce k ∧ s.collGoes k 3 j w p ∧ kind = 3 ∧ base = p.g.k)) (hbase : base < j.prog) :
    s.collGoes k kind j w p ∧ ∃ f : World → Job → EfPlan → World,
      f w j p = w.agStep j p.coll p.g base (j.prog - base - 1) k.bad ∧ exec cmd s = runWork s k (fun w => w.coll k kind f) := by
  obtain ⟨rfl, hgoes, rfl, rfl⟩ | ⟨rfl, hgoes, rfl, rfl⟩ := h
  · exact ⟨hgoes, _, if_pos (Nat.ne_of_gt hbase), rfl⟩
  · exact ⟨hgoes, _, if_neg (Nat.not_le_of_lt hbase), rfl⟩

/-- The blocks that a step of the all-gather checks. -/
def gatherReads (x : CollDesc) (g : Group) (l : Nat) : List Nat :=
  partialBlocks (x.dst + (x.held g l (g.p ^^^ 2 ^ l)).1) (x.held g l (g.p ^^^ 2 ^ l)).2 ++
    (if l + 1 < g.k then blocksOf (x.dst + (x.held g l g.p).1) (x.held g l g.p).2 else [])

theorem World.agStep_waits {w : World} {j : Job} {x : CollDesc} {g : Group} {base l : Nat} {bad : List Nat}
    (hcheck : w.checkBlocks j bad (gatherReads x g l).eraseDups = none)
    (hrx : w.d.rxBlocks j.ctx x.tag (g.rankOf (g.p ^^^ 2 ^ l)) (base + l) (ceilDiv (x.held g l (g.p ^^^ 2 ^ l)).2 512) = none) :
    w.agStep j x g base l bad = w.efStatus j x.kind true := by
  unfold gatherReads at hcheck
  unfold World.agStep
  simp only [hcheck, hrx]

theorem World.agStep_lays {w : World} {j : Job} {x : CollDesc} {g : Group} {base l : Nat} {bad : List Nat} {bl : List Blk}
    (hcheck : w.checkBlocks j bad (gatherReads x g l).eraseDups = none)
    (hrx : w.d.rxBlocks j.ctx x.tag (g.rankOf (g.p ^^^ 2 ^ l)) (base + l) (ceilDiv (x.held g l (g.p ^^^ 2 ^ l)).2 512) = some bl) :
    w.agStep j x g base l bad =
      (let h := x.held g l (g.p ^^^ 2 ^ l)
      let u := ((w.carried (j.course / 12) (bl.filter (fun b => blkSyn b == poisonMark)).length).layItems j (x.dst + h.1) h.2 bl).onDev
        (fun d => d.rxDrop j.ctx x.tag (g.rankOf (g.p ^^^ 2 ^ l)) (base + l))
      if l + 1 < g.k then (u.agSend j x g base (l + 1)).efStatus j x.kind false else u.efDone j) := by
  unfold gatherReads at hcheck
  unfold World.agStep
  simp only [hcheck, hrx]

/-- Settles O48: the first step, and the step that all-gather and all-reduce share. -/
theorem allGatherStepsDouble : Obligations.AllGatherStepsDouble := by
  unfold Obligations.AllGatherStepsDouble
  refine ⟨fun k s j w p hgoes hprog => ?_, fun k s j w p cmd kind base hcmd hbase => ?_⟩
  · intro x g n at_ hcheck
    refine hgoes.run ?_
    rw [if_neg (not_not_intro hprog)]
    simp only [x, g, n, at_] at hcheck
    simp only [hcheck]
    rfl
  · intro x g l q h own hcheck
    obtain ⟨hgoes, f, hf, hexec⟩ := gathering hcmd hbase
    rw [hexec]
    refine ⟨fun hrx => ?_, fun bl hrx => ?_⟩
    · exact hgoes.run_quiet (hf.trans (World.agStep_waits hcheck hrx)) (World.efStatus_wr ..)
    · exact hgoes.run (hf.trans (World.agStep_lays hcheck hrx))

/-! ## The scalar lane -/

theorem World.laneSend_wr (w : World) (j : Job) (x : CollDesc) (g : Group) (l : Nat) (vs : List W32) : (w.laneSend j x g l vs).wr = w.wr :=
  (World.progress_wr ..).trans rfl

theorem World.laneStep_wr {w u : World} {x : CollDesc} {g : Group} {op l : Nat} {vs zs : List Nat}
    (h : w.laneStep x g op l vs = some (u, zs)) : u.wr = w.wr := by
  unfold World.laneStep at h
  split at h
  · cases h; rfl
  split at h
  · cases h
  · cases h; rfl

theorem World.lane_first {w : World} {j : Job} {x : CollDesc} {g : Group} {op : Nat} {own : List Nat} {fin : World → List Nat → World}
    (hprog : j.prog = 0) :
    w.lane j x g op own fin = if g.k = 0 then fin w own else w.laneSend j x g 0 (own.map (BitVec.ofNat 32)) := by
  unfold World.lane
  dsimp only
  rw [if_pos hprog]

/-- The values with which a scalar line enters its next step. -/
def laneValues (w : World) (j : Job) : List Nat := (tget [] w.d.efVals (whoLine j.course j.idx)).map (·.toNat)

theorem World.lane_waits {w : World} {j : Job} {x : CollDesc} {g : Group} {op : Nat} {own : List Nat} {fin : World → List Nat → World}
    (hprog : j.prog ≠ 0) (hstep : w.laneStep x g op (j.prog - 1) (laneValues w j) = none) :
    w.lane j x g op own fin = w.efStatus j x.kind true := by
  unfold laneValues at hstep
  unfold World.lane
  dsimp only
  rw [if_neg hprog, hstep]

theorem World.lane_steps {w u : World} {j : Job} {x : CollDesc} {g : Group} {op : Nat} {own zs : List Nat} {fin : World → List Nat → World}
    (hprog : j.prog ≠ 0) (hstep : w.laneStep x g op (j.prog - 1) (laneValues w j) = some (u, zs)) :
    w.lane j x g op own fin = if j.prog < g.k then (u.efMerging j x.kind).laneSend j x g j.prog (zs.map (BitVec.ofNat 32))
      else fin (u.efMerging j x.kind) zs := by
  unfold laneValues at hstep
  unfold World.lane
  dsimp only
  rw [if_neg hprog, hstep]
  simp only [Nat.sub_add_cancel (Nat.one_le_iff_ne_zero.2 hprog)]

theorem World.deepCorrected_rget (w : World) (words : List Nat) {a : Nat} (h : ∀ t, a ≠ MEMR t + 0x40) :
    rget (w.deepCorrected words).d.regs a = rget w.d.regs a :=
  List.foldlRecOn (motive := fun u : World => rget u.d.regs a = rget w.d.regs a) words _ rfl
    (fun _ hv _ _ => iteInduction (motive := fun u : World => rget u.d.regs a = rget w.d.regs a)
      (fun _ => (Dev.count_rget_ne _ _ _ _ (h _)).trans hv) (fun _ => hv))

theorem World.efShown_rget (w : World) (j : Job) (kind : Nat) {a : Nat} (h : a ≠ EFR (j.course / 12)) :
    rget (w.efShown j kind).d.regs a = rget w.d.regs a := by
  unfold World.efShown
  split
  · exact iteInduction (motive := fun u : World => rget u.d.regs a = rget w.d.regs a) (fun _ => Dev.setReg_rget_ne _ _ h) (fun _ => rfl)
  · rfl

/-- A step refused for the state of its step slot sets EF_FAULT.STEP_STATE. -/
theorem World.efStepState_fault (w : World) (j : Job) : (w.efStepState j).d.fld (EFR (j.course / 12) + 0x10) 4 4 = 1 := by
  generalize ht : EFR (j.course / 12) = a
  rw [Dev.fld_congr (e := (w.d.setBit (a + 0x10) 4)) ?_ 4 4, Dev.setBit_fld_self _ _ (by decide)]
  unfold World.efStepState World.efFault World.efInfo
  rw [World.unitFault_regs]
  dsimp only
  rw [ht]
  exact Dev.setReg_rget_ne _ _ (by omega)

theorem EFR_ne_corrected (t u : Nat) : EFR t + 0x10 ≠ MEMR u + 0x40 := by
  unfold EFR MEMR twBase
  omega

/-- What the last step of NORM leaves, from the reduced values. -/
def normDone (j : Job) (x : CollDesc) (w : World) (vs : List Nat) : World :=
  (w.onDev (fun d => d.stepNormed x.slot (vs.headD 0))).efDone j

theorem normDone_wr (j : Job) (x : CollDesc) (w : World) (vs : List Nat) : (normDone j x w vs).wr = w.wr := (World.efDone_wr ..).trans (World.onDev_wr ..)

/-- The step of a NORM collective. -/
def normStep (w : World) (j : Job) (p : EfPlan) : World :=
  if !w.d.slotOpenFor p.coll.slot j.ctx ∨ (j.prog = 0 ∧ p.coll.bucket ≠ (w.d.slot p.coll.slot).normNext) then w.efStepState j
  else w.lane j p.coll p.g 1 [w.d.deviceSum p.coll.slot p.coll.flush] (normDone j p.coll)

theorem exec_normCollective (k : Work) (s : State) : exec (.normCollective k) s = runWork s k (fun w => w.coll k 6 normStep) := rfl

theorem normStep_refuses {w : World} {j : Job} {p : EfPlan} (hprog : j.prog = 0)
    (hbucket : p.coll.bucket ≠ (w.d.slot p.coll.slot).normNext) : normStep w j p = w.efStepState j :=
  if_pos (Or.inr ⟨hprog, hbucket⟩)

theorem normStep_goes {w : World} {j : Job} {p : EfPlan} (hslot : w.d.slotOpenFor p.coll.slot j.ctx = true)
    (h : j.prog = 0 → p.coll.bucket = (w.d.slot p.coll.slot).normNext) :
    normStep w j p = w.lane j p.coll p.g 1 [w.d.deviceSum p.coll.slot p.coll.flush] (normDone j p.coll) := by
  refine if_neg ?_
  rw [hslot]
  rintro (hf | ⟨hprog, hbucket⟩)
  · exact absurd hf (by decide)
  · exact hbucket (h hprog)

/-- Settles O49: each clause is one case of the lane's step. -/
theorem scalarLaneReduces : Obligations.ScalarLaneReduces := by
  unfold Obligations.ScalarLaneReduces
  refine ⟨fun k s j w p hgoes => ?_, fun k s j w p hgoes hslot => ?_⟩
  · intro x n int own words fin
    refine ⟨fun hprog hcheck => ?_, fun hprog hstep => ?_, fun u zs hprog hstep => ?_⟩
    · refine hgoes.run ?_
      simp only [x, n] at hcheck
      simp only [if_pos hprog, hcheck, World.lane_first hprog]
      rfl
    · refine hgoes.run_quiet ?_ (World.efStatus_wr ..)
      simp only [if_neg hprog, World.checkBlocks_nil]
      exact World.lane_waits hprog hstep
    · refine hgoes.run ?_
      simp only [if_neg hprog, World.checkBlocks_nil]
      exact World.lane_steps hprog hstep
  · intro x
    rw [exec_normCollective]
    refine ⟨fun hprog hbucket => ?_, fun hprog hbucket => ?_, fun u zs hlast hprog hstep => ?_⟩
    · have hstep := (normStep_goes hslot (fun _ => hbucket)).trans (World.lane_first hprog)
      obtain ⟨t, run, ht, hmem⟩ := hgoes.run_quiet hstep (by
        split
        · exact normDone_wr ..
        · exact World.laneSend_wr ..)
      rw [normDone, List.headD_cons, List.map_singleton] at ht
      exact ⟨t, run, hmem, ht⟩
    · obtain ⟨t, run, ht, hmem⟩ := hgoes.run_quiet (normStep_refuses hprog hbucket) (World.efStepState_wr ..)
      refine ⟨t, run, hmem, ht, ?_⟩
      rw [ht, ← World.efStepState_fault w j]
      exact Dev.fld_congr ((World.deepCorrected_rget _ _ (EFR_ne_corrected _)).trans (World.efShown_rget _ _ _ (by omega))) 4 4
    · have hnorm := (normStep_goes hslot (fun h => absurd h hprog)).trans ((World.lane_steps hprog hstep).trans (if_neg (by omega)))
      obtain ⟨t, run, ht, hmem⟩ := hgoes.run_quiet hnorm ((normDone_wr ..).trans ((World.efMerging_wr ..).trans (World.laneStep_wr hstep)))
      rw [normDone] at ht
      exact ⟨t, run, hmem, ht⟩

end Sys2Proof.Machine
end

section
/-! SUPPORT and PROOFS. A line that has done its work, and the passes of the update engine (R305 to R330). -/

namespace Sys2Proof.Machine

/-! ## A line that has done its work -/

/-- The line of a unit's work has launched in one world and has done its work in another. -/
def World.Worked (w v : World) (j : Job) : Prop :=
  ∃ l, lineAt (w.d.course j.course) j.idx = some l ∧ lineAt (v.d.course j.course) j.idx = some { l with phase := .worked, idle := 0 }

/-- A ready line's job stands for a line of its course that has launched. -/
theorem State.lineReady.launched {s : State} {c : Fin 96} {line unit : Nat} {j : Job} (h : s.lineReady c line unit j) :
    ∃ l, lineAt (s.dev.course j.course) j.idx = some l ∧ l.phase = .launched ∧ j.ln = l.ln ∧ j.prog = l.prog := by
  obtain ⟨hcourse, hidx, l, hl, hphase, hln, hprog, -⟩ := World.ready_spec h.2
  exact ⟨l, by rw [hcourse, hidx]; exact hl, hphase, hln, hprog⟩

/-- Work that leaves the courses alone until its line finishes. -/
theorem World.worked_finish {w v : World} {j : Job} {l : LineSt} (hl : lineAt (w.d.course j.course) j.idx = some l)
    (hv : v.d.courses = w.d.courses) : w.Worked (v.finish j) j := by
  refine ⟨l, hl, ?_⟩
  rw [lineAt_congr (World.finish_courses v j), lineAt_onLine_self, lineAt_congr hv, hl]
  rfl

theorem World.Worked.of_courses {w v u : World} {j : Job} (h : w.Worked v j) (hu : u.d.courses = v.d.courses) : w.Worked u j := by
  obtain ⟨l, hl, hw⟩ := h
  exact ⟨l, hl, (lineAt_congr hu ..).trans hw⟩

/-- A line that has done its work keeps no more descriptors. -/
theorem World.Worked.keepDesc {w v : World} {j : Job} (h : w.Worked v j) (runs : List (Nat × Nat)) : w.Worked (v.keepDesc j runs) j := by
  obtain ⟨l, hl, hw⟩ := h
  refine ⟨l, hl, ?_⟩
  unfold World.keepDesc
  dsimp only
  rw [World.onDev_d, lineAt_onLine_self, hw]
  exact congrArg some (if_neg (by intro h; cases h))

theorem World.deepCorrected_regsOnly (w : World) (words : List Nat) : w.d.RegsOnly (w.deepCorrected words).d :=
  List.foldlRecOn (motive := fun u : World => w.d.RegsOnly u.d) words _ rfl
    (fun _ hv _ _ => iteInduction (motive := fun u : World => w.d.RegsOnly u.d)
      (fun _ => hv.trans (Dev.count_regsOnly _ _ 31 0 1)) (fun _ => hv))

/-- The state after the work has the line as the work has left it. -/
theorem World.Worked.workDone {s : State} {k : Work} {v : World} {j : Job} (h : s.world.Worked v j) : lineWorked s (s.workDone k v) j :=
  h.of_courses (u := v.deepCorrected k.corrected) (World.deepCorrected_regsOnly v _).courses

/-- The state after the work, but for the count of the deep store's corrections. -/
theorem State.workDone_rget (s : State) (k : Work) (w : World) {a : Nat} (h : ∀ t, a ≠ MEMR t + 0x40) :
    rget (s.workDone k w).dev.regs a = rget w.d.regs a := World.deepCorrected_rget w _ h

theorem State.workDone_slots (s : State) (k : Work) (w : World) : (s.workDone k w).dev.slots = w.d.slots :=
  (congrArg Dev.slots (World.deepCorrected_regsOnly w k.corrected) :)

theorem World.keepDesc_rget (w : World) (j : Job) (runs : List (Nat × Nat)) (a : Nat) :
    rget (w.keepDesc j runs).d.regs a = rget w.d.regs a := rfl

theorem World.keepDesc_slots (w : World) (j : Job) (runs : List (Nat × Nat)) : (w.keepDesc j runs).d.slots = w.d.slots := rfl

/-! ## A pass that starts -/

/-- A descriptor that keeps R321 names a slot. -/
theorem UeDesc.slot_le {d : UeDesc} {m : Memory} {far c a : Nat} (h : d.bad m far c a = none) : d.slot ≤ 3 := by
  refine Classical.byContradiction fun hslot => ?_
  have hfield : decide (d.slot ≤ 3) = false := decide_eq_false hslot
  unfold UeDesc.bad at h
  simp only [hfield, Bool.and_false, Bool.false_and, Bool.not_false, reduceIte] at h
  cases h

/-- The work of a pass whose step is CLEAN. -/
def World.ueWorks (w : World) (j : Job) (d : UeDesc) (kind : Nat) (bad : List Nat) : World :=
  match kind with
  | 2 => w.ueUpdatePass j d bad
  | 3 => w.trust1 j d bad
  | 4 => w.trust2 j d bad
  | 5 =>
    if (w.d.fld (slotBase d.slot + 8) 63 0) % max 1 (parDigestEvery (w.d.slot d.slot).param) ≠ 0 then w.uePassed j d false
    else w.digestPass j d bad
  | _ => w.steerPass j d bad

/-- What a pass does whose descriptor, budgets and owner are good. -/
def World.ueGoesOn (w : World) (j : Job) (d : UeDesc) (kind : Nat) (bad : List Nat) : World :=
  if kind = 1 then w.ueOpenPass j d bad
  else if w.d.slotState d.slot = slotSkipped then w.uePassed j d true
  else if w.d.slotState d.slot ≠ slotClean then (w.ueFault j d 2).unitFault j stPlanMismatch
  else w.ueWorks j d kind bad

section
variable {s : State} {k : Work} {kind : Nat} {j : Job} {d : UeDesc} (h : PassReady s k kind j d)
include h

/-- A pass that passes every check of its start. -/
theorem PassReady.pass {v : World} (hv : s.world.uePassOn j d kind false k.bad = v) :
    s.world.uePass k kind = (v.ueShown j kind d.slot).keepDesc j [(j.ln.desc, 128)] := by
  obtain ⟨b, hread, rfl⟩ := h.desc
  unfold State.reads at hread
  unfold World.uePass
  rw [h.line.2]
  dsimp only
  rw [hread]
  dsimp only
  rw [if_neg (by rw [h.kind_]; simp), h.kind_, hv]

/-- What is left of the start once its checks have passed. -/
theorem PassReady.passOn : s.world.uePassOn j d kind false k.bad = s.world.ueGoesOn j d kind k.bad := by
  have hslot : d.slot % 4 = d.slot := Nat.mod_eq_of_lt (by have := UeDesc.slot_le h.kept; omega)
  have howner : ¬ (s.dev.slotState d.slot ≠ slotFree ∧ s.dev.slotCtx d.slot ≠ j.ctx) := fun hn => h.owner.elim hn.1 hn.2
  have hbudget : ¬ (j.ln.wcCompute < (d.least s.mem).1 ∨ j.ln.wcXfer < (d.least s.mem).2.1) := by
    have := h.compute
    have := h.xfer
    omega
  unfold World.uePassOn World.ueGoesOn World.ueWorks
  dsimp only [State.world]
  rw [if_neg Bool.false_ne_true, h.kept]
  dsimp only
  simp only [hbudget, hslot, howner, if_false]
  rfl

/-- A pass of a SKIPPED step. -/
theorem PassReady.skipped (hkind : kind ≠ 1) (hstate : s.dev.slotState d.slot = slotSkipped) :
    s.world.uePassOn j d kind false k.bad = s.world.uePassed j d true :=
  h.passOn.trans ((if_neg hkind).trans (if_pos hstate))

/-- A pass of a CLEAN step. -/
theorem PassReady.clean (hkind : kind ≠ 1) (hstate : s.dev.slotState d.slot = slotClean) :
    s.world.uePassOn j d kind false k.bad = s.world.ueWorks j d kind k.bad :=
  h.passOn.trans ((if_neg hkind).trans ((if_neg (by rw [State.world, hstate]; decide)).trans (if_neg (not_not_intro hstate))))

end

theorem Dev.digestIdle_iff (d : Dev) (n : Nat) :
    d.digestIdle n = true ↔ d.fld (slotBase n + 8) 63 0 % max 1 (parDigestEvery (d.slot n).param) ≠ 0 := bne_iff_ne

theorem World.ueWorks_idle {w : World} {j : Job} {d : UeDesc} {bad : List Nat} (h : w.d.digestIdle d.slot = true) :
    w.ueWorks j d 5 bad = w.uePassed j d false := if_pos ((Dev.digestIdle_iff ..).1 h)

/-- The commands of the passes other than OPEN, and what they do in a CLEAN step. -/
theorem passTable_spec {e : (Work → Instr) × Nat × (World → Job → UeDesc → List Nat → World)} (he : e ∈ passTable) (k : Work) (s : State) :
    exec (e.1 k) s = runWork s k (fun w => w.uePass k e.2.1) ∧ e.2.1 ≠ 1 ∧ e.2.1 ≤ 6 ∧
    ∀ (w : World) (j : Job) (d : UeDesc), (e.2.1 = 5 → w.d.digestIdle d.slot = false) →
      w.ueWorks j d e.2.1 k.bad = e.2.2 w j d k.bad := by
  simp only [passTable, List.mem_cons, List.not_mem_nil, or_false] at he
  obtain rfl | rfl | rfl | rfl | rfl := he
  case inr.inr.inr.inl =>
    refine ⟨rfl, by decide, by decide, fun w j d hdue => if_neg fun hidle => ?_⟩
    rw [← Dev.digestIdle_iff, hdue rfl] at hidle
    cases hidle
  all_goals exact ⟨rfl, by decide, by decide, fun _ _ _ _ => rfl⟩

/-! ## What a pass shows -/

theorem World.finish_slots (w : World) (j : Job) : (w.finish j).d.slots = w.d.slots := rfl

/-- The word a pass that ran or was skipped leaves in UE_STATUS. -/
theorem World.uePassed_status (w : World) (j : Job) (d : UeDesc) (skipping : Bool) :
    rget (w.uePassed j d skipping).d.regs (UER (j.course / 12)) =
      BitVec.ofNat 64 (d.kind * 256 + d.slot * 64 + (if skipping then 4 else 0) + 1) := by
  generalize ha : UER (j.course / 12) = a
  unfold World.uePassed
  dsimp only
  rw [World.finish_regs, ha]
  exact Dev.setReg_rget_self ..

theorem World.uePassed_wr (w : World) (j : Job) (d : UeDesc) (skipping : Bool) : (w.uePassed j d skipping).wr = w.wr :=
  (World.finish_wr ..).trans (World.setReg_wr ..)

theorem World.uePassed_slots (w : World) (j : Job) (d : UeDesc) (skipping : Bool) : (w.uePassed j d skipping).d.slots = w.d.slots := by
  unfold World.uePassed
  exact (World.finish_slots ..).trans (Dev.setReg_slots ..)

/-- The line of a pass that ran or was skipped has done its work. -/
theorem World.worked_uePassed {w v : World} {j : Job} {l : LineSt} (d : UeDesc) (skipping : Bool)
    (hl : lineAt (w.d.course j.course) j.idx = some l) (hv : v.d.courses = w.d.courses) : w.Worked (v.uePassed j d skipping) j :=
  World.worked_finish hl ((Dev.setReg_courses ..).trans hv)

/-- A line that has done its work does not wait. -/
theorem World.Worked.ueShown {w v : World} {j : Job} (h : w.Worked v j) (kind slot : Nat) : v.ueShown j kind slot = v := by
  obtain ⟨l, -, hw⟩ := h
  unfold World.ueShown
  rw [hw]
  exact if_neg (by intro h; cases h)

theorem UER_ne_corrected (t u : Nat) : UER t ≠ MEMR u + 0x40 := by
  unfold UER MEMR twBase
  omega

/-- A pass that puts nothing and finishes its line. -/
theorem PassReady.done {s : State} {k : Work} {kind : Nat} {j : Job} {d : UeDesc} (h : PassReady s k kind j d) {v : World}
    (hpass : s.world.uePassOn j d kind false k.bad = v) (hw : s.world.Worked v j) (hquiet : v.wr = []) :
    runWork s k (fun w => w.uePass k kind) = .next (s.workDone k (v.keepDesc j [(j.ln.desc, 128)])) ∧
    (s.workDone k (v.keepDesc j [(j.ln.desc, 128)])).mem = s.mem ∧ lineWorked s (s.workDone k (v.keepDesc j [(j.ln.desc, 128)])) j := by
  have hquiet' : (v.keepDesc j [(j.ln.desc, 128)]).wr = [] := (World.keepDesc_wr ..).trans hquiet
  exact ⟨runWork_go h.line.1 ((h.pass hpass).trans (by rw [hw.ueShown])) (writesGo_of_wr hquiet'), State.workDone_mem hquiet',
    (hw.keepDesc _).workDone⟩

/-! ## OPEN -/

/-- A change of the device that leaves the owner of the slot at an address, the slots' own state and the courses. -/
structure Dev.KeepsOwner (a : Nat) (x y : Dev) : Prop where
  owner : y.fld a 13 0 = x.fld a 13 0
  slots : y.slots = x.slots
  courses : y.courses = x.courses

namespace Dev.KeepsOwner

variable {a : Nat} {x y z : Dev}

theorem refl (a : Nat) (x : Dev) : Dev.KeepsOwner a x x := ⟨rfl, rfl, rfl⟩

theorem trans (h : Dev.KeepsOwner a x y) (k : Dev.KeepsOwner a y z) : Dev.KeepsOwner a x z :=
  ⟨k.owner.trans h.owner, k.slots.trans h.slots, k.courses.trans h.courses⟩

theorem setReg (h : Dev.KeepsOwner a x y) {b : Nat} (v : W64) (hb : a ≠ b) : Dev.KeepsOwner a x (y.setReg b v) :=
  h.trans ⟨y.setReg_fld_ne v 13 0 hb, rfl, rfl⟩

theorem setFld (h : Dev.KeepsOwner a x y) {b : Nat} (hi lo v : Nat) (hb : a ≠ b) : Dev.KeepsOwner a x (y.setFld b hi lo v) :=
  h.trans ⟨y.setFld_fld_ne hi lo v 13 0 hb, rfl, rfl⟩

theorem setFld_beside (h : Dev.KeepsOwner a x y) {hi lo : Nat} (v : Nat) (hlo : lo ≤ hi) (hhi : hi < 64) (hd : 13 < lo) :
    Dev.KeepsOwner a x (y.setFld a hi lo v) :=
  h.trans ⟨y.setFld_fld_beside a v hlo hhi (.inr hd), rfl, rfl⟩

end Dev.KeepsOwner

/-- The values that an INIT of a slot's parameters gives its registers (R309). -/
def Dev.slotInit (x : Dev) (a : Nat) (b : List Byte) : Dev :=
  if parInit b = 1 then
    let x := x.setReg (a + 8) (BitVec.ofNat 64 (numAt b 64 8))
    let x := x.setFld (a + 0x20) 31 0 (numAt b 72 4)
    let x := x.setFld (a + 0x20) 63 32 (numAt b 76 4)
    ((x.setFld a 31 27 (parLsInit b)).setFld a 47 32 0).setFld a 63 48 0
  else x

/-- A slot opened after the settle point takes the flags latched there. -/
def Dev.slotFlags (x : Dev) (a : Nat) : Dev :=
  if x.ft.settled then x.setFld a 25 24 ((rget x.regs FT_LATCH_LO).toNat % 4) else x

/-- What OPEN makes of the device. -/
def Dev.slotOpened (x : Dev) (st n ctx : Nat) (b : List Byte) : Dev :=
  ((((((if st = slotFree then x.setReg (slotBase n + 0x28) 0 else x).setFld (slotBase n) 13 0 ctx).clearStep n).onSlot n
    (fun s => { s with param := b })).slotInit (slotBase n) b).slotFlags (slotBase n)).setSlotState n slotOpen

theorem Dev.slotInit_keeps (x : Dev) (a : Nat) (b : List Byte) : Dev.KeepsOwner a x (x.slotInit a b) :=
  iteInduction (motive := Dev.KeepsOwner a x)
    (fun _ => ((((((Dev.KeepsOwner.refl a x).setReg _ (by omega)).setFld 31 0 _ (by omega)).setFld 63 32 _ (by omega)).setFld_beside _
      (by decide) (by decide) (by decide)).setFld_beside _ (by decide) (by decide) (by decide)).setFld_beside _
      (by decide) (by decide) (by decide))
    (fun _ => .refl a x)

theorem Dev.slotFlags_keeps (x : Dev) (a : Nat) : Dev.KeepsOwner a x (x.slotFlags a) :=
  iteInduction (motive := Dev.KeepsOwner a x)
    (fun _ => (Dev.KeepsOwner.refl a x).setFld_beside _ (by decide) (by decide) (by decide)) (fun _ => .refl a x)

/-- What the steps after the slot's own state leave. -/
theorem Dev.slotOpened_keeps (x : Dev) (a n : Nat) (b : List Byte) (hn : slotBase n = a) :
    Dev.KeepsOwner a x (((x.slotInit a b).slotFlags a).setSlotState n slotOpen) := by
  subst hn
  exact ((x.slotInit_keeps _ b).trans (Dev.slotFlags_keeps _ _)).setFld_beside _ (by decide) (by decide) (by decide)

theorem Dev.onSlot_slot_self (d : Dev) (n : Nat) (f : Slot → Slot) : (d.onSlot n f).slot n = f (d.slot n) := tget_tput_self ..

theorem Dev.slot_congr {d e : Dev} (h : d.slots = e.slots) (n : Nat) : d.slot n = e.slot n := congrArg (tget Slot.init · n) h

theorem Dev.clearStep_owner (x : Dev) (n : Nat) : (x.clearStep n).fld (slotBase n) 13 0 = x.fld (slotBase n) 13 0 := by
  unfold Dev.clearStep
  generalize slotBase n = a
  exact Dev.setFld_fld_beside x a 0 (by decide) (by decide) (.inr (by decide))

theorem Dev.onSlot_fld (d : Dev) (n : Nat) (f : Slot → Slot) (a hi lo : Nat) : (d.onSlot n f).fld a hi lo = d.fld a hi lo := rfl

/-- An opened slot is its context's, holds its parameters and no bucket; the courses stay. -/
theorem Dev.slotOpened_spec (x : Dev) (st n ctx : Nat) (b : List Byte) :
    (x.slotOpened st n ctx b).slotState n = slotOpen ∧ (x.slotOpened st n ctx b).slotCtx n = ctx % 2 ^ 14 ∧
    ((x.slotOpened st n ctx b).slot n).param = b ∧ ((x.slotOpened st n ctx b).slot n).normStack = [] ∧
    ((x.slotOpened st n ctx b).slot n).normNext = 0 ∧ (x.slotOpened st n ctx b).courses = x.courses := by
  unfold Dev.slotOpened
  generalize hy : (if st = slotFree then x.setReg (slotBase n + 0x28) 0 else x) = y
  have hcourses : y.courses = x.courses := by
    rw [← hy]
    exact iteInduction (motive := fun d : Dev => d.courses = x.courses) (fun _ => rfl) (fun _ => rfl)
  have keeps := Dev.slotOpened_keeps (((y.setFld (slotBase n) 13 0 ctx).clearStep n).onSlot n (fun s => { s with param := b })) _ n b rfl
  refine ⟨?_, ?_, ?_, ?_, ?_, keeps.courses.trans hcourses⟩
  · rw [Dev.setSlotState, Dev.slotState, Dev.setFld_fld_fits _ _ _ (by decide) (by decide) (by decide)]
  · exact keeps.owner.trans ((Dev.onSlot_fld ..).trans ((Dev.clearStep_owner ..).trans (Dev.setFld_fld_self _ _ _ (by decide) (by decide))))
  all_goals
    rw [Dev.slot_congr keeps.slots, Dev.onSlot_slot_self]
  · unfold Dev.clearStep
    rw [Dev.onSlot_slot_self]
  · unfold Dev.clearStep
    rw [Dev.onSlot_slot_self]

/-- OPEN on a slot that takes it, whose parameter block is readable and good. -/
theorem World.ueOpenPass_opens {w : World} {j : Job} {d : UeDesc} {bad : List Nat} {b : List Byte}
    (hopen : w.d.slotState d.slot ≠ slotOpen) (hnormed : w.d.slotState d.slot ≠ slotNormed) (hread : w.fetch j bad d.aux 256 = .got b false)
    (hparam : paramOk b (w.d.slotState d.slot == slotFree) = true) (hrec : parRecord b % 512 = 0) (hend : parRecord b + 512 ≤ 2 ^ 31) :
    w.ueOpenPass j d bad = (w.onDev (fun x => x.slotOpened (w.d.slotState d.slot) d.slot j.ctx b)).uePassed j d false := by
  unfold World.ueOpenPass
  dsimp only
  rw [if_neg (by simp [hopen, hnormed]), hread]
  dsimp only
  rw [if_neg Bool.false_ne_true, hparam, if_neg (by decide), if_neg (by omega)]
  rfl

/-- The end of OPEN's pass leaves the registers of its slot. -/
theorem World.opened_rget (s : State) (k : Work) (j : Job) (d : UeDesc) (w : World) (hslot : d.slot ≤ 3) :
    rget (s.workDone k ((w.uePassed j d false).keepDesc j [(j.ln.desc, 128)])).dev.regs (slotBase d.slot) = rget w.d.regs (slotBase d.slot) := by
  rw [State.workDone_rget _ _ _ (fun t => by unfold slotBase UER MEMR twBase; omega), World.keepDesc_rget]
  unfold World.uePassed
  rw [World.finish_regs]
  exact Dev.setReg_rget_ne _ _ (by unfold slotBase UER twBase; omega)

theorem World.opened_slot (s : State) (k : Work) (j : Job) (d : UeDesc) (w : World) (n : Nat) :
    (s.workDone k ((w.uePassed j d false).keepDesc j [(j.ln.desc, 128)])).dev.slot n = w.d.slot n := by
  refine Dev.slot_congr ?_ n
  rw [State.workDone_slots, World.keepDesc_slots, World.uePassed_slots]

/-- Settles O50: a pass whose start is good works as the state of its step says. -/
theorem updatePassesRun : Obligations.UpdatePassesRun := by
  unfold Obligations.UpdatePassesRun
  refine ⟨fun k s j d b h hopen hnormed hread hparam hrec hend => ?_, fun e he k s j d h hstate => ?_, fun k s j d h hstate hidle => ?_,
    fun e he k s j d h hstate hdue => ?_⟩
  · obtain ⟨l, hl, -⟩ := h.line.launched
    have hle := UeDesc.slot_le h.kept
    obtain ⟨hstate, hctx, hpar, hstack, hnext, hcourses⟩ := s.dev.slotOpened_spec (s.dev.slotState d.slot) d.slot j.ctx b
    obtain ⟨run, mem, line⟩ := h.done (h.passOn.trans ((if_pos rfl).trans (World.ueOpenPass_opens hopen hnormed hread hparam hrec hend)))
      (World.worked_uePassed d false hl hcourses) (World.uePassed_wr ..)
    refine ⟨_, run, mem, line, ?_, ?_, ?_⟩
    · rw [← hstate]
      exact Dev.fld_congr (World.opened_rget _ _ _ _ _ hle) 19 17
    · rw [← hctx]
      exact Dev.fld_congr (World.opened_rget _ _ _ _ _ hle) 13 0
    · rw [World.opened_slot, World.onDev_d]
      exact ⟨hpar, hstack, hnext⟩
  · obtain ⟨hexec, hkind, hle, -⟩ := passTable_spec he k s
    obtain ⟨l, hl, -⟩ := h.line.launched
    obtain ⟨run, mem, line⟩ := h.done (h.skipped hkind hstate) (World.worked_uePassed d true hl rfl) (World.uePassed_wr ..)
    refine ⟨_, hexec.trans run, mem, line, ?_, ?_⟩
    · rw [State.workDone_slots, World.keepDesc_slots, World.uePassed_slots]
      rfl
    · rw [State.workDone_rget _ _ _ (UER_ne_corrected _), World.keepDesc_rget, World.uePassed_status, h.kind_]
      have := UeDesc.slot_le h.kept
      rw [BitVec.toNat_ofNat, if_pos rfl, Nat.mod_eq_of_lt (by omega)]
  · obtain ⟨l, hl, -⟩ := h.line.launched
    obtain ⟨run, mem, line⟩ := h.done ((h.clean (by decide) hstate).trans (World.ueWorks_idle hidle))
      (World.worked_uePassed d false hl rfl) (World.uePassed_wr ..)
    refine ⟨_, run, mem, line, ?_⟩
    rw [State.workDone_slots, World.keepDesc_slots, World.uePassed_slots]
    rfl
  · intro v hgo
    obtain ⟨hexec, hkind, -, hwork⟩ := passTable_spec he k s
    exact hexec.trans (runWork_go h.line.1 (h.pass ((h.clean hkind hstate).trans (hwork s.world j d hdue))) hgo)

end Sys2Proof.Machine
end

section
/-! SUPPORT and PROOFS. Copies of the course mover between stores of the device (R293 to R297). -/

namespace Sys2Proof.Machine

/-! ## What work may write -/

/-- Work none of whose written runs has to wait goes on. -/
theorem writesGo_of_data {s : State} {k : Work} {w : World} (h : ∀ a bs, Wr.data a bs ∈ w.wr → s.blocksGo k a bs.length) :
    s.writesGo k w := by
  intro b hb
  unfold World.wrote at hb
  rw [List.mem_eraseDups, List.mem_flatMap] at hb
  obtain ⟨x, hx, hb⟩ := hb
  cases x with
  | data a bs => exact h a bs (List.mem_of_mem_take hx) b hb
  | syn a v | wipe a n => cases hb

/-- The runs of bytes among the effects of writing blocks are those blocks. -/
theorem World.putBlks_data {w : World} {l : List (Nat × List Byte × W32)} {a : Nat} {bs : List Byte} (h : Wr.data a bs ∈ (w.putBlks l).wr) :
    Wr.data a bs ∈ w.wr ∨ bs.length = 512 ∧ ∃ e ∈ l, e.1 = a := by
  induction l generalizing w with
  | nil => exact .inl h
  | cons e l ih =>
    rw [World.putBlks_cons] at h
    obtain hw | ⟨hlen, e', he', ha⟩ := ih h
    · rw [World.putBlk, World.put_wr, World.put_wr, List.mem_cons, List.mem_cons] at hw
      obtain hsyn | hdata | hw := hw
      · cases hsyn
      · cases hdata
        exact .inr ⟨padTo_length .., e, List.mem_cons_self, rfl⟩
      · exact .inl hw
    · exact .inr ⟨hlen, e', List.mem_cons_of_mem _ he', ha⟩

/-- Work that tracks its effects leaves the stores as it sees them. -/
theorem World.deepCorrected_stores (w : World) (words : List Nat) : (w.deepCorrected words).mem = w.mem ∧ (w.deepCorrected words).wr = w.wr :=
  List.foldlRecOn (motive := fun u : World => u.mem = w.mem ∧ u.wr = w.wr) words _ ⟨rfl, rfl⟩
    (fun _ hv _ _ => iteInduction (motive := fun u : World => u.mem = w.mem ∧ u.wr = w.wr)
      (fun _ => ⟨(World.count_mem ..).trans hv.1, (World.count_wr ..).trans hv.2⟩) (fun _ => hv))

theorem State.workDone_stores {s : State} {k : Work} {w : World} (h : w.tracks s.mem) : (s.workDone k w).mem = w.mem := by
  obtain ⟨hmem, hwr⟩ := w.deepCorrected_stores k.corrected
  refine Eq.trans (commit_mem_tracks ?_) hmem
  unfold World.tracks
  rw [hwr, hmem]
  exact h

/-! ## A block that is carried -/

theorem readBytes_len {m : Memory} (hm : m.wf = true) (a n : Nat) : (readBytes m a n).length = n := by
  rw [readBytes_eq m hm, List.length_map, List.length_range]

theorem padTo_self {bs : List Byte} {n : Nat} (h : bs.length = n) : padTo n bs = bs := by
  subst h
  simp [padTo, slice]

theorem blkSyn_carry (w : World) (a : Nat) : blkSyn (w.carry a) = w.synOf a := by
  rw [blkSyn, World.carry, BitVec.xor_comm, ← BitVec.xor_assoc, BitVec.xor_self, BitVec.zero_xor]

/-! ## What a list of blocks leaves -/

theorem split_at {α : Type} {l : List α} {i : Nat} {e : α} (h : l[i]? = some e) : l = l.take i ++ e :: l.drop (i + 1) := by
  obtain ⟨hi, rfl⟩ := List.getElem?_eq_some_iff.1 h
  rw [List.getElem_cons_drop, List.take_append_drop]

theorem later_of_mem_drop {α : Type} {l : List α} {i : Nat} {e : α} (h : e ∈ l.drop (i + 1)) : ∃ n, i < n ∧ l[n]? = some e := by
  obtain ⟨n, hn⟩ := List.mem_iff_getElem?.1 h
  rw [List.getElem?_drop] at hn
  exact ⟨i + 1 + n, by omega, hn⟩

/-! ## The pairs of a copy -/

theorem MoverDesc.pairs_length (m : MoverDesc) : m.pairs.length = m.run * m.rows := by
  unfold MoverDesc.pairs
  rw [List.length_flatMap]
  simp only [List.length_map, List.length_range]
  rw [List.map_const', List.sum_replicate_nat, List.length_range, Nat.mul_comm]

section
variable {m : MoverDesc} {far c : Nat} (hop : m.op = 1 ∨ m.op = 2) (hok : m.ok far c = true)
include hop hok

/-- A copy that keeps R292 moves at least one block, to places of whole blocks. -/
theorem MoverDesc.ok_copy : 1 ≤ m.run ∧ 1 ≤ m.rows ∧ m.dst % 512 = 0 ∧ m.dstStride % 512 = 0 := by
  unfold MoverDesc.ok at hok
  simp only [Bool.and_eq_true, decide_eq_true_eq] at hok
  obtain ⟨⟨⟨⟨⟨⟨⟨⟨-, hrun⟩, -⟩, hrows⟩, -⟩, -⟩, hdst⟩, -⟩, -⟩ := hok
  have hdst' : m.dst % 512 = 0 := by
    rw [if_pos (by rcases hop with h | h <;> rw [h] <;> rfl)] at hdst
    simp only [Bool.and_eq_true, beq_iff_eq] at hdst
    exact hdst.1.1
  rcases hop with h | h
  · rw [if_neg (by omega)] at hrows
    simp only [Bool.and_eq_true, beq_iff_eq] at hrows
    omega
  · rw [if_pos h] at hrows
    simp only [Bool.and_eq_true, decide_eq_true_eq, beq_iff_eq] at hrows
    omega

theorem MoverDesc.pairs_aligned {e : Nat × Nat} (he : e ∈ m.pairs) : e.2 % 512 = 0 := by
  obtain ⟨-, -, hdst, hstride⟩ := m.ok_copy hop hok
  unfold MoverDesc.pairs MoverDesc.dstRow at he
  simp only [List.mem_flatMap, List.mem_map, List.mem_range] at he
  obtain ⟨r, -, i, -, rfl⟩ := he
  have : r * m.dstStride % 512 = 0 := by rw [Nat.mul_mod, hstride, Nat.mul_zero, Nat.zero_mod]
  dsimp only
  omega

end

/-! ## The work of a copy -/

/-- The blocks of a copy as they are written. -/
def moverBlks (w : World) (m : MoverDesc) : List (Nat × List Byte × W32) :=
  m.pairs.map (fun e => (e.2, (w.carry e.1).data, blkSyn (w.carry e.1)))

/-- A copy to a store of the device. -/
theorem World.moverWrite_near {w v : World} {j : Job} {m : MoverDesc} (h : tierOf m.dst ≠ 3) :
    v.moverWrite j m (m.pairs.map (fun e => (e.2, w.carry e.1))) = v.putBlks (moverBlks w m) := by
  unfold World.moverWrite World.putBlks moverBlks
  rw [if_neg h, List.foldl_map, List.foldl_map]

/-- A copy between stores of the device whose source blocks are good. -/
def World.copied (w : World) (j : Job) (m : MoverDesc) : World :=
  ((((w.carried (j.course / 12) (w.poisonCount (m.pairs.map (·.1)))).putBlks (moverBlks w m)).moverCount j m.pairs.length).finish j).keepDesc j
    [(j.ln.desc, 64)]

section
variable {s : State} {k : Work} {op : Nat} {j : Job} {m : MoverDesc} (h : MoverReady s k op j m) (hop : op = 1 ∨ op = 2)
include h hop

/-- The work of a copy whose line may work. -/
theorem MoverReady.copies (hsrc : tierOf m.src ≠ 3) (hdst : tierOf m.dst ≠ 3)
    (hcheck : s.world.checkBlocks j k.bad (m.pairs.map (·.1)) = none) : s.world.mover k op = s.world.copied j m := by
  obtain ⟨b, hread, rfl⟩ := h.desc
  unfold State.reads at hread
  have hkept : (!descOk j.ln.desc 64 j.course || !(moverDesc b).ok (farBytes s.dev) j.course) = false := by
    rw [h.kept.1, h.kept.2]
    rfl
  have hpath : ((moverDesc b).op == op &&
      (((moverDesc b).route s.dev.farBound j.course).getD { path := 0, num := 1, den := 1, lat := 0 }).path != j.ln.path) = false := by
    have := h.path
    unfold moverRoute at this
    simp [this]
  unfold World.mover
  rw [h.line.2]
  dsimp only
  rw [hread]
  dsimp only
  rw [if_neg Bool.false_ne_true, if_neg (by rw [show s.world.d = s.dev from rfl, hkept, hpath]; decide), if_neg (not_not_intro h.op_),
    if_neg (by have := h.cost; unfold moverRoute at this; rw [show s.world.d = s.dev from rfl]; omega), if_neg (by rw [h.op_]; omega), if_neg hsrc]
  unfold World.moverNear
  dsimp only
  rw [hcheck]
  dsimp only
  rw [if_neg (by rw [h.op_]; omega), World.moverWrite_near hdst]
  rfl

end

/-! ## What a copy leaves -/

/-- The stores as a copy's blocks are written to them. -/
def World.copying (w : World) (j : Job) (m : MoverDesc) : World :=
  (w.carried (j.course / 12) (w.poisonCount (m.pairs.map (·.1)))).putBlks (moverBlks w m)

theorem World.keepDesc_mem (w : World) (j : Job) (runs : List (Nat × Nat)) : (w.keepDesc j runs).mem = w.mem := rfl
theorem World.carried_mem (w : World) (t n : Nat) : (w.carried t n).mem = w.mem := World.count_mem ..
theorem World.carried_wr (w : World) (t n : Nat) : (w.carried t n).wr = w.wr := World.count_wr ..

theorem World.copied_mem (w : World) (j : Job) (m : MoverDesc) : (w.copied j m).mem = (w.copying j m).mem :=
  (World.keepDesc_mem ..).trans ((World.finish_mem ..).trans (World.count_mem ..))

theorem World.copied_wr (w : World) (j : Job) (m : MoverDesc) : (w.copied j m).wr = (w.copying j m).wr :=
  (World.keepDesc_wr ..).trans ((World.finish_wr ..).trans (World.count_wr ..))

theorem World.copied_tracks {w : World} {n : Memory} (h : w.tracks n) (j : Job) (m : MoverDesc) : (w.copied j m).tracks n := by
  have hcarried : (w.carried (j.course / 12) (w.poisonCount (m.pairs.map (·.1)))).tracks n := by
    unfold World.tracks at h ⊢
    rwa [World.carried_wr, World.carried_mem]
  have hcopying : (w.copying j m).tracks n := World.putBlks_tracks hcarried _
  unfold World.tracks at hcopying ⊢
  rwa [World.copied_wr, World.copied_mem]

/-- A copy writes the blocks of its pairs. -/
theorem World.copied_data {w : World} {j : Job} {m : MoverDesc} {a : Nat} {bs : List Byte} (h : Wr.data a bs ∈ (w.copied j m).wr) :
    Wr.data a bs ∈ w.wr ∨ bs.length = 512 ∧ ∃ e ∈ m.pairs, e.2 = a := by
  rw [World.copied_wr] at h
  obtain hw | ⟨hlen, x, hx, ha⟩ := World.putBlks_data h
  · exact .inl (World.carried_wr .. ▸ hw)
  · obtain ⟨e, he, rfl⟩ := List.mem_map.1 hx
    exact .inr ⟨hlen, e, he, ha⟩

theorem World.copying_courses (w : World) (j : Job) (m : MoverDesc) : (w.copying j m).d.courses = w.d.courses := by
  unfold World.copying
  rw [World.putBlks_d]
  exact (Dev.count_regsOnly w.d _ 63 0 _).courses

/-- The line of a copy has done its work. -/
theorem World.worked_copied {w : World} {j : Job} {l : LineSt} (m : MoverDesc) (hl : lineAt (w.d.course j.course) j.idx = some l) :
    w.Worked (w.copied j m) j :=
  (World.worked_finish hl ((Dev.count_regsOnly _ _ 63 0 _).courses.trans (w.copying_courses j m))).keepDesc _

theorem moverCounter_ne_corrected (c t : Nat) : moverCounter c ≠ MEMR t + 0x40 := by
  unfold moverCounter MEMR twBase
  omega

theorem moverCounter_ne_carried (c t : Nat) : moverCounter c ≠ MEMR t + 0x38 := by
  unfold moverCounter MEMR twBase
  omega

theorem rget_rcount_congr {t u : Tab W64} {a : Nat} (h : rget t a = rget u a) (hi lo n : Nat) :
    rget (rcount t a hi lo n) a = rget (rcount u a hi lo n) a := by
  rw [rget_rcount_self, rget_rcount_self, h]

/-- The mover counts its blocks. -/
theorem World.copied_counts (w : World) (j : Job) (m : MoverDesc) (hn : m.pairs.length ≠ 0) :
    rget (w.copied j m).d.regs (moverCounter j.course) =
      rget (rcount w.d.regs (moverCounter j.course) 63 0 m.pairs.length) (moverCounter j.course) := by
  unfold World.copied
  rw [World.keepDesc_rget, World.finish_regs, World.moverCount, World.count_d, Dev.count, if_neg hn]
  refine rget_rcount_congr ?_ 63 0 _
  rw [World.putBlks_d]
  exact Dev.count_rget_ne _ 63 0 _ (moverCounter_ne_carried _ _)

/-- A destination block that no later pair writes takes its source block with its check. -/
theorem World.copying_block {w : World} (hw : w.mem.wf = true) (j : Job) {m : MoverDesc} {i : Nat} {e : Nat × Nat} (he : m.pairs[i]? = some e)
    (hlater : ∀ x ∈ m.pairs.drop (i + 1), e.2 + 512 ≤ x.2 ∨ x.2 + 512 ≤ e.2) :
    readBytes (w.copying j m).mem e.2 512 = readBytes w.mem e.1 512 ∧ (w.copying j m).synOf e.2 = w.synOf e.1 := by
  have hblks : moverBlks w m = (m.pairs.take i).map (fun e => (e.2, (w.carry e.1).data, blkSyn (w.carry e.1))) ++
      (e.2, (w.carry e.1).data, blkSyn (w.carry e.1)) ::
      (m.pairs.drop (i + 1)).map (fun e => (e.2, (w.carry e.1).data, blkSyn (w.carry e.1))) := by
    unfold moverBlks
    exact (congrArg (List.map _) (split_at he)).trans (by rw [List.map_append, List.map_cons])
  have hlast := World.putBlks_last (w := w.carried (j.course / 12) (w.poisonCount (m.pairs.map (·.1)))) (by rw [World.carried_mem]; exact hw)
    ((m.pairs.take i).map (fun e => (e.2, (w.carry e.1).data, blkSyn (w.carry e.1))))
    ((m.pairs.drop (i + 1)).map (fun e => (e.2, (w.carry e.1).data, blkSyn (w.carry e.1)))) e.2 (w.carry e.1).data (blkSyn (w.carry e.1))
    (by
      intro x hx
      obtain ⟨y, hy, rfl⟩ := List.mem_map.1 hx
      exact hlater y hy)
  unfold World.copying
  rw [hblks]
  refine ⟨hlast.1.trans (padTo_self (readBytes_len hw ..)), hlast.2.trans (blkSyn_carry ..)⟩

/-- A byte outside every destination block stays. -/
theorem World.copying_readByte (w : World) (j : Job) (m : MoverDesc) {x : Nat} (hx : ∀ e ∈ m.pairs, x < e.2 ∨ e.2 + 512 ≤ x) :
    readByte (w.copying j m).mem x = readByte w.mem x := by
  unfold World.copying
  rw [World.putBlks_readByte_out, World.carried_mem]
  intro y hy
  obtain ⟨e, he, rfl⟩ := List.mem_map.1 hy
  exact hx e he

/-- COPY and COPY2D are the mover's work on their operation. -/
theorem moverCopy_cases {s : State} {k : Work} {j : Job} {m : MoverDesc} {cmd : Instr}
    (h : (cmd = .moverCopy k ∧ MoverReady s k 1 j m) ∨ (cmd = .moverCopy2d k ∧ MoverReady s k 2 j m)) :
    ∃ op, (op = 1 ∨ op = 2) ∧ MoverReady s k op j m ∧ exec cmd s = runWork s k (fun w => w.mover k op) := by
  obtain ⟨rfl, h⟩ | ⟨rfl, h⟩ := h
  · exact ⟨1, .inl rfl, h, rfl⟩
  · exact ⟨2, .inr rfl, h, rfl⟩

/-- Settles O44: the blocks are written in order, so a destination holds the source last copied to it. -/
theorem moverCopiesBlocks : Obligations.MoverCopiesBlocks := by
  unfold Obligations.MoverCopiesBlocks
  intro k s j m cmd hcmd hm hsrc hdst hcheck hgo
  obtain ⟨op, hop, h, hexec⟩ := moverCopy_cases hcmd
  obtain ⟨l, hl, -⟩ := h.line.launched
  have hop' : m.op = 1 ∨ m.op = 2 := by rw [h.op_]; exact hop
  have hgoes : s.writesGo k (s.world.copied j m) := writesGo_of_data (fun a bs hdata => by
    obtain hw | ⟨hlen, e, he, rfl⟩ := World.copied_data hdata
    · cases hw
    · rw [hlen]
      exact hgo e he)
  have hstores : (s.workDone k (s.world.copied j m)).mem = (s.world.copying j m).mem :=
    (State.workDone_stores (World.copied_tracks s.world_tracks j m)).trans (World.copied_mem ..)
  refine ⟨_, hexec.trans (runWork_go h.line.1 (h.copies hop hsrc hdst hcheck) hgoes), (World.worked_copied m hl).workDone,
    fun i e he hlast => ?_, fun x hx => ?_, ?_⟩
  · rw [hstores]
    refine World.copying_block (w := s.world) hm j he (fun x hx => ?_)
    obtain ⟨n, hn, hx'⟩ := later_of_mem_drop hx
    have := hlast n x hn hx'
    have := MoverDesc.pairs_aligned hop' h.kept.2 (List.mem_of_getElem? he)
    have := MoverDesc.pairs_aligned hop' h.kept.2 (List.mem_of_getElem? hx')
    omega
  · rw [hstores]
    exact World.copying_readByte s.world j m hx
  · obtain ⟨hrun, hrows, -⟩ := MoverDesc.ok_copy hop' h.kept.2
    rw [State.workDone_rget _ _ _ (moverCounter_ne_corrected _), World.copied_counts, MoverDesc.pairs_length]
    · rfl
    · rw [MoverDesc.pairs_length]
      exact Nat.mul_ne_zero (by omega) (by omega)

end Sys2Proof.Machine
end

section
/-! SUPPORT and PROOFS. Lines of the vector engine (R243 to R270). -/

namespace Sys2Proof.Machine

/-! ## A result that covers a poisoned block which another line waits for -/

/-- A tensor of four FP32 elements in one row at an address (R234). -/
def fourFp32 (a : Nat) : List Byte :=
  leBytes 8 a ++ leBytes 8 0 ++ leBytes 4 4 ++ leBytes 16 0x01000000010000000100000001 ++ leBytes 16 0 ++ leBytes 1 0 ++ leBytes 1 1 ++ leBytes 10 0

/-- A COPY of four FP32 elements from 0x1000 to 0x21F8, the end of one block and the start of the next (R243). -/
def crossingCopy : List Byte :=
  leBytes 2 1 ++ leBytes 6 0 ++ leBytes 8 0x40 ++ leBytes 16 0 ++ leBytes 8 0x80 ++ leBytes 24 0 ++ fourFp32 0x1000 ++ fourFp32 0x21F8

/-- The descriptors of that copy, four ones to copy, and a poisoned block at 0x2000. -/
def crossingStores : Memory :=
  [.data 0 crossingCopy, .data 0x1000 (List.replicate 4 (leBytes 4 0x3F800000)).flatten, .syn 0x2000 poisonMark].foldl applyWr Memory.empty

/-- A launched line of the vector engine. -/
def copyingLine : LineSt := { plainLine .launched with ln := { (plainLine .launched).ln with unit := unitVe } }

/-- Course 0 runs the copy; a launched line of course 1 waits for what the block at 0x2000 held (R301). -/
def crossingState : State :=
  { State.reset with mem := crossingStores, dev := { Dev.reset with
      level := .run, waits := [(0x2000, whoLine 1 0)],
      courses := [(0, { Course.init with lines := [copyingLine], runner := some 16 }), (1, { Course.init with lines := [copyingLine] })] } }

def copyingJob : Job := { course := 0, idx := 0, ln := copyingLine.ln, set := 0, ctx := 16, pos := 0, prog := 0, word := 0 }

theorem crossingState_ready : crossingState.lineReady (0 : Fin 96) 0 unitVe copyingJob := ⟨rfl, by rfl⟩

/-- The work command on that line. -/
def copyingWork : Work := { course := 0, line := 0, bad := [] }

/-- Whether a run of bytes that a line stores to holds a block that has to wait. -/
def runWaits (d : Dev) (who : Nat) (r : Nat × List Byte) : Bool :=
  !r.2.isEmpty && (blocksOf r.1 r.2.length).any (fun b => d.writeWaits who b)

theorem crossingState_waits : (crossingState.world.veStores copyingJob
    (vePlan (crossingState.world.descMem copyingJob) copyingJob.ln.desc)).any (runWaits crossingState.dev (whoLine 0 0)) = true := by
  decide +kernel

/-- The byte at an address in the state that follows, where there is one. -/
def byteAfter (o : Host.Outcome State Fault Refusal) (a : Nat) : Option Byte :=
  match o with
  | .next t => some (readByte t.mem a)
  | _ => none

theorem crossingState_stores : byteAfter (exec (.veCopy copyingWork) crossingState) 0x2203 = some 0x3F := by
  decide +kernel

theorem crossingState_byte : readByte crossingState.mem 0x2203 = 0 := by
  decide +kernel

/-- Refutes O43: a poisoned block that the result fills in part is not written, so the block beside it is stored to although the poisoned
one, which another line waits for, would have to wait. -/
theorem not_vectorLinesStoreOnlyTheirResult : ¬ Obligations.VectorLinesStoreOnlyTheirResult := by
  unfold Obligations.VectorLinesStoreOnlyTheirResult
  intro h
  have stores := crossingState_stores
  obtain ⟨r, hr, hwaits⟩ := List.any_eq_true.1 crossingState_waits
  unfold runWaits at hwaits
  rw [Bool.and_eq_true, List.any_eq_true] at hwaits
  obtain ⟨hne, b, hb, hwait⟩ := hwaits
  cases hexec : exec (.veCopy copyingWork) crossingState with
  | next t =>
    obtain ⟨-, quiet, -⟩ := h (.veCopy, 0x01) List.mem_cons_self copyingWork crossingState t copyingJob crossingState_ready hexec
    have hmem : t.mem = crossingState.mem := quiet r hr (by rintro hnil; rw [hnil] at hne; cases hne) (fun hgo => by
      have := hgo b hb
      exact absurd (hwait.symm.trans this) (by decide))
    rw [hexec] at stores
    replace stores : some (readByte t.mem 0x2203) = some 0x3F := stores
    rw [hmem, crossingState_byte] at stores
    exact absurd stores (by decide)
  | fault r | refused r =>
    rw [hexec] at stores
    cases stores

/-! ## An operation that issues -/

/-- Every command of the vector engine is the work of a line whose descriptor holds its operation. -/
theorem exec_veLine : ∀ e ∈ veTable, ∀ (k : Work) (s : State), exec (e.1 k) s = runWork s k (fun w => w.veLine k e.2) := by
  unfold veTable
  repeat refine List.forall_mem_cons.2 ⟨fun _ _ => rfl, ?_⟩
  exact List.forall_mem_nil _

/-- A line whose descriptors are readable and kept, within its cost, issues. -/
theorem World.veLine_issues {w : World} {k : Work} {op : Nat} {j : Job} {b : List Byte} (hready : w.ready k.course.val k.line unitVe = some j)
    (hread : w.fetch j k.bad j.ln.desc 64 = .got b false) (hop : (veOp b).op = op)
    (hfetch : w.veFetch j k.bad (vePlan (w.descMem j) j.ln.desc) = .got [] false) (hkept : (vePlan (w.descMem j) j.ln.desc).bad j.course = none)
    (hcost : (vePlan (w.descMem j) j.ln.desc).cost ≤ j.ln.wcCompute) :
    w.veLine k op = w.veIssue j (vePlan (w.descMem j) j.ln.desc) k.bad := by
  unfold World.veLine
  rw [hready]
  dsimp only
  rw [hread]
  dsimp only
  rw [if_neg Bool.false_ne_true, if_neg (fun h => h.1 hop), hfetch]
  dsimp only
  rw [if_neg Bool.false_ne_true, hkept]
  dsimp only
  rw [if_neg (Nat.not_lt.2 hcost)]

/-- Settles O42: the checks of a line's start do not look at its operands. -/
theorem vectorLinesIssue : Obligations.VectorLinesIssue := by
  unfold Obligations.VectorLinesIssue
  intro e he k s j b hline hread hop p hfetch hkept hcost w hgo
  rw [exec_veLine e he]
  exact runWork_go hline.1 (World.veLine_issues hline.2 hread hop hfetch (Option.isNone_iff_eq_none.1 hkept) hcost) hgo

end Sys2Proof.Machine
end

section
/-! SUPPORT. What the work of the matrix array and the accumulator buffer leaves of the courses: their lines and groups (R196 to R227). -/

namespace Sys2Proof.Machine

theorem Dev.countFh_courses (d : Dev) (ctx cls fmt total ovr under : Nat) : (d.countFh ctx cls fmt total ovr under).courses = d.courses :=
  iteInduction (motive := fun e : Dev => e.courses = d.courses) (fun _ => rfl) (fun _ => rfl)

/-- Work whose effects are tracked, and which leaves the lines and the groups of every course as they are. -/
structure World.Steady (w v : World) : Prop where
  tracks : ∀ m, w.tracks m → v.tracks m
  lines : ∀ c, (v.d.course c).lines = (w.d.course c).lines
  groups : ∀ c, (v.d.course c).groups = (w.d.course c).groups

namespace World.Steady

variable {w v u : World}

theorem refl (w : World) : w.Steady w := ⟨fun _ h => h, fun _ => rfl, fun _ => rfl⟩

theorem trans (h : w.Steady v) (k : v.Steady u) : w.Steady u :=
  ⟨fun m hm => k.tracks m (h.tracks m hm), fun c => (k.lines c).trans (h.lines c), fun c => (k.groups c).trans (h.groups c)⟩

/-- A change of the device beside its courses. -/
theorem onDev (h : w.Steady v) {f : Dev → Dev} (hf : (f v.d).courses = v.d.courses) : w.Steady (v.onDev f) :=
  h.trans ⟨fun _ hm => hm, fun c => congrArg (fun t => (tget Course.init t c).lines) hf,
    fun c => congrArg (fun t => (tget Course.init t c).groups) hf⟩

theorem setReg (h : w.Steady v) (a : Nat) (x : W64) : w.Steady (v.setReg a x) := h.onDev (Dev.setReg_courses ..)
theorem setBit (h : w.Steady v) (a n : Nat) : w.Steady (v.setBit a n) := h.onDev (Dev.setFld_courses ..)
theorem count (h : w.Steady v) (a hi lo n : Nat) : w.Steady (v.count a hi lo n) := h.onDev (Dev.count_regsOnly _ a hi lo n).courses
theorem raise (h : w.Steady v) (n : Nat) : w.Steady (v.raise n) := h.onDev rfl

theorem log (h : w.Steady v) (e : LogEntry) : w.Steady (v.log e) := h.onDev (Dev.log_tells [] v.d e).courses

theorem put (h : w.Steady v) (x : Wr) : w.Steady (v.put x) :=
  h.trans ⟨fun _ hm => World.put_tracks hm x, fun _ => rfl, fun _ => rfl⟩

theorem putBlk (h : w.Steady v) (a : Nat) (data : List Byte) (syn : W32) : w.Steady (v.putBlk a data syn) := (h.put _).put _

theorem consumed (h : w.Steady v) (t n unit ctx : Nat) : w.Steady (v.consumed t n unit ctx) :=
  iteInduction (motive := w.Steady) (fun _ => h) (fun _ => (((h.raise _).raise _).count _ _ _ _).log _)

/-- A fold of steps that each go on from a steady world. -/
theorem fold {α β : Type} (h : w.Steady v) {f : α → β → α} (of : α → World) (a : α) (xs : List β) (ha : of a = v)
    (hf : ∀ a x, x ∈ xs → (of a).Steady (of (f a x))) : w.Steady (of (xs.foldl f a)) :=
  foldl_keeps (fun a => w.Steady (of a)) f xs (fun b x hx hb => hb.trans (hf b x hx)) a (ha ▸ h)

theorem mergeWrite (h : w.Steady v) (a : Nat) (bs : List Byte) : w.Steady (v.mergeWrite a bs).1 := by
  unfold World.mergeWrite
  refine h.fold Prod.fst _ _ rfl (fun s b _ => ?_)
  obtain ⟨x, bad⟩ := s
  exact iteInduction (motive := fun s : World × Nat => x.Steady s.1) (fun _ => (refl x).putBlk _ _ _)
    (fun _ => iteInduction (motive := fun s : World × Nat => x.Steady s.1) (fun _ => refl x) (fun _ => (refl x).put _))

theorem writeNode (h : w.Steady v) (a : Nat) (x : Node) : w.Steady (v.writeNode a x) :=
  h.fold id _ _ rfl (fun u _ _ => (refl u).putBlk _ _ _)

theorem abPoison (h : w.Steady v) (j : Job) (n off : Nat) : w.Steady (v.abPoison j n off) :=
  iteInduction (motive := w.Steady) (fun _ => h) (fun _ => ((h.setBit _ _).setReg _ _).consumed _ _ _ _)

theorem takeLevel (h : w.Steady v) (j : Job) (s : MStack) (l : Nat) : w.Steady (v.takeLevel j s l).1 :=
  iteInduction (motive := fun r : World × Option Node => w.Steady r.1) (fun _ => h) (fun _ => (h.abPoison _ _ _).count _ _ _ _)

theorem mergeUp (j : Job) (fuel : Nat) : ∀ {v : World} (_ : w.Steady v) (s : MStack) (x : Node) (l : Nat),
    w.Steady (mergeUp j fuel (v, s, x) l).1 := by
  induction fuel with
  | zero => exact fun h _ _ _ => h
  | succ n ih =>
    intro v h s x l
    unfold Machine.mergeUp
    refine iteInduction (motive := fun r : World × MStack × Node × Nat => w.Steady r.1) (fun _ => ?_) (fun _ => h)
    exact ih ((h.takeLevel j s l).count _ _ _ _) _ _ _

theorem insertNode (h : w.Steady v) {j : Job} {s s' : MStack} {x : Node} {off lvl : Nat} {u : World}
    (hu : v.insertNode j s x off lvl = some (u, s')) : w.Steady u := by
  unfold World.insertNode at hu
  split at hu
  · cases hu
  · have hmerged := mergeUp j 17 h { s with next := off + 2 ^ lvl } x lvl
    generalize Machine.mergeUp j 17 (v, { s with next := off + 2 ^ lvl }, x) lvl = r at hu hmerged
    obtain ⟨v', s1, y, l⟩ := r
    dsimp only at hu hmerged
    split at hu
    · cases hu
      exact hmerged
    · split at hu
      · cases hu
        exact hmerged
      · rw [← (Prod.mk.inj (Option.some.inj hu)).1]
        exact (hmerged.writeNode _ _).count _ _ _ _

theorem foldStack (h : w.Steady v) (j : Job) (s : MStack) : w.Steady (v.foldStack j s).1 := by
  refine iteInduction (motive := fun r : World × Option Node => w.Steady r.1) (fun _ => h) (fun _ => ?_)
  refine h.fold Prod.fst _ _ rfl (fun a l _ => ?_)
  have htaken := (refl a.1).takeLevel j s l
  generalize a.1.takeLevel j s l = r at htaken ⊢
  refine iteInduction (motive := fun r : World × Option Node => a.1.Steady r.1) (fun _ => ?_) (fun _ => refl _)
  exact iteInduction (motive := a.1.Steady) (fun _ => htaken.count _ _ _ _) (fun _ => htaken)

theorem foldOrZero (h : w.Steady v) (j : Job) (s : MStack) : w.Steady (v.foldOrZero j s).1 := by
  have hfold := h.foldStack j s
  unfold World.foldOrZero
  generalize v.foldStack j s = r at hfold ⊢
  obtain ⟨u, o⟩ := r
  cases o with
  | some x => exact hfold
  | none => exact hfold.count _ _ _ _

/-- One row of an output. -/
theorem writeRow (q : AccDesc) (int : Bool) (seed : W64) (ctx gi c0 n : Nat) (cells cols biases : List Nat) (o : EpiOut) :
    o.w.Steady (q.writeRow int seed ctx gi c0 n cells cols biases o).w := by
  unfold AccDesc.writeRow
  dsimp only
  refine iteInduction (motive := fun r : EpiOut => o.w.Steady r.w) (fun _ => (refl o.w).mergeWrite _ _) (fun _ => ?_)
  refine iteInduction (motive := fun r : EpiOut => o.w.Steady r.w)
    (fun _ => (((refl o.w).mergeWrite _ _).mergeWrite _ _).onDev ?_) (fun _ => ((refl o.w).mergeWrite _ _).onDev ?_)
  · exact Dev.countFh_courses ..
  · exact Dev.countFh_courses ..

theorem epilogue (h : w.Steady v) (j : Job) (q : AccDesc) (int : Bool) (x : Node) (base rowLen r0 c0 m n width amax : Nat) :
    w.Steady (v.epilogue j q int x base rowLen r0 c0 m n width amax).1 := by
  unfold World.epilogue
  dsimp only
  have hrows := h.fold (β := Nat) EpiOut.w { w := v, amax := amax, poison := (v.epiColumns q c0 n).2.2, nonfinite := false } (List.range m)
    (f := fun o i => q.writeRow int (v.d.ctx j.ctx).seed j.ctx (r0 + i) c0 width (nodeRow x base rowLen i n) (v.epiColumns q c0 n).1
      (v.epiColumns q c0 n).2.1 o) rfl (fun o i _ => writeRow ..)
  exact iteInduction (motive := w.Steady) (fun _ => (hrows.abPoison _ _ _).raise _) (fun _ => hrows.abPoison _ _ _)

theorem writeAmax (h : w.Steady v) (j : Job) (q : AccDesc) (amax : Nat) : w.Steady (v.writeAmax j q amax) :=
  iteInduction (motive := w.Steady) (fun _ => h) (fun _ => (h.mergeWrite _ _).abPoison _ _ _)

end World.Steady

end Sys2Proof.Machine
end

section
/-! SUPPORT and PROOFS. Products of the matrix array (R178 to R205). -/

namespace Sys2Proof.Machine

/-! ## Lines and groups through the end of a unit's work -/

theorem Dev.onCourse_course_self (d : Dev) (c : Nat) (f : Course → Course) : (d.onCourse c f).course c = f (d.course c) := tget_tput_self ..

theorem Dev.onCourse_course_ne (d : Dev) {c e : Nat} (f : Course → Course) (h : e ≠ c) : (d.onCourse c f).course e = d.course e :=
  tget_tput_ne _ _ _ h

/-- A change of one course that keeps a part of it keeps that part of every course. -/
theorem Dev.onCourse_keeps {α : Type} (g : Course → α) (d : Dev) (c : Nat) {f : Course → Course} (hf : ∀ x, g (f x) = g x) (e : Nat) :
    g ((d.onCourse c f).course e) = g (d.course e) := by
  by_cases h : e = c
  · subst h
    rw [Dev.onCourse_course_self, hf]
  · rw [Dev.onCourse_course_ne _ _ h]

theorem Dev.accum_congr {d e : Dev} {c : Nat} (h : (d.course c).groups = (e.course c).groups) (g : Nat) : d.accum c g = e.accum c g :=
  congrArg (fun t => tget Accum.init t g) h

namespace World.Steady

variable {w v : World}

/-- Steady work, the end of its line included. -/
theorem worked (h : w.Steady v) {j : Job} {l : LineSt} (hl : lineAt (w.d.course j.course) j.idx = some l) : w.Worked (v.finish j) j := by
  refine ⟨l, hl, ?_⟩
  rw [lineAt_congr (World.finish_courses v j), lineAt_onLine_self]
  unfold lineAt at hl ⊢
  rw [h.lines, hl]
  rfl

theorem accum (h : w.Steady v) (c g : Nat) : v.d.accum c g = w.d.accum c g := Dev.accum_congr (h.groups c) g

/-- A change of one course that keeps its lines and groups. -/
theorem onCourse (h : w.Steady v) (c : Nat) {f : Course → Course} (hl : ∀ x, (f x).lines = x.lines) (hg : ∀ x, (f x).groups = x.groups) :
    w.Steady (v.onDev (fun d => d.onCourse c f)) :=
  h.trans ⟨fun _ hm => hm, v.d.onCourse_keeps Course.lines c hl, v.d.onCourse_keeps Course.groups c hg⟩

theorem writeTie (h : w.Steady v) {j : Job} {q : AccDesc} {int : Bool} {t n : Nat} {x : Node} {u : World}
    (hu : v.writeTie j q int t n x = some u) : w.Steady u := by
  unfold World.writeTie at hu
  dsimp only at hu
  split at hu
  · cases hu
  · rw [← Option.some.inj hu]
    have htyped := (h.writeNode (q.tieSlot t n) x).onCourse j.course (f := fun y => { y with ties := tput y.ties q.tie int })
      (fun _ => rfl) (fun _ => rfl)
    exact (htyped.mergeWrite _ _).abPoison _ _ _

/-! ## A product's tiles -/

theorem leaves (r : MaRun) (j : Job) (p : MaDesc) (va vb : List (List El)) (t off : Nat) : r.w.Steady (r.leaves j p va vb t off).w := by
  refine (refl r.w).fold MaRun.w _ _ rfl (fun r b _ => ?_)
  refine iteInduction (motive := fun o : MaRun => r.w.Steady o.w) (fun _ => refl _) (fun _ => ?_)
  cases h : r.w.insertNode j r.s (p.leaf va vb t b) (off + b) 0 with
  | none => exact refl _
  | some o => exact (refl r.w).insertNode (u := o.1) (s' := o.2) h

theorem drain (r : MaRun) (j : Job) (p : MaDesc) (q : AccDesc) (t : Nat) : r.w.Steady (r.drain j p q t).w :=
  ((refl r.w).foldOrZero j r.s).fold (β := Nat × Nat × Nat × Nat × Nat × Nat) Prod.fst _ _ rfl (fun a _ _ => (refl a.1).epilogue ..)

theorem tie (r : MaRun) (j : Job) (p : MaDesc) (q : AccDesc) (t : Nat) : r.w.Steady (r.tie j p q t).w := by
  have hfold := (refl r.w).foldOrZero j r.s
  unfold MaRun.tie
  dsimp only
  split
  case h_1 u hu => exact hfold.writeTie hu
  case h_2 => exact hfold

theorem finishTiles (w : World) (j : Job) (p : MaDesc) (q : AccDesc) (va vb : List (List El)) : w.Steady (w.finishTiles j p q va vb).w := by
  refine (refl w).fold MaRun.w _ _ rfl (fun r t _ => ?_)
  refine iteInduction (motive := fun o : MaRun => r.w.Steady o.w) (fun _ => refl _) (fun _ => ?_)
  have hleaves := leaves { r with s := freshStack p.int8 (if q.tied then q.tieSpan else q.span) (w.d.abPartition j.course) q.spill } j p va vb t 0
  exact iteInduction (motive := fun o : MaRun => r.w.Steady o.w) (fun _ => hleaves)
    (fun _ => iteInduction (motive := fun o : MaRun => r.w.Steady o.w) (fun _ => hleaves.trans (tie ..)) (fun _ => hleaves.trans (drain ..)))

/-! ## The counters of a product -/

theorem maFault (h : w.Steady v) (j : Job) (bit tile : Nat) : w.Steady (v.maFault j bit tile) := (h.setBit _ _).setReg _ _

theorem maCount (h : w.Steady v) (j : Job) (p : MaDesc) (va vb : List (List El)) : w.Steady (v.maCount j p va vb) :=
  ((((h.count _ _ _ _).count _ _ _ _).count _ _ _ _).fold id _ _ rfl (fun u _ _ => (refl u).maFault _ _ _)).consumed _ _ _ _

theorem maStatus (h : w.Steady v) (j : Job) (p : MaDesc) (stalled : Bool) : w.Steady (v.maStatus j p stalled) := h.setReg _ _

end World.Steady

/-! ## A product that may issue -/

section
variable {s : State} {k : Work} {j : Job} {p : MaDesc} {g : Nat} {q : AccDesc} (h : ProductReady s k j p g q)
include h

/-- The work of a product that passes the checks of its start. -/
theorem ProductReady.issues : doMaProduct k s.world = s.world.product j g p q k.bad := by
  obtain ⟨b, hread, rfl⟩ := h.desc
  obtain ⟨qb, hacc, rfl⟩ := h.acc
  unfold State.reads at hread hacc
  obtain ⟨hdesc, hok⟩ := h.kept
  obtain ⟨haccDesc, haccOk, hprod⟩ := h.accKept
  have hsame : ((s.dev.accum j.course g).open_ && (s.dev.accum j.course g).acc != (maDesc b).abDesc) = false := by
    cases ho : (s.dev.accum j.course g).open_ with
    | false => rfl
    | true => simp [(h.same ho).1]
  have hout : ((accDesc qb).finish && !(accDesc qb).tied && !(accDesc qb).outOk j.course (maDesc b).m (maDesc b).n) = false := by
    cases hf : (accDesc qb).finish with
    | false => rfl
    | true =>
      obtain ht | ho := h.out hf
      · rw [ht]
        rfl
      · rw [ho]
        exact Bool.and_false _
  have htype : ((s.dev.accum j.course g).open_ && decide ((s.dev.accum j.course g).lastM ≠ 0) &&
      (s.dev.fld (abGroup j.course g) 62 62 == 1) != (maDesc b).int8) = false := by
    cases ho : (s.dev.accum j.course g).open_ with
    | false => rfl
    | true =>
      by_cases hm : (s.dev.accum j.course g).lastM = 0
      · simp [hm]
      · simp [(h.same ho).2.2 hm]
  have horder : ((!(s.dev.accum j.course g).open_ && !(accDesc qb).finish && decide ((maDesc b).leafBase - (accDesc qb).root ≠ 0)) ||
      ((s.dev.accum j.course g).open_ && (accDesc qb).finish)) = false := by
    cases ho : (s.dev.accum j.course g).open_ with
    | false =>
      cases hf : (accDesc qb).finish with
      | false => simp [h.first ho hf]
      | true => rfl
    | true => simp [(h.same ho).2.1]
  unfold doMaProduct
  rw [h.line.2]
  dsimp only
  rw [hread]
  dsimp only
  rw [if_neg Bool.false_ne_true, hdesc, hok, if_neg (by decide), if_neg (Nat.not_lt.2 h.cost)]
  rw [show s.world.d = s.dev from rfl, h.group]
  dsimp only
  rw [hacc]
  dsimp only
  rw [if_neg Bool.false_ne_true, hsame, if_neg Bool.false_ne_true, haccDesc, haccOk, hprod, hout, htype, if_neg (by decide), horder,
    if_neg Bool.false_ne_true]

end

theorem World.product_finishes {w : World} {j : Job} {g : Nat} {p : MaDesc} {q : AccDesc} {bad : List Nat} (hfin : q.finish = true)
    (hcheck : w.checkBlocks j bad (productReads w j g p q) = none)
    (hok : (w.finishTiles j p q (w.operandA p) (w.operandB p)).ok = true) :
    w.product j g p q bad = World.finish (World.maStatus (World.maCount
      (if q.tied then (w.finishTiles j p q (w.operandA p) (w.operandB p)).w
        else (w.finishTiles j p q (w.operandA p) (w.operandB p)).w.writeAmax j q (w.finishTiles j p q (w.operandA p) (w.operandB p)).amax)
      j p (w.operandA p) (w.operandB p)) j p false) j := by
  unfold productReads at hcheck
  unfold World.product
  dsimp only
  rw [hcheck]
  dsimp only
  rw [if_pos hfin, hok, if_neg (by decide)]

/-- The accumulation that a product without FINISH enters: its group's, opened if it was not. -/
def World.entered (w : World) (j : Job) (g : Nat) (p : MaDesc) (q : AccDesc) : World :=
  if (w.d.accum j.course g).open_ then w.onDev (fun d => d.setFld (abGroup j.course g) 62 62 (if p.int8 then 1 else 0))
  else w.onDev (fun d => d.openAccum j.course g p.abDesc q p.int8)

theorem World.product_enters {w : World} {j : Job} {g : Nat} {p : MaDesc} {q : AccDesc} {bad : List Nat} (hfin : q.finish = false)
    (hcheck : w.checkBlocks j bad (productReads w j g p q) = none)
    (hok : ((w.entered j g p q).openTile j g p q (w.operandA p) (w.operandB p)).ok = true) :
    w.product j g p q bad = World.finish (World.maStatus (World.maCount ((w.entered j g p q).openTile j g p q (w.operandA p) (w.operandB p)).w
      j p (w.operandA p) (w.operandB p)) j p false) j := by
  unfold productReads at hcheck
  unfold World.entered at hok ⊢
  unfold World.product
  dsimp only
  rw [hcheck]
  dsimp only
  rw [hfin, if_neg Bool.false_ne_true, hok, if_neg (by decide)]

/-! ## The group that a product without FINISH enters -/

/-- A change of one group of a course: its lines stay. -/
def Dev.onGroup (d : Dev) (c g : Nat) (f : Accum → Accum) : Dev :=
  d.onCourse c (fun x => { x with groups := tput x.groups g (f (tget .init x.groups g)) })

theorem Dev.onGroup_lines (d : Dev) (c g : Nat) (f : Accum → Accum) (e : Nat) : ((d.onGroup c g f).course e).lines = (d.course e).lines := by
  unfold Dev.onGroup
  refine d.onCourse_keeps Course.lines c ?_ e
  exact fun _ => rfl

theorem Dev.onGroup_accum (d : Dev) (c g : Nat) (f : Accum → Accum) : (d.onGroup c g f).accum c g = f (d.accum c g) := by
  unfold Dev.onGroup Dev.accum
  rw [Dev.onCourse_course_self]
  exact tget_tput_self ..

/-- Work that leaves the lines of every course, and the accumulation of a group as given. -/
structure World.Leaves (w v : World) (c g : Nat) (a : Accum → Prop) : Prop where
  tracks : ∀ m, w.tracks m → v.tracks m
  lines : ∀ c, (v.d.course c).lines = (w.d.course c).lines
  accum : a (v.d.accum c g)

namespace World.Leaves

variable {w v u : World} {c g : Nat} {a b : Accum → Prop}

theorem steady (h : w.Leaves v c g a) (k : v.Steady u) : w.Leaves u c g a :=
  ⟨fun m hm => k.tracks m (h.tracks m hm), fun e => (k.lines e).trans (h.lines e), by rw [k.accum]; exact h.accum⟩

theorem onGroup (h : w.Leaves v c g a) {f : Accum → Accum} {F : Dev → Dev} (hF : (F v.d).courses = v.d.courses) (hf : ∀ x, a x → b (f x)) :
    w.Leaves (v.onDev (fun d => (F d).onGroup c g f)) c g b := by
  have hcourse : ∀ e, (F v.d).course e = v.d.course e := fun e => congrArg (fun t => tget Course.init t e) hF
  refine ⟨h.tracks, fun e => ?_, ?_⟩
  · exact ((Dev.onGroup_lines ..).trans (congrArg Course.lines (hcourse e))).trans (h.lines e)
  · rw [World.onDev_d, Dev.onGroup_accum, Dev.accum_congr (congrArg Course.groups (hcourse c))]
    exact hf _ h.accum

theorem worked (h : w.Leaves v c g a) {j : Job} {l : LineSt} (hl : lineAt (w.d.course j.course) j.idx = some l) : w.Worked (v.finish j) j := by
  refine ⟨l, hl, ?_⟩
  rw [lineAt_congr (World.finish_courses v j), lineAt_onLine_self]
  unfold lineAt at hl ⊢
  rw [h.lines, hl]
  rfl

end World.Leaves

/-- A world whose group holds an accumulation. -/
theorem World.leaves_self {w : World} {c g : Nat} {a : Accum → Prop} (h : a (w.d.accum c g)) : w.Leaves w c g a :=
  ⟨fun _ hm => hm, fun _ => rfl, h⟩

/-- An open accumulation of a descriptor. -/
def Accum.opened (acc : Nat) (a : Accum) : Prop := a.open_ = true ∧ a.acc = acc

/-- The registers of a group, opened. -/
def Dev.openGroup (d : Dev) (c g : Nat) (q : AccDesc) (int : Bool) : Dev :=
  ((((d.setFld (abGroup c g) 62 62 (if int then 1 else 0)).setFld (abGroup c g) 26 22 q.span).setFld (abGroup c g) 16 0 0).setReg (abNext c g)
    (BitVec.ofNat 64 (q.root <<< 32))).setFld (AB c) (8 + g) (8 + g) 1

theorem Dev.openGroup_courses (d : Dev) (c g : Nat) (q : AccDesc) (int : Bool) : (d.openGroup c g q int).courses = d.courses := by
  unfold Dev.openGroup
  rw [Dev.setFld_courses, Dev.setReg_courses, Dev.setFld_courses, Dev.setFld_courses, Dev.setFld_courses]

theorem World.Leaves.opens {w v : World} {c g : Nat} {a : Accum → Prop} (h : w.Leaves v c g a) (acc : Nat) (q : AccDesc) (int : Bool) :
    w.Leaves (v.onDev (fun d => d.openAccum c g acc q int)) c g (Accum.opened acc) :=
  h.onGroup (F := fun d => d.openGroup c g q int) (f := fun _ => { Accum.init with open_ := true, acc := acc }) (Dev.openGroup_courses ..)
    (fun _ _ => ⟨rfl, rfl⟩)

/-- The registers of a group that keep a stack. -/
def Dev.keepRegs (d : Dev) (c g : Nat) (s : MStack) : Dev := (d.setFld (abGroup c g) 16 0 s.occ).setFld (abNext c g) 16 0 s.next

theorem World.Leaves.keeps {w v : World} {c g : Nat} {a b : Accum → Prop} (h : w.Leaves v c g a) (s : MStack)
    (hb : ∀ x, a x → b { x with next := s.next, levels := s.nodes }) : w.Leaves (v.onDev (fun d => d.keepStack c g s)) c g b :=
  h.onGroup (F := fun d => d.keepRegs c g s) (f := fun a => { a with next := s.next, levels := s.nodes })
    (by unfold Dev.keepRegs; rw [Dev.setFld_courses, Dev.setFld_courses]) hb

/-- The group that a product enters is open on its descriptor. -/
theorem ProductReady.entered {s : State} {k : Work} {j : Job} {p : MaDesc} {g : Nat} {q : AccDesc} (h : ProductReady s k j p g q) :
    s.world.Leaves (s.world.entered j g p q) j.course g (Accum.opened p.abDesc) := by
  unfold World.entered
  split
  · next hopen =>
    have hacc : Accum.opened p.abDesc (s.world.d.accum j.course g) := ⟨hopen, (h.same hopen).1⟩
    exact (World.leaves_self hacc).steady ((World.Steady.refl _).onDev (Dev.setFld_courses ..))
  · exact (World.leaves_self (a := fun _ => True) trivial).opens p.abDesc q p.int8

/-- A leaf that enters its group's stack leaves the accumulation open on its descriptor. -/
theorem World.Leaves.openTile {w v : World} {j : Job} {g acc : Nat} (h : w.Leaves v j.course g (Accum.opened acc)) (p : MaDesc) (q : AccDesc)
    (va vb : List (List El)) : w.Leaves (v.openTile j g p q va vb).w j.course g (Accum.opened acc) := by
  unfold World.openTile
  dsimp only
  have hleaves := h.steady (World.Steady.leaves (MaRun.mk v (v.d.groupStack j.course g q) 0 true) j p va vb 0 (p.leafBase - q.root))
  generalize (MaRun.mk v (v.d.groupStack j.course g q) 0 true).leaves j p va vb 0 (p.leafBase - q.root) = r at hleaves ⊢
  refine iteInduction (motive := fun o : MaRun => w.Leaves o.w j.course g (Accum.opened acc)) (fun _ => hleaves) (fun _ => ?_)
  have hkept := hleaves.keeps (b := Accum.opened acc) r.s (fun _ hx => hx)
  exact hkept.onGroup (F := id) (f := fun a => { a with lastM := p.m, lastN := p.n, lastQuad := p.quad }) rfl (fun _ hx => hx)

theorem World.finish_groups (w : World) (j : Job) (c : Nat) : ((w.finish j).d.course c).groups = (w.d.course c).groups := by
  have h : (w.finish j).d.course c = (w.d.onLine j.course j.idx (fun l => { l with phase := .worked, idle := 0 })).course c :=
    congrArg (fun t => tget Course.init t c) (World.finish_courses w j)
  rw [h]
  unfold Dev.onLine
  refine w.d.onCourse_keeps Course.groups j.course ?_ c
  exact fun _ => rfl

theorem State.workDone_course (s : State) (k : Work) (w : World) (c : Nat) : (s.workDone k w).dev.course c = w.d.course c :=
  congrArg (fun t => tget Course.init t c) (World.deepCorrected_regsOnly w k.corrected).courses

/-- Settles O40: the checks of the start pass, and the tiles, the stack and the counters leave the lines alone. -/
theorem matrixProductsIssue : Obligations.MatrixProductsIssue := by
  unfold Obligations.MatrixProductsIssue
  refine ⟨fun k s j p g q h hcheck hfin => ?_, fun k s j p g q h hcheck hfin => ?_⟩
  · intro va vb r hok w hgo
    obtain ⟨l, hl, -⟩ := h.line.launched
    have hwork : doMaProduct k s.world = w := h.issues.trans (World.product_finishes hfin hcheck hok)
    have htiles := World.Steady.finishTiles s.world j p q va vb
    have hworked : s.world.Worked w j := by
      refine World.Steady.worked (World.Steady.maStatus (World.Steady.maCount ?_ ..) ..) hl
      exact iteInduction (motive := s.world.Steady) (fun _ => htiles) (fun _ => htiles.writeAmax ..)
    exact ⟨runWork_go h.line.1 hwork hgo, hworked.workDone⟩
  · intro va vb o r hok w hgo
    obtain ⟨l, hl, -⟩ := h.line.launched
    have hwork : doMaProduct k s.world = w := h.issues.trans (World.product_enters hfin hcheck hok)
    have hentered := (h.entered.openTile p q va vb).steady
      ((World.Steady.refl _).maCount j p va vb |>.maStatus j p false)
    have haccum : (s.workDone k w).dev.accum j.course g = _ :=
      Dev.accum_congr ((congrArg Course.groups (State.workDone_course s k w j.course)).trans (World.finish_groups ..)) g
    have hopened : Accum.opened p.abDesc ((s.workDone k w).dev.accum j.course g) := by
      rw [haccum]
      exact hentered.accum
    exact ⟨runWork_go h.line.1 hwork hgo, (hentered.worked hl).workDone, hopened⟩

end Sys2Proof.Machine
end

section
/-! SUPPORT and PROOFS. DRAIN, IMPORT, AB_SAVE and AB_RESTORE (R208 to R227). -/

namespace Sys2Proof.Machine

/-! ## A command of the accumulator buffer that may work -/

/-- The work of an AB command whose descriptors are good. -/
def World.abWork (w : World) (j : Job) (op g : Nat) (cmd : AbCmd) (q : AccDesc) (int : Bool) (bad : List Nat) : World :=
  if op = 1 then
    if w.maPending j cmd.acc then w
    else if q.tied then w.drainTied j g q int bad
    else w.drainOpen j g q int bad
  else if cmd.tieU = 0 then w.importStack j g cmd q int bad
  else w.importTie j cmd q int bad

theorem AbReady.works {s : State} {k : Work} {op : Nat} {j : Job} {cmd : AbCmd} {g : Nat} {q : AccDesc} (h : AbReady s k op j cmd g q) :
    s.world.abLine k op = ((s.world.abWork j op g cmd q (s.abInt op j cmd g q) k.bad).keepDesc j
      [(j.ln.desc, 32), (cmd.acc, 128)]).abBusy j (if op = 1 then 5 else 4) := by
  obtain ⟨b, hread, rfl⟩ := h.desc
  obtain ⟨qb, hacc, rfl⟩ := h.acc
  unfold State.reads at hread hacc
  obtain ⟨hdesc, haccDesc⟩ := h.place
  obtain ⟨hqok, hcmdok⟩ := h.kept
  have hoper : ¬ ((abCmd b).op = 2 ∧ op = 1 ∨ (abCmd b).op ≠ 2 ∧ op = 2) := by
    have h1 := h.oper.1
    rintro (⟨h2, hop⟩ | ⟨h2, hop⟩)
    · exact h1.1 hop h2
    · have := h1.2 h2
      omega
  have hsame : ((s.dev.accum j.course g).open_ && (s.dev.accum j.course g).acc != (abCmd b).acc) = false := by
    cases ho : (s.dev.accum j.course g).open_ with
    | false => rfl
    | true => simp [h.same ho]
  have hout : (op == 1 && !(if (accDesc qb).tied then (accDesc qb).outOk j.course (accDesc qb).outM (accDesc qb).outN
      else (accDesc qb).outOk j.course (drainDims (accDesc qb) (s.dev.accum j.course g)).1
        (drainDims (accDesc qb) (s.dev.accum j.course g)).2)) = false := by
    by_cases hop : op = 1
    · rw [h.out hop]
      exact Bool.and_false _
    · rw [beq_false_of_ne hop]
      rfl
  unfold State.abInt at hqok ⊢
  unfold World.abLine
  rw [h.line.2]
  dsimp only
  rw [hread]
  dsimp only
  rw [if_neg Bool.false_ne_true, if_neg hoper, show s.world.d = s.dev from rfl, h.group]
  dsimp only
  refine congrArg (fun w => World.abBusy w j (if op = 1 then 5 else 4)) ?_
  unfold World.abCommand
  dsimp only
  rw [hdesc, haccDesc, if_neg (by decide), hacc]
  dsimp only
  rw [show s.world.d = s.dev from rfl, if_neg Bool.false_ne_true, hsame, if_neg Bool.false_ne_true, hqok, hcmdok, hout, if_neg (by decide)]
  rfl

/-! ## DRAIN -/

/-- The stack that an untied DRAIN folds: its group's, or an empty one. -/
def World.drainStack (w : World) (j : Job) (g : Nat) (q : AccDesc) (int : Bool) : MStack :=
  if (w.d.accum j.course g).open_ then w.d.groupStack j.course g q
  else freshStack int q.span (w.d.abPartition j.course) q.spill

/-- The parts that it writes. -/
def World.drainedParts (w : World) (j : Job) (g : Nat) (q : AccDesc) : List (Nat × Nat × Nat × Nat × Nat × Nat) :=
  drainParts (w.d.accum j.course g).lastQuad (drainDims q (w.d.accum j.course g)).1 (drainDims q (w.d.accum j.course g)).2

/-- What an untied DRAIN has written, and its running amax. -/
def World.drained (w : World) (j : Job) (g : Nat) (q : AccDesc) (int : Bool) : World × Nat :=
  (w.drainedParts j g q).foldl (fun (b : World × Nat) e =>
    b.1.epilogue j q (w.drainStack j g q int).int (w.foldOrZero j (w.drainStack j g q int)).2 e.1 e.2.1 e.2.2.1 e.2.2.2.1 e.2.2.2.2.1 e.2.2.2.2.2
      (drainDims q (w.d.accum j.course g)).2 b.2)
    ((w.foldOrZero j (w.drainStack j g q int)).1, (w.d.accum j.course g).amax)

theorem World.drainOpen_drains {w : World} {j : Job} {g : Nat} {q : AccDesc} {int : Bool} {bad : List Nat}
    (hcheck : w.checkBlocks j bad ((w.drainStack j g q int).spillBlocks ++ (w.drainedParts j g q).flatMap
      (fun e => q.readsOf e.2.2.1 e.2.2.2.1 e.2.2.2.2.1 e.2.2.2.2.2 (drainDims q (w.d.accum j.course g)).2)) = none) :
    w.drainOpen j g q int bad = (((w.drained j g q int).1.writeAmax j q (w.drained j g q int).2).onDev
      (fun d => d.closeAccum j.course g)).finish j := by
  unfold World.drained
  unfold World.drainedParts at hcheck ⊢
  unfold World.drainStack freshStack at hcheck ⊢
  unfold World.drainOpen
  dsimp only
  generalize drainDims q (w.d.accum j.course g) = mn at hcheck ⊢
  obtain ⟨m, n⟩ := mn
  dsimp only at hcheck ⊢
  rw [hcheck]

/-- The tiles of a tied DRAIN: tile, first row, first column, rows and columns. -/
def AccDesc.tiedTiles (q : AccDesc) : List (Nat × Nat × Nat × Nat × Nat) :=
  (List.range q.tieTiles).map (fun t => (t, 128 * (t / ceilDiv q.outN 128), 128 * (t % ceilDiv q.outN 128),
    min 128 (q.outM - 128 * (t / ceilDiv q.outN 128)), min 128 (q.outN - 128 * (t % ceilDiv q.outN 128))))

/-- The blocks that it reads. -/
def World.tiedReads (w : World) (q : AccDesc) : List Nat :=
  q.tie :: q.tiedTiles.flatMap (fun e => (List.range 8).flatMap (fun i =>
      if bitOf (w.tieBits q e.1) i then blocksOf (q.tieSlot e.1 (i + 1)) 65536 else [])) ++
    q.tiedTiles.flatMap (fun e => q.readsOf e.2.1 e.2.2.1 e.2.2.2.1 e.2.2.2.2 q.outN)

/-- What a tied DRAIN has written, and its running amax. -/
def World.drainedTiles (w : World) (j : Job) (q : AccDesc) (int : Bool) : World × Nat :=
  q.tiedTiles.foldl (fun (b : World × Nat) e =>
    (b.1.tieFold j q int e.1).1.epilogue j q int (b.1.tieFold j q int e.1).2 0 128 e.2.1 e.2.2.1 e.2.2.2.1 e.2.2.2.2 q.outN b.2) (w, 0)

theorem World.drainTied_drains {w : World} {j : Job} {g : Nat} {q : AccDesc} {int : Bool} {bad : List Nat}
    (hcheck : w.checkBlocks j bad (w.tiedReads q) = none) :
    w.drainTied j g q int bad = ((((w.drainedTiles j q int).1.writeAmax j q (w.drainedTiles j q int).2).putBlk q.tie (List.replicate 512 0) 0).onDev
      (fun d => (d.closeAccum j.course g).onCourse j.course (fun x => { x with ties := tdel x.ties q.tie }))).finish j := by
  unfold World.tiedReads AccDesc.tiedTiles at hcheck
  unfold World.drainedTiles AccDesc.tiedTiles
  unfold World.drainTied
  dsimp only
  rw [hcheck]

namespace World.Steady

variable {w v : World}

theorem tieNode (j : Job) (q : AccDesc) (int : Bool) (t bits : Nat) (w : World) (u : Nat) :
    w.Steady (if bitOf bits (u - 1) then
      ((w.abPoison j (w.readNode int (q.tieSlot t u)).2 t, some (w.readNode int (q.tieSlot t u)).1) : World × Option Node)
      else (w, none)).1 :=
  iteInduction (motive := fun r : World × Option Node => w.Steady r.1) (fun _ => (refl w).abPoison _ _ _) (fun _ => refl w)

/-- One level of the tree of a tied fold. -/
theorem pairUp (j : Job) (int : Bool) (s : World × List (Option Node)) :
    s.1.Steady ((List.range (s.2.length / 2)).foldl (fun (a : World × List (Option Node)) i =>
      (if (s.2.getD (2 * i) none).isSome && (s.2.getD (2 * i + 1) none).isSome then a.1.count (AB j.course + 0x50) 63 0 1 else a.1,
        a.2 ++ [mergeNode int (s.2.getD (2 * i) none) (s.2.getD (2 * i + 1) none)])) (s.1, [])).1 :=
  (refl s.1).fold Prod.fst _ _ rfl (fun a _ _ => iteInduction (motive := a.1.Steady) (fun _ => (refl _).count _ _ _ _) (fun _ => refl _))

theorem tieFold (h : w.Steady v) (j : Job) (q : AccDesc) (int : Bool) (t : Nat) : w.Steady (v.tieFold j q int t).1 := by
  unfold World.tieFold
  dsimp only
  have hnodes := h.fold (β := Nat) (Prod.fst (β := List (Option Node)))
    (f := fun a i =>
      ((if bitOf (v.tieBits q t) (i + 1 - 1) then (a.1.abPoison j (a.1.readNode int (q.tieSlot t (i + 1))).2 t,
          some (a.1.readNode int (q.tieSlot t (i + 1))).1) else (a.1, none)).1,
        a.2 ++ [(if bitOf (v.tieBits q t) (i + 1 - 1) then (a.1.abPoison j (a.1.readNode int (q.tieSlot t (i + 1))).2 t,
          some (a.1.readNode int (q.tieSlot t (i + 1))).1) else (a.1, none)).2]))
    (v, []) (List.range 8) rfl (fun a i _ => tieNode ..)
  have hpairs := ((hnodes.trans (pairUp j int _)).trans (pairUp j int _)).trans (pairUp j int _)
  split
  · exact hpairs
  · exact hpairs.count _ _ _ _

theorem drained (w : World) (j : Job) (g : Nat) (q : AccDesc) (int : Bool) : w.Steady (w.drained j g q int).1 :=
  ((refl w).foldOrZero j _).fold (β := Nat × Nat × Nat × Nat × Nat × Nat) Prod.fst _ _ rfl (fun a _ _ => (refl a.1).epilogue ..)

theorem drainedTiles (w : World) (j : Job) (q : AccDesc) (int : Bool) : w.Steady (w.drainedTiles j q int).1 :=
  (refl w).fold (β := Nat × Nat × Nat × Nat × Nat) Prod.fst _ _ rfl (fun a _ _ => ((refl a.1).tieFold ..).epilogue ..)

end World.Steady

/-! ## The end of an AB command -/

/-- The registers of a group, closed. -/
def Dev.clearGroup (d : Dev) (c g : Nat) : Dev :=
  (((((d.setFld (AB c + 0x10 + 8 * g) 62 62 0).setFld (AB c + 0x10 + 8 * g) 26 22 0).setFld (AB c + 0x10 + 8 * g) 16 0 0).setReg
    (AB c + 0x30 + 8 * g) 0).setFld (AB c) (8 + g) (8 + g) 0).setFld (AB c) (12 + g) (12 + g) 0

theorem Dev.clearGroup_course (d : Dev) (c g e : Nat) : (d.clearGroup c g).course e = d.course e := by
  unfold Dev.clearGroup Dev.course
  rw [Dev.setFld_courses, Dev.setFld_courses, Dev.setReg_courses, Dev.setFld_courses, Dev.setFld_courses, Dev.setFld_courses]

theorem Dev.closeAccum_eq (d : Dev) (c g : Nat) :
    d.closeAccum c g = (d.clearGroup c g).onCourse c (fun x => { x with groups := tdel x.groups g }) := rfl

theorem Dev.closeAccum_lines (d : Dev) (c g e : Nat) : ((d.closeAccum c g).course e).lines = (d.course e).lines := by
  rw [Dev.closeAccum_eq, ← d.clearGroup_course c g e]
  refine Dev.onCourse_keeps Course.lines _ c ?_ e
  exact fun _ => rfl

theorem Dev.closeAccum_accum (d : Dev) (c g : Nat) : (d.closeAccum c g).accum c g = .init := by
  rw [Dev.closeAccum_eq, Dev.accum, Dev.onCourse_course_self]
  dsimp only
  rw [tget, tfind_tdel_self]
  rfl

theorem World.onDev_tracks {w : World} {m : Memory} (h : w.tracks m) (f : Dev → Dev) : (w.onDev f).tracks m := h

/-- A group closed: its accumulation is as after reset. -/
theorem World.Steady.closes {w v : World} (h : w.Steady v) (c g : Nat) :
    w.Leaves (v.onDev (fun d => d.closeAccum c g)) c g (fun a => a = .init) :=
  ⟨fun m hm => World.onDev_tracks (h.tracks m hm) _, fun e => (Dev.closeAccum_lines ..).trans (h.lines e), Dev.closeAccum_accum ..⟩

/-- An AB command as its line ends: descriptors kept and its status bit set. -/
def World.abEnded (w : World) (j : Job) (cmd : AbCmd) (bit : Nat) : World :=
  ((w.finish j).keepDesc j [(j.ln.desc, 32), (cmd.acc, 128)]).abBusy j bit

theorem World.abBusy_courses (w : World) (j : Job) (bit : Nat) : (w.abBusy j bit).d.courses = w.d.courses := Dev.setFld_courses ..
theorem World.abBusy_mem (w : World) (j : Job) (bit : Nat) : (w.abBusy j bit).mem = w.mem := World.setBit_mem ..
theorem World.abBusy_wr (w : World) (j : Job) (bit : Nat) : (w.abBusy j bit).wr = w.wr := World.setBit_wr ..

theorem World.keepDesc_groups (w : World) (j : Job) (runs : List (Nat × Nat)) (c : Nat) :
    ((w.keepDesc j runs).d.course c).groups = (w.d.course c).groups := by
  unfold World.keepDesc Dev.onLine
  refine w.d.onCourse_keeps Course.groups j.course ?_ c
  exact fun _ => rfl

theorem AB_ne_corrected (c t : Nat) : AB c ≠ MEMR t + 0x40 := by
  unfold AB ccBase MEMR twBase
  omega

/-- What an AB command that ends leaves: its line worked, its status bit, its group, the stores as it sees them. -/
theorem World.Leaves.ended {s : State} {k : Work} {v : World} {j : Job} {g bit : Nat} {a : Accum → Prop} {l : LineSt}
    (h : s.world.Leaves v j.course g a) (hl : lineAt (s.dev.course j.course) j.idx = some l) (cmd : AbCmd) (hbit : bit < 64) :
    lineWorked s (s.workDone k (v.abEnded j cmd bit)) j ∧ a ((s.workDone k (v.abEnded j cmd bit)).dev.accum j.course g) ∧
    (s.workDone k (v.abEnded j cmd bit)).dev.fld (AB j.course) bit bit = 1 ∧ (s.workDone k (v.abEnded j cmd bit)).mem = v.mem := by
  refine ⟨(((h.worked hl).keepDesc _).of_courses (World.abBusy_courses ..)).workDone, ?_, ?_, ?_⟩
  · have hgroups : ((s.workDone k (v.abEnded j cmd bit)).dev.course j.course).groups = (v.d.course j.course).groups :=
      (congrArg Course.groups (State.workDone_course ..)).trans
        ((congrArg (fun t => (tget Course.init t j.course).groups) (World.abBusy_courses ..)).trans ((World.keepDesc_groups ..).trans (World.finish_groups ..)))
    rw [Dev.accum_congr hgroups]
    exact h.accum
  · rw [Dev.fld_congr (State.workDone_rget s k _ (AB_ne_corrected _))]
    exact Dev.setBit_fld_self _ _ hbit
  · have hmem : (v.abEnded j cmd bit).mem = v.mem := (World.abBusy_mem ..).trans ((World.keepDesc_mem ..).trans (World.finish_mem ..))
    have hwr : (v.abEnded j cmd bit).wr = v.wr := (World.abBusy_wr ..).trans ((World.keepDesc_wr ..).trans (World.finish_wr ..))
    have htracks := h.tracks _ s.world_tracks
    unfold World.tracks at htracks
    rw [← hmem]
    refine State.workDone_stores ?_
    unfold World.tracks
    rw [hmem, hwr, htracks]

/-! ## IMPORT -/

theorem mergeUp_next (j : Job) (fuel : Nat) : ∀ (w : World) (s : MStack) (x : Node) (l : Nat),
    (mergeUp j fuel (w, s, x) l).2.1.next = s.next := by
  induction fuel with
  | zero => exact fun _ _ _ _ => rfl
  | succ n ih =>
    intro w s x l
    unfold mergeUp
    exact iteInduction (motive := fun r : World × MStack × Node × Nat => r.2.1.next = s.next) (fun _ => ih ..) (fun _ => rfl)

/-- A node that comes next is inserted. -/
theorem World.insertNode_next {w : World} {j : Job} {s : MStack} {x : Node} {off lvl : Nat} (hnext : off = s.next) (hal : off % 2 ^ lvl = 0)
    (hspan : off + 2 ^ lvl ≤ 2 ^ s.span) : ∃ i, w.insertNode j s x off lvl = some i ∧ i.2.next = off + 2 ^ lvl := by
  unfold World.insertNode
  rw [if_neg (by omega)]
  have hmerged := mergeUp_next j 17 w { s with next := off + 2 ^ lvl } x lvl
  generalize mergeUp j 17 (w, { s with next := off + 2 ^ lvl }, x) lvl = r at hmerged ⊢
  obtain ⟨v, s1, y, l⟩ := r
  dsimp only at hmerged ⊢
  split
  · exact ⟨_, rfl, hmerged⟩
  · split
    · exact ⟨_, rfl, hmerged⟩
    · exact ⟨_, rfl, hmerged⟩

/-- The accumulation that an IMPORT enters: its group's, opened if it was not. -/
def World.importing (w : World) (j : Job) (g : Nat) (cmd : AbCmd) (q : AccDesc) (int : Bool) : World :=
  if (w.d.accum j.course g).open_ then w else w.onDev (fun d => d.openAccum j.course g cmd.acc q int)

theorem World.importStack_inserts {w : World} {j : Job} {g : Nat} {cmd : AbCmd} {q : AccDesc} {int : Bool} {bad : List Nat} {i : World × MStack}
    (hfirst : (w.d.accum j.course g).open_ = true ∨ cmd.offset = 0)
    (hcheck : w.checkBlocks j bad (blocksOf cmd.src 65536 ++ ((w.importing j g cmd q int).d.groupStack j.course g q).spillBlocks) = none)
    (hi : ((w.importing j g cmd q int).abPoison j ((w.importing j g cmd q int).readNode int cmd.src).2 cmd.offset).insertNode j
      ((w.importing j g cmd q int).d.groupStack j.course g q) ((w.importing j g cmd q int).readNode int cmd.src).1 cmd.offset cmd.level = some i) :
    w.importStack j g cmd q int bad = (i.1.onDev (fun d => d.keepStack j.course g i.2)).finish j := by
  unfold World.importing at hcheck hi
  unfold World.importStack
  dsimp only
  have hopens : ¬ ((!(w.d.accum j.course g).open_) = true ∧ cmd.offset ≠ 0) := by
    rintro ⟨hopen, hoff⟩
    rcases hfirst with h | h
    · rw [h] at hopen
      cases hopen
    · exact hoff h
  rw [if_neg hopens, hcheck]
  dsimp only
  rw [hi]

theorem World.importTie_writes {w v : World} {j : Job} {cmd : AbCmd} {q : AccDesc} {int : Bool} {bad : List Nat}
    (hcheck : w.checkBlocks j bad (q.tie :: blocksOf cmd.src 65536) = none)
    (hv : (w.abPoison j (w.readNode int cmd.src).2 cmd.offset).writeTie j q int cmd.offset cmd.tieU (w.readNode int cmd.src).1 = some v) :
    w.importTie j cmd q int bad = v.finish j := by
  unfold World.importTie
  rw [hcheck]
  dsimp only
  rw [hv]

/-- A tie slot that is free is written. -/
theorem World.writeTie_free {w : World} {j : Job} {q : AccDesc} {int : Bool} {t u : Nat} {x : Node}
    (h : bitOf (w.tieBits q t) (u - 1) = false) : ∃ v, w.writeTie j q int t u x = some v := by
  unfold World.writeTie
  dsimp only
  rw [h, if_neg Bool.false_ne_true]
  exact ⟨_, rfl⟩

theorem World.abPoison_mem (w : World) (j : Job) (n off : Nat) : (w.abPoison j n off).mem = w.mem := by
  unfold World.abPoison World.consumed
  split
  · rfl
  · dsimp only
    rw [World.log_mem, World.count_mem, World.raise_mem, World.raise_mem, World.setReg_mem, World.setBit_mem]

/-- The group that an IMPORT enters is open on its descriptor. -/
theorem AbReady.imports {s : State} {k : Work} {op : Nat} {j : Job} {cmd : AbCmd} {g : Nat} {q : AccDesc} (h : AbReady s k op j cmd g q)
    (int : Bool) : s.world.Leaves (s.world.importing j g cmd q int) j.course g (Accum.opened cmd.acc) := by
  unfold World.importing
  split
  · next hopen => exact World.leaves_self ⟨hopen, h.same hopen⟩
  · exact World.leaves_self (a := fun _ => True) trivial |>.opens cmd.acc q int

end Sys2Proof.Machine
end

section
/-! SUPPORT and PROOFS. AB_SAVE and AB_RESTORE, and the lines of the accumulator buffer together (R208 to R227). -/

namespace Sys2Proof.Machine

/-! ## Blocks of a run -/

theorem blocksOf_one {a : Nat} (ha : a % 512 = 0) : blocksOf a 512 = [a] := by
  have hlow : blockOf a = a := by unfold blockOf; omega
  have hhigh : blockOf (a + 512 - 1) = a := by unfold blockOf; omega
  unfold blocksOf
  rw [if_neg (by decide), hlow, hhigh, Nat.sub_self]
  rfl

theorem mem_blocksOf {a n b : Nat} (ha : a % 512 = 0) (hb : b % 512 = 0) (hlo : a ≤ b) (hhi : b < a + n) : b ∈ blocksOf a n := by
  have hlow : blockOf a = a := by unfold blockOf; omega
  have hhigh : b ≤ blockOf (a + n - 1) := by unfold blockOf; omega
  unfold blocksOf
  rw [if_neg (by omega), hlow, List.mem_map]
  exact ⟨(b - a) / 512, List.mem_range.2 (by omega), by omega⟩

/-! ## Writes within a run -/

/-- Work that writes whole blocks of a run of the stores and nothing else. -/
structure World.WritesIn (lo hi : Nat) (w v : World) : Prop where
  dev : v.d = w.d
  tracks : ∀ m, w.tracks m → v.tracks m
  wf : w.mem.wf = true → v.mem.wf = true
  data : ∀ a bs, Wr.data a bs ∈ v.wr → Wr.data a bs ∈ w.wr ∨ bs.length = 512 ∧ a % 512 = 0 ∧ lo ≤ a ∧ a < hi
  frame : ∀ x, x < lo ∨ hi ≤ x → readByte v.mem x = readByte w.mem x

namespace World.WritesIn

variable {lo hi : Nat} {w v u : World}

theorem refl (lo hi : Nat) (w : World) : World.WritesIn lo hi w w := ⟨rfl, fun _ h => h, fun h => h, fun _ _ h => .inl h, fun _ _ => rfl⟩

theorem trans (h : World.WritesIn lo hi w v) (k : World.WritesIn lo hi v u) : World.WritesIn lo hi w u where
  dev := k.dev.trans h.dev
  tracks m hm := k.tracks m (h.tracks m hm)
  wf hw := k.wf (h.wf hw)
  data a bs hd := (k.data a bs hd).elim (h.data a bs) .inr
  frame x hx := (k.frame x hx).trans (h.frame x hx)

theorem putBlk (w : World) {a : Nat} (data : List Byte) (syn : W32) (hal : a % 512 = 0) (hlo : lo ≤ a) (hhi : a + 512 ≤ hi) :
    World.WritesIn lo hi w (w.putBlk a data syn) where
  dev := World.putBlk_d ..
  tracks _ hm := World.putBlk_tracks hm ..
  wf hw := putBlk_wf hw ..
  data b bs hd := by
    rw [World.putBlk, World.put_wr, World.put_wr, List.mem_cons, List.mem_cons] at hd
    obtain hs | hs | hs := hd
    · cases hs
    · cases hs
      exact .inr ⟨padTo_length .., hal, hlo, by omega⟩
    · exact .inl hs
  frame x hx := by rw [readByte_putBlk, if_neg (by omega)]

theorem fold {β : Type} {f : World → β → World} (xs : List β) (hf : ∀ v, ∀ x ∈ xs, World.WritesIn lo hi v (f v x)) (w : World) :
    World.WritesIn lo hi w (xs.foldl f w) :=
  foldl_keeps (World.WritesIn lo hi w) f xs (fun v x hx hv => hv.trans (hf v x hx)) w (refl lo hi w)

theorem mono {lo' hi' : Nat} (h : World.WritesIn lo hi w v) (hlo : lo' ≤ lo) (hhi : hi ≤ hi') : World.WritesIn lo' hi' w v where
  dev := h.dev
  tracks := h.tracks
  wf := h.wf
  data a bs hd := (h.data a bs hd).imp_right (fun ⟨hl, hal, h1, h2⟩ => ⟨hl, hal, by omega, by omega⟩)
  frame x hx := h.frame x (by omega)

/-- Such work goes on where no block of its run has to wait. -/
theorem writesGo {s : State} {k : Work} {n : Nat} (h : World.WritesIn lo (lo + n) s.world v) (hu : u.wr = v.wr) (hal : lo % 512 = 0)
    (hgo : s.blocksGo k lo n) : s.writesGo k u := writesGo_of_data (fun a bs hd => by
  obtain hw | ⟨hlen, ha, hlo, hhi⟩ := h.data a bs (hu ▸ hd)
  · cases hw
  · intro b hb
    rw [hlen, blocksOf_one ha, List.mem_singleton] at hb
    subst hb
    exact hgo _ (mem_blocksOf hal ha hlo hhi))

end World.WritesIn

/-! ## A node in a store -/

/-- The bytes that a node makes of a slot area. -/
def nodeBytes (old : List Nat) (x : Node) : List Byte := (x.cells.zip old).flatMap (fun e => leBytes 4 ((e.1.map (·.toNat)).getD e.2))

/-- The cells that lie in a slot area. -/
def World.slotOld (w : World) (a : Nat) : List Nat := codesOf 32 slotCells (readBytes w.mem a 65536)

theorem World.writeNode_eq (w : World) (a : Nat) (x : Node) : w.writeNode a x =
    (List.range 128).foldl (fun v i => v.putBlk (a + 512 * i) (slice (nodeBytes (w.slotOld a) x) (512 * i) 512) 0) w := by
  simp only [World.writeNode, World.slotOld, nodeBytes]

theorem World.writeNode_in (w : World) {a : Nat} (x : Node) (hal : a % 512 = 0) : World.WritesIn a (a + 65536) w (w.writeNode a x) := by
  rw [World.writeNode_eq]
  refine World.WritesIn.fold _ (fun v i hi => World.WritesIn.putBlk v _ _ (by omega) (by omega) ?_) w
  have := List.mem_range.1 hi
  omega

theorem slice_getD (bs : List Byte) (a n i : Nat) (hi : i < n) : ((slice bs a n)[i]?).getD 0 = (bs[a + i]?).getD 0 := by
  unfold slice
  dsimp only
  by_cases h : i < ((bs.drop a).take n).length
  · rw [List.getElem?_append_left h, List.getElem?_take_of_lt hi, List.getElem?_drop]
  · have hlen : bs.length ≤ a + i := by
      rw [List.length_take, List.length_drop] at h
      omega
    rw [List.getElem?_append_right (by omega), List.getElem?_eq_none hlen, List.getElem?_replicate]
    split <;> rfl

/-- The bytes of blocks written one after another from an address on. -/
theorem readByte_putRun (w : World) (a n : Nat) (bs : List Byte) {k : Nat} (hk : k < 512 * n) :
    readByte ((List.range n).foldl (fun w i => w.putBlk (a + 512 * i) (slice bs (512 * i) 512) 0) w).mem (a + k) = (bs[k]?).getD 0 := by
  induction n with
  | zero => omega
  | succ n ih =>
    rw [List.range_succ, List.foldl_append, List.foldl_cons, List.foldl_nil, readByte_putBlk]
    split
    · next h =>
      rw [padTo_self (slice_length ..), slice_getD _ _ _ _ (by omega)]
      congr 2
      omega
    · exact ih (by omega)

theorem World.writeNode_readByte (w : World) (a : Nat) (x : Node) {k : Nat} (hk : k < 65536) :
    readByte (w.writeNode a x).mem (a + k) = ((nodeBytes (w.slotOld a) x)[k]?).getD 0 := by
  rw [World.writeNode_eq]
  exact readByte_putRun w a 128 (nodeBytes (w.slotOld a) x) (by omega)

theorem byteCodes_length (k n : Nat) (bs : List Byte) : (byteCodes k n bs).length = n := by
  induction n generalizing bs with
  | zero => rfl
  | succ n ih => exact congrArg (· + 1) (ih _)

theorem World.slotOld_length (w : World) (a : Nat) : (w.slotOld a).length = slotCells := byteCodes_length ..

/-- Pieces of one length laid one after another. -/
theorem flatMap_getElem? {α β : Type} {f : α → List β} {n : Nat} (hf : ∀ x, (f x).length = n) (l : List α) {i t : Nat} (ht : t < n) :
    (l.flatMap f)[n * i + t]? = (l[i]?).bind (fun x => (f x)[t]?) := by
  induction l generalizing i with
  | nil => rfl
  | cons x l ih =>
    rw [List.flatMap_cons]
    cases i with
    | zero =>
      rw [Nat.mul_zero, Nat.zero_add, List.getElem?_append_left (by rw [hf]; exact ht)]
      rfl
    | succ i =>
      rw [List.getElem?_append_right (by rw [hf, Nat.mul_succ]; omega), hf, Nat.mul_succ,
        show n * i + n + t - n = n * i + t by omega, ih]
      rfl

/-- A cell of a node stands in its slot. -/
theorem World.writeNode_cell (w : World) (a : Nat) {x : Node} {i : Nat} {v : W32} (hi : i < slotCells) (hv : x.cells[i]? = some (some v))
    {t : Nat} (ht : t < 4) : readByte (w.writeNode a x).mem (a + (4 * i + t)) = ((leBytes 4 v.toNat)[t]?).getD 0 := by
  have hcells : slotCells = 16384 := rfl
  have ho : (w.slotOld a)[i]? = some ((w.slotOld a)[i]'(by rw [World.slotOld_length]; exact hi)) := List.getElem?_eq_getElem _
  have hzip : (x.cells.zip (w.slotOld a))[i]? = some (some v, _) := List.getElem?_zip_eq_some.2 ⟨hv, ho⟩
  rw [World.writeNode_readByte _ _ _ (by omega), nodeBytes, flatMap_getElem? (fun _ => leBytes_length ..) _ ht, hzip]
  rfl

/-- What holds after one step of a run of steps and is kept by the later ones. -/
theorem foldl_range_last {α : Type} (P : α → Prop) (f : α → Nat → α) {m k : Nat} (hk : k < m) (hset : ∀ a, P (f a k))
    (hkeep : ∀ n a, k < n → P a → P (f a n)) (a : α) : P ((List.range m).foldl f a) := by
  induction m with
  | zero => omega
  | succ m ih =>
    rw [List.range_succ, List.foldl_append, List.foldl_cons, List.foldl_nil]
    rcases Nat.lt_succ_iff_lt_or_eq.mp hk with h | rfl
    · exact hkeep _ _ h (ih h)
    · exact hset _

/-! ## AB_SAVE -/

/-- The length of a group's record (R226). -/
def Dev.recordLen (d : Dev) (c : Nat) : Nat := 512 + 65536 * groupSlots (d.abPartition c)

/-- The slots of a group's record, one after another. -/
def World.savedSlots (w v : World) (j : Job) (g : Nat) : World :=
  (List.range (groupSlots (w.d.abPartition j.course))).foldl (fun v n =>
    v.writeNode (j.ln.desc + 512 + 65536 * n) (w.d.savedSlot j.course (w.d.accum j.course g).levels n)) v

/-- The record of a group in the stores. -/
def World.saved (w : World) (j : Job) (g : Nat) : World := w.savedSlots (w.putBlk j.ln.desc (w.saveControl j g) 0) j g

theorem doAbSave_saves {k : Work} {w : World} {j : Job} {g : Nat} (hready : w.ready k.course.val k.line unitSave = some j)
    (hgroup : w.d.groupOf j.course j.ctx = some g) (hissue : w.maIssuing j = false) (hal : j.ln.desc % 512 = 0)
    (hregion : maRegion j.course j.ln.desc (w.d.recordLen j.course) = true) :
    doAbSave k w = (((w.saved j g).onDev (fun d => d.closeAccum j.course g)).abBusy j 7).finish j := by
  unfold Dev.recordLen at hregion
  unfold doAbSave
  rw [hready]
  dsimp only
  rw [hgroup]
  dsimp only
  rw [hissue, if_neg Bool.false_ne_true, hregion, if_neg (by rw [hal]; decide)]
  rfl

theorem World.savedSlots_in (w v : World) (j : Job) (g : Nat) (hal : j.ln.desc % 512 = 0) :
    World.WritesIn (j.ln.desc + 512) (j.ln.desc + w.d.recordLen j.course) v (w.savedSlots v j g) := by
  unfold World.savedSlots Dev.recordLen
  generalize groupSlots (w.d.abPartition j.course) = m
  refine World.WritesIn.fold _ (fun u n hn => ?_) v
  have := List.mem_range.1 hn
  exact (World.writeNode_in u _ (by omega)).mono (by omega) (by omega)

theorem World.saved_in (w : World) (j : Job) (g : Nat) (hal : j.ln.desc % 512 = 0) :
    World.WritesIn j.ln.desc (j.ln.desc + w.d.recordLen j.course) w (w.saved j g) :=
  (World.WritesIn.putBlk w _ _ hal (Nat.le_refl _) (by unfold Dev.recordLen; omega)).trans
    ((w.savedSlots_in _ j g hal).mono (by omega) (Nat.le_refl _))

/-- The control block stands at the start of the record. -/
theorem World.saved_control {w : World} (hw : w.mem.wf = true) (j : Job) (g : Nat) (hal : j.ln.desc % 512 = 0) :
    readBytes (w.saved j g).mem j.ln.desc 512 = padTo 512 (w.saveControl j g) := by
  have hput : (w.putBlk j.ln.desc (w.saveControl j g) 0).mem.wf = true := putBlk_wf hw ..
  have hslots := w.savedSlots_in (w.putBlk j.ln.desc (w.saveControl j g) 0) j g hal
  unfold World.saved
  rw [readBytes_congr hput (hslots.wf hput) (fun k _ hk => hslots.frame k (.inl (by omega))), readBytes_putBlk_self hw]

/-- A cell of a slot stands in the record. -/
theorem World.saved_cell {w : World} (hw : w.mem.wf = true) (j : Job) (g : Nat) (hal : j.ln.desc % 512 = 0) {n i : Nat} {v : W32}
    (hn : n < groupSlots (w.d.abPartition j.course)) (hi : i < slotCells)
    (hv : (w.d.savedSlot j.course (w.d.accum j.course g).levels n).cells[i]? = some (some v)) :
    readBytes (w.saved j g).mem (j.ln.desc + 512 + 65536 * n + 4 * i) 4 = leBytes 4 v.toNat := by
  have hcells : slotCells = 16384 := rfl
  have hbytes := foldl_range_last (P := fun u : World => ∀ t, t < 4 →
      readByte u.mem (j.ln.desc + 512 + 65536 * n + (4 * i + t)) = ((leBytes 4 v.toNat)[t]?).getD 0)
    (fun u n => u.writeNode (j.ln.desc + 512 + 65536 * n) (w.d.savedSlot j.course (w.d.accum j.course g).levels n)) hn
    (fun u t ht => u.writeNode_cell _ hi hv ht)
    (fun m u hm hu t ht => ((World.writeNode_in u _ (by omega)).frame _ (.inl (by omega))).trans (hu t ht))
    (w.putBlk j.ln.desc (w.saveControl j g) 0)
  have := readBytes_of_bytes (m := (w.saved j g).mem) ((w.saved_in j g hal).wf hw) (a := j.ln.desc + 512 + 65536 * n + 4 * i)
    (bs := leBytes 4 v.toNat) (fun t ht => by
      rw [leBytes_length] at ht
      rw [Nat.add_assoc]
      exact hbytes t ht)
  rwa [leBytes_length] at this

theorem World.WritesIn.steady {lo hi : Nat} {w v : World} (h : World.WritesIn lo hi w v) : w.Steady v :=
  ⟨h.tracks, fun c => by rw [h.dev], fun c => by rw [h.dev]⟩

theorem World.Leaves.abBusy {w v : World} {c g : Nat} {a : Accum → Prop} (h : w.Leaves v c g a) (j : Job) (bit : Nat) :
    w.Leaves (v.abBusy j bit) c g a := h.steady ((World.Steady.refl _).setBit _ _)

theorem World.Leaves.stores {s : State} {k : Work} {v u : World} {c g : Nat} {a : Accum → Prop} (h : s.world.Leaves v c g a)
    (hmem : u.mem = v.mem) (hwr : u.wr = v.wr) : (s.workDone k u).mem = v.mem := by
  have htracks := h.tracks _ s.world_tracks
  unfold World.tracks at htracks
  rw [← hmem]
  refine State.workDone_stores ?_
  unfold World.tracks
  rw [hmem, hwr, htracks]

/-- What a save or a restore leaves as its line ends. -/
theorem World.Leaves.finished {s : State} {k : Work} {v : World} {j : Job} {g bit : Nat} {a : Accum → Prop} {l : LineSt}
    (h : s.world.Leaves v j.course g a) (hl : lineAt (s.dev.course j.course) j.idx = some l) (hbit : bit < 64) :
    lineWorked s (s.workDone k ((v.abBusy j bit).finish j)) j ∧ a ((s.workDone k ((v.abBusy j bit).finish j)).dev.accum j.course g) ∧
    (s.workDone k ((v.abBusy j bit).finish j)).dev.fld (AB j.course) bit bit = 1 ∧
    (s.workDone k ((v.abBusy j bit).finish j)).mem = v.mem := by
  have hbusy := h.abBusy j bit
  refine ⟨(hbusy.worked hl).workDone, ?_, ?_, ?_⟩
  · rw [Dev.accum_congr ((congrArg Course.groups (State.workDone_course ..)).trans (World.finish_groups ..))]
    exact hbusy.accum
  · rw [Dev.fld_congr (State.workDone_rget s k _ (AB_ne_corrected _)), Dev.fld_congr (e := (v.abBusy j bit).d) (by rw [World.finish_regs])]
    exact Dev.setBit_fld_self _ _ hbit
  · exact (h.stores ((World.finish_mem ..).trans (World.abBusy_mem ..)) ((World.finish_wr ..).trans (World.abBusy_wr ..)))

/-- AB_SAVE writes its group's record and closes the group. -/
theorem abSave_saves {k : Work} {s : State} {j : Job} {g : Nat} (hline : s.lineReady k.course k.line unitSave j)
    (hgroup : s.dev.groupOf j.course j.ctx = some g) (hissue : s.world.maIssuing j = false) (hal : j.ln.desc % 512 = 0)
    (hregion : maRegion j.course j.ln.desc (s.dev.recordLen j.course) = true) (hgo : s.blocksGo k j.ln.desc (s.dev.recordLen j.course)) :
    ∃ t, exec (.abSave k) s = .next t ∧ lineWorked s t j ∧ t.mem = (s.world.saved j g).mem ∧ t.dev.accum j.course g = .init ∧
      t.dev.fld (AB j.course) 7 7 = 1 := by
  obtain ⟨l, hl, -⟩ := hline.launched
  have hin := s.world.saved_in j g hal
  have hclosed := hin.steady.closes j.course g
  obtain ⟨hworked, haccum, hbit, hmem⟩ := hclosed.finished (k := k) (bit := 7) hl (by decide)
  refine ⟨_, runWork_go hline.1 (doAbSave_saves hline.2 hgroup hissue hal hregion) ?_, hworked, hmem.trans (World.onDev_mem ..), haccum, hbit⟩
  have hwr : ((((s.world.saved j g).onDev (fun d => d.closeAccum j.course g)).abBusy j 7).finish j).wr = (s.world.saved j g).wr :=
    (World.finish_wr ..).trans ((World.abBusy_wr ..).trans (World.onDev_wr ..))
  exact hin.writesGo hwr hal hgo

/-! ## AB_RESTORE -/

/-- The levels that a record holds. -/
def recordLevels (p occ : Nat) : List Nat := (List.range (bufLevels p)).filter (bitOf occ) ++ (if bitOf occ 16 then [16] else [])

/-- Where a record at an address holds a level. -/
def recordPos (a l : Nat) : Nat := a + 512 + 65536 * (if l = 16 then 0 else 2 + l)

/-- The nodes of a record brought back, one level after another. -/
def World.restoreLevels (w : World) (j : Job) (int : Bool) (lv : List Nat) (t : Tab Node) : World × Tab Node :=
  lv.foldl (fun (s : World × Tab Node) l =>
    (s.1.abPoison j (s.1.readNode int (recordPos j.ln.desc l)).2 0, tput s.2 l (s.1.readNode int (recordPos j.ln.desc l)).1)) (w, t)

/-- The registers of a group as a record has them. -/
def Dev.restoreRegs (d : Dev) (c g occ : Nat) (b : List Byte) : Dev :=
  (((((d.setFld (abGroup c g) 62 62 (if bitOf (numAt b 10 1) 2 then 1 else 0)).setFld (abGroup c g) 26 22 (numAt b 11 1)).setFld
    (abGroup c g) 16 0 occ).setReg (abNext c g) (BitVec.ofNat 64 ((numAt b 20 4 <<< 32) + numAt b 16 4 % 2 ^ 17))).setFld
    (AB c) (8 + g) (8 + g) (if bitOf (numAt b 10 1) 0 then 1 else 0)).setFld (AB c) (12 + g) (12 + g) (if bitOf (numAt b 10 1) 1 then 1 else 0)

/-- The accumulation of a record. -/
def recordAccum (b : List Byte) (levels : Tab Node) : Accum :=
  { open_ := bitOf (numAt b 10 1) 0, held := bitOf (numAt b 10 1) 1, acc := numAt b 24 8, next := numAt b 16 4, levels := levels,
    lastM := 0, lastN := 0, lastQuad := false, amax := numAt b 36 4 }

/-- The nodes of a record brought back, and the world that has read them. -/
def World.recordNodes (w : World) (j : Job) (b : List Byte) : World × Tab Node :=
  w.restoreLevels j (bitOf (numAt b 10 1) 2) (recordLevels (w.d.abPartition j.course) (numAt b 12 4 % 2 ^ 17)) []

/-- The registers and the accumulation of a group brought back from a record. -/
def World.restored (w : World) (j : Job) (g : Nat) (b : List Byte) : World :=
  (w.recordNodes j b).1.onDev (fun d =>
    (d.restoreRegs j.course g (numAt b 12 4 % 2 ^ 17) b).onGroup j.course g (fun _ => recordAccum b (w.recordNodes j b).2))

/-- A record that is its group's. -/
structure RecordOf (d : Dev) (j : Job) (b : List Byte) : Prop where
  magic : numAt b 0 4 = 0x56534241
  version : numAt b 4 1 = 1
  partition : numAt b 5 1 = d.abPartition j.course
  course : numAt b 7 1 = j.course
  ctx : numAt b 8 2 = j.ctx

theorem doAbRestore_restores {k : Work} {w : World} {j : Job} {g : Nat} {b : List Byte} (hready : w.ready k.course.val k.line unitRestore = some j)
    (hgroup : w.d.groupOf j.course j.ctx = some g) (hissue : w.maIssuing j = false) (hal : j.ln.desc % 512 = 0)
    (hregion : maRegion j.course j.ln.desc (w.d.recordLen j.course) = true) (hread : w.fetch j k.bad j.ln.desc 512 = .got b false)
    (hrec : RecordOf w.d j b) (hopen : (w.d.accum j.course g).open_ = false)
    (hcheck : w.checkBlocks j k.bad ((recordLevels (w.d.abPartition j.course) (numAt b 12 4 % 2 ^ 17)).flatMap
      (fun l => blocksOf (recordPos j.ln.desc l) 65536)) = none) :
    doAbRestore k w = ((w.restored j g b).abBusy j 6).finish j := by
  unfold Dev.recordLen at hregion
  unfold recordLevels recordPos at hcheck
  have hmatch : (numAt b 0 4 == 0x56534241 && numAt b 4 1 == 1 && numAt b 5 1 == w.d.abPartition j.course && numAt b 7 1 == j.course &&
      numAt b 8 2 == j.ctx) = true := by
    rw [hrec.magic, hrec.version, hrec.partition, hrec.course, hrec.ctx]
    simp
  unfold doAbRestore
  rw [hready]
  dsimp only
  rw [hgroup]
  dsimp only
  rw [hissue, if_neg Bool.false_ne_true, hregion, if_neg (by rw [hal]; decide), hread]
  dsimp only
  rw [if_neg Bool.false_ne_true, hmatch, hopen, if_neg (by decide), hcheck]
  rfl

theorem World.readNode_congr {w v : World} (h : v.mem = w.mem) (int : Bool) (a : Nat) : v.readNode int a = w.readNode int a := by
  unfold World.readNode World.codesAt World.poisonedIn World.poisoned World.synOf
  rw [h]

theorem World.abPoison_wr (w : World) (j : Job) (n off : Nat) : (w.abPoison j n off).wr = w.wr := by
  unfold World.abPoison World.consumed
  split
  · rfl
  · dsimp only
    rw [World.log_wr, World.count_wr, World.raise_wr, World.raise_wr, World.setReg_wr, World.setBit_wr]

/-- The levels of a record are brought back as the stores hold them, which stay. -/
theorem World.restoreLevels_spec {w : World} (j : Job) (int : Bool) (lv : List Nat) : ∀ {v : World} (t : Tab Node), v.mem = w.mem →
    v.Steady (v.restoreLevels j int lv t).1 ∧ (v.restoreLevels j int lv t).1.mem = w.mem ∧ (v.restoreLevels j int lv t).1.wr = v.wr ∧
    ∀ l, l ∈ lv ∨ tfind t l = some (w.readNode int (recordPos j.ln.desc l)).1 →
      tfind (v.restoreLevels j int lv t).2 l = some (w.readNode int (recordPos j.ln.desc l)).1 := by
  induction lv with
  | nil => exact fun t hv => ⟨.refl _, hv, rfl, fun l hl => hl.elim (fun h => absurd h List.not_mem_nil) id⟩
  | cons l lv ih =>
    intro v t hv
    obtain ⟨hsteady, hmem, hwr, hfind⟩ := ih (v := v.abPoison j (v.readNode int (recordPos j.ln.desc l)).2 0)
      (tput t l (v.readNode int (recordPos j.ln.desc l)).1) ((World.abPoison_mem ..).trans hv)
    refine ⟨((World.Steady.refl v).abPoison _ _ _).trans hsteady, hmem, hwr.trans (World.abPoison_wr ..), fun i hi => hfind i ?_⟩
    by_cases hil : i = l
    · subst hil
      exact .inr (by rw [tfind_tput_self, World.readNode_congr hv])
    · rw [tfind_tput_ne _ _ hil]
      exact hi.imp_left (fun h => (List.mem_cons.1 h).resolve_left hil)

theorem Dev.restoreRegs_courses (d : Dev) (c g occ : Nat) (b : List Byte) : (d.restoreRegs c g occ b).courses = d.courses := by
  unfold Dev.restoreRegs
  rw [Dev.setFld_courses, Dev.setFld_courses, Dev.setReg_courses, Dev.setFld_courses, Dev.setFld_courses, Dev.setFld_courses]

theorem abGroup_ne_AB (c g : Nat) : abGroup c g ≠ AB c := by unfold abGroup; omega
theorem abNext_ne_AB (c g : Nat) : abNext c g ≠ AB c := by unfold abNext; omega

/-- The registers of a group are neither its status nor a count of corrections. -/
theorem abGroup_apart (c : Nat) {g a : Nat} (hg : g < 4) (ha : a = abGroup c g ∨ a = abNext c g) : a ≠ AB c ∧ ∀ t, a ≠ MEMR t + 0x40 := by
  obtain rfl | rfl := ha
  · refine ⟨abGroup_ne_AB c g, fun t => ?_⟩
    unfold abGroup AB ccBase MEMR twBase
    omega
  · refine ⟨abNext_ne_AB c g, fun t => ?_⟩
    unfold abNext AB ccBase MEMR twBase
    omega

/-- The fields of a group's registers that a record gives. -/
theorem Dev.restoreRegs_spec (d : Dev) (c g occ : Nat) (b : List Byte) (hocc : occ < 2 ^ 17) :
    (d.restoreRegs c g occ b).fld (abGroup c g) 62 62 = (if bitOf (numAt b 10 1) 2 then 1 else 0) ∧
    (d.restoreRegs c g occ b).fld (abGroup c g) 26 22 = numAt b 11 1 % 32 ∧ (d.restoreRegs c g occ b).fld (abGroup c g) 16 0 = occ ∧
    (d.restoreRegs c g occ b).fld (abNext c g) 63 32 = numAt b 20 4 := by
  have hgn : abGroup c g ≠ abNext c g := by unfold abGroup abNext; omega
  have hga := abGroup_ne_AB c g
  have hna := abNext_ne_AB c g
  unfold Dev.restoreRegs
  generalize abGroup c g = x at *
  generalize abNext c g = y at *
  generalize AB c = z at *
  refine ⟨?_, ?_, ?_, ?_⟩
  · rw [Dev.setFld_fld_ne _ _ _ _ _ _ hga, Dev.setFld_fld_ne _ _ _ _ _ _ hga, Dev.setReg_fld_ne _ _ _ _ hgn,
      Dev.setFld_fld_beside _ _ _ (by decide) (by decide) (.inl (by decide)), Dev.setFld_fld_beside _ _ _ (by decide) (by decide) (.inl (by decide)),
      Dev.setFld_fld_self _ _ _ (by decide) (by decide)]
    split <;> rfl
  · rw [Dev.setFld_fld_ne _ _ _ _ _ _ hga, Dev.setFld_fld_ne _ _ _ _ _ _ hga, Dev.setReg_fld_ne _ _ _ _ hgn,
      Dev.setFld_fld_beside _ _ _ (by decide) (by decide) (.inl (by decide))]
    exact Dev.setFld_fld_self _ _ _ (by decide) (by decide)
  · rw [Dev.setFld_fld_ne _ _ _ _ _ _ hga, Dev.setFld_fld_ne _ _ _ _ _ _ hga, Dev.setReg_fld_ne _ _ _ _ hgn,
      Dev.setFld_fld_self _ _ _ (by decide) (by decide)]
    exact Nat.mod_eq_of_lt hocc
  · rw [Dev.setFld_fld_ne _ _ _ _ _ _ hna, Dev.setFld_fld_ne _ _ _ _ _ _ hna, Dev.setReg_fld_self]
    rw [fieldOf, bitsOf, BitVec.toNat_ofNat, Nat.shiftLeft_eq, Nat.shiftRight_eq_div_pow]
    have := numAt_lt b 20 4
    omega

theorem Dev.groupOf_lt {d : Dev} {c i g : Nat} (h : d.groupOf c i = some g) : g < 4 := List.mem_range.1 (List.mem_of_find?_eq_some h)

/-- The nodes of a record are brought back as the stores hold them. -/
theorem World.recordNodes_spec (w : World) (j : Job) (b : List Byte) :
    w.Steady (w.recordNodes j b).1 ∧ (w.recordNodes j b).1.mem = w.mem ∧ (w.recordNodes j b).1.wr = w.wr ∧
    ∀ l ∈ recordLevels (w.d.abPartition j.course) (numAt b 12 4 % 2 ^ 17),
      tfind (w.recordNodes j b).2 l = some (w.readNode (bitOf (numAt b 10 1) 2) (recordPos j.ln.desc l)).1 := by
  obtain ⟨hsteady, hmem, hwr, hlevels⟩ := w.restoreLevels_spec j (bitOf (numAt b 10 1) 2)
    (recordLevels (w.d.abPartition j.course) (numAt b 12 4 % 2 ^ 17)) [] rfl
  exact ⟨hsteady, hmem, hwr, fun l hl => hlevels l (.inl hl)⟩

theorem World.restored_leaves (w : World) (j : Job) (g : Nat) (b : List Byte) :
    w.Leaves (w.restored j g b) j.course g (fun a => a = recordAccum b (w.recordNodes j b).2) :=
  ((World.leaves_self (a := fun _ => True) trivial).steady (w.recordNodes_spec j b).1).onGroup
    (F := fun d => d.restoreRegs j.course g (numAt b 12 4 % 2 ^ 17) b) (f := fun _ => recordAccum b (w.recordNodes j b).2)
    (Dev.restoreRegs_courses ..) (fun _ _ => rfl)

theorem World.restored_wr (w : World) (j : Job) (g : Nat) (b : List Byte) : (w.restored j g b).wr = w.wr :=
  (World.onDev_wr ..).trans (w.recordNodes_spec j b).2.2.1

theorem Dev.onGroup_regs (d : Dev) (c g : Nat) (f : Accum → Accum) : (d.onGroup c g f).regs = d.regs := rfl

theorem World.restored_regs (w : World) (j : Job) (g : Nat) (b : List Byte) :
    (w.restored j g b).d.regs = ((w.recordNodes j b).1.d.restoreRegs j.course g (numAt b 12 4 % 2 ^ 17) b).regs := Dev.onGroup_regs ..

/-- A group's registers after its line has ended. -/
theorem State.workDone_group {s : State} {k : Work} {v : World} {j : Job} {g bit a : Nat} (hg : g < 4)
    (ha : a = abGroup j.course g ∨ a = abNext j.course g) :
    rget (s.workDone k ((v.abBusy j bit).finish j)).dev.regs a = rget v.d.regs a := by
  obtain ⟨hne, hcorr⟩ := abGroup_apart j.course hg ha
  rw [State.workDone_rget s k _ hcorr, World.finish_regs]
  exact Dev.setBit_rget_ne _ _ hne

/-- AB_RESTORE brings its group back from the record. -/
theorem abRestore_restores {k : Work} {s : State} {j : Job} {g : Nat} {b : List Byte} (hline : s.lineReady k.course k.line unitRestore j)
    (hgroup : s.dev.groupOf j.course j.ctx = some g) (hissue : s.world.maIssuing j = false) (hal : j.ln.desc % 512 = 0)
    (hregion : maRegion j.course j.ln.desc (s.dev.recordLen j.course) = true) (hread : s.reads j k.bad j.ln.desc 512 b)
    (hrec : RecordOf s.dev j b) (hopen : (s.dev.accum j.course g).open_ = false)
    (hcheck : s.world.checkBlocks j k.bad ((recordLevels (s.dev.abPartition j.course) (numAt b 12 4 % 2 ^ 17)).flatMap
      (fun l => blocksOf (recordPos j.ln.desc l) 65536)) = none) :
    ∃ t, exec (.abRestore k) s = .next t ∧ t.mem = s.mem ∧ lineWorked s t j ∧
      t.dev.accum j.course g = recordAccum b (s.world.recordNodes j b).2 ∧ t.dev.fld (AB j.course) 6 6 = 1 ∧
      ∀ a, (a = abGroup j.course g ∨ a = abNext j.course g) →
        rget t.dev.regs a = rget ((s.world.recordNodes j b).1.d.restoreRegs j.course g (numAt b 12 4 % 2 ^ 17) b).regs a := by
  obtain ⟨l, hl, -⟩ := hline.launched
  obtain ⟨hworked, haccum, hbit, -⟩ := (s.world.restored_leaves j g b).finished (k := k) (bit := 6) hl (by decide)
  have hquiet : (((s.world.restored j g b).abBusy j 6).finish j).wr = [] :=
    (World.finish_wr ..).trans ((World.abBusy_wr ..).trans (World.restored_wr ..))
  refine ⟨_, runWork_go hline.1 (doAbRestore_restores hline.2 hgroup hissue hal hregion hread hrec hopen hcheck) (writesGo_of_wr hquiet),
    State.workDone_mem hquiet, hworked, haccum, hbit, fun a ha => ?_⟩
  rw [State.workDone_group (Dev.groupOf_lt hgroup) ha, World.restored_regs]

end Sys2Proof.Machine
end

section
/-! PROOF. The lines of the accumulator buffer (R208 to R227). -/

namespace Sys2Proof.Machine

/-! ## DRAIN and IMPORT -/

section
variable {s : State} {k : Work} {j : Job} {cmd : AbCmd} {g : Nat} {q : AccDesc}

/-- A command of the accumulator buffer whose work ends its line. -/
theorem AbReady.ends {op : Nat} (h : AbReady s k op j cmd g q) {v : World} {a : Accum → Prop}
    (hv : s.world.abWork j op g cmd q (s.abInt op j cmd g q) k.bad = v.finish j) (hleaves : s.world.Leaves v j.course g a)
    (hgo : s.writesGo k (v.abEnded j cmd (if op = 1 then 5 else 4))) :
    runWork s k (fun w => w.abLine k op) = .next (s.workDone k (v.abEnded j cmd (if op = 1 then 5 else 4))) ∧
    lineWorked s (s.workDone k (v.abEnded j cmd (if op = 1 then 5 else 4))) j ∧
    a ((s.workDone k (v.abEnded j cmd (if op = 1 then 5 else 4))).dev.accum j.course g) ∧
    (s.workDone k (v.abEnded j cmd (if op = 1 then 5 else 4))).dev.fld (AB j.course) (if op = 1 then 5 else 4) (if op = 1 then 5 else 4) = 1 ∧
    (s.workDone k (v.abEnded j cmd (if op = 1 then 5 else 4))).mem = v.mem := by
  obtain ⟨l, hl, -⟩ := h.line.launched
  refine ⟨runWork_go h.line.1 (h.works.trans (by rw [hv]; rfl)) hgo, hleaves.ended hl cmd (by split <;> decide)⟩

theorem World.abWork_drain {w : World} {int : Bool} (hpending : w.maPending j cmd.acc = false) (bad : List Nat) :
    w.abWork j 1 g cmd q int bad = if q.tied then w.drainTied j g q int bad else w.drainOpen j g q int bad := by
  unfold World.abWork
  rw [if_pos rfl, hpending, if_neg Bool.false_ne_true]

theorem World.abWork_import (w : World) (int : Bool) (bad : List Nat) :
    w.abWork j 2 g cmd q int bad = if cmd.tieU = 0 then w.importStack j g cmd q int bad else w.importTie j cmd q int bad :=
  if_neg (by decide)

end

/-- A course that forgets a tie area after a change keeps its lines and its groups as the change left them. -/
theorem World.Leaves.forgetsTie {w v : World} {c g : Nat} {a : Accum → Prop} {f : Dev → Dev} (h : w.Leaves (v.onDev f) c g a) (tie : Nat) :
    w.Leaves (v.onDev (fun d => (f d).onCourse c (fun x => { x with ties := tdel x.ties tie }))) c g a :=
  h.steady ((World.Steady.refl _).onCourse c (f := fun x => { x with ties := tdel x.ties tie }) (fun _ => rfl) (fun _ => rfl))

/-- A zeroed block reads zero, whatever an AB command has stored before it. -/
theorem World.Steady.putBlk_zeros {s : State} {v : World} (h : s.world.Steady v) (hm : s.memInv) (a : Nat) :
    readBytes (v.putBlk a (List.replicate 512 0) 0).mem a 512 = List.replicate 512 0 := by
  have htracks := h.tracks _ s.world_tracks
  unfold World.tracks at htracks
  have hwf : v.mem.wf = true := htracks ▸ foldl_applyWr_wf _ _ hm
  rw [readBytes_putBlk_self hwf, padTo_self List.length_replicate]

/-- A save while an earlier product still issues only sets its status bit. -/
theorem doAbSave_waits {k : Work} {w : World} {j : Job} {g : Nat} (hready : w.ready k.course.val k.line unitSave = some j)
    (hgroup : w.d.groupOf j.course j.ctx = some g) (hissue : w.maIssuing j = true) : doAbSave k w = w.abBusy j 7 := by
  unfold doAbSave
  rw [hready]
  dsimp only
  rw [hgroup]
  dsimp only
  rw [hissue, if_pos rfl]

/-- A restore while an earlier product still issues only sets its status bit. -/
theorem doAbRestore_waits {k : Work} {w : World} {j : Job} {g : Nat} (hready : w.ready k.course.val k.line unitRestore = some j)
    (hgroup : w.d.groupOf j.course j.ctx = some g) (hissue : w.maIssuing j = true) : doAbRestore k w = w.abBusy j 6 := by
  unfold doAbRestore
  rw [hready]
  dsimp only
  rw [hgroup]
  dsimp only
  rw [hissue, if_pos rfl]

/-- Settles O41: each clause is the work of its command, whose steps leave the lines alone. -/
theorem accumulatorLinesRun : Obligations.AccumulatorLinesRun := by
  unfold Obligations.AccumulatorLinesRun
  refine ⟨fun k s j cmd g q h htied => ?_, fun k s j cmd g q h htied => ?_, fun k s j cmd g q h htie => ?_, fun k s j cmd g q h htie hcheck => ?_,
    fun k s j g hline hm hgroup hissue => ?_, fun k s j g hline hgroup hissue => ?_, fun k s j g b hline hgroup hissue => ?_,
    fun k s j g hline hgroup hissue => ?_⟩
  · intro a st mn parts hcheck f o w hgo
    have hwork := (World.abWork_drain (q := q) (g := g) (int := s.abInt 1 j cmd g q) (h.pending rfl) k.bad).trans ((if_neg (by rw [htied]; decide)).trans
      (World.drainOpen_drains hcheck))
    obtain ⟨run, line, haccum, hbit, -⟩ := h.ends hwork (((World.Steady.drained ..).writeAmax ..).closes ..) hgo
    exact ⟨run, line, haccum, hbit⟩
  · intro int tn tiles slots hcheck o z w hgo
    have hwork := (World.abWork_drain (q := q) (g := g) (int := s.abInt 1 j cmd g q) (h.pending rfl) k.bad).trans ((if_pos htied).trans
      (World.drainTied_drains hcheck))
    have hsteady : s.world.Steady (((s.world.drainedTiles j q int).1.writeAmax j q (s.world.drainedTiles j q int).2).putBlk q.tie
        (List.replicate 512 0) 0) := ((World.Steady.drainedTiles ..).writeAmax ..).putBlk ..
    have hleaves := (hsteady.closes j.course g).forgetsTie q.tie
    obtain ⟨run, line, haccum, hbit, hmem⟩ := h.ends hwork hleaves hgo
    refine ⟨run, line, haccum, hbit, fun hm => (congrArg (fun m => readBytes m q.tie 512) (hmem.trans (World.onDev_mem ..))).trans ?_⟩
    exact World.Steady.putBlk_zeros ((World.Steady.drainedTiles ..).writeAmax ..) hm q.tie
  · intro int o st hopen hnext hal hspan hcheck
    obtain ⟨i, hi, hstack⟩ := World.insertNode_next (w := o.abPoison j (o.readNode int cmd.src).2 cmd.offset) (j := j)
      (x := (o.readNode int cmd.src).1) hnext hal hspan
    refine ⟨i, hi, fun hgo => ?_⟩
    have hwork := (World.abWork_import (g := g) s.world (s.abInt 2 j cmd g q) k.bad).trans ((if_pos htie).trans (World.importStack_inserts hopen hcheck hi))
    have hleaves := ((h.imports (s.abInt 2 j cmd g q)).steady (((World.Steady.refl _).abPoison ..).insertNode hi)).keeps
      (b := fun a => Accum.opened cmd.acc a ∧ a.next = cmd.offset + 2 ^ cmd.level) i.2 (fun x hx => ⟨hx, hstack⟩)
    obtain ⟨run, line, ⟨⟨hopened, hacc⟩, hnext'⟩, hbit, -⟩ := h.ends hwork hleaves hgo
    exact ⟨run, line, hopened, hacc, hnext', hbit⟩
  · intro int n hfree
    obtain ⟨v, hv⟩ := World.writeTie_free (w := s.world.abPoison j n.2 cmd.offset) (j := j) (q := q) (int := int) (t := cmd.offset)
      (u := cmd.tieU) (x := n.1) (by rw [World.tieBits, World.abPoison_mem]; exact hfree)
    refine ⟨v, hv, fun hgo => ?_⟩
    have hwork := (World.abWork_import (g := g) s.world (s.abInt 2 j cmd g q) k.bad).trans ((if_neg htie).trans (World.importTie_writes hcheck hv))
    have hleaves : s.world.Leaves v j.course g (fun _ => True) :=
      (World.leaves_self (a := fun _ => True) trivial).steady (((World.Steady.refl _).abPoison ..).writeTie hv)
    obtain ⟨run, line, -, hbit, -⟩ := h.ends hwork hleaves hgo
    exact ⟨run, line, hbit⟩
  · intro a p len hal hregion hgo
    obtain ⟨t, run, line, hmem, haccum, hbit⟩ := abSave_saves hline hgroup hissue hal hregion hgo
    refine ⟨t, run, line, ?_, fun n i v hn hi hv => ?_, fun x hx => ?_, haccum, hbit⟩
    · rw [hmem]
      exact World.saved_control (w := s.world) hm j g hal
    · rw [hmem]
      exact World.saved_cell (w := s.world) hm j g hal hn hi hv
    · rw [hmem]
      exact (s.world.saved_in j g hal).frame x hx
  · exact runWork_go hline.1 (doAbSave_waits hline.2 hgroup hissue) (writesGo_of_wr (World.abBusy_wr ..))
  · intro a p occ hal hregion hread h0 h4 h5 h7 h8 hopen lv pos hcheck
    obtain ⟨t, run, mem, line, haccum, hbit, hregs⟩ := abRestore_restores hline hgroup hissue hal hregion hread ⟨h0, h4, h5, h7, h8⟩ hopen hcheck
    obtain ⟨hint, hmode, hocc, hcount⟩ := (s.world.recordNodes j b).1.d.restoreRegs_spec j.course g (numAt b 12 4 % 2 ^ 17) b (Nat.mod_lt _ (by decide))
    refine ⟨t, run, mem, line, ?_, (Dev.fld_congr (hregs _ (.inl rfl)) ..).trans hint, (Dev.fld_congr (hregs _ (.inl rfl)) ..).trans hmode,
      (Dev.fld_congr (hregs _ (.inl rfl)) ..).trans hocc, (Dev.fld_congr (hregs _ (.inr rfl)) ..).trans hcount, hbit⟩
    rw [haccum]
    exact ⟨rfl, rfl, rfl, rfl, rfl, (s.world.recordNodes_spec j b).2.2.2⟩
  · exact runWork_go hline.1 (doAbRestore_waits hline.2 hgroup hissue) (writesGo_of_wr (World.abBusy_wr ..))

end Sys2Proof.Machine
end

section
/-! PROOF. The far-store responses and the re-read ladder (R444 to R450, R286 to R291). -/

namespace Sys2Proof.Machine

/-! ## The start of a checkpoint's stream -/

theorem Dev.HostOnly.ckpts {d e : Dev} (h : d.HostOnly e) : e.ckpts = d.ckpts := (congrArg Dev.ckpts h :)

theorem Dev.farAsk_hostOnly (d : Dev) (half who ctx op : Nat) (reread medium : Bool) (bs : List (Nat × Option Blk)) :
    d.HostOnly (d.farAsk half who ctx op reread medium bs) :=
  Dev.HostOnly.trans (b := { d with hl := { d.hl with far := d.hl.far ++ farReqs half who ctx op reread medium bs } }) rfl (Dev.pumpFar_spec _).1

/-- Asking for a stream's blocks touches the host link only. -/
theorem Dev.streamAsk_hostOnly (d : Dev) (k : Ckpt) (bl : List Blk) : d.HostOnly (d.streamAsk k bl) :=
  foldl_keeps d.HostOnly _ _ (fun _ _ _ h => h.trans (Dev.farAsk_hostOnly ..)) d rfl

/-- The counts of what a stream carries leave the checkpoints and the stores' writes alone. -/
theorem World.carried_fold (w : World) (xs : List Nat) (f : World → Nat → Nat) :
    (xs.foldl (fun w t => w.carried t (f w t)) w).d.ckpts = w.d.ckpts ∧ (xs.foldl (fun w t => w.carried t (f w t)) w).wr = w.wr :=
  foldl_keeps (fun v : World => v.d.ckpts = w.d.ckpts ∧ v.wr = w.wr) (fun w t => w.carried t (f w t)) xs (fun v _ _ h => ⟨(congrArg Dev.ckpts (Dev.count_regsOnly v.d _ _ _ _)).trans h.1, (World.count_wr ..).trans h.2⟩) w ⟨rfl, rfl⟩

theorem Dev.onStream_ckpts {d : Dev} {k : Ckpt} (hk : d.ckpts = [k]) (hr : k.running = true) (f : Ckpt → Ckpt) : (d.onStream f).ckpts = [f k] := by
  unfold Dev.onStream
  rw [hk, List.map_singleton, if_pos hr]

/-- A stream as it leaves: its checkpoint marked sent, its blocks asked for. -/
def World.streamOut (w : World) (k : Ckpt) (total : Nat) (dig : List Byte) (all : List Blk) : World :=
  w.onDev (fun d => ((d.farDrop whoStream).onStream (fun k => { k with sent := true, total := total, digest := dig })).streamAsk k all)

theorem World.streamOut_spec {w : World} {k : Ckpt} (hk : w.d.ckpts = [k]) (hr : k.running = true) (x : Ckpt) (total : Nat) (dig : List Byte)
    (all : List Blk) : (w.streamOut x total dig all).d.ckpts = [{ k with sent := true, total := total, digest := dig }] ∧
    (w.streamOut x total dig all).wr = w.wr :=
  ⟨(Dev.streamAsk_hostOnly ..).ckpts.trans (Dev.onStream_ckpts (d := w.d.farDrop whoStream) hk hr _), rfl⟩

/-- The counts of what a stream of near blocks carries. -/
def World.streamCounted (w : World) (k : Ckpt) : World :=
  (List.range 8).foldl (fun w t =>
    w.carried t (w.poisonCount ((k.blocks.filter (fun a => decide (tierOf a ≠ 3))).filter (fun a => towerOf a == t)))) w

theorem filterMap_of_some {α β : Type} {f : α → Option β} {g : α → β} {l : List α} (h : ∀ a ∈ l, f a = some (g a)) :
    l.filterMap f = l.map g := by
  induction l with
  | nil => rfl
  | cons a l ih =>
    rw [List.filterMap_cons, h a List.mem_cons_self, List.map_cons, ih (fun b hb => h b (List.mem_cons_of_mem a hb))]

/-- A running stream whose blocks are all near and good leaves. -/
theorem World.streamGo_leaves {w : World} {k : Ckpt} (hk : w.d.ckpts = [k]) (hr : k.running = true) (hs : k.sent = false)
    (hnear : ∀ a ∈ k.blocks, tierOf a ≠ 3 ∧ w.failing [] a = false) :
    ∃ dig all, w.streamGo = (w.streamCounted k).streamOut k (streamLen k.regions) dig all := by
  have hfails : (k.blocks.filter (fun a => decide (tierOf a ≠ 3))).filter (w.failing []) = [] := by
    simp only [List.filter_eq_nil_iff, List.mem_filter, and_imp]
    exact fun a ha _ => by simp [(hnear a ha).2]
  have hgot : (k.blocks.filterMap (fun a => if tierOf a = 3 then w.d.farBlk whoStream a else some (w.carry a))).length = k.blocks.length := by
    rw [filterMap_of_some (g := w.carry) (fun a ha => if_neg (hnear a ha).1), List.length_map]
  unfold World.streamGo
  rw [hk, List.find?_cons_of_pos (by rw [hr, hs]; rfl)]
  dsimp only
  rw [hfails, hgot, if_neg (by decide), if_neg (Nat.lt_irrefl _)]
  exact ⟨_, _, rfl⟩

theorem World.streamGo_sends {w : World} {k : Ckpt} (hk : w.d.ckpts = [k]) (hr : k.running = true) (hs : k.sent = false)
    (hnear : ∀ a ∈ k.blocks, tierOf a ≠ 3 ∧ w.failing [] a = false) :
    ∃ e, w.streamGo.d.ckpts = [e] ∧ e.running = true ∧ e.sent = true ∧ e.total = streamLen k.regions ∧ w.streamGo.wr = w.wr := by
  obtain ⟨dig, all, hgo⟩ := World.streamGo_leaves hk hr hs hnear
  obtain ⟨hckpts, hwr⟩ := w.carried_fold (List.range 8)
    (fun w t => w.poisonCount ((k.blocks.filter (fun a => decide (tierOf a ≠ 3))).filter (fun a => towerOf a == t)))
  obtain ⟨hout, hquiet⟩ := World.streamOut_spec (w := w.streamCounted k) (hckpts.trans hk) hr k (streamLen k.regions) dig all
  rw [hgo]
  exact ⟨_, hout, hr, rfl, rfl, hquiet.trans hwr⟩

/-- The stream of a checkpoint that is due runs, where none ran and none of its blocks is far. -/
theorem doCheckpointStreamStart_due {w : World} {k : Ckpt} (hk : w.d.ckpts = [k]) (hr : k.running = false) (hpos : k.pos = (w.d.ctx k.ctx).pos)
    (hopen : (w.d.ctx k.ctx).posOpen = false) (hst : (w.d.ctx k.ctx).active = true ∨ (w.d.ctx k.ctx).st = .parked)
    (hnear : ∀ a ∈ k.blocks, tierOf a ≠ 3) :
    doCheckpointStreamStart k.ctx w = (w.onDev (fun d => { d with ckpts := [{ k with running := true }] })).streamGo := by
  have hfar : k.blocks.filter (fun a => decide (tierOf a = 3)) = [] :=
    List.filter_eq_nil_iff.2 (fun a ha => by simp [hnear a ha])
  have hdue : (k.ctx == k.ctx && decide (k.pos = (w.d.ctx k.ctx).pos) && !(w.d.ctx k.ctx).posOpen &&
      ((w.d.ctx k.ctx).active || (w.d.ctx k.ctx).st == .parked)) = true := by
    obtain hst | hst := hst <;> simp [hpos, hopen, hst]
  unfold doCheckpointStreamStart
  dsimp only
  rw [hk, List.any_cons, hr, if_neg (by decide), List.find?_singleton, if_pos hdue]
  dsimp only
  rw [hfar, if_pos List.isEmpty_nil]
  refine congrArg World.streamGo ?_
  unfold World.onDev
  dsimp only
  rw [hk, List.map_singleton, if_pos rfl]

theorem checkpointStreamStart_sends {s : State} {ctx : Nat} {k : Ckpt} (live : s.live) (hk : s.dev.ckpts = [k]) (hr : k.running = false)
    (hs : k.sent = false) (hctx : k.ctx = ctx) (hpos : k.pos = (s.dev.ctx ctx).pos) (hopen : (s.dev.ctx ctx).posOpen = false)
    (hst : (s.dev.ctx ctx).active = true ∨ (s.dev.ctx ctx).st = .parked) (hnear : ∀ a ∈ k.blocks, tierOf a ≠ 3 ∧ s.world.failing [] a = false) :
    ∃ t e, exec (.checkpointStreamStart ctx) s = .next t ∧ t.mem = s.mem ∧ t.dev.ckpts = [e] ∧ e.running = true ∧ e.sent = true ∧
      e.total = streamLen k.regions := by
  subst hctx
  obtain ⟨e, hckpts, hrun, hsent, htotal, hwr⟩ := World.streamGo_sends (k := { k with running := true })
    (w := s.world.onDev (fun d => { d with ckpts := [{ k with running := true }] })) rfl rfl hs hnear
  exact ⟨_, e, runLive_eq_world live (doCheckpointStreamStart_due hk hr hpos hopen hst (fun a ha => (hnear a ha).1)),
    commit_mem_nil hwr, hckpts, hrun, hsent, htotal⟩

/-! ## Responses, re-reads and verdicts -/

theorem doReadData_stray {r : FarResp} {w : World} (h : w.d.farMatch r [0x01, 0x10] = none) : doReadData r w = (w.stray r 0 stBlockCrc).retry := by
  unfold doReadData doReadDataCore
  rw [h]

theorem doReadData_blocks {r : FarResp} {w : World} {q : FarReq} (h : w.d.farMatch r [0x01, 0x10] = some q) (hboot : q.who ≠ whoBoot)
    (hladder : q.who ≠ whoLadder) (hst : r.status ≠ 2) :
    doReadData r w = World.retry ((List.range q.count).foldl (fun w i => w.farBlock q.who (q.addr i) r.payload[i]?)
      (((w.onDev (fun d => d.farDone q)).farLatency r.latency).count HL_FAR_READS 63 0 q.count)) := by
  unfold doReadData doReadDataCore
  rw [h]
  dsimp only
  rw [if_neg hboot, if_neg hst, if_neg hladder]

theorem doReadData_boot {r : FarResp} {w : World} {q : FarReq} (h : w.d.farMatch r [0x01, 0x10] = some q) (hboot : q.who = whoBoot)
    (hst : r.status = 0) (hlen : r.payload.length = q.count) (hgood : r.payload.all (fun b => blkSyn b == 0) = true) :
    doReadData r w = World.retry ((w.onDev (fun d => d.farDone q)).onDev (fun d => d.bootBlocks r.payload)) := by
  unfold doReadData doReadDataCore
  rw [h]
  dsimp only
  rw [if_pos hboot, if_pos (by rw [hst, hlen, hgood]; simp)]

theorem doWriteAck_counts {r : FarResp} {w : World} {q : FarReq} (h : w.d.farMatch r [0x02] = some q) (hst : r.status ≠ 2) :
    doWriteAck r w = World.retry (World.streamAcked
      (((w.onDev (fun d => d.farDone q)).farLatency r.latency).count HL_FAR_WRITES 63 0 q.count)) := by
  unfold doWriteAck doWriteAckCore
  rw [h]
  dsimp only
  rw [if_neg hst]

theorem doStreamAck_acks {r : FarResp} {w : World} {q : FarReq} (h : w.d.farMatch r [0x03] = some q) (hst : r.status ≠ 2) :
    doStreamAck r w = World.streamAcked ((w.onDev (fun d => d.farDone q)).farLatency r.latency) := by
  unfold doStreamAck
  rw [h]
  dsimp only
  rw [if_neg hst]

/-- The world in which an attempt is judged: a routine's access counts it. -/
def World.attempted (w : World) (l : Ladder) : World :=
  if l.unit = 8 ∧ (w.d.course l.course).routine.isSome = true then w.count (CC_LD_RETRY l.course) 31 0 1 else w

theorem World.attempted_mem (w : World) (l : Ladder) : (w.attempted l).mem = w.mem := by
  unfold World.attempted
  split
  · exact World.count_mem ..
  · rfl

theorem doBlockRereadDone_attempts {block : Nat} {ok : Bool} {w : World} {l : Ladder}
    (h : w.d.ladders.find? (fun l => l.block == block && l.step == 1 && !l.after && tierOf l.block != 3) = some l) :
    doBlockRereadDone block ok w =
      if ok && (w.synOf block == 0 || w.poisoned block) then (w.attempted l).attemptPasses l else (w.attempted l).attemptFails l := by
  have hsyn : (w.attempted l).synOf block = w.synOf block := congrArg (fun m : Memory => tget 0 m.syn block) (w.attempted_mem l)
  have hpoisoned : (w.attempted l).poisoned block = w.poisoned block := by
    unfold World.poisoned
    rw [hsyn]
  rw [← hsyn, ← hpoisoned]
  unfold doBlockRereadDone
  rw [h]
  rfl

/-- The ladder a verdict finds is that of its block. -/
theorem Dev.ladderReady_block {d : Dev} {block : Nat} {l : Ladder} (h : d.ladderReady block = some l) : l.block = block := by
  have hfound := List.find?_some h
  simp only [Bool.and_eq_true, beq_iff_eq] at hfound
  exact hfound.1.1.1

/-- The verdict of a block of a store. -/
theorem doLadderVerdict_store {block : Nat} {ok : Bool} {w : World} {l : Ladder} (h : w.d.ladderReady block = some l) (hb : block < 2 ^ 64)
    (hafter : l.after = false) :
    doLadderVerdict block ok w = if l.store = some true ∧ l.pathFailed then
      if tierOf block = 3 then w.onDev (fun d =>
        Dev.farAsk { d with ladders := d.ladders.map (fun m => if m.block = block then { m with step := 3 } else m) }
          (l.course / 48) whoLadder 0xFFFF 1 true false [(bitsOf block 41 0, none)])
      else if ok then ((w.count (MEMR l.tower + 0x20) 63 0 1).setBit (MEMR l.tower + 0x58) 2).verdict l 1 else w.poisonEnd l
    else w.poisonEnd l := by
  have hblock := Dev.ladderReady_block h
  subst hblock
  unfold doLadderVerdict World.storeVerdict World.pathRepaired
  rw [h]
  dsimp only
  rw [if_neg (by omega), hafter, if_neg Bool.false_ne_true]

/-- The verdict of a block in flight. -/
theorem doLadderVerdict_want {block : Nat} {ok : Bool} {w : World} {l : Ladder} {x : Want} (h : w.d.ladderReady block = some l)
    (hb : 2 ^ 64 ≤ block) (hafter : l.after = false) (hx : w.d.wants.find? (fun x => x.key == block) = some x) :
    doLadderVerdict block ok w = if l.pathFailed then w.onDev (fun d =>
      Dev.askAgain { d with ladders := d.ladders.map (fun m => if m.block = block then { m with step := 3 } else m) }
        x.src x.ctx x.tag x.step x.index) else w.wantPoisoned x l := by
  have hblock := Dev.ladderReady_block h
  subst hblock
  unfold doLadderVerdict World.wantVerdict
  rw [h]
  dsimp only
  rw [if_pos hb, hafter, if_neg Bool.false_ne_true, hx]

/-- A block already delivered has nothing left to decide: its ladder ends. -/
theorem doLadderVerdict_after {block : Nat} {ok : Bool} {w : World} {l : Ladder} (h : w.d.ladderReady block = some l) (hafter : l.after = true) :
    doLadderVerdict block ok w = w.onDev (fun d => { d with ladders := d.ladders.filter (fun m => m.block != block) }) := by
  have hblock := Dev.ladderReady_block h
  subst hblock
  unfold doLadderVerdict World.wantVerdict World.storeVerdict
  rw [h]
  dsimp only
  rw [hafter, if_pos rfl, if_pos rfl, ite_self]

theorem blockRereadDone_runs {s : State} {block : Nat} {ok : Bool} {w : World} (live : s.live) (h : doBlockRereadDone block ok s.world = w) :
    exec (.blockRereadDone block ok) s = .next (commit s w.retry) :=
  runLive_eq_world (f := fun w => (doBlockRereadDone block ok w).retry) live (congrArg World.retry h)

theorem ladderVerdict_runs {s : State} {block : Nat} {ok : Bool} {w : World} (live : s.live) (h : doLadderVerdict block ok s.world = w) :
    exec (.ladderVerdict block ok) s = .next (commit s w.retry) :=
  runLive_eq_world (f := fun w => (doLadderVerdict block ok w).retry) live (congrArg World.retry h)

/-- Settles O53: each clause is what its command does at the one branch it names. -/
theorem farResponsesAndReReads : Obligations.FarResponsesAndReReads := by
  unfold Obligations.FarResponsesAndReReads
  refine ⟨fun r s live h => runLive_eq_world live (doReadData_stray h),
    fun r s q live h hboot hladder hst => runLive_eq_world live (doReadData_blocks h hboot hladder hst),
    fun r s q live h hboot hst hlen hgood => runLive_eq_world live (doReadData_boot h hboot hst hlen hgood),
    fun r s q live h hst => runLive_eq_world live (doWriteAck_counts h hst),
    fun r s q live h hst => runLive_eq_world live (doStreamAck_acks h hst),
    fun ctx s k live hk hr hs hctx hpos hopen hst hnear => checkpointStreamStart_sends live hk hr hs hctx hpos hopen hst hnear,
    fun block ok s l live h => blockRereadDone_runs live (doBlockRereadDone_attempts h),
    fun block ok s l live h hafter hb => ⟨fun hstore hpath htier hok => ?_, fun hstore hpath htier => ?_, fun hpoison => ?_⟩,
    fun block ok s l x live h hafter hb hx => ⟨fun hpath => ?_, fun hpath => ?_⟩,
    fun block ok s l live h hafter => ladderVerdict_runs live (doLadderVerdict_after h hafter)⟩
  · refine ladderVerdict_runs live ((doLadderVerdict_store h hb hafter).trans ?_)
    rw [if_pos ⟨hstore, hpath⟩, if_neg htier, if_pos hok]
  · refine ladderVerdict_runs live ((doLadderVerdict_store h hb hafter).trans ?_)
    rw [if_pos ⟨hstore, hpath⟩, if_pos htier]
  · refine ladderVerdict_runs live ((doLadderVerdict_store h hb hafter).trans ?_)
    obtain hstore | hpath | ⟨htier, hok⟩ := hpoison
    · rw [if_neg (fun hc => hstore hc.1)]
    · rw [if_neg (fun hc => absurd (hpath.symm.trans hc.2) (by decide))]
    · rw [if_neg htier, hok, if_neg Bool.false_ne_true, ite_self]
  · refine ladderVerdict_runs live ((doLadderVerdict_want h hb hafter hx).trans ?_)
    rw [if_pos hpath]
  · refine ladderVerdict_runs live ((doLadderVerdict_want h hb hafter hx).trans ?_)
    rw [hpath, if_neg Bool.false_ne_true]

end Sys2Proof.Machine
end

section
/-! PROOF. Bundles: replay, tests, remaps and field passes (R476 to R495). -/

namespace Sys2Proof.Machine

theorem keyTower_bundleIdKey (b : BundleId) : keyTower (bundleIdKey b) = b.tower.val := by
  have hc := b.cls.isLt
  have hi := b.index.isLt
  unfold keyTower bundleIdKey
  omega

theorem Dev.onBundle_bundle_self (d : Dev) (k : Nat) (f : Bundle → Bundle) : (d.onBundle k f).bundle k = f (d.bundle k) := tget_tput_self ..

theorem Dev.bundle_congr {d e : Dev} (h : e.bundles = d.bundles) (k : Nat) : e.bundle k = d.bundle k := congrArg (tget Bundle.init · k) h

/-! ## Flits of a bundle -/

section
variable {b : BundleId} {flit : List Byte} {framing : W64} {w : World}

/-- The acknowledgement that a turn sends first. -/
def turnAck (b : BundleId) (x : Bundle) (dir : Bool) : List Out := (if x.turns b.cls.val dir then x.pend.toList else []).map (Out.bundleAck b)

/-- A bundle turned where the flit asks for it. -/
def Bundle.facing (x : Bundle) (cls : Nat) (dir : Bool) : Bundle := if x.turns cls dir then x.turned dir else x

theorem World.turnBundle_spec (w : World) (b : BundleId) (dir : Bool) :
    (w.turnBundle b dir).d.bundle (bundleIdKey b) = { (w.d.bundle (bundleIdKey b)).facing b.cls.val dir with
      run := min 128 (((w.d.bundle (bundleIdKey b)).facing b.cls.val dir).run + 1) } ∧
    (w.turnBundle b dir).d.out = w.d.out ++ turnAck b (w.d.bundle (bundleIdKey b)) dir ∧ (w.turnBundle b dir).wr = w.wr := by
  unfold World.turnBundle turnAck Bundle.facing
  dsimp only
  generalize w.d.bundle (bundleIdKey b) = x
  refine ⟨Dev.onBundle_bundle_self .., ?_⟩
  cases hturns : x.turns b.cls.val dir
  · exact ⟨by simp, rfl⟩
  · cases hpend : x.pend
    · exact ⟨by simp, rfl⟩
    · exact ⟨by simp [Dev.emit], rfl⟩

theorem World.bundleInOrder_spec (w : World) (b : BundleId) (seq : Nat) :
    (w.bundleInOrder b seq).d.bundle (bundleIdKey b) = { w.d.bundle (bundleIdKey b) with
      expectSeq := ((w.d.bundle (bundleIdKey b)).expectSeq + 1) % 32, nakRun := 0,
      pend := if 7 ≤ (w.d.bundle (bundleIdKey b)).heard then none else some seq,
      heard := if 7 ≤ (w.d.bundle (bundleIdKey b)).heard then 0 else (w.d.bundle (bundleIdKey b)).heard + 1 } ∧
    (w.bundleInOrder b seq).d.out = w.d.out ++ (if 7 ≤ (w.d.bundle (bundleIdKey b)).heard then [.bundleAck b seq] else []) ∧
    (w.bundleInOrder b seq).wr = w.wr := by
  unfold World.bundleInOrder
  dsimp only
  by_cases hdue : 7 ≤ (w.d.bundle (bundleIdKey b)).heard
  · simp only [hdue, decide_true, if_true]
    exact ⟨(Dev.bundle_congr (Dev.emit_bundles ..) _).trans (Dev.onBundle_bundle_self ..), rfl, rfl⟩
  · simp only [hdue, decide_false, Bool.false_eq_true, if_false]
    exact ⟨Dev.onBundle_bundle_self .., (List.append_nil _).symm, rfl⟩

theorem doBundleFlitRx_quiet (h : (w.d.quiet b.tower.val && b.cls.val != 4) = true) : doBundleFlitRx b flit framing w = w := by
  unfold doBundleFlitRx
  dsimp only
  rw [if_pos h]

theorem doBundleFlitRx_holds (hq : (w.d.quiet b.tower.val && b.cls.val != 4) = false) (hcrc : flitCrc16 flit framing = bitsOf framing.toNat 31 16)
    (ht : (w.d.bundle (bundleIdKey b)).turns b.cls.val (bitOf framing.toNat 2) = true) (hh : (w.d.bundle (bundleIdKey b)).holdsDir = true) :
    doBundleFlitRx b flit framing w = w := by
  unfold doBundleFlitRx
  dsimp only
  rw [hq, if_neg Bool.false_ne_true, if_neg (Classical.not_not.2 hcrc), ht, hh, if_pos (by decide)]

/-- A good flit that its bundle takes turns it first. -/
theorem doBundleFlitRx_taken (hq : (w.d.quiet b.tower.val && b.cls.val != 4) = false) (hcrc : flitCrc16 flit framing = bitsOf framing.toNat 31 16)
    (ht : (w.d.bundle (bundleIdKey b)).turns b.cls.val (bitOf framing.toNat 2) = false ∨ (w.d.bundle (bundleIdKey b)).holdsDir = false) :
    doBundleFlitRx b flit framing w = (let v := w.turnBundle b (bitOf framing.toNat 2)
      if bitsOf framing.toNat 5 4 ≠ 1 then v
      else if bitsOf framing.toNat 10 6 = (v.d.bundle (bundleIdKey b)).expectSeq then v.bundleInOrder b (bitsOf framing.toNat 10 6)
      else v.emit (.bundleNak b (v.d.bundle (bundleIdKey b)).expectSeq)) := by
  unfold doBundleFlitRx
  dsimp only
  rw [hq, if_neg Bool.false_ne_true, if_neg (Classical.not_not.2 hcrc), if_neg (by obtain h | h := ht <;> simp [h])]

end

/-! ## A flit whose CRC-16 fails -/

/-- The NAK run of a bundle after one more failed flit. -/
def Bundle.nakked (x : Bundle) : Nat := if x.nakSeq = x.expectSeq then x.nakRun + 1 else 1

/-- A failed flit counted, its bundle entered for a test, and NAKed. -/
def World.naks (w : World) (b : BundleId) : World :=
  let v := w.onDev (fun d => (d.onBundle (bundleIdKey b) (fun y => { y with
    nakSeq := y.expectSeq, nakRun := (w.d.bundle (bundleIdKey b)).nakked, replays := y.replays + 1 })).enterTest (bundleIdKey b))
  (if b.cls.val = 4 then v.count (MEMR b.tower.val + 0x50) 63 0 1 else v).emit (.bundleNak b (w.d.bundle (bundleIdKey b)).expectSeq)

/-- The fourth failed flit of one SEQ retrains the bundle. -/
def World.retrains (w : World) (b : BundleId) : World :=
  let v := w.onDev (fun d => (d.onBundle (bundleIdKey b) (fun y => { y with remapping := true, next := y.state, nakRun := 0, underTest := 1 })).onTower
    b.tower.val (fun y => { y with queue := y.queue.erase (bundleIdKey b) }))
  (v.onDev (fun d => (d.stkStatus b.tower.val).setBit FT_HOLD_CAUSE 2)).log { entry 0x03 b.tower.val 0x10 with index := b.index.val, flags := 2 }

theorem doBundleFlitRx_bad {b : BundleId} {flit : List Byte} {framing : W64} {w : World} (hq : (w.d.quiet b.tower.val && b.cls.val != 4) = false)
    (hcrc : flitCrc16 flit framing ≠ bitsOf framing.toNat 31 16) :
    doBundleFlitRx b flit framing w = if (w.d.bundle (bundleIdKey b)).nakked = 4 then (w.naks b).retrains b else w.naks b := by
  unfold doBundleFlitRx
  dsimp only
  rw [hq, if_neg Bool.false_ne_true, if_pos hcrc]
  rfl

/-- A bundle entered for a test stands in its tower's queue, or is under test already. -/
theorem Dev.enterTest_queued (d : Dev) (k : Nat) :
    ((d.enterTest k).tower (keyTower k)).queue.contains k = true ∨ (d.bundle k).underTest ≠ 0 := by
  unfold Dev.enterTest
  rw [onTower_tower_self]
  split
  · next h => simpa using h
  · exact .inl (by simp)

theorem World.naks_spec (w : World) (b : BundleId) :
    (w.naks b).d.bundle (bundleIdKey b) = { w.d.bundle (bundleIdKey b) with
      nakSeq := (w.d.bundle (bundleIdKey b)).expectSeq, nakRun := (w.d.bundle (bundleIdKey b)).nakked, replays := (w.d.bundle (bundleIdKey b)).replays + 1 } ∧
    (w.naks b).d.out = w.d.out ++ [.bundleNak b (w.d.bundle (bundleIdKey b)).expectSeq] ∧ (w.naks b).wr = w.wr ∧
    (((w.naks b).d.tower b.tower.val).queue.contains (bundleIdKey b) = true ∨ (w.d.bundle (bundleIdKey b)).underTest ≠ 0) := by
  have hcount : ∀ v : World, (if b.cls.val = 4 then v.count (MEMR b.tower.val + 0x50) 63 0 1 else v).wr = v.wr ∧
      v.d.RegsOnly (if b.cls.val = 4 then v.count (MEMR b.tower.val + 0x50) 63 0 1 else v).d := fun v => by
    split
    · exact ⟨World.count_wr .., World.count_d v .. ▸ Dev.count_regsOnly ..⟩
    · exact ⟨rfl, rfl⟩
  have hqueued := (w.d.onBundle (bundleIdKey b) (fun y => { y with
    nakSeq := y.expectSeq, nakRun := (w.d.bundle (bundleIdKey b)).nakked, replays := y.replays + 1 })).enterTest_queued (bundleIdKey b)
  rw [keyTower_bundleIdKey, Dev.onBundle_bundle_self] at hqueued
  obtain ⟨hwr, hregs⟩ := hcount (w.onDev (fun d => (d.onBundle (bundleIdKey b) (fun y => { y with
    nakSeq := y.expectSeq, nakRun := (w.d.bundle (bundleIdKey b)).nakked, replays := y.replays + 1 })).enterTest (bundleIdKey b)))
  unfold World.naks
  dsimp only
  refine ⟨(Dev.bundle_congr (hregs.bundles.trans (Dev.onTower_bundles ..)) _).trans (Dev.onBundle_bundle_self ..), congrArg (· ++ _) (congrArg Dev.out hregs :), hwr, ?_⟩
  exact hqueued.imp_left (fun h => (congrArg (fun t => (tget Tower.init t b.tower.val).queue.contains (bundleIdKey b)) (congrArg Dev.towers hregs :)).trans h)

theorem Dev.stkStatus_regsOnly (d : Dev) (t : Nat) : d.RegsOnly (d.stkStatus t) :=
  ((Dev.setFld_regsOnly ..).trans (Dev.setFld_regsOnly ..)).trans (Dev.setFld_regsOnly ..)

theorem World.retrains_spec (w : World) (b : BundleId) :
    (w.retrains b).d.bundle (bundleIdKey b) = { w.d.bundle (bundleIdKey b) with
      remapping := true, next := (w.d.bundle (bundleIdKey b)).state, nakRun := 0, underTest := 1 } ∧
    (w.retrains b).d.out = w.d.out ∧ (w.retrains b).wr = w.wr ∧ (w.retrains b).d.fld FT_HOLD_CAUSE 2 2 = 1 := by
  have hregs : ∀ d : Dev, d.RegsOnly ((d.stkStatus b.tower.val).setBit FT_HOLD_CAUSE 2) :=
    fun d => (Dev.stkStatus_regsOnly ..).trans (Dev.setBit_regsOnly ..)
  refine ⟨?_, ?_, (World.log_wr ..).trans ((World.onDev_wr ..).trans (World.onDev_wr ..)), ?_⟩
  · exact (Dev.bundle_congr ((Dev.logEntry_bundles ..).trans ((hregs _).bundles.trans (Dev.onTower_bundles ..))) _).trans (Dev.onBundle_bundle_self ..)
  · exact (Dev.logEntry_out ..).trans (congrArg Dev.out (hregs _) :)
  · exact (Dev.log_fld ..).trans (Dev.setBit_fld_self _ _ (by decide))

/-! ## What a lost bundle leaves -/

theorem Dev.Tells.bundles {R : List Nat} {d e : Dev} (h : Dev.Tells R d e) : e.bundles = d.bundles := (congrArg Dev.bundles h.only :)

theorem Dev.CoursesOnly.bundles {d e : Dev} (h : d.CoursesOnly e) : e.bundles = d.bundles := (congrArg Dev.bundles h.only :)

theorem World.stackEvent_bundles (w : World) (t cls idx state free kind layer : Nat) (st : W16) (logCls : Nat) :
    (w.stackEvent t cls idx state free kind layer st logCls).d.bundles = w.d.bundles := by
  unfold World.stackEvent
  dsimp only
  split
  · exact (World.event_tells ..).bundles
  · exact ((World.event_tells ..).trans (Dev.log_tells ..)).bundles

theorem World.revalidate_bundles (w : World) (cause : W16) : (w.revalidate cause).d.bundles = w.d.bundles := by
  unfold World.revalidate
  refine foldl_keeps (fun v : World => v.d.bundles = w.d.bundles) _ _ (fun v e _ hv => ?_) w rfl
  dsimp only
  split
  · exact hv
  · split
    · exact hv
    · split
      · exact (Dev.logEntry_bundles ..).trans hv
      · exact hv

theorem World.endService_bundles (w : World) (i : Nat) (st : W16) : (w.endService i st).d.bundles = w.d.bundles := by
  have hanswers : ((w.d.svc i).queue.foldl (fun w h => World.answer w h 0x502 st 0) w).d.bundles = w.d.bundles :=
    foldl_keeps (fun v : World => v.d.bundles = w.d.bundles) (fun w h => World.answer w h 0x502 st 0) _
      (fun v h _ hv => (Dev.replyPkt_bundles v.d h 0x502 st 0 0 []).trans hv) w rfl
  rw [World.endService_d]
  refine Eq.trans ?_ hanswers
  unfold Dev.endSvc
  dsimp only
  split <;> rfl

theorem World.stopServices_bundles (w : World) (t : Nat) : (w.stopServices t).d.bundles = w.d.bundles := by
  unfold World.stopServices
  refine foldl_keeps (fun v : World => v.d.bundles = w.d.bundles) _ _ (fun v e _ hv => ?_) w rfl
  exact (World.event_tells ..).bundles.trans ((Dev.dropResident_coursesOnly ..).bundles.trans ((World.endService_bundles ..).trans hv))

theorem World.askCoreReset_bundles (w : World) (t why : Nat) (held : Bool) : (w.askCoreReset t why held).d.bundles = w.d.bundles := by
  unfold World.askCoreReset
  split
  · rfl
  · rw [World.setFld_d, Dev.setFld_bundles, World.onDev_d, Dev.setBit_bundles, Dev.onTower_bundles]

theorem World.fenceTower_bundles (w : World) (t : Nat) : (w.fenceTower t).d.bundles = w.d.bundles := by
  unfold World.fenceTower
  split
  · rfl
  · rw [World.askCoreReset_bundles, World.stackEvent_bundles, World.revalidate_bundles, World.stopServices_bundles, World.setBit_d,
      Dev.setBit_bundles, World.setFld_d, Dev.setFld_bundles]

theorem World.bundleLost_bundles (w : World) (k : Nat) : (w.bundleLost k).d.bundles = w.d.bundles := by
  unfold World.bundleLost
  dsimp only
  split
  · exact World.fenceTower_bundles ..
  · split
    · exact foldl_keeps (fun v : World => v.d.bundles = w.d.bundles) _ _ (fun v t _ hv => (World.fenceTower_bundles v t).trans hv) w rfl
    · rfl

theorem Dev.testsEnded_bundles (d : Dev) (t : Nat) : (d.testsEnded t).bundles = d.bundles := by
  unfold Dev.testsEnded
  dsimp only
  split <;> rfl

theorem World.wipeTower_d (w : World) (t : Nat) : (w.wipeTower t).d = w.d := by
  unfold World.wipeTower
  rw [World.put_d, World.put_d]
  refine foldl_keeps (fun u : World => u.d = w.d) _ _ (fun u k _ hu => ?_) w rfl
  rw [World.put_d, hu]

theorem World.restoreEnds_bundles (w : World) (t : Nat) : (w.restoreEnds t).d.bundles = w.d.bundles := by
  unfold World.restoreEnds
  dsimp only
  split
  · split
    · rw [World.onDev_d, Dev.opEnded_bundles, World.stackEvent_bundles, World.wipeTower_d, World.setFld_d, Dev.setFld_bundles, World.setFld_d, Dev.setFld_bundles,
        World.onDev_d, Dev.onTower_bundles]
    · rw [World.onDev_d, Dev.opEnded_bundles, World.askCoreReset_bundles, World.onDev_d, Dev.onTower_bundles]
  · rfl

/-! ## A test's verdict -/

/-- A failed lane leaves a bundle's test, count and state as they were. -/
theorem narrow_keeps (cls : Nat) (x : Bundle) :
    (narrow cls x).underTest = x.underTest ∧ (narrow cls x).lasting = x.lasting ∧ (narrow cls x).state = x.state := by
  unfold narrow
  dsimp only
  refine foldl_keeps (fun y : Bundle => y.underTest = x.underTest ∧ y.lasting = x.lasting ∧ y.state = x.state) _ _ (fun y l _ hy => ?_) _ ⟨rfl, rfl, rfl⟩
  split <;> exact hy

theorem laneFails_keeps (cls : Nat) (s : Bundle × Option Nat) (lane : Nat) :
    (laneFails cls s lane).1.underTest = s.1.underTest ∧ (laneFails cls s lane).1.state = s.1.state := by
  unfold laneFails
  dsimp only
  generalize hb : (if s.1.failed.contains lane = true then s.1 else { s.1 with failed := s.1.failed ++ [lane] }) = x
  have hx : x.underTest = s.1.underTest ∧ x.state = s.1.state := by
    subst hb
    split <;> exact ⟨rfl, rfl⟩
  split
  · exact hx
  · split
    · exact hx
    · next l _ _ _ =>
      split
      · have hn := narrow_keeps cls { x with spares := tdel x.spares l }
        exact ⟨hn.1.trans hx.1, hn.2.2.trans hx.2⟩
      · exact hx

/-- The lanes that fail a bundle under test, and the verdict. -/
def Bundle.verdict (x : Bundle) (cls : Nat) (failed : List Nat) : Bundle × Option Nat :=
  failed.foldl (laneFails cls) ({ x with underTest := 0, next := x.state }, none)

theorem Bundle.verdict_keeps (x : Bundle) (cls : Nat) (failed : List Nat) :
    (x.verdict cls failed).1.underTest = 0 ∧ (x.verdict cls failed).1.state = x.state :=
  foldl_keeps (fun s : Bundle × Option Nat => s.1.underTest = 0 ∧ s.1.state = x.state) (laneFails cls) failed
    (fun s lane _ hs => ⟨(laneFails_keeps cls s lane).1.trans hs.1, (laneFails_keeps cls s lane).2.trans hs.2⟩) _ ⟨rfl, rfl⟩

/-- The end of a test: the tower's status, its field pass, its BIST and what waits for it. -/
def World.testCloses (w : World) (t test : Nat) : World :=
  let w := w.onDev (fun d => d.stkStatus t)
  let w := if test ≥ 2 ∧ (w.d.tower t).field.isEmpty then w.setReg (STK t + 0x30) (BitVec.ofNat 64 w.d.fretNum) else w
  (w.onDev (fun d => (d.testsEnded t).bistJobs)).restoreEnds t

theorem Dev.bistJobs_bundles (d : Dev) : d.bistJobs.bundles = d.bundles := rfl

theorem World.testCloses_bundles (w : World) (t test : Nat) : (w.testCloses t test).d.bundles = w.d.bundles := by
  unfold World.testCloses
  dsimp only
  rw [World.restoreEnds_bundles, World.onDev_d, Dev.bistJobs_bundles, Dev.testsEnded_bundles]
  split
  · rw [World.setReg_d, Dev.setReg_bundles, World.onDev_d, (Dev.stkStatus_regsOnly w.d t).bundles]
  · rw [World.onDev_d, (Dev.stkStatus_regsOnly w.d t).bundles]

section
variable {b : BundleId} {failed : List Nat} {w : World}

/-- A test that finds no lane failing counts a transient. -/
theorem doBundleTestDone_transient (ht : (w.d.bundle (bundleIdKey b)).underTest ≠ 0)
    (hr : ((w.d.bundle (bundleIdKey b)).verdict b.cls.val failed).2 = none) :
    ∃ v : World, doBundleTestDone b failed w = v.testCloses b.tower.val (w.d.bundle (bundleIdKey b)).underTest ∧
      v.d.bundle (bundleIdKey b) = { ((w.d.bundle (bundleIdKey b)).verdict b.cls.val failed).1 with
        transients := (w.d.bundle (bundleIdKey b)).transients + 1 } := by
  unfold doBundleTestDone
  unfold Bundle.verdict at hr ⊢
  dsimp only
  generalize w.d.bundle (bundleIdKey b) = x at *
  generalize failed.foldl (laneFails b.cls.val) ({ x with underTest := 0, next := x.state }, none) = r at *
  rw [if_neg ht, hr, if_neg (show ¬(3 ≤ x.underTest ∧ (none : Option Nat).isSome = true) by simp)]
  dsimp only
  refine ⟨_, rfl, ?_⟩
  split
  · rw [Dev.bundle_congr (World.stackEvent_bundles ..), World.onDev_d, Dev.bundle_congr (Dev.onTower_bundles ..), World.onDev_d]
    exact Dev.onBundle_bundle_self ..
  · exact Dev.onBundle_bundle_self ..

/-- What a bundle is after a targeted test has found a failing lane. -/
def Bundle.repaired (x : Bundle) (cls : Nat) (failed : List Nat) (v : Nat) : Bundle :=
  if v = 3 then { (x.verdict cls failed).1 with lasting := x.lasting + 1, state := 4, remapping := false }
  else { (x.verdict cls failed).1 with lasting := x.lasting + 1, remapping := true }

theorem doBundleTestDone_lasting {v : Nat} (ht : (w.d.bundle (bundleIdKey b)).underTest ≠ 0) (ht3 : (w.d.bundle (bundleIdKey b)).underTest < 3)
    (hr : ((w.d.bundle (bundleIdKey b)).verdict b.cls.val failed).2 = some v) :
    ∃ u : World, doBundleTestDone b failed w = u.testCloses b.tower.val (w.d.bundle (bundleIdKey b)).underTest ∧
      u.d.bundle (bundleIdKey b) = (w.d.bundle (bundleIdKey b)).repaired b.cls.val failed v := by
  unfold doBundleTestDone Bundle.repaired
  unfold Bundle.verdict at hr ⊢
  dsimp only
  generalize w.d.bundle (bundleIdKey b) = x at *
  generalize failed.foldl (laneFails b.cls.val) ({ x with underTest := 0, next := x.state }, none) = r at *
  rw [if_neg ht, hr, if_neg (show ¬(3 ≤ x.underTest ∧ (some v).isSome = true) by omega)]
  dsimp only
  refine ⟨_, rfl, ?_⟩
  by_cases hv : v = 3
  · subst hv
    simp only [if_pos, Bool.false_eq_true, if_false]
    rw [if_neg (by decide), Dev.bundle_congr ((World.bundleLost_bundles ..).trans (World.stackEvent_bundles ..))]
    exact Dev.onBundle_bundle_self ..
  · simp only [ne_eq, hv, not_false_eq_true, decide_true, if_true, if_false]
    split
    · rw [Dev.bundle_congr (World.stackEvent_bundles ..), World.setBit_d, Dev.bundle_congr (Dev.setBit_bundles ..), World.onDev_d]
      exact Dev.onBundle_bundle_self ..
    · rw [World.setBit_d, Dev.bundle_congr (Dev.setBit_bundles ..), World.onDev_d]
      exact Dev.onBundle_bundle_self ..

/-- An early or late test point that finds a failing lane is marginal. -/
theorem doBundleTestDone_marginal {v : Nat} (ht : 3 ≤ (w.d.bundle (bundleIdKey b)).underTest)
    (hr : ((w.d.bundle (bundleIdKey b)).verdict b.cls.val failed).2 = some v) :
    ∃ u : World, doBundleTestDone b failed w = u.testCloses b.tower.val (w.d.bundle (bundleIdKey b)).underTest ∧
      (u.d.bundle (bundleIdKey b)).underTest = 0 ∧ (u.d.bundle (bundleIdKey b)).lasting = (w.d.bundle (bundleIdKey b)).lasting + 1 ∧
      (u.d.bundle (bundleIdKey b)).state = (w.d.bundle (bundleIdKey b)).state := by
  have hkeeps := (w.d.bundle (bundleIdKey b)).verdict_keeps b.cls.val failed
  unfold doBundleTestDone
  unfold Bundle.verdict at hr hkeeps
  dsimp only
  generalize w.d.bundle (bundleIdKey b) = x at *
  generalize failed.foldl (laneFails b.cls.val) ({ x with underTest := 0, next := x.state }, none) = r at *
  rw [if_neg (show x.underTest ≠ 0 by omega), hr, if_pos (show 3 ≤ x.underTest ∧ (some v).isSome = true from ⟨ht, rfl⟩)]
  refine ⟨_, rfl, ?_⟩
  split
  · rw [World.onDev_d, Dev.bundle_congr (Dev.setBit_bundles ..), Dev.onBundle_bundle_self]
    exact ⟨hkeeps.1, rfl, hkeeps.2⟩
  · rw [World.onDev_d, Dev.onBundle_bundle_self]
    exact ⟨rfl, rfl, rfl⟩

end

/-! ## A remap's end -/

theorem World.stackEvent_wr (w : World) (t cls idx state free kind layer : Nat) (st : W16) (logCls : Nat) :
    (w.stackEvent t cls idx state free kind layer st logCls).wr = w.wr := by
  unfold World.stackEvent World.event
  dsimp only
  split
  · rw [World.onDev_wr]
  · rw [World.log_wr, World.onDev_wr]

theorem doBundleRemapDone_spec {b : BundleId} {w : World} (h : (w.d.bundle (bundleIdKey b)).remapping = true) :
    (doBundleRemapDone b w).wr = w.wr ∧ (doBundleRemapDone b w).d.bundle (bundleIdKey b) =
      { w.d.bundle (bundleIdKey b) with remapping := false, state := (w.d.bundle (bundleIdKey b)).next } := by
  have hremapped : ((w.d.onBundle (bundleIdKey b) (fun y => { y with remapping := false, state := y.next })).stkStatus b.tower.val).bundle
      (bundleIdKey b) = { w.d.bundle (bundleIdKey b) with remapping := false, state := (w.d.bundle (bundleIdKey b)).next } :=
    (Dev.bundle_congr (Dev.stkStatus_regsOnly ..).bundles _).trans (Dev.onBundle_bundle_self ..)
  unfold doBundleRemapDone
  dsimp only
  rw [h, Bool.not_true, if_neg Bool.false_ne_true]
  split
  · rw [World.revalidate_wr, World.stackEvent_wr, World.onDev_wr,
      Dev.bundle_congr ((World.revalidate_bundles ..).trans (World.stackEvent_bundles ..)), World.onDev_d, hremapped]
    exact ⟨rfl, rfl⟩
  · rw [World.onDev_wr, World.onDev_d, hremapped]
    exact ⟨rfl, rfl⟩

/-! ## What the commands of a bundle leave -/

section
variable {b : BundleId} {s : State}

/-- A good flit that its bundle takes: turned first, then taken in order, NAKed or let by. -/
theorem bundleFlitRx_taken {flit : List Byte} {framing : W64} (live : s.live) (hq : (s.dev.quiet b.tower.val && b.cls.val != 4) = false)
    (hcrc : flitCrc16 flit framing = bitsOf framing.toNat 31 16)
    (ht : (s.dev.bundle (bundleIdKey b)).turns b.cls.val (bitOf framing.toNat 2) = false ∨ (s.dev.bundle (bundleIdKey b)).holdsDir = false) :
    let x := s.dev.bundle (bundleIdKey b)
    let y := x.facing b.cls.val (bitOf framing.toNat 2)
    let seq := bitsOf framing.toNat 10 6
    ∃ t, exec (.bundleFlitRx b flit framing) s = .next t ∧ t.mem = s.mem ∧
      (bitsOf framing.toNat 5 4 = 1 → seq = y.expectSeq →
        t.dev.out = s.dev.out ++ turnAck b x (bitOf framing.toNat 2) ++ (if 7 ≤ y.heard then [.bundleAck b seq] else []) ∧
        t.dev.bundle (bundleIdKey b) = { y with
          run := min 128 (y.run + 1), expectSeq := (y.expectSeq + 1) % 32, nakRun := 0, pend := if 7 ≤ y.heard then none else some seq,
          heard := if 7 ≤ y.heard then 0 else y.heard + 1 }) ∧
      (bitsOf framing.toNat 5 4 = 1 → seq ≠ y.expectSeq →
        t.dev.out = s.dev.out ++ turnAck b x (bitOf framing.toNat 2) ++ [.bundleNak b y.expectSeq] ∧
        t.dev.bundle (bundleIdKey b) = { y with run := min 128 (y.run + 1) }) ∧
      (bitsOf framing.toNat 5 4 ≠ 1 → t.dev.out = s.dev.out ++ turnAck b x (bitOf framing.toNat 2) ∧
        t.dev.bundle (bundleIdKey b) = { y with run := min 128 (y.run + 1) }) := by
  intro x y seq
  obtain ⟨hbundle, hout, hwr⟩ := s.world.turnBundle_spec b (bitOf framing.toNat 2)
  have hrun := doBundleFlitRx_taken (w := s.world) hq hcrc ht
  have hexpect : ((s.world.turnBundle b (bitOf framing.toNat 2)).d.bundle (bundleIdKey b)).expectSeq = y.expectSeq := (congrArg Bundle.expectSeq hbundle :)
  dsimp only at hrun
  rw [hexpect] at hrun
  by_cases htyp : bitsOf framing.toNat 5 4 = 1
  · rw [if_neg (Classical.not_not.2 htyp)] at hrun
    by_cases hseq : seq = y.expectSeq
    · rw [if_pos hseq] at hrun
      obtain ⟨hbundle', hout', hwr'⟩ := (s.world.turnBundle b (bitOf framing.toNat 2)).bundleInOrder_spec b seq
      rw [hbundle] at hbundle' hout'
      rw [hout] at hout'
      exact ⟨_, runLive_eq_world live hrun, commit_mem_nil (hwr'.trans hwr), fun _ _ => ⟨hout', hbundle'⟩,
        fun _ hne => absurd hseq hne, fun hne => absurd htyp hne⟩
    · rw [if_neg hseq] at hrun
      exact ⟨_, runLive_eq_world live hrun, commit_mem_nil hwr, fun _ h => absurd h hseq,
        fun _ _ => ⟨congrArg (· ++ [Out.bundleNak b y.expectSeq]) hout, (Dev.bundle_congr (Dev.emit_bundles ..) _).trans hbundle⟩,
        fun hne => absurd htyp hne⟩
  · rw [if_pos htyp] at hrun
    exact ⟨_, runLive_eq_world live hrun, commit_mem_nil hwr, fun h => absurd h htyp, fun h => absurd h htyp, fun _ => ⟨hout, hbundle⟩⟩

theorem bundleFlitRx_naks {flit : List Byte} {framing : W64} (live : s.live) (hq : (s.dev.quiet b.tower.val && b.cls.val != 4) = false)
    (hcrc : flitCrc16 flit framing ≠ bitsOf framing.toNat 31 16) :
    let x := s.dev.bundle (bundleIdKey b)
    ∃ t, exec (.bundleFlitRx b flit framing) s = .next t ∧ t.mem = s.mem ∧ t.dev.out = s.dev.out ++ [.bundleNak b x.expectSeq] ∧
      (t.dev.bundle (bundleIdKey b)).replays = x.replays + 1 ∧ (t.dev.bundle (bundleIdKey b)).expectSeq = x.expectSeq ∧
      (x.nakked ≠ 4 → ((t.dev.tower b.tower.val).queue.contains (bundleIdKey b) = true ∨ x.underTest ≠ 0) ∧
        (t.dev.bundle (bundleIdKey b)).remapping = x.remapping) ∧
      (x.nakked = 4 → (t.dev.bundle (bundleIdKey b)).remapping = true ∧ (t.dev.bundle (bundleIdKey b)).next = x.state ∧
        t.dev.fld FT_HOLD_CAUSE 2 2 = 1) := by
  intro x
  obtain ⟨hbundle, hout, hwr, hqueued⟩ := s.world.naks_spec b
  by_cases h4 : x.nakked = 4
  · have hrun := (doBundleFlitRx_bad (w := s.world) hq hcrc).trans (if_pos h4)
    obtain ⟨hbundle', hout', hwr', hcause⟩ := (s.world.naks b).retrains_spec b
    rw [hbundle] at hbundle'
    refine ⟨_, runLive_eq_world live hrun, commit_mem_nil (hwr'.trans hwr), hout'.trans hout, (congrArg Bundle.replays hbundle' :),
      (congrArg Bundle.expectSeq hbundle' :), fun h => absurd h4 h, fun _ => ⟨(congrArg Bundle.remapping hbundle' :), (congrArg Bundle.next hbundle' :), hcause⟩⟩
  · have hrun := (doBundleFlitRx_bad (w := s.world) hq hcrc).trans (if_neg h4)
    exact ⟨_, runLive_eq_world live hrun, commit_mem_nil hwr, hout, (congrArg Bundle.replays hbundle :), (congrArg Bundle.expectSeq hbundle :),
      fun _ => ⟨hqueued, (congrArg Bundle.remapping hbundle :)⟩, fun h => absurd h h4⟩

/-- A test's end, by the world its verdict leaves. -/
theorem bundleTestDone_ends {failed : List Nat} {v : World} (live : s.live) {P : Bundle → Prop}
    (h : doBundleTestDone b failed s.world = v.testCloses b.tower.val (s.dev.bundle (bundleIdKey b)).underTest)
    (hv : P (v.d.bundle (bundleIdKey b))) : ∃ t, exec (.bundleTestDone b failed) s = .next t ∧ P (t.dev.bundle (bundleIdKey b)) :=
  ⟨_, runLive_eq_world live h, (Dev.bundle_congr (v.testCloses_bundles ..) _).symm ▸ hv⟩

end

/-- Settles O54: a flit turns, is taken or NAKed; a test's end and a remap's end leave the bundle as its verdict says. -/
theorem bundlesReplayAndRepair : Obligations.BundlesReplayAndRepair := by
  unfold Obligations.BundlesReplayAndRepair
  refine ⟨fun b flit framing s live hq hcrc => ?_,
    fun b flit framing s live hq hcls => runLive_eq_dev live (doBundleFlitRx_quiet (by
      rw [show s.world.d.quiet b.tower.val = true from hq]; simpa using hcls)),
    fun b flit framing s live hq hcrc => bundleFlitRx_naks live hq hcrc,
    fun b block s live => runLive_eq_dev live rfl, fun b failed s live => ?_,
    fun b s live h => ⟨_, runLive_eq_world live rfl, commit_mem_nil (doBundleRemapDone_spec h).1,
      congrArg Bundle.remapping (doBundleRemapDone_spec h).2, congrArg Bundle.state (doBundleRemapDone_spec h).2⟩,
    fun t s live hctrl hfield => runLive_eq_dev live (if_pos ⟨hctrl, hfield.symm ▸ rfl⟩)⟩
  · intro k x dir turns y seq ack
    refine ⟨fun ht hh => runLive_eq_dev live (doBundleFlitRx_holds hq hcrc ht hh), fun htakes htyp => ?_, fun htakes htyp => ?_⟩
    · obtain ⟨t, run, mem, inOrder, outOfOrder, -⟩ := bundleFlitRx_taken live hq hcrc htakes
      refine ⟨fun hseq => ?_, fun hseq => ?_⟩
      · obtain ⟨hout, hbundle⟩ := inOrder htyp hseq
        exact ⟨t, run, mem, hout, (congrArg Bundle.expectSeq hbundle).trans (hseq ▸ rfl), (congrArg Bundle.dir hbundle :), (congrArg Bundle.run hbundle :), (congrArg Bundle.pend hbundle :)⟩
      · obtain ⟨hout, hbundle⟩ := outOfOrder htyp hseq
        exact ⟨t, run, mem, hout, (congrArg Bundle.expectSeq hbundle :)⟩
    · obtain ⟨t, run, mem, -, -, other⟩ := bundleFlitRx_taken live hq hcrc htakes
      obtain ⟨hout, hbundle⟩ := other htyp
      exact ⟨t, run, mem, hout, (congrArg Bundle.expectSeq hbundle :), (congrArg Bundle.run hbundle :)⟩
  · intro k x r ht
    have hkeeps := x.verdict_keeps b.cls.val failed
    refine ⟨fun hr => ?_, fun v hr ht3 => ?_, fun v hr ht3 => ?_⟩
    · obtain ⟨u, hrun, hbundle⟩ := doBundleTestDone_transient (w := s.world) ht hr
      refine bundleTestDone_ends (P := fun z => z.underTest = 0 ∧ z.transients = x.transients + 1 ∧ z.state = x.state) live hrun ?_
      rw [hbundle]
      exact ⟨hkeeps.1, rfl, hkeeps.2⟩
    · obtain ⟨u, hrun, hbundle⟩ := doBundleTestDone_lasting (w := s.world) ht ht3 hr
      refine bundleTestDone_ends (P := fun z => z.underTest = 0 ∧ z.lasting = x.lasting + 1 ∧ z.spares = r.1.spares ∧
        (v ≠ 3 → z.remapping = true ∧ z.state = x.state) ∧ (v = 3 → z.state = 4)) live hrun ?_
      rw [hbundle]
      unfold Bundle.repaired
      by_cases hv : v = 3
      · rw [if_pos hv]
        exact ⟨hkeeps.1, rfl, rfl, fun h => absurd hv h, fun _ => rfl⟩
      · rw [if_neg hv]
        exact ⟨hkeeps.1, rfl, rfl, fun _ => ⟨rfl, hkeeps.2⟩, fun h => absurd h hv⟩
    · obtain ⟨u, hrun, hbundle⟩ := doBundleTestDone_marginal (w := s.world) ht3 hr
      exact bundleTestDone_ends (P := fun z => z.underTest = 0 ∧ z.lasting = x.lasting + 1 ∧ z.state = x.state) live hrun hbundle

end Sys2Proof.Machine
end

section
/-! PROOF. The core reset of a tower (R504, R508 to R510). -/

namespace Sys2Proof.Machine

theorem Dev.tower_congr {d e : Dev} (h : e.towers = d.towers) (t : Nat) : e.tower t = d.tower t := congrArg (tget Tower.init · t) h
theorem Dev.RegsOnly.tower {d e : Dev} (h : d.RegsOnly e) (t : Nat) : e.tower t = d.tower t := Dev.tower_congr (congrArg Dev.towers h :) t
theorem Dev.RegsOnly.course {d e : Dev} (h : d.RegsOnly e) (c : Nat) : e.course c = d.course c := congrArg (tget Course.init · c) h.courses
theorem Dev.setFld_tower (d : Dev) (a hi lo x t : Nat) : (d.setFld a hi lo x).tower t = d.tower t := rfl

/-! ## The fence -/

theorem World.enterStop_wr (w : World) (i : Nat) (x : Stop) : (w.enterStop i x).wr = w.wr := by
  unfold World.enterStop
  dsimp only
  split
  · rw [World.onDev_wr, World.raise_wr, World.onDev_wr, World.onDev_wr]
  · rw [World.onDev_wr, World.onDev_wr, World.onDev_wr]

theorem World.faultTower_wr (w : World) (t : Nat) : (w.faultTower t).wr = w.wr := by
  unfold World.faultTower
  refine foldl_keeps (fun v : World => v.wr = w.wr) _ _ (fun v i _ hv => ?_) w rfl
  dsimp only
  split
  · exact hv
  · split
    · rw [World.raise_wr, World.enterStop_wr, hv]
    · split
      · rw [World.enterStop_wr, hv]
      · exact hv

section
variable {t : Fin 8} {s : State}

theorem fenceStart_fences (live : s.live) (hstep : (s.dev.tower t.val).step = .waiting) (hrun : s.dev.towerRunning t.val = false)
    (hengine : s.dev.engineBusy s.mem t.val = false) (hevict : s.dev.towerToEvict t.val = false) :
    ∃ u, exec (.fenceStart t) s = .next u ∧ u.mem = s.mem ∧ (u.dev.tower t.val).step = .fenced ∧ u.dev.fld (STK t.val) 2 2 = 1 := by
  have hgo : doFenceStart t s.world = ((if (s.dev.tower t.val).why = 0 then s.world else s.world.faultTower t.val).onDev
      (fun d => d.onTower t.val (fun x => { x with step := .fenced }))).setFld (STK t.val) 2 2 1 :=
    if_pos ⟨hstep, by simp [show s.world.d.towerRunning t.val = false from hrun], by
      simp [show s.world.d.engineBusy s.world.mem t.val = false from hengine], by simp [show s.world.d.towerToEvict t.val = false from hevict]⟩
  have hwr : (if (s.dev.tower t.val).why = 0 then s.world else s.world.faultTower t.val).wr = [] := by
    split
    · rfl
    · exact World.faultTower_wr ..
  generalize (if (s.dev.tower t.val).why = 0 then s.world else s.world.faultTower t.val) = v at hgo hwr
  refine ⟨_, runLive_eq_world live hgo, commit_mem_nil ?_, ?_, ?_⟩
  · rw [World.setFld_wr, World.onDev_wr, hwr]
  · rw [commit_dev, World.setFld_d, Dev.setFld_tower, World.onDev_d, onTower_tower_self]
  · rw [commit_dev, World.setFld_d, Dev.setFld_fld_fits _ _ _ (by decide) (by decide) (by decide)]

theorem fenceStart_waits (live : s.live) (h : s.dev.towerRunning t.val = true ∨ s.dev.engineBusy s.mem t.val = true ∨ s.dev.towerToEvict t.val = true) :
    exec (.fenceStart t) s = .next s := by
  refine runLive_eq_dev live (if_neg ?_)
  rintro ⟨-, hrun, hengine, hevict⟩
  obtain h | h | h := h
  · exact absurd hrun (by simp [show s.world.d.towerRunning t.val = true from h])
  · exact absurd hengine (by simp [show s.world.d.engineBusy s.world.mem t.val = true from h])
  · exact absurd hevict (by simp [show s.world.d.towerToEvict t.val = true from h])

/-! ## The assertion -/

theorem Dev.clearRange_rget (d : Dev) {lo hi a : Nat} (keep : Nat → Bool) (h : a < lo ∨ hi ≤ a) :
    rget (d.clearRange lo hi keep).regs a = rget d.regs a := by
  have hk := rget_filter (fun a => decide (a < lo) || decide (hi ≤ a) || keep a) d.regs a
  rwa [if_pos (by obtain h | h := h <;> simp [h])] at hk

theorem foldl_setCourse_init (xs : List Nat) (c : Nat) : ∀ d : Dev, c ∈ xs ∨ d.course c = .init →
    (xs.foldl (fun d c => d.setCourse c .init) d).course c = .init := by
  induction xs with
  | nil => exact fun d h => h.resolve_left List.not_mem_nil
  | cons x xs ih =>
    refine fun d h => ih _ ?_
    by_cases hx : c = x
    · subst hx
      exact .inr (tget_tput_self ..)
    · obtain h | h := h
      · exact .inl ((List.mem_cons.1 h).resolve_left hx)
      · exact .inr ((tget_tput_ne _ _ _ hx).trans h)

theorem Dev.coreClear_courses (d : Dev) (t : Nat) :
    (d.coreClear t).courses = ((towerCourses t).foldl (fun d c => d.setCourse c .init) d).courses := by
  unfold Dev.coreClear
  dsimp only
  split
  · rw [Dev.setFld_courses, Dev.setFld_courses]
    rfl
  · rfl

/-- The clearing of a tower's registers leaves the others as they were. -/
theorem Dev.coreClear_rget (d : Dev) {t a : Nat} (hroute : a ≠ EF_ROUTE_INFO) (hcc : a < ccBase (12 * t) ∨ ccBase (12 * t + 12) ≤ a)
    (hue : a < UER t ∨ UER t + 0x10000 ≤ a) (hmem : a < MEMR t ∨ MEMR t + 0x10000 ≤ a) (hef : a < EFR t ∨ EFR t + 0x10000 ≤ a) :
    rget (d.coreClear t).regs a = rget d.regs a := by
  have hcourses : ((towerCourses t).foldl (fun d c => d.setCourse c .init) d).regs = d.regs :=
    foldl_keeps (fun e : Dev => e.regs = d.regs) (fun d c => d.setCourse c .init) _ (fun _ _ _ he => he) d rfl
  unfold Dev.coreClear
  dsimp only
  split
  · rw [Dev.setFld_rget_ne _ _ _ _ hroute, Dev.setFld_rget_ne _ _ _ _ hroute, Dev.clearRange_rget _ _ hef, Dev.clearRange_rget _ _ hmem,
      Dev.clearRange_rget _ _ hue, Dev.clearRange_rget _ _ hcc, hcourses]
  · rw [Dev.clearRange_rget _ _ hef, Dev.clearRange_rget _ _ hmem, Dev.clearRange_rget _ _ hue, Dev.clearRange_rget _ _ hcc, hcourses]

/-- The device with a tower's clocks stopped: cleared, its reset reported and counted, the wardens told why. -/
def Dev.coreAsserted (d : Dev) (t why : Nat) : Dev :=
  (List.range 2).foldl (fun d i => d.setReg (WD (wardenTower i) + 0x18) (BitVec.ofNat 64 (coreCode why)))
    ((((((d.coreClear t).onTower t (fun x => { x with step := .asserted })).setFld (RST t + 8) 1 0 1).setBit (RST t) (7 + why)).count
      (RST t + 0x10) 63 0 1))

theorem Dev.coreAsserted_regsOnly (d : Dev) (t why : Nat) :
    ((d.coreClear t).onTower t (fun x => { x with step := .asserted })).RegsOnly (d.coreAsserted t why) :=
  (((Dev.setFld_regsOnly ..).trans (Dev.setBit_regsOnly ..)).trans (Dev.count_regsOnly ..)).trans
    (foldl_regsOnly (fun d i => d.setReg_regsOnly (WD (wardenTower i) + 0x18) (BitVec.ofNat 64 (coreCode why))) _ _)

theorem RST_ne_WD {t i : Nat} (k : Nat) (hk : k < 0x100) : RST t + k ≠ WD (wardenTower i) + 0x18 := by
  unfold RST WD wardenTower twBase
  omega

theorem Dev.coreAsserted_rget (d : Dev) (t why k : Nat) (hk : k < 0x100) :
    rget (d.coreAsserted t why).regs (RST t + k) = rget (((((d.coreClear t).onTower t (fun x => { x with step := .asserted })).setFld (RST t + 8)
      1 0 1).setBit (RST t) (7 + why)).count (RST t + 0x10) 63 0 1).regs (RST t + k) := by
  unfold Dev.coreAsserted
  exact foldl_rget_ne _ (fun d i _ => Dev.setReg_rget_ne d _ (RST_ne_WD k hk)) _

theorem Dev.coreAsserted_spec (d : Dev) {t why : Nat} (ht : t < 8) (hwhy : why ≤ 2) :
    ((d.coreAsserted t why).tower t).step = .asserted ∧ (∀ c ∈ towerCourses t, (d.coreAsserted t why).course c = .init) ∧
    (d.coreAsserted t why).fld (RST t) (7 + why) (7 + why) = 1 ∧
    rget (d.coreAsserted t why).regs (RST t + 0x10) = rget (rcount d.regs (RST t + 0x10) 63 0 1) (RST t + 0x10) := by
  have hregs := d.coreAsserted_regsOnly t why
  have hne : RST t + 0x10 ≠ RST t ∧ RST t ≠ RST t + 0x10 := by omega
  refine ⟨?_, fun c hc => ?_, ?_, ?_⟩
  · rw [hregs.tower, onTower_tower_self]
  · rw [hregs.course, Dev.course, Dev.onTower_courses, Dev.coreClear_courses]
    exact foldl_setCourse_init _ c d (.inl hc)
  · have hrst := d.coreAsserted_rget t why 0 (by decide)
    rw [Nat.add_zero] at hrst
    rw [Dev.fld_congr hrst, Dev.fld_congr (Dev.count_rget_ne _ _ _ _ hne.2)]
    exact Dev.setBit_fld_self _ _ (by omega)
  · rw [d.coreAsserted_rget t why 0x10 (by decide), Dev.count, if_neg (by decide)]
    refine rget_rcount_congr ?_ 63 0 1
    rw [Dev.setBit_rget_ne _ _ hne.1, Dev.setFld_rget_ne _ _ _ _ (by omega), Dev.onTower_regs]
    unfold RST
    refine Dev.coreClear_rget d ?_ ?_ ?_ ?_ ?_ <;> simp only [twBase, EF_ROUTE_INFO, ccBase, UER, MEMR, EFR] <;> omega

theorem World.setReg_fold (xs : List Nat) (f : Nat → Nat) (g : Nat → W64) (w : World) :
    xs.foldl (fun w i => w.setReg (f i) (g i)) w = w.onDev (fun d => xs.foldl (fun d i => d.setReg (f i) (g i)) d) := by
  induction xs generalizing w with
  | nil => rfl
  | cons x xs ih => exact ih _

/-- The assertion as the model runs it. -/
def World.coreAsserted (w : World) (t why : Nat) : World :=
  (List.range 2).foldl (fun w i => w.setReg (WD (wardenTower i) + 0x18) (BitVec.ofNat 64 (coreCode why)))
    ((((w.onDev (fun d => (d.coreClear t).onTower t (fun x => { x with step := .asserted }))).setFld (RST t + 8) 1 0 1).setBit (RST t)
      (7 + why)).count (RST t + 0x10) 63 0 1)

theorem World.coreAsserted_spec (w : World) (t why : Nat) :
    (w.coreAsserted t why).d = w.d.coreAsserted t why ∧ (w.coreAsserted t why).wr = w.wr := by
  unfold World.coreAsserted Dev.coreAsserted
  rw [World.setReg_fold (List.range 2) (fun i => WD (wardenTower i) + 0x18)]
  refine ⟨?_, ?_⟩
  · rw [World.onDev_d, World.count_d, World.setBit_d, World.setFld_d, World.onDev_d]
  · rw [World.onDev_wr, World.count_wr, World.setBit_wr, World.setFld_wr, World.onDev_wr]

/-- The assertion, where the reset has fenced its tower. -/
theorem doCoreResetAssert_fenced {w : World} (h : (w.d.tower t.val).step = .fenced) :
    doCoreResetAssert t w = if (w.d.tower t.val).held
      then (w.coreAsserted t.val (w.d.tower t.val).why).onDev (fun d => d.opEnded 0x602 (fun h => h.p0.toNat == t.val) stOk 0)
      else w.coreAsserted t.val (w.d.tower t.val).why := if_pos h

theorem Dev.opEnded_tower (d : Dev) (op : Nat) (p : HostCmd → Bool) (st det : W16) (t : Nat) : (d.opEnded op p st det).tower t = d.tower t := rfl
theorem Dev.opEnded_fld (d : Dev) (op : Nat) (p : HostCmd → Bool) (st det : W16) (a hi lo : Nat) :
    (d.opEnded op p st det).fld a hi lo = d.fld a hi lo := rfl

theorem doCoreResetAssert_spec {w : World} (hstep : (w.d.tower t.val).step = .fenced) (hwhy : (w.d.tower t.val).why ≤ 2) :
    (doCoreResetAssert t w).wr = w.wr ∧ ((doCoreResetAssert t w).d.tower t.val).step = .asserted ∧
      (∀ c ∈ towerCourses t.val, (doCoreResetAssert t w).d.course c = .init) ∧
      (doCoreResetAssert t w).d.fld (RST t.val) (7 + (w.d.tower t.val).why) (7 + (w.d.tower t.val).why) = 1 ∧
      rget (doCoreResetAssert t w).d.regs (RST t.val + 0x10) = rget (rcount w.d.regs (RST t.val + 0x10) 63 0 1) (RST t.val + 0x10) := by
  have hspec := w.d.coreAsserted_spec (why := (w.d.tower t.val).why) t.isLt hwhy
  obtain ⟨hdev, hwr⟩ := w.coreAsserted_spec t.val (w.d.tower t.val).why
  rw [doCoreResetAssert_fenced hstep]
  generalize w.coreAsserted t.val (w.d.tower t.val).why = v at hdev hwr ⊢
  rw [← hdev] at hspec
  split
  · obtain ⟨hstep', hcourses, hcause, hcount⟩ := hspec
    rw [World.onDev_wr, World.onDev_d, Dev.opEnded_tower, Dev.opEnded_fld, Dev.opEnded_regs]
    refine ⟨hwr, hstep', fun c hc => ?_, hcause, hcount⟩
    rw [Dev.course, Dev.opEnded_courses]
    exact hcourses c hc
  · exact ⟨hwr, hspec⟩

theorem coreResetAssert_asserts (live : s.live) (hstep : (s.dev.tower t.val).step = .fenced) (hwhy : (s.dev.tower t.val).why ≤ 2) :
    ∃ u, exec (.coreResetAssert t) s = .next u ∧ u.mem = s.mem ∧ (u.dev.tower t.val).step = .asserted ∧
      (∀ c ∈ towerCourses t.val, u.dev.course c = .init) ∧ u.dev.fld (RST t.val) (7 + (s.dev.tower t.val).why) (7 + (s.dev.tower t.val).why) = 1 ∧
      rget u.dev.regs (RST t.val + 0x10) = rget (rcount s.dev.regs (RST t.val + 0x10) 63 0 1) (RST t.val + 0x10) := by
  obtain ⟨hwr, hspec⟩ := doCoreResetAssert_spec (w := s.world) hstep hwhy
  exact ⟨_, runLive_eq_world live rfl, commit_mem_nil hwr, hspec⟩

/-! ## The release and the retraining of the bundles -/

theorem coreResetRelease_releases (live : s.live) (hstep : (s.dev.tower t.val).step = .asserted) (hheld : (s.dev.tower t.val).held = false) :
    ∃ u, exec (.coreResetRelease t) s = .next u ∧ u.mem = s.mem ∧ (u.dev.tower t.val).step = .retraining ∧ u.dev.fld (RST t.val + 8) 0 0 = 0 := by
  have hgo : doCoreResetRelease t s.world =
      (s.world.onDev (fun d => d.onTower t.val (fun x => { x with step := .retraining }))).setFld (RST t.val + 8) 0 0 0 :=
    if_pos ⟨hstep, by simp [show (s.world.d.tower t.val).held = false from hheld]⟩
  refine ⟨_, runLive_eq_world live hgo, commit_mem_nil ?_, ?_, ?_⟩
  · rw [World.setFld_wr, World.onDev_wr]
    rfl
  · rw [commit_dev, World.setFld_d, Dev.setFld_tower, World.onDev_d, onTower_tower_self]
  · rw [commit_dev, World.setFld_d, Dev.setFld_fld_fits _ _ _ (by decide) (by decide) (by decide)]

/-- The bundles of a tower retrained: its reset is over. -/
def Dev.retrained (d : Dev) (t : Nat) : Dev :=
  Dev.setFld { d.onTower t (fun x => { x with step := .none, waited := 0 }) with
    bundles := d.bundles.map (fun (e : Nat × Bundle) => if keyTower e.1 = t then (e.1, { e.2 with resend := [] }) else e) } (STK t) 2 2 0

/-- A tower to be restored starts over with a field pass of all its bundles. -/
def Dev.restoring (d : Dev) (t : Nat) : Dev :=
  Dev.stkStatus (Dev.onTower { d with bundles := d.bundles.filter (fun e => decide (keyTower e.1 ≠ t)) } t
    (fun x => { x with field := fieldPass t, bist := true })) t

theorem Dev.retrained_spec (d : Dev) (t : Nat) : ((d.retrained t).tower t).step = .none ∧ (d.retrained t).fld (STK t) 2 2 = 0 := by
  unfold Dev.retrained
  refine ⟨?_, ?_⟩
  · rw [Dev.setFld_tower]
    exact (congrArg Tower.step (onTower_tower_self d t (fun x => { x with step := .none, waited := 0 })) :)
  · rw [Dev.setFld_fld_fits _ _ _ (by decide) (by decide) (by decide)]

theorem Dev.stkStatus_busy (d : Dev) (t : Nat) : (d.stkStatus t).fld (STK t) 2 2 = d.fld (STK t) 2 2 := by
  unfold Dev.stkStatus
  dsimp only
  rw [Dev.setFld_fld_beside _ _ _ (by decide) (by decide) (by decide), Dev.setFld_fld_beside _ _ _ (by decide) (by decide) (by decide),
    Dev.setFld_fld_beside _ _ _ (by decide) (by decide) (by decide)]

theorem Dev.restoring_spec (d : Dev) (t : Nat) :
    ((d.restoring t).tower t).step = (d.tower t).step ∧ (d.restoring t).fld (STK t) 2 2 = d.fld (STK t) 2 2 := by
  unfold Dev.restoring
  refine ⟨?_, Dev.stkStatus_busy ..⟩
  rw [(Dev.stkStatus_regsOnly ..).tower, onTower_tower_self]
  rfl

theorem Dev.resetJobs_tower (d : Dev) (t : Nat) : d.resetJobs.tower t = d.tower t := rfl
theorem Dev.resetJobs_fld (d : Dev) (a hi lo : Nat) : d.resetJobs.fld a hi lo = d.fld a hi lo := rfl

theorem doBundleRetrainDone_spec {w : World} (hstep : (w.d.tower t.val).step = .retraining) :
    ((doBundleRetrainDone t w).d.tower t.val).step = .none ∧ (doBundleRetrainDone t w).d.fld (STK t.val) 2 2 = 0 := by
  obtain ⟨hnone, hbusy⟩ := w.d.retrained_spec t.val
  by_cases hrestore : (w.d.tower t.val).restore = true
  · obtain ⟨hnone', hbusy'⟩ := (w.d.retrained t.val).restoring_spec t.val
    have hgo : doBundleRetrainDone t w = ((w.onDev (fun d => d.retrained t.val)).onDev (fun d => d.restoring t.val)).onDev (fun d => d.resetJobs) :=
      (if_pos hstep).trans (congrArg (fun v : World => v.onDev (fun d => d.resetJobs)) (if_pos hrestore))
    rw [hgo, World.onDev_d, World.onDev_d, World.onDev_d, Dev.resetJobs_tower, Dev.resetJobs_fld]
    exact ⟨hnone'.trans hnone, hbusy'.trans hbusy⟩
  · have hgo : doBundleRetrainDone t w = (w.onDev (fun d => d.retrained t.val)).onDev (fun d => d.resetJobs) :=
      (if_pos hstep).trans (congrArg (fun v : World => v.onDev (fun d => d.resetJobs)) (if_neg hrestore))
    rw [hgo, World.onDev_d, World.onDev_d, Dev.resetJobs_tower, Dev.resetJobs_fld]
    exact ⟨hnone, hbusy⟩

/-! ## Lines that run on are abandoned -/

theorem Dev.raise_course (d : Dev) (n c : Nat) : (d.raise n).course c = d.course c := rfl
theorem Dev.stopCtx_course (d : Dev) (i : Nat) (tgt : CtxSt) (st det : W16) (p : W32) (c : Nat) : (d.stopCtx i tgt st det p).course c = d.course c := rfl

/-- A line that runs on is abandoned. -/
def LineSt.given (p : LineSt → Bool) (l : LineSt) : LineSt := if p l then { l with phase := .abandoned } else l

theorem given_quiet {p : LineSt → Bool} {ls : List LineSt} (h : ls.any p = false) : ls.map (LineSt.given p) = ls := by
  rw [List.any_eq_false] at h
  exact (List.map_congr_left (fun l hl => if_neg (h l hl))).trans (List.map_id' ls)

theorem World.abandon_spec (w : World) (c : Nat) (p : LineSt → Bool) :
    (w.abandon c p).wr = w.wr ∧ (∀ e, e ≠ c → (w.abandon c p).d.course e = w.d.course e) ∧
    ((w.abandon c p).d.course c).lines = (w.d.course c).lines.map (LineSt.given p) := by
  unfold World.abandon
  dsimp only
  split
  · split
    · rw [World.raise_d, World.onDev_d, World.onDev_d, World.raise_wr, World.onDev_wr, World.onDev_wr]
      simp only [Dev.raise_course, Dev.stopCtx_course]
      exact ⟨trivial, fun e he => Dev.onCourse_course_ne w.d _ he, congrArg Course.lines (Dev.onCourse_course_self w.d c _)⟩
    · rw [World.raise_d, World.onDev_d, World.raise_wr, World.onDev_wr]
      simp only [Dev.raise_course]
      exact ⟨trivial, fun e he => Dev.onCourse_course_ne w.d _ he, congrArg Course.lines (Dev.onCourse_course_self w.d c _)⟩
  · next h => exact ⟨rfl, fun _ _ => rfl, (given_quiet (by simpa using h)).symm⟩

/-- No line of a course runs. -/
def courseStill (x : Course) : Prop := x.lines.any (fun l => l.phase.running) = false

theorem abandoned_still (x : Course) (ls : List LineSt) (h : x.lines = ls.map (LineSt.given (fun l => l.phase.running))) : courseStill x := by
  unfold courseStill
  rw [h, List.any_map, List.any_eq_false]
  intro l _
  rw [Function.comp_apply, LineSt.given]
  split
  · exact Bool.false_ne_true
  · assumption

theorem abandon_fold (t : Nat) (q : Nat → LineSt → Bool) (xs : List Nat) : ∀ w : World,
    (xs.foldl (fun w c => w.abandon c (fun l => if c / 12 = t then l.phase.running else q c l)) w).wr = w.wr ∧
    ∀ c, c / 12 = t → c ∈ xs ∨ courseStill (w.d.course c) →
      courseStill ((xs.foldl (fun w c => w.abandon c (fun l => if c / 12 = t then l.phase.running else q c l)) w).d.course c) := by
  induction xs with
  | nil => exact fun w => ⟨rfl, fun c _ h => h.resolve_left List.not_mem_nil⟩
  | cons x xs ih =>
    intro w
    obtain ⟨hwr, hother, hself⟩ := w.abandon_spec x (fun l => if x / 12 = t then l.phase.running else q x l)
    obtain ⟨hwr', hstill⟩ := ih (w.abandon x (fun l => if x / 12 = t then l.phase.running else q x l))
    refine ⟨hwr'.trans hwr, fun c hc h => hstill c hc ?_⟩
    by_cases hx : c = x
    · subst hx
      simp only [hc, if_true] at hself ⊢
      exact .inr (abandoned_still _ _ hself)
    · rw [hother c hx]
      exact h.imp_left (fun h => (List.mem_cons.1 h).resolve_left hx)

theorem coreResetWaitTimeout_abandons (live : s.live) (hstep : (s.dev.tower t.val).step = .waiting) (hwaited : 64 ≤ (s.dev.tower t.val).waited) :
    ∃ u, exec (.coreResetWaitTimeout t) s = .next u ∧ u.mem = s.mem ∧ u.dev.towerRunning t.val = false := by
  obtain ⟨hwr, hstill⟩ := abandon_fold t.val (fun c l => s.dev.holdsEngine s.mem t.val c (s.dev.course c) l) (List.range 96) s.world
  have hgo : doCoreResetWaitTimeout t s.world = (List.range 96).foldl (fun w c =>
      w.abandon c (fun l => if c / 12 = t.val then l.phase.running else s.dev.holdsEngine s.mem t.val c (s.dev.course c) l)) s.world :=
    if_pos ⟨hstep, hwaited⟩
  generalize (List.range 96).foldl (fun w c =>
    World.abandon w c (fun l => if c / 12 = t.val then l.phase.running else s.dev.holdsEngine s.mem t.val c (s.dev.course c) l)) s.world = v
    at hgo hwr hstill
  refine ⟨_, runLive_eq_world live hgo, commit_mem_nil hwr, ?_⟩
  rw [commit_dev]
  unfold Dev.towerRunning
  rw [List.any_eq_false]
  intro c hc
  obtain ⟨k, hk, rfl⟩ := List.mem_map.1 hc
  have hlt := List.mem_range.1 hk
  have := t.isLt
  rw [Bool.not_eq_true]
  exact hstill (12 * t.val + k) (by omega) (.inl (List.mem_range.2 (by omega)))

/-! ## An escalation -/

theorem World.askCoreReset_spec (w : World) (t why : Nat) (held : Bool) :
    (w.askCoreReset t why held).wr = w.wr ∧ (w.askCoreReset t why held).d.fld (RST t + 8) 11 8 = w.d.fld (RST t + 8) 11 8 ∧
    ((w.d.tower t).step = .none → ((w.askCoreReset t why held).d.tower t).step = .waiting ∧ ((w.askCoreReset t why held).d.tower t).why = why ∧
      ((w.askCoreReset t why held).d.tower t).held = held ∧ (w.askCoreReset t why held).d.fld FT_HOLD_CAUSE 4 4 = 1) ∧
    ((w.d.tower t).step ≠ .none → (w.askCoreReset t why held).d.tower t = { w.d.tower t with
      held := (w.d.tower t).held || held, why := if held then why else (w.d.tower t).why }) := by
  have hne : RST t + 8 ≠ FT_HOLD_CAUSE ∧ FT_HOLD_CAUSE ≠ RST t + 8 := by
    unfold RST FT_HOLD_CAUSE twBase
    omega
  unfold World.askCoreReset
  split
  · next h =>
    have hstep : (w.d.tower t).step ≠ .none := by simpa using h
    rw [World.onDev_wr, World.onDev_d, onTower_tower_self]
    exact ⟨rfl, rfl, fun h => absurd h hstep, fun _ => rfl⟩
  · next h =>
    have hstep : (w.d.tower t).step = .none := by simpa using h
    rw [World.setFld_wr, World.onDev_wr, World.setFld_d, World.onDev_d, Dev.setFld_tower,
      Dev.setFld_fld_beside _ _ _ (by decide) (by decide) (by decide), Dev.setBit_fld_ne _ _ _ _ hne.1, Dev.setFld_fld_ne _ _ _ _ _ _ hne.2,
      Dev.setBit_fld_self _ _ (by decide), (Dev.setBit_regsOnly ..).tower, onTower_tower_self]
    exact ⟨rfl, rfl, fun _ => ⟨rfl, rfl, rfl, rfl⟩, fun h => absurd hstep h⟩

/-- An escalation notes its unit and asks for the core reset of its tower. -/
theorem World.escalate_spec (w : World) (t unit : Nat) :
    (w.escalate t unit).wr = w.wr ∧ (w.escalate t unit).d.fld (RST t + 8) 11 8 = unit % 16 ∧
    ((w.d.tower t).step = .none → ((w.escalate t unit).d.tower t).step = .waiting ∧ ((w.escalate t unit).d.tower t).why = 1 ∧
      ((w.escalate t unit).d.tower t).held = false ∧ (w.escalate t unit).d.fld FT_HOLD_CAUSE 4 4 = 1) ∧
    ((w.d.tower t).step ≠ .none → (w.escalate t unit).d.tower t = w.d.tower t) := by
  have hnoted : ((w.setFld (RST t + 8) 11 8 unit).log { entry 0x1A t unit with flags := 1 }).d.tower t = w.d.tower t := by
    rw [World.log_d, Dev.tower_congr (Dev.log_tells [] _ _).towers, World.setFld_d, Dev.setFld_tower]
  obtain ⟨hwr, hunit, hasks, hkeeps⟩ :=
    ((w.setFld (RST t + 8) 11 8 unit).log { entry 0x1A t unit with flags := 1 }).askCoreReset_spec t 1 false
  unfold World.escalate
  rw [hnoted] at hasks hkeeps
  refine ⟨?_, ?_, hasks, fun h => (hkeeps h).trans ?_⟩
  · rw [hwr, World.log_wr, World.setFld_wr]
  · rw [hunit, World.log_d, Dev.log_fld, World.setFld_d]
    exact Dev.setFld_fld_self _ _ _ (by decide) (by decide)
  · rw [Bool.or_false, if_neg Bool.false_ne_true]

theorem coreEscalation_asks (live : s.live) (unit : BitVec 4) :
    ∃ u, exec (.coreEscalation t unit) s = .next u ∧ u.mem = s.mem ∧ u.dev.fld (RST t.val + 8) 11 8 = unit.toNat ∧
      ((s.dev.tower t.val).step = .none → (u.dev.tower t.val).step = .waiting ∧ (u.dev.tower t.val).why = 1 ∧
        (u.dev.tower t.val).held = false ∧ u.dev.fld FT_HOLD_CAUSE 4 4 = 1) ∧
      ((s.dev.tower t.val).step ≠ .none → u.dev.tower t.val = s.dev.tower t.val) := by
  obtain ⟨hwr, hunit, hasks, hkeeps⟩ := s.world.escalate_spec t.val unit.toNat
  exact ⟨_, runLive_eq_world live rfl, commit_mem_nil hwr, hunit.trans (Nat.mod_eq_of_lt unit.isLt), hasks, hkeeps⟩

theorem progressTimeout_escalates {c : Fin 96} {line : Nat} {l : LineSt} {j : Job} (live : s.live) (hl : lineAt (s.dev.course c.val) line = some l)
    (hj : s.dev.jobOf c.val line = some j) (hphase : l.phase = .launched) (hidle : 1024 ≤ l.idle) (hdep : s.dev.depOver c.val l.ln = true)
    (hwin : s.world.windowOver j.ctx c.val l.ln = true) :
    exec (.progressTimeout c line) s = .next (commit s (s.world.escalate (c.val / 12) l.ln.unit)) := by
  refine runLive_eq_world live ?_
  unfold doProgressTimeout
  rw [show lineAt (s.world.d.course c.val) line = some l from hl, show s.world.d.jobOf c.val line = some j from hj]
  exact if_pos ⟨hphase, hidle, hdep, hwin⟩

end

end Sys2Proof.Machine
end

section
/-! SUPPORT. What the work behind the frets leaves alone: the fret timer, the hedge, the board and the resets. -/

namespace Sys2Proof.Machine

/-- A register of the fret timer that only its own commands write (every part of the device reports in FT_HOLD_CAUSE), or the
module's input, which only a round measures. -/
def ftReg (a : Nat) : Prop := (0x30000 ≤ a ∧ a < 0x30060 ∧ a ≠ FT_HOLD_CAUSE) ∨ a = PWR_INPUT

/-- `e` is `d` but for work aside: the fret timer, the hedge, the board and the module's input are as before, and, where `B` is
asked for, so are the towers' resets and the reset bit of every stack monitor. -/
structure Dev.Aside (B : Prop) (d e : Dev) : Prop where
  regs : ∀ a, ftReg a → rget e.regs a = rget d.regs a
  busy : B → ∀ t < 8, e.fld (STK t) 2 2 = d.fld (STK t) 2 2
  ft : e.ft = { d.ft with posFlags := e.ft.posFlags, freshPos := e.ft.freshPos }
  hedge : e.hedge = d.hedge
  board : e.board = d.board
  steps : B → ∀ t, (e.tower t).step = (d.tower t).step

namespace Dev.Aside

variable {B : Prop} {d e f : Dev}

theorem refl (B : Prop) (d : Dev) : Dev.Aside B d d := ⟨fun _ _ => rfl, fun _ _ _ => rfl, rfl, rfl, rfl, fun _ _ => rfl⟩

theorem trans (h : Dev.Aside B d e) (k : Dev.Aside B e f) : Dev.Aside B d f where
  regs a ha := (k.regs a ha).trans (h.regs a ha)
  busy hb t ht := (k.busy hb t ht).trans (h.busy hb t ht)
  ft := by rw [k.ft, h.ft]
  hedge := k.hedge.trans h.hedge
  board := k.board.trans h.board
  steps hb t := (k.steps hb t).trans (h.steps hb t)

/-- A part of the device that keeps the registers and what the timer, the hedge, the board and the towers hold. -/
theorem of_same (hregs : e.regs = d.regs) (hft : e.ft = d.ft) (hhedge : e.hedge = d.hedge) (hboard : e.board = d.board)
    (htowers : e.towers = d.towers) : Dev.Aside B d e where
  regs a _ := by rw [hregs]
  busy _ t _ := Dev.fld_congr (by rw [hregs]) 2 2
  ft := by rw [hft]
  hedge := hhedge
  board := hboard
  steps _ t := by rw [Dev.tower_congr htowers]

theorem fld (h : Dev.Aside B d e) {a : Nat} (ha : ftReg a) (hi lo : Nat) : e.fld a hi lo = d.fld a hi lo := Dev.fld_congr (h.regs a ha) hi lo

/-- An address that is no register of the timer and of no stack monitor. -/
def apart (a : Nat) : Prop := ¬ ftReg a ∧ ∀ t < 8, a ≠ STK t

theorem apart_of_block {a : Nat} (h : a % 0x1000000 < 0x20020 ∨
    (0x20020 < a % 0x1000000 ∧ a % 0x1000000 < 0x30000) ∨
    (0x30060 ≤ a % 0x1000000 ∧ a % 0x1000000 < 0x90000) ∨ 0x90000 < a % 0x1000000) :
    apart a := by
  unfold apart ftReg STK twBase PWR_INPUT
  refine ⟨by omega, fun t _ => by omega⟩

theorem apart_of_courses {a : Nat} (h : 0x10000000 ≤ a) : apart a := by
  unfold apart ftReg STK twBase PWR_INPUT
  refine ⟨by omega, fun t _ => by omega⟩

theorem apart_cause : apart FT_HOLD_CAUSE := by
  unfold apart ftReg STK twBase FT_HOLD_CAUSE PWR_INPUT
  refine ⟨by simp, fun t _ => by omega⟩

/-- A change of registers apart. -/
theorem of_regs (hregs : d.RegsOnly e) (h : ∀ a, ¬ apart a → rget e.regs a = rget d.regs a) : Dev.Aside B d e where
  regs a ha := h a (fun hap => hap.1 ha)
  busy _ t ht := Dev.fld_congr (h _ (fun hap => hap.2 t ht rfl)) 2 2
  ft := by rw [show e.ft = d.ft from (congrArg Dev.ft hregs :)]
  hedge := (congrArg Dev.hedge hregs :)
  board := (congrArg Dev.board hregs :)
  steps _ t := by rw [hregs.tower]

theorem ne_of_apart {a b : Nat} (ha : apart a) (hb : ¬ apart b) : b ≠ a := fun h => hb (h ▸ ha)

theorem setReg (h : Dev.Aside B d e) {a : Nat} (v : W64) (ha : apart a) : Dev.Aside B d (e.setReg a v) :=
  h.trans (of_regs (e.setReg_regsOnly a v) (fun _ hb => e.setReg_rget_ne v (ne_of_apart ha hb)))
theorem setFld (h : Dev.Aside B d e) {a : Nat} (hi lo x : Nat) (ha : apart a) : Dev.Aside B d (e.setFld a hi lo x) :=
  h.trans (of_regs (e.setFld_regsOnly a hi lo x) (fun _ hb => e.setFld_rget_ne hi lo x (ne_of_apart ha hb)))
theorem setBit (h : Dev.Aside B d e) {a : Nat} (n : Nat) (ha : apart a) : Dev.Aside B d (e.setBit a n) := h.setFld n n 1 ha
theorem count (h : Dev.Aside B d e) {a : Nat} (hi lo n : Nat) (ha : apart a) : Dev.Aside B d (e.count a hi lo n) :=
  h.trans (of_regs (e.count_regsOnly a hi lo n) (fun _ hb => e.count_rget_ne hi lo n (ne_of_apart ha hb)))

/-- A change of a part that holds none of it. -/
theorem same (h : Dev.Aside B d e) (hregs : f.regs = e.regs) (hft : f.ft = e.ft) (hhedge : f.hedge = e.hedge) (hboard : f.board = e.board)
    (htowers : f.towers = e.towers) : Dev.Aside B d f := h.trans (of_same hregs hft hhedge hboard htowers)

theorem of_tells {R : List Nat} (h : Dev.Tells R d e) (hR : ∀ a ∈ R, apart a) : Dev.Aside B d e where
  regs a ha := h.regs a (fun hm => (hR a hm).1 ha)
  busy _ t ht := Dev.fld_congr (h.regs _ (fun hm => (hR _ hm).2 t ht rfl)) 2 2
  ft := (congrArg Dev.ft h.only :)
  hedge := (congrArg Dev.hedge h.only :)
  board := (congrArg Dev.board h.only :)
  steps _ t := by rw [Dev.tower_congr h.towers]

theorem of_courses (h : d.CoursesOnly e) : Dev.Aside B d e where
  regs a ha := h.regs a (by unfold ftReg PWR_INPUT at ha; omega)
  busy _ t ht := h.fld (by unfold STK twBase; omega) 2 2
  ft := by rw [show e.ft = d.ft from (congrArg Dev.ft h.only :)]
  hedge := (congrArg Dev.hedge h.only :)
  board := (congrArg Dev.board h.only :)
  steps _ t := congrArg Tower.step (Dev.tower_congr (congrArg Dev.towers h.only :) t)

theorem of_host (h : d.HostOnly e) : Dev.Aside B d e := of_same h.regs (congrArg Dev.ft h :) (congrArg Dev.hedge h :) (congrArg Dev.board h :) (congrArg Dev.towers h :)

theorem foldl (h : Dev.Aside B d e) {β : Type} {f : Dev → β → Dev} (xs : List β) (hf : ∀ a, ∀ b ∈ xs, Dev.Aside B a (f a b)) :
    Dev.Aside B d (xs.foldl f e) :=
  foldl_keeps (Dev.Aside B d ·) f xs (fun a b hb ha => ha.trans (hf a b hb)) e h

theorem log (h : Dev.Aside B d e) (x : LogEntry) : Dev.Aside B d (e.log_ x) :=
  h.trans (of_tells (Dev.log_tells [] e x) (fun _ h => absurd h List.not_mem_nil))
theorem raise (h : Dev.Aside B d e) (n : Nat) : Dev.Aside B d (e.raise n) :=
  h.trans (of_tells (Dev.raise_tells [] e n) (fun _ h => absurd h List.not_mem_nil))

theorem apart_event : ∀ a ∈ [HL_FAULT, HL_EVENTS_LOST], apart a := by
  intro a ha
  simp only [List.mem_cons, List.not_mem_nil, or_false] at ha
  obtain rfl | rfl := ha <;> exact apart_of_block (by decide)

theorem event (h : Dev.Aside B d e) (code : Nat) (st det : W16) (ctx : Nat) (tag : W16) (bl : List Blk) :
    Dev.Aside B d (e.event code st det ctx tag bl) :=
  h.trans (of_tells (R := [HL_FAULT, HL_EVENTS_LOST]) (Dev.event_tells e code st det ctx tag bl (by simp) (by simp)) apart_event)

theorem onCtx (h : Dev.Aside B d e) (i : Nat) (f : Ctx → Ctx) : Dev.Aside B d (e.onCtx i f) := h.same rfl rfl rfl rfl rfl
theorem onSvc (h : Dev.Aside B d e) (i : Nat) (f : Service → Service) : Dev.Aside B d (e.onSvc i f) := h.same rfl rfl rfl rfl rfl
theorem onCourse (h : Dev.Aside B d e) (c : Nat) (f : Course → Course) : Dev.Aside B d (e.onCourse c f) := h.same rfl rfl rfl rfl rfl
theorem dropResident (h : Dev.Aside B d e) (i : Nat) : Dev.Aside B d (e.dropResident i) := h.trans (of_courses (e.dropResident_coursesOnly i))

end Dev.Aside

/-- A world whose device has only worked aside. -/
def World.Aside (B : Prop) (w v : World) : Prop := Dev.Aside B w.d v.d

namespace World.Aside

variable {B : Prop} {w v u : World}

theorem refl (B : Prop) (w : World) : World.Aside B w w := Dev.Aside.refl B w.d
theorem trans (h : World.Aside B w v) (k : World.Aside B v u) : World.Aside B w u := Dev.Aside.trans h k
theorem onDev (h : World.Aside B w v) {f : Dev → Dev} (hf : Dev.Aside B v.d (f v.d)) : World.Aside B w (v.onDev f) := Dev.Aside.trans h hf
theorem onHost (h : World.Aside B w v) {f : Dev → Dev} (hf : v.d.HostOnly (f v.d)) : World.Aside B w (v.onDev f) := h.onDev (Dev.Aside.of_host hf)
theorem log (h : World.Aside B w v) (x : LogEntry) : World.Aside B w (v.log x) := Dev.Aside.log h x
theorem raise (h : World.Aside B w v) (n : Nat) : World.Aside B w (v.raise n) := Dev.Aside.raise h n
theorem event (h : World.Aside B w v) (code : Nat) (st det : W16) (ctx : Nat) (bl : List Blk) : World.Aside B w (v.event code st det ctx bl) :=
  Dev.Aside.event h code st det ctx 0xFFFF bl
theorem count (h : World.Aside B w v) {a : Nat} (hi lo n : Nat) (ha : Dev.Aside.apart a) : World.Aside B w (v.count a hi lo n) :=
  Dev.Aside.count h hi lo n ha
theorem setBit (h : World.Aside B w v) {a : Nat} (n : Nat) (ha : Dev.Aside.apart a) : World.Aside B w (v.setBit a n) := Dev.Aside.setBit h n ha
theorem setFld (h : World.Aside B w v) {a : Nat} (hi lo x : Nat) (ha : Dev.Aside.apart a) : World.Aside B w (v.setFld a hi lo x) :=
  Dev.Aside.setFld h hi lo x ha
theorem setReg (h : World.Aside B w v) {a : Nat} (x : W64) (ha : Dev.Aside.apart a) : World.Aside B w (v.setReg a x) := Dev.Aside.setReg h x ha
theorem put (h : World.Aside B w v) (x : Wr) : World.Aside B w (v.put x) := h
theorem putBlk (h : World.Aside B w v) (a : Nat) (data : List Byte) (syn : W32) : World.Aside B w (v.putBlk a data syn) := h

theorem foldl (h : World.Aside B w v) {β : Type} {f : World → β → World} (xs : List β) (hf : ∀ u, ∀ b ∈ xs, World.Aside B u (f u b)) :
    World.Aside B w (xs.foldl f v) :=
  foldl_keeps (World.Aside B w ·) f xs (fun u b hb hu => hu.trans (hf u b hb)) v h

end World.Aside

end Sys2Proof.Machine
end

section
/-! SUPPORT. What goes on behind the frets works aside: answers, memory commands, re-reads, and the commands that waited. -/

namespace Sys2Proof.Machine

open Dev.Aside (apart apart_of_block apart_of_courses)

/-! ## Answers -/

theorem Dev.replyPkt_hostOnly (d : Dev) (h : HostCmd) (op : Nat) (st det : W16) (p : W32) (bl : List Blk) :
    d.HostOnly (d.replyPkt h op st det p bl) := by
  have hp := Dev.replyPkt_eq d h op st det p bl
  unfold Dev.HostOnly
  rw [hp]

namespace World.Aside

variable {B : Prop} {w v : World}

theorem reply (g : World.Aside B w v) (h : HostCmd) (op : Nat) (st det : W16) (p : W32) (bl : List Blk) :
    World.Aside B w (v.reply h op st det p bl) :=
  g.onHost ((Dev.replyPkt_hostOnly v.d h op st det p bl).trans rfl)
theorem answer (g : World.Aside B w v) (h : HostCmd) (op : Nat) (st det : W16) : World.Aside B w (v.answer h op st det) := g.reply ..
theorem accept (g : World.Aside B w v) (h : HostCmd) (op : Nat) : World.Aside B w (v.accept h op) :=
  g.onHost ((Dev.replyPkt_hostOnly v.d h op stAccepted 0 0 []).trans rfl)
theorem park_ (g : World.Aside B w v) (h : HostCmd) (op : Nat) (r : Option (W16 × W16)) : World.Aside B w (v.park_ h op r) := g.onHost rfl

theorem inState (g : World.Aside B w v) (h : HostCmd) (op : Nat) (ok : Ctx → Bool) {k : Ctx → World → World} (hk : ∀ x, World.Aside B w (k x v)) :
    World.Aside B w (v.inState h op ok k) := by
  unfold World.inState
  dsimp only
  split
  · exact g.answer ..
  · split
    · exact g.answer ..
    · exact hk _

theorem onParams (g : World.Aside B w v) (h : HostCmd) (op : Nat) (bad : Dev → HostCmd → Option Nat) {k : World → World}
    (hk : World.Aside B w (k v)) : World.Aside B w (v.onParams h op bad k) := by
  unfold World.onParams
  split
  · exact g.answer ..
  · exact hk

theorem onStores (g : World.Aside B w v) (h : HostCmd) (op a : Nat) {k : World → World} (hk : World.Aside B w (k v)) :
    World.Aside B w (v.onStores h op a k) := by
  unfold World.onStores
  split
  · exact g.answer ..
  · exact hk

/-! ## Memory commands and re-reads -/

theorem apart_MEMR (t : Nat) {k : Nat} (hk : k < 0x10000) : apart (MEMR t + k) :=
  apart_of_block (by unfold MEMR twBase; omega)

theorem carried (g : World.Aside B w v) (t n : Nat) : World.Aside B w (v.carried t n) := g.count 63 0 n (apart_MEMR t (by decide))

theorem farAsk (g : World.Aside B w v) (half who ctx op : Nat) (reread medium : Bool) (bs : List (Nat × Option Blk)) :
    World.Aside B w (v.onDev (fun d => d.farAsk half who ctx op reread medium bs)) := g.onHost (Dev.farAsk_hostOnly ..)

theorem climbFor (g : World.Aside B w v) (clients : List Nat) (unit path c set ctx pos a : Nat) :
    World.Aside B w (v.climbFor clients unit path c set ctx pos a) := by
  unfold World.climbFor
  generalize (if unit = 0xF then holderTower a c else c / 12) = t
  have hcounted : World.Aside B w (v.count (MEMR t + 0x10) 63 0 1) := g.count 63 0 1 (apart_MEMR t (by decide))
  dsimp only
  generalize v.count (MEMR t + 0x10) 63 0 1 = u at hcounted ⊢
  split
  · exact hcounted.onDev (Dev.Aside.of_same rfl rfl rfl rfl rfl)
  · have hladder : World.Aside B w (u.draw.1.onDev (fun d => { d with ladders := d.ladders ++
        [{ block := a, step := 1, tries := 0, unit := unit, course := c, set := set, ctx := ctx, pos := pos, store := none,
           segs := segments a t (rootConsumer unit path) u.draw.2, pathFailed := false, after := false, clients := clients }] })) :=
      (hcounted.onDev (f := fun d => { d with free := d.free + 1 }) (Dev.Aside.of_same rfl rfl rfl rfl rfl)).onDev
        (Dev.Aside.of_same rfl rfl rfl rfl rfl)
    split
    · exact hladder.farAsk ..
    · exact hladder

theorem climb (g : World.Aside B w v) (unit path c set ctx pos a : Nat) : World.Aside B w (v.climb unit path c set ctx pos a) := g.climbFor ..

theorem storeBlocks (g : World.Aside B w v) (h : HostCmd) (a : Nat) (bl : List Blk) : World.Aside B w (v.storeBlocks h a bl) := by
  unfold World.storeBlocks
  dsimp only
  split
  · exact g.farAsk ..
  · exact g.foldl _ (fun u e _ => (refl B u).putBlk ..)

theorem memWrite (g : World.Aside B w v) (h : HostCmd) : World.Aside B w (v.memWrite h) := by
  unfold World.memWrite
  generalize writeBlocks h.payload = x
  obtain ⟨good, st, det⟩ := x
  dsimp only
  have hstored : World.Aside B w (if tierOf (pair h.p0 h.p1) = 3 then v.storeBlocks h (pair h.p0 h.p1) good
      else (v.storeBlocks h (pair h.p0 h.p1) good).carried (towerOf (pair h.p0 h.p1)) (good.filter (fun b => blkSyn b == poisonMark)).length) := by
    split
    · exact g.storeBlocks ..
    · exact (g.storeBlocks ..).carried ..
  split
  · exact hstored.park_ ..
  · exact hstored.answer ..

theorem memReply (g : World.Aside B w v) (h : HostCmd) (bl : List Blk) : World.Aside B w (v.memReply h bl) := by
  unfold World.memReply
  dsimp only
  split
  · exact (g.carried ..).reply ..
  · exact (g.carried ..).reply ..

theorem memRead (g : World.Aside B w v) (h : HostCmd) (bad : List Nat) : World.Aside B w (v.memRead h bad) := by
  unfold World.memRead
  dsimp only
  split
  · exact (g.farAsk ..).park_ ..
  · split
    · exact g.memReply ..
    · exact (g.foldl _ (fun u x _ => (refl B u).climb ..)).park_ ..

/-- Failing blocks climb the ladder where no ladder of theirs stands yet. -/
theorem climbs (g : World.Aside B w v) (xs : List Nat) (unit path c set ctx pos : Nat) :
    World.Aside B w (xs.foldl (fun w x => if w.d.ladders.any (fun l => l.block == x && !l.after) then w else w.climb unit path c set ctx pos x) v) := by
  refine g.foldl xs (fun u x _ => ?_)
  split
  · exact refl B u
  · exact (refl B u).climb ..

theorem dropJob (g : World.Aside B w v) (h : HostCmd) (op : Nat) : World.Aside B w (v.onDev (fun d => d.dropJob h op)) := g.onHost rfl

theorem retryOne (g : World.Aside B w v) (j : HostJob) : World.Aside B w (v.retryOne j) := by
  unfold World.retryOne
  dsimp only
  split
  · exact g
  · split
    · split
      · split
        · exact g
        · exact (g.dropJob ..).memWrite ..
      · split
        · exact g
        · exact (g.dropJob ..).answer ..
    · split
      · split
        · split
          · exact g
          · exact (g.onHost (f := fun d => (d.farDrop (hostWho j.h)).dropJob j.h 0x202) rfl).memReply ..
        · split
          · exact g.climbs ..
          · exact (g.dropJob ..).memReply ..
      · exact g

theorem retryMem (g : World.Aside B w v) : World.Aside B w v.retryMem := g.foldl _ (fun u j _ => (refl B u).retryOne j)

theorem streamOut (g : World.Aside B w v) (k : Ckpt) (total : Nat) (dig : List Byte) (all : List Blk) :
    World.Aside B w (v.streamOut k total dig all) := by
  refine g.onDev (Dev.Aside.trans ?_ (Dev.Aside.of_host (Dev.streamAsk_hostOnly ..)))
  exact Dev.Aside.of_same rfl rfl rfl rfl rfl

theorem streamCounted (g : World.Aside B w v) (k : Ckpt) : World.Aside B w (v.streamCounted k) := g.foldl _ (fun u _ _ => (refl B u).carried ..)

theorem streamGo (g : World.Aside B w v) : World.Aside B w v.streamGo := by
  unfold World.streamGo
  split
  · exact g
  · next k _ =>
    dsimp only
    split
    · exact g.climbs ..
    · split
      · exact g
      · exact (g.streamCounted k).streamOut ..

end World.Aside

/-! ## Contexts and services -/

namespace Dev.Aside

variable {B : Prop} {d e : Dev}

/-- A field of a register that is none of the timer's, above the reset bit of a stack monitor. -/
theorem setFld_high (h : Dev.Aside B d e) {a : Nat} (hi lo x : Nat) (ha : ¬ ftReg a) (h2 : 2 < lo) (hlo : lo ≤ hi) (hhi : hi < 64) :
    Dev.Aside B d (e.setFld a hi lo x) := by
  refine h.trans ⟨fun b hb => e.setFld_rget_ne hi lo x (fun h => ha (h ▸ hb)), fun _ t _ => ?_, rfl, rfl, rfl, fun _ _ => rfl⟩
  by_cases h : STK t = a
  · subst h
    exact Dev.setFld_fld_beside _ _ _ hlo hhi (.inr h2)
  · exact Dev.setFld_fld_ne _ _ _ _ _ _ h

theorem jobEnded (h : Dev.Aside B d e) (p : Fin 2) (tag st det : W16) : Dev.Aside B d (e.jobEnded p tag st det) := h.same rfl rfl rfl rfl rfl

theorem onSlot (h : Dev.Aside B d e) (i : Nat) (f : Slot → Slot) : Dev.Aside B d (e.onSlot i f) := h.same rfl rfl rfl rfl rfl

theorem apart_slot {n k : Nat} (hn : n < 4) (hk : k < 0x40) : apart (UER 0 + 0x100 + n * 0x40 + k) :=
  apart_of_block (by unfold UER twBase; omega)

theorem idleSlots (h : Dev.Aside B d e) (i : Nat) : Dev.Aside B d (e.idleSlots i) := by
  unfold Dev.idleSlots
  refine h.foldl _ (fun a n hn => ?_)
  have hslot : ∀ k, k < 0x40 → apart (UER 0 + 0x100 + n * 0x40 + k) := fun k hk => apart_slot (List.mem_range.1 hn) hk
  have hbase : apart (UER 0 + 0x100 + n * 0x40) := Nat.add_zero _ ▸ hslot 0 (by decide)
  dsimp only
  split
  · exact ((((((refl B a).setFld 19 17 1 hbase).setFld 25 24 0 hbase).setReg 0 (hslot 0x10 (by decide))).setReg 0
      (hslot 0x18 (by decide)))).onSlot ..
  · exact refl B a

theorem endParks (h : Dev.Aside B d e) (i : Nat) : Dev.Aside B d (e.endParks i).1 := by
  unfold Dev.endParks
  dsimp only
  refine Dev.Aside.same (e := (e.hl.jobs.filter (fun j => j.opcode == 0x104 && j.h.ctx.toNat == i)).foldl (fun d j => d.settle j.h.port.val j.h.tag) e)
    (h.foldl _ (fun a j _ => ?_)) rfl rfl rfl rfl rfl
  exact of_same rfl rfl rfl rfl rfl

theorem setRegs (h : Dev.Aside B d e) (a : Nat) (xs : List Nat) (hx : ∀ o ∈ xs, apart (a + o)) :
    Dev.Aside B d (xs.foldl (fun d o => d.setReg (a + o) 0) e) := h.foldl xs (fun b o ho => (refl B b).setReg 0 (hx o ho))

/-- The slots of a context that is destroyed, emptied. -/
def emptySlot (i : Nat) (d : Dev) (n : Nat) : Dev :=
  let a := UER 0 + 0x100 + n * 0x40
  if d.fld a 19 17 ≠ 0 ∧ d.fld a 13 0 = i then
    let d := [0, 8, 0x10, 0x18, 0x20, 0x28].foldl (fun d o => d.setReg (a + o) 0) d
    { d with slots := tdel d.slots n }
  else d

theorem emptySlot_aside (i : Nat) (d : Dev) {n : Nat} (hn : n < 4) : Dev.Aside B d (emptySlot i d n) := by
  unfold emptySlot
  dsimp only
  split
  · have hregs := (refl B d).setRegs (UER 0 + 0x100 + n * 0x40) [0, 8, 0x10, 0x18, 0x20, 0x28] (fun o ho => apart_slot hn (by
      simp only [List.mem_cons, List.not_mem_nil, or_false] at ho
      omega))
    generalize [0, 8, 0x10, 0x18, 0x20, 0x28].foldl (fun d o => Dev.setReg d (UER 0 + 0x100 + n * 0x40 + o) 0) d = x at hregs
    exact hregs.same rfl rfl rfl rfl rfl
  · exact refl B d

/-- A context taken out of the device, its jobs told. -/
def destroyed (i : Nat) (d : Dev) : Dev :=
  let d := (d.endParks i).1
  let d := (d.ckpts.filter (fun k => k.ctx == i && !k.running)).foldl (fun d k => match k.job with
    | some (p, t) => d.jobEnded p t stNoContext 0
    | none => d) d
  let d : Dev := { d with
    ckpts := d.ckpts.filter (fun k => k.ctx != i || k.running), rx := d.rx.filter (fun r => r.ctx != i), sent := d.sent.filter (fun r => r.ctx != i), wants := d.wants.filter (fun r => r.ctx != i) }
  { d with ctxs := tdel d.ctxs i }

theorem destroyed_aside (i : Nat) (h : Dev.Aside B d e) : Dev.Aside B d (destroyed i e) := by
  unfold destroyed
  dsimp only
  have hjobs := (h.endParks i).foldl ((e.endParks i).1.ckpts.filter (fun k => k.ctx == i && !k.running)) (f := fun d k => match k.job with
    | some (p, t) => d.jobEnded p t stNoContext 0
    | none => d) (fun a k _ => by
      split
      · exact (refl B a).jobEnded ..
      · exact refl B a)
  exact hjobs.same rfl rfl rfl rfl rfl

theorem destroyCtx (h : Dev.Aside B d e) (i : Nat) : Dev.Aside B d (e.destroyCtx i) := by
  have hslots : Dev.Aside B d ((List.range 4).foldl (emptySlot i) (e.dropResident i)) :=
    (h.dropResident i).foldl _ (fun a n hn => emptySlot_aside i a (List.mem_range.1 hn))
  unfold Dev.destroyCtx
  generalize hx : (List.range 4).foldl (emptySlot i) (e.dropResident i) = x at hslots
  have hfh : Dev.Aside B d (if x.fld FH_CTRL 31 31 = 1 ∧ x.fld FH_CTRL 13 0 = i then { x with fh := [], fhPositions := 0 } else x) := by
    split
    · exact hslots.same rfl rfl rfl rfl rfl
    · exact hslots
  have hout := destroyed_aside i hfh
  subst hx
  dsimp only
  split
  · exact hout.jobEnded ..
  · exact hout

theorem not_ftReg_CTX_SVC (i : Nat) : ¬ ftReg (CTX_SVC i) := by
  unfold ftReg CTX_SVC PWR_INPUT
  omega

theorem endSvc (h : Dev.Aside B d e) (i : Nat) : Dev.Aside B d (e.endSvc i) := by
  have hclosed := ((h.onSvc i (fun _ => .init)).setFld_high 63 63 0 (not_ftReg_CTX_SVC i) (by decide) (by decide) (by decide)).setFld_high
    55 48 0 (not_ftReg_CTX_SVC i) (by decide) (by decide) (by decide)
  unfold Dev.endSvc
  dsimp only
  split
  · exact hclosed.same rfl rfl rfl rfl rfl
  · exact hclosed

theorem wdShared (h : Dev.Aside B d e) : Dev.Aside B d e.wdShared := by
  have hwd : ∀ i k, k < 0x100 → apart (WD (wardenTower i) + k) := fun i k hk => apart_of_block (by unfold WD wardenTower twBase; omega)
  unfold Dev.wdShared
  exact h.foldl _ (fun a i _ => ((refl B a).setReg _ (hwd i 0x20 (by decide))).setReg _ (hwd i 0x28 (by decide)))

theorem uncommit (h : Dev.Aside B d e) (state : Nat) : Dev.Aside B d (e.uncommit state) := by
  unfold Dev.uncommit
  exact Dev.Aside.wdShared (h.same rfl rfl rfl rfl rfl)

end Dev.Aside

namespace World.Aside

variable {B : Prop} {w v : World}

theorem endService (g : World.Aside B w v) (i : Nat) (st : W16) : World.Aside B w (v.endService i st) := by
  have hanswers : World.Aside B w ((v.d.svc i).queue.foldl (fun w h => World.answer w h 0x502 st 0) v) := g.foldl _ (fun u h _ => (refl B u).answer ..)
  unfold World.Aside
  rw [World.endService_d]
  exact Dev.Aside.endSvc hanswers i

theorem putImage (g : World.Aside B w v) (x : Ctx) (bl : List Blk) : World.Aside B w (v.putImage x bl) :=
  g.foldl _ (fun u _ _ => (refl B u).foldl _ (fun u _ _ => (refl B u).putBlk ..))

theorem onCtx (g : World.Aside B w v) (i : Nat) (f : Ctx → Ctx) : World.Aside B w (v.onDev (fun d => d.onCtx i f)) :=
  Dev.Aside.onCtx g i f

theorem startCtx (g : World.Aside B w v) (h : HostCmd) (op : Nat) (f : Nat → Ctx → Ctx) {pre : Dev → Dev} (hpre : ∀ d, Dev.Aside B d (pre d)) :
    World.Aside B w (v.startCtx h op f pre) := by
  unfold World.startCtx
  dsimp only
  split
  · exact g.answer ..
  · split
    · exact g.answer ..
    · split
      · exact g.reply ..
      · exact (g.onDev ((hpre v.d).onCtx _ _)).answer ..

/-! ## The commands that waited -/

theorem goCtxCreate (g : World.Aside B w v) (h : HostCmd) : World.Aside B w (v.goCtxCreate h) := by
  unfold World.goCtxCreate
  dsimp only
  split
  · exact g.answer ..
  · split
    · exact g.answer ..
    · split
      · exact g.answer ..
      · split
        · exact g.answer ..
        · exact (g.onDev (Dev.Aside.of_same rfl rfl rfl rfl rfl)).answer ..

theorem goCtxLoadTab (g : World.Aside B w v) (h : HostCmd) : World.Aside B w (v.goCtxLoadTab h) := by
  unfold World.goCtxLoadTab
  refine g.inState _ _ _ (fun x => ?_)
  dsimp only
  split
  · exact (g.onCtx ..).answer ..
  · have hplaced : ∀ (u : World) (i : Nat) (f : Ctx → Ctx), World.Aside B w u →
        World.Aside B w (u.onDev (fun d => (if x.st = .parked then d.idleSlots i else d).onCtx i f)) := fun u i f hu => by
      refine hu.onDev (Dev.Aside.onCtx ?_ _ _)
      split
      · exact (Dev.Aside.refl B _).idleSlots _
      · exact Dev.Aside.refl B _
    split
    · exact ((hplaced _ _ _ (g.putImage ..)).onCtx ..).reply ..
    · exact ((hplaced _ _ _ (g.putImage ..)).onCtx ..).answer ..

theorem goCtxStart (g : World.Aside B w v) (h : HostCmd) : World.Aside B w (v.goCtxStart h) :=
  g.inState _ _ _ (fun _ => g.startCtx _ _ _ (fun d => (Dev.Aside.refl B d).dropResident _))

theorem goCtxResume (g : World.Aside B w v) (h : HostCmd) : World.Aside B w (v.goCtxResume h) :=
  g.inState _ _ _ (fun _ => g.startCtx _ _ _ (fun d => Dev.Aside.refl B d))

theorem goCtxPark (g : World.Aside B w v) (h : HostCmd) : World.Aside B w (v.goCtxPark h) :=
  g.inState _ _ _ (fun _ => g.onParams _ _ _ ((g.accept ..).onCtx ..))

theorem goCtxDestroy (g : World.Aside B w v) (h : HostCmd) : World.Aside B w (v.goCtxDestroy h) := by
  unfold World.goCtxDestroy
  refine g.inState _ _ _ (fun x => ?_)
  have hmarked : World.Aside B w ((v.accept h 0x106).onDev (fun d => d.onCtx h.ctx.toNat (fun x => { x with destroy := some (h.port, h.tag) }))) :=
    (g.accept ..).onCtx ..
  dsimp only
  generalize (v.accept h 0x106).onDev (fun d => d.onCtx h.ctx.toNat (fun x => { x with destroy := some (h.port, h.tag) })) = u at hmarked ⊢
  have hended : World.Aside B w (if x.kind = 2 then u.endService h.ctx.toNat stContextState else u) := by
    split
    · exact hmarked.endService ..
    · exact hmarked
  split
  · exact hended
  · exact hended.onDev ((Dev.Aside.refl B _).destroyCtx _)

theorem goMemWrite (g : World.Aside B w v) (h : HostCmd) : World.Aside B w (v.goMemWrite h) := by
  unfold World.goMemWrite
  refine g.onParams _ _ _ (g.onStores _ _ _ ?_)
  split
  · exact g.park_ ..
  · exact g.memWrite ..

theorem goMemRead (g : World.Aside B w v) (h : HostCmd) (bad : List Nat) : World.Aside B w (v.goMemRead h bad) := by
  unfold World.goMemRead
  refine g.onParams _ _ _ (g.onStores _ _ _ ?_)
  split
  · exact g.park_ ..
  · exact g.memRead ..

theorem goMemFill (g : World.Aside B w v) (h : HostCmd) : World.Aside B w (v.goMemFill h) := g.onParams _ _ _ (g.onStores _ _ _ (g.accept ..))

theorem goMemCopy (g : World.Aside B w v) (h : HostCmd) : World.Aside B w (v.goMemCopy h) := by
  unfold World.goMemCopy
  generalize copyArgs h = x
  obtain ⟨src, dst, n⟩ := x
  dsimp only
  split
  · exact g.answer ..
  · split
    · exact g.answer ..
    · split
      · exact g.answer ..
      · split
        · exact (g.accept ..).farAsk ..
        · exact g.accept ..

theorem goFwStage (g : World.Aside B w v) (h : HostCmd) : World.Aside B w (v.goFwStage h) := by
  unfold World.goFwStage
  dsimp only
  split
  · exact g.answer ..
  · refine g.onParams _ _ _ ?_
    split
    · exact g.answer ..
    · exact (g.onDev (Dev.Aside.of_same rfl rfl rfl rfl rfl)).answer ..

theorem goFwCommitAt (g : World.Aside B w v) (h : HostCmd) : World.Aside B w (v.goFwCommitAt h) := by
  unfold World.goFwCommitAt
  dsimp only
  split
  · exact g.answer ..
  · refine g.onParams _ _ _ ?_
    split
    · exact g.answer ..
    · exact (g.accept ..).onDev (Dev.Aside.wdShared (Dev.Aside.of_same rfl rfl rfl rfl rfl))

theorem goFwAbort (g : World.Aside B w v) (h : HostCmd) : World.Aside B w (v.goFwAbort h) := by
  unfold World.goFwAbort
  dsimp only
  split
  · exact g.answer ..
  · split
    · exact (g.onDev (Dev.Aside.uncommit (d := v.d) (e := v.d.opEnded 0x403 (fun _ => true) stManifestIncomplete 0) (Dev.Aside.of_same rfl rfl rfl rfl rfl) 2)).answer ..
    · exact (g.onDev (Dev.Aside.of_same rfl rfl rfl rfl rfl)).answer ..

theorem goSvcStop (g : World.Aside B w v) (h : HostCmd) : World.Aside B w (v.goSvcStop h) := by
  unfold World.goSvcStop
  dsimp only
  split
  · exact g.answer ..
  · split
    · exact g.answer ..
    · exact ((g.endService h.ctx.toNat stContextState).onDev (((Dev.Aside.refl B _).dropResident _).onCtx _ _)).answer ..

theorem goCheckpoint (g : World.Aside B w v) (h : HostCmd) : World.Aside B w (v.goCheckpoint h) := by
  unfold World.goCheckpoint
  dsimp only
  split
  · exact g.answer ..
  · split
    · exact g.answer ..
    · exact (g.accept h 0x504).onDev (Dev.Aside.of_same rfl rfl rfl rfl rfl)

theorem goCmd (g : World.Aside B w v) (op : Nat) (h : HostCmd) : World.Aside B w (v.goCmd op h) := by
  unfold World.goCmd
  split
  · exact g.goCtxCreate ..
  · exact g.goCtxLoadTab ..
  · exact g.goCtxStart ..
  · exact g.goCtxPark ..
  · exact g.goCtxResume ..
  · exact g.goCtxDestroy ..
  · exact g.reply ..
  · exact g.goMemWrite ..
  · exact g.goMemRead ..
  · exact g.goMemFill ..
  · exact g.goMemCopy ..
  · exact g.goFwStage ..
  · exact g.accept ..
  · exact g.goFwCommitAt ..
  · exact g.goFwAbort ..
  · exact g.reply ..
  · exact g.goSvcStop ..
  · exact g.goCheckpoint ..
  · exact g

theorem startHeld (g : World.Aside B w v) : World.Aside B w v.startHeld := by
  refine g.foldl _ (fun u j _ => ?_)
  dsimp only
  split
  · exact refl B u
  · exact ((refl B u).onHost (f := fun d => { d with hl := { d.hl with held := d.hl.held.filter (fun q => q != j) } }) rfl).goCmd ..

/-- What waited and now goes on works aside. -/
theorem retry (g : World.Aside B w v) : World.Aside B w v.retry := ((g.retryMem).startHeld).streamGo

end World.Aside

end Sys2Proof.Machine
end

section
/-! PROOF. The core reset of a tower, from its request to its end. -/

namespace Sys2Proof.Machine

/-- The commands that waited for a tower's bundles touch neither its reset nor its monitor's reset bit. -/
theorem bundleRetrainDone_ends {t : Fin 8} {s : State} (live : s.live) (hstep : (s.dev.tower t.val).step = .retraining) :
    ∃ u, exec (.bundleRetrainDone t) s = .next u ∧ (u.dev.tower t.val).step = .none ∧ u.dev.fld (STK t.val) 2 2 = 0 := by
  obtain ⟨hnone, hbusy⟩ := doBundleRetrainDone_spec (w := s.world) hstep
  have hretry : World.Aside True (doBundleRetrainDone t s.world) (doBundleRetrainDone t s.world).retry := World.Aside.retry (World.Aside.refl _ _)
  exact ⟨_, runLive_eq_world (f := fun w => (doBundleRetrainDone t w).retry) live rfl, (hretry.steps trivial t.val).trans hnone,
    (hretry.busy trivial t.val t.isLt).trans hbusy⟩

/-- Settles O55: each step of a core reset leaves the tower in its next one. -/
theorem coreResetRuns : Obligations.CoreResetRuns := by
  unfold Obligations.CoreResetRuns
  refine ⟨fun t s live hstep => ⟨fun hrun hengine hevict => fenceStart_fences live hstep hrun hengine hevict, fun h => fenceStart_waits live h⟩,
    fun t s live hstep hwhy => coreResetAssert_asserts live hstep hwhy,
    fun t s live hstep => ⟨fun hheld => coreResetRelease_releases live hstep hheld, fun hheld => ?_⟩,
    fun t s live hstep => bundleRetrainDone_ends live hstep,
    fun t s live hstep hwaited => coreResetWaitTimeout_abandons live hstep hwaited,
    fun t unit s live => coreEscalation_asks live unit,
    fun c line s l j live hl hj hphase hidle hdep hwin => progressTimeout_escalates live hl hj hphase hidle hdep hwin⟩
  refine runLive_eq_dev live (if_neg ?_)
  rintro ⟨-, hnot⟩
  exact absurd hnot (by simp [show (s.world.d.tower t.val).held = true from hheld])

end Sys2Proof.Machine
end

section
/-! PROOF. The guard band: tests and images work aside, so that the trim keeps the bound of the fret (R49, R75). -/

namespace Sys2Proof.Machine

open Dev.Aside (apart apart_of_block apart_of_courses)

namespace Dev.Aside

variable {B : Prop} {d e : Dev}

theorem ladders (h : Dev.Aside B d e) (xs : List Ladder) : Dev.Aside B d { e with ladders := xs } := h.same rfl rfl rfl rfl rfl
theorem onBundle (h : Dev.Aside B d e) (k : Nat) (f : Bundle → Bundle) : Dev.Aside B d (e.onBundle k f) := h.same rfl rfl rfl rfl rfl

/-- A change of a tower that keeps the step of its reset. -/
theorem onTower (h : Dev.Aside B d e) (t : Nat) {f : Tower → Tower} (hf : ∀ x, (f x).step = x.step) : Dev.Aside B d (e.onTower t f) :=
  h.trans ⟨fun _ _ => rfl, fun _ _ _ => rfl, rfl, rfl, rfl, fun _ n => by
    by_cases hn : n = t
    · subst hn
      rw [onTower_tower_self, hf]
    · rw [onTower_tower_ne _ _ hn]⟩

theorem enterTest (h : Dev.Aside B d e) (k : Nat) : Dev.Aside B d (e.enterTest k) := h.onTower _ (fun x => by split <;> rfl)

theorem enterTests (h : Dev.Aside B d e) (ks : List Nat) : Dev.Aside B d (ks.foldl (fun d k => d.enterTest k) e) :=
  h.foldl ks (fun a k _ => (refl B a).enterTest k)

theorem stkStatus (h : Dev.Aside B d e) (t : Nat) : Dev.Aside B d (e.stkStatus t) := by
  have hne : ∀ a, ftReg a → a ≠ STK t := fun a ha => by
    unfold ftReg PWR_INPUT at ha
    unfold STK twBase
    omega
  have hrget : ∀ a, a ≠ STK t → rget (e.stkStatus t).regs a = rget e.regs a := fun a ha => by
    unfold Dev.stkStatus
    dsimp only
    rw [Dev.setFld_rget_ne _ _ _ _ ha, Dev.setFld_rget_ne _ _ _ _ ha, Dev.setFld_rget_ne _ _ _ _ ha]
  have hregs := Dev.stkStatus_regsOnly e t
  refine h.trans ⟨fun a ha => hrget a (hne a ha), fun _ n _ => ?_, ?_, (congrArg Dev.hedge hregs :), (congrArg Dev.board hregs :), fun _ n => by rw [hregs.tower]⟩
  · by_cases hn : STK n = STK t
    · rw [hn, Dev.stkStatus_busy]
    · exact Dev.fld_congr (hrget _ hn) 2 2
  · rw [show (e.stkStatus t).ft = e.ft from (congrArg Dev.ft hregs :)]

theorem pickTest (h : Dev.Aside B d e) (used : List Nat) (x : Nat × Bool) : Dev.Aside B d (pickTests (e, used) x).1 := by
  obtain ⟨k, q⟩ := x
  unfold pickTests
  cases q
  · simp only [Bool.false_eq_true, if_false]
    split
    · exact h
    · dsimp only
      exact Dev.Aside.onTower (h.onBundle _ _) _ (fun _ => rfl)
  · simp only [if_true]
    split
    · exact h
    · dsimp only
      exact Dev.Aside.onTower (h.onBundle _ _) _ (fun _ => rfl)

theorem pickAll (h : Dev.Aside B d e) (q : Bool) (ks : List Nat) (used : List Nat) :
    Dev.Aside B d (ks.foldl (fun s k => pickTests s (k, q)) (e, used)).1 :=
  foldl_keeps (fun s : Dev × List Nat => Dev.Aside B d s.1) (fun s k => pickTests s (k, q)) ks (fun s k _ hs => hs.pickTest s.2 (k, q)) (e, used) h

theorem startTests (h : Dev.Aside B d e) : Dev.Aside B d e.startTests := by
  unfold Dev.startTests
  refine h.foldl _ (fun a t _ => ?_)
  dsimp only
  split
  · exact refl B a
  · exact (((refl B a).pickAll true _ _).pickAll false _ _).stkStatus t

theorem apart_MEMR (t : Nat) : apart (MEMR t) := apart_of_block (by unfold MEMR twBase; omega)

theorem ladderBusy (h : Dev.Aside B d e) : Dev.Aside B d e.ladderBusy :=
  h.foldl _ (fun a t _ => (refl B a).setFld 0 0 _ (apart_MEMR t))

theorem putPacket (h : Dev.Aside B d e) (l : Nat) (fwd : Bool) (bytes : List Byte) (n : Nat) : Dev.Aside B d (e.putPacket l fwd bytes n) := by
  have hport : apart (portTx l) := by
    unfold apart ftReg portTx linkBase STK twBase PWR_INPUT
    refine ⟨?_, fun t _ => ?_⟩ <;> split <;> omega
  exact (h.trans (of_host (Dev.sendPacket_linksOnly ..).hostOnly)).count 63 0 n hport

theorem routePacket (h : Dev.Aside B d e) (q index : Nat) (fwd : Bool) (bytes : List Byte) (n : Nat) :
    Dev.Aside B d (e.routePacket q index fwd bytes n) := by
  unfold Dev.routePacket
  dsimp only
  generalize (if ((e.liveTo q).filter e.linkUp).isEmpty = true then e.liveTo q else (e.liveTo q).filter e.linkUp) = ports
  split
  · exact h
  · exact h.putPacket ..

end Dev.Aside

/-! ## What an image changes inside the courses -/

/-- A set is cleared and takes a new word and position. -/
theorem Dev.clearedSet_coursesOnly (d : Dev) (c n : Nat) (x y : W64) :
    d.CoursesOnly (((d.clearSet c n).setReg (CC_SET c n) x).setReg (CC_POS c n) y) := by
  have hc := ccBase_le c
  have hset : 0x10000000 ≤ CC_SET c n := by unfold CC_SET; omega
  have hpos : 0x10000000 ≤ CC_POS c n := by unfold CC_POS; omega
  exact ((d.clearSet_coursesOnly c n).trans (Dev.setReg_coursesOnly _ x hset)).trans (Dev.setReg_coursesOnly _ y hpos)

theorem Dev.setSregs_coursesOnly (d : Dev) (c n : Nat) (f : Nat → W64) :
    d.CoursesOnly ((List.range 31).foldl (fun d k => d.setSreg c n (k + 1) (f k)) d) :=
  foldl_coursesOnly (fun d k => Dev.setReg_coursesOnly d (f k) (by
    have := ccBase_le c
    unfold CC_SREG
    omega)) _ d

theorem Dev.takeGroup_coursesOnly (d : Dev) (c i p g : Nat) : d.CoursesOnly (d.takeGroup c i p g) := by
  have hc : 0x10000000 ≤ AB c := Nat.le_trans (ccBase_le c) (Nat.le_add_right ..)
  have hg : 0x10000000 ≤ AB c + 0x10 + 8 * g := by omega
  exact (d.setFld_coursesOnly 2 0 p hc).trans (Dev.setReg_coursesOnly _ _ hg)

/-- The first idle set of a waiting course leaves where there is room: a step of `World.regImages`. -/
def evictIdle (s : World × Moves) (c : Nat) : World × Moves :=
  if s.2.room (c / 12) then
    match (List.range 4).find? (fun n => match s.1.d.setCtxOf c n with
        | some v => !(s.1.d.ctx v).active | none => false) with
    | some n => match s.1.d.setCtxOf c n with
      | some v => (s.1.evict c n v, { s.2.used (c / 12) with outs := c :: s.2.outs })
      | none => s
    | none => s
  else s

namespace World.Aside

variable {B : Prop} {w v : World}

/-! ## Re-reads and tests at the guard band -/

theorem deepUncorrected (g : World.Aside B w v) (t a : Nat) : World.Aside B w (v.deepUncorrected t a) := by
  unfold World.deepUncorrected
  dsimp only
  split
  · have hnoted := ((g.count 63 32 1 (apart_MEMR (k := 0x40) t (by decide))).setBit 4 (apart_MEMR (k := 0x58) t (by decide))).log
      { entry 0x08 t 0xFF with addr := blockOf a }
    split
    · exact hnoted.put _
    · exact hnoted
  · exact g

theorem storeChecks (g : World.Aside B w v) (damaged : List Nat) : World.Aside B w (v.storeChecks damaged) := by
  unfold World.storeChecks
  refine g.foldl _ (fun u l _ => ?_)
  dsimp only
  split
  · split
    · split
      · exact refl B u
      · refine (refl B u).onDev (Dev.Aside.ladders ?_ _)
        exact ((Dev.Aside.refl B u.d).enterTests _).trans (Dev.Aside.of_host (Dev.farAsk_hostOnly ..))
    · split
      · exact (refl B u).onDev (((Dev.Aside.refl B u.d).enterTests _).ladders _)
      · have hchecked : World.Aside B u (if tierOf l.block = 2 ∧ damaged.contains l.block = true ∧ u.synOf l.block = 0 then
            u.deepUncorrected (towerOf l.block) l.block else u) := by
          split
          · exact (refl B u).deepUncorrected ..
          · exact refl B u
        exact hchecked.onDev (((Dev.Aside.refl B _).enterTests _).ladders _)
  · exact refl B u

theorem verdict (g : World.Aside B w v) (l : Ladder) (x : Nat) : World.Aside B w (v.verdict l x) := by
  have hfault : World.Aside B w (v.memFault l.tower l.block x l.unit l.course l.set l.ctx l.pos) :=
    (g.setReg _ (apart_MEMR (k := 0x60) _ (by decide))).setReg _ (apart_MEMR (k := 0x68) _ (by decide))
  unfold World.verdict
  exact ((hfault.event ..).log _).onDev (Dev.Aside.ladderBusy ((Dev.Aside.refl B _).ladders _))

theorem takeBlock (g : World.Aside B w v) (h : PktHdr) (index addr : Nat) (b : Blk) : World.Aside B w (v.takeBlock h index addr b) := by
  have hwants : World.Aside B w (v.onDev (fun d => { d with wants := d.wants.filter (fun x => !x.matches h index) })) :=
    g.onDev (Dev.Aside.of_same rfl rfl rfl rfl rfl)
  unfold World.takeBlock
  dsimp only
  generalize v.onDev (fun d => { d with wants := d.wants.filter (fun x => !x.matches h index) }) = u at hwants ⊢
  split
  · split
    · exact ((hwants.carried ..).putBlk ..).onCtx ..
    · exact (hwants.putBlk ..).onCtx ..
  · exact hwants.onDev (Dev.Aside.of_same rfl rfl rfl rfl rfl)

theorem wantVerdict (g : World.Aside B w v) (l : Ladder) : World.Aside B w (v.wantVerdict l) := by
  unfold World.wantVerdict
  split
  · exact g.onDev ((Dev.Aside.refl B _).ladders _)
  · split
    · exact g.verdict ..
    · next x _ =>
      split
      · exact g.onDev (((Dev.Aside.refl B v.d).ladders _).routePacket ..)
      · exact ((g.takeBlock ..).setBit 3 (apart_MEMR (k := 0x58) _ (by decide))).verdict ..

theorem poisonWants (g : World.Aside B w v) : World.Aside B w v.poisonWants := g.foldl _ (fun u l _ => (refl B u).wantVerdict l)

/-! ## Images of the register sets -/

theorem imageBlocks (g : World.Aside B w v) (c : Nat) : World.Aside B w (v.imageBlocks c) :=
  g.count 63 0 33 (Nat.add_assoc _ _ _ ▸ apart_MEMR (k := 0x100 + 8 * (c % 12)) (c / 12) (by omega))

theorem apart_CTXR (t : Nat) : apart (CTXR t + 0x18) := apart_of_block (by unfold CTXR twBase; omega)

theorem consumed (g : World.Aside B w v) (t n unit ctx : Nat) : World.Aside B w (v.consumed t n unit ctx) := by
  unfold World.consumed
  split
  · exact g
  · exact (((g.raise _).raise _).count 63 0 n (apart_MEMR (k := 0x30) t (by decide))).log _

theorem apart_CC_POS (c n : Nat) : apart (CC_POS c n) := apart_of_courses (by
  have := ccBase_le c
  unfold CC_POS
  omega)

theorem onCourses (g : World.Aside B w v) {f : Dev → Dev} (hf : v.d.CoursesOnly (f v.d)) : World.Aside B w (v.onDev f) :=
  g.onDev (Dev.Aside.of_courses hf)

theorem moveSet (g : World.Aside B w v) (i pos passes c n : Nat) : World.Aside B w (v.moveSet i pos passes c n) :=
  g.onDev (((Dev.Aside.refl B v.d).setReg _ (apart_CC_POS c n)).onCourse c _)

theorem saveImage (g : World.Aside B w v) (c n i : Nat) : World.Aside B w (v.saveImage c n i) :=
  (((g.foldl _ (fun u _ _ => (refl B u).putBlk ..)).imageBlocks c).count 63 0 1 (apart_CTXR _))

theorem evict (g : World.Aside B w v) (c n i : Nat) : World.Aside B w (v.evict c n i) := by
  have hmoved : World.Aside B w (if (v.d.ctx i).posOpen = true then
      match nextPosition (ctxHdr v.mem (v.d.ctx i)) (v.d.ctx i).pos (v.d.ctx i).passes with
      | some (pos, passes) => v.moveSet i pos passes c n
      | none => v
    else v) := by
    split
    · split
      · exact g.moveSet ..
      · exact g
    · exact g
  have hdropped : ∀ u : World, World.Aside B w u → World.Aside B w (u.onDev (fun d => ((d.clearSet c n).dropGroups c i).onCtx i
      (fun y => if y.st = .resident then { y with st := .runnable } else y))) := fun u hu =>
    hu.onDev ((Dev.Aside.of_courses ((u.d.clearSet_coursesOnly c n).trans (Dev.dropGroups_coursesOnly ..))).onCtx _ _)
  unfold World.evict
  refine hdropped _ ?_
  split
  · exact hmoved
  · exact hmoved.saveImage ..

theorem loadImage (g : World.Aside B w v) (c n i : Nat) : World.Aside B w (v.loadImage c n i) := by
  have hcounted : World.Aside B w ((v.imageBlocks c).count (CTXR (c / 12) + 0x18) 63 0 1) := (g.imageBlocks c).count 63 0 1 (apart_CTXR _)
  unfold World.loadImage
  dsimp only
  generalize (v.imageBlocks c).count (CTXR (c / 12) + 0x18) 63 0 1 = u at hcounted ⊢
  split
  · exact (hcounted.consumed ..).onDev (Dev.Aside.of_same rfl rfl rfl rfl rfl)
  · refine (hcounted.consumed ..).onCourses ?_
    exact (((Dev.clearedSet_coursesOnly _ c n _ _).trans (Dev.setSregs_coursesOnly _ c n _)).trans (Dev.onCourse_coursesOnly ..))

theorem zeroImage (g : World.Aside B w v) (c n i : Nat) : World.Aside B w (v.zeroImage c n i) := by
  unfold World.zeroImage
  exact g.onCourses ((Dev.clearedSet_coursesOnly _ c n _ _).trans (Dev.onCourse_coursesOnly ..))

theorem takeGroup (g : World.Aside B w v) (c i p n : Nat) : World.Aside B w (v.onDev (fun d => d.takeGroup c i p n)) :=
  g.onCourses (Dev.takeGroup_coursesOnly ..)

/-- A set is filled with its image, or with zeros where the context is fresh. -/
theorem fillSet (g : World.Aside B w v) (fresh : Bool) (t c n i : Nat) :
    World.Aside B w (if fresh = true then (v.zeroImage c n i).count (CTXR t + 0x18) 63 0 1 else v.loadImage c n i) := by
  split
  · exact (g.zeroImage c n i).count 63 0 1 (apart_CTXR t)
  · exact g.loadImage c n i

/-- A set that stands takes its group, and the context is fresh there no more. -/
theorem groupTaken (g : World.Aside B w v) (c i n : Nat) (f : Ctx → Ctx) :
    World.Aside B w ((v.onDev (fun d => if (d.setOf c i).isSome then d.takeGroup c i (d.partitionFor c i) n else d)).onDev
      (fun d => d.onCtx i f)) := by
  refine World.Aside.onCtx (g.onCourses ?_) i f
  split
  · exact Dev.takeGroup_coursesOnly ..
  · exact .refl _

theorem placeOn (i : Nat) {s : World × Moves} (g : World.Aside B w s.1) (c : Nat) : World.Aside B w (placeOn i s c).1 := by
  obtain ⟨u, m⟩ := s
  have hroom : ∀ m : Moves, World.Aside B w (if (u.d.freeSet c).isSome && (u.d.freeGroup c (u.d.partitionFor c i)).isSome then (u, m)
      else match u.d.victim c i with
        | some (n, v) =>
          if m.outs.contains c then (u, m) else (u.evict c n v, { m.used (c / 12) with outs := c :: m.outs })
        | none => (u, m)).1 := fun m => by
    split
    · exact g
    · split
      · split
        · exact g
        · exact g.evict ..
      · exact g
  unfold Machine.placeOn
  dsimp only
  split
  · split
    · exact g
    · split
      · exact g.takeGroup ..
      · exact g
  · split
    · exact g
    · specialize hroom m
      revert hroom
      generalize (if (u.d.freeSet c).isSome && (u.d.freeGroup c (u.d.partitionFor c i)).isSome then (u, m)
        else match u.d.victim c i with
          | some (n, v) =>
            if m.outs.contains c then (u, m) else (u.evict c n v, { m.used (c / 12) with outs := c :: m.outs })
          | none => (u, m)) = s
      intro hroom
      obtain ⟨u', m'⟩ := s
      dsimp only
      split
      · split
        · exact hroom
        · generalize ((u'.d.ctx i).kind == 2 || (u'.d.ctx i).fresh.getLsbD c) = fresh
          generalize (if fresh = true then [] else (((List.range 33).map (fun k => imageAddr (u'.d.ctx i) c + 512 * k)).filter (u'.failing []))) = fails
          by_cases hfails : (!fails.isEmpty) = true
          · rw [if_pos hfails]
            exact hroom.foldl _ (fun a _ _ => (refl B a).climb ..)
          · rw [if_neg hfails]
            exact (hroom.fillSet _ _ c _ i).groupTaken c i _ _
      · exact hroom

theorem settleResident (g : World.Aside B w v) (i : Nat) : World.Aside B w (v.settleResident i) := by
  unfold World.settleResident
  dsimp only
  split
  · exact g.onCtx ..
  · exact g

theorem evictIdle {s : World × Moves} (g : World.Aside B w s.1) (c : Nat) : World.Aside B w (Machine.evictIdle s c).1 := by
  unfold Machine.evictIdle
  split
  · split
    · split
      · exact g.evict ..
      · exact g
    · exact g
  · exact g

theorem regImages (g : World.Aside B w v) : World.Aside B w v.regImages := by
  have hcleared : ∀ cs : List Nat, World.Aside B w (cs.foldl Machine.evictIdle (v, Moves.mk [] [] [])).1 := fun cs =>
    foldl_keeps (fun s : World × Moves => World.Aside B w s.1) Machine.evictIdle cs (fun s c _ hs => hs.evictIdle c) _ g
  have hplaced : ∀ (is : List Nat) (s : World × Moves), World.Aside B w s.1 →
      World.Aside B w (is.foldl (fun s i => (s.1.d.ctxCourses i).foldl (Machine.placeOn i) s) s).1 := fun is s hs =>
    foldl_keeps (fun s : World × Moves => World.Aside B w s.1) _ is (fun s i _ hs =>
      foldl_keeps (fun s : World × Moves => World.Aside B w s.1) (Machine.placeOn i) _ (fun _ c _ hs => placeOn i hs c) s hs) s hs
  unfold World.regImages
  split
  · exact g
  · exact (hplaced _ _ (hcleared _)).foldl _ (fun u i _ => (refl B u).settleResident i)

end World.Aside

/-! ## The trim -/

theorem Dev.Aside.trimBound {B : Prop} {d e : Dev} (h : Dev.Aside B d e) : e.trimBound = d.trimBound := by
  have hrole : e.role = d.role := h.fld (by unfold ftReg FT_LEADER FT_HOLD_CAUSE PWR_INPUT; decide) 49 48
  have hperiod : e.period = d.period := h.fld (by unfold ftReg FT_FRET_PERIOD FT_HOLD_CAUSE PWR_INPUT; decide) 31 0
  unfold Dev.trimBound Dev.follows
  rw [h.hedge, h.board, hrole, hperiod]

/-- The trim that is chosen keeps its bound. -/
theorem World.chooseTrim_spec (w : World) :
    w.chooseTrim.d.ft.guard = w.d.ft.guard ∧ -(w.d.trimBound : Int) ≤ w.chooseTrim.d.ft.trim ∧ w.chooseTrim.d.ft.trim ≤ w.d.trimBound := by
  unfold World.chooseTrim World.setFt
  dsimp only
  split
  · next h => exact ⟨rfl, by simp [h, Dev.setFt]⟩
  · have hlt : (Config.freeValue w.d.free).toNat % 2 ^ 32 % (2 * w.d.trimBound + 1) < 2 * w.d.trimBound + 1 := Nat.mod_lt _ (by omega)
    refine ⟨rfl, ?_, ?_⟩
    · show -(w.d.trimBound : Int) ≤ ((Config.freeValue w.d.free).toNat % 2 ^ 32 % (2 * w.d.trimBound + 1) : Nat) - (w.d.trimBound : Int)
      omega
    · show (((Config.freeValue w.d.free).toNat % 2 ^ 32 % (2 * w.d.trimBound + 1) : Nat) : Int) - (w.d.trimBound : Int) ≤ w.d.trimBound
      omega

/-- The work of the guard band up to the choice of its trim. -/
def World.guardWork (w : World) (damaged : List Nat) : World :=
  ((((w.storeChecks damaged).poisonWants).onDev Dev.startTests).onDev Dev.ladderBusy).regImages

theorem World.guardWork_aside (w : World) (damaged : List Nat) : World.Aside True w (w.guardWork damaged) := by
  have hchecked : World.Aside True w ((w.storeChecks damaged).poisonWants) := ((World.Aside.refl True w).storeChecks damaged).poisonWants
  have htested : World.Aside True w (((w.storeChecks damaged).poisonWants).onDev Dev.startTests) := hchecked.onDev (Dev.Aside.startTests (.refl True _))
  exact (htested.onDev (Dev.Aside.ladderBusy (.refl True _))).regImages

/-- The trim chosen after the guard band's work. -/
theorem World.guardWork_chooseTrim (w : World) (damaged : List Nat) :
    (w.guardWork damaged).chooseTrim.d.ft.guard = w.d.ft.guard ∧
      -(w.d.trimBound : Int) ≤ (w.guardWork damaged).chooseTrim.d.ft.trim ∧
      (w.guardWork damaged).chooseTrim.d.ft.trim ≤ w.d.trimBound := by
  have haside := w.guardWork_aside damaged
  have hguard : (w.guardWork damaged).d.ft.guard = w.d.ft.guard := by rw [haside.ft]
  have hspec := (w.guardWork damaged).chooseTrim_spec
  rwa [haside.trimBound, hguard] at hspec

/-- Settles O26: everything between the start of the guard band and the choice of the trim works aside. -/
theorem guardBandTrimsWithinTheBound : Obligations.GuardBandTrimsWithinTheBound := by
  unfold Obligations.GuardBandTrimsWithinTheBound
  intro damaged s live hguard
  refine ⟨_, runLive_eq_world live (if_neg (fun h => Bool.false_ne_true (hguard.symm.trans h))), ?_⟩
  exact World.guardWork_chooseTrim (s.world.setFt (fun f => { f with guard := true, cycle := s.world.d.deadline })) damaged

end Sys2Proof.Machine
end

section
/-! PROOF. The settle point: what is latched stays latched, and a stop asked for stays asked for (R66, R68). -/

namespace Sys2Proof.Machine

open Dev.Aside (apart apart_slot apart_cause)

/-! ## What follows the latch -/

/-- `e` has the latched word, the settled bit and the contexts of `d`. -/
structure Dev.KeepsLatch (d e : Dev) : Prop where
  lo : rget e.regs FT_LATCH_LO = rget d.regs FT_LATCH_LO
  hi : rget e.regs FT_LATCH_HI = rget d.regs FT_LATCH_HI
  settled : e.ft.settled = d.ft.settled
  ctxs : e.ctxs = d.ctxs

namespace Dev.KeepsLatch

variable {d e f : Dev}

theorem refl (d : Dev) : Dev.KeepsLatch d d := ⟨rfl, rfl, rfl, rfl⟩

theorem trans (h : Dev.KeepsLatch d e) (k : Dev.KeepsLatch e f) : Dev.KeepsLatch d f :=
  ⟨k.lo.trans h.lo, k.hi.trans h.hi, k.settled.trans h.settled, k.ctxs.trans h.ctxs⟩

theorem of_aside (h : Dev.Aside False d e) (hc : e.ctxs = d.ctxs) : Dev.KeepsLatch d e where
  lo := h.regs _ (by unfold ftReg FT_LATCH_LO FT_HOLD_CAUSE PWR_INPUT; decide)
  hi := h.regs _ (by unfold ftReg FT_LATCH_HI FT_HOLD_CAUSE PWR_INPUT; decide)
  settled := by rw [h.ft]
  ctxs := hc

theorem aside (h : Dev.KeepsLatch d e) (k : Dev.Aside False e f) (hc : f.ctxs = e.ctxs) : Dev.KeepsLatch d f := h.trans (of_aside k hc)

theorem setFld (h : Dev.KeepsLatch d e) {a : Nat} (hi lo x : Nat) (ha : apart a) : Dev.KeepsLatch d (e.setFld a hi lo x) :=
  h.aside ((Dev.Aside.refl _ e).setFld hi lo x ha) (e.setFld_regsOnly a hi lo x).ctxs

theorem setReg (h : Dev.KeepsLatch d e) {a : Nat} (x : W64) (ha : apart a) : Dev.KeepsLatch d (e.setReg a x) :=
  h.aside ((Dev.Aside.refl _ e).setReg x ha) rfl

theorem count (h : Dev.KeepsLatch d e) {a : Nat} (hi lo n : Nat) (ha : apart a) : Dev.KeepsLatch d (e.count a hi lo n) :=
  h.aside ((Dev.Aside.refl _ e).count hi lo n ha) (e.count_regsOnly a hi lo n).ctxs

theorem log (h : Dev.KeepsLatch d e) (x : LogEntry) : Dev.KeepsLatch d (e.log_ x) :=
  h.aside ((Dev.Aside.refl _ e).log x) (congrArg Dev.ctxs (Dev.log_tells [] e x).only :)

theorem raise (h : Dev.KeepsLatch d e) (n : Nat) : Dev.KeepsLatch d (e.raise n) := h.aside ((Dev.Aside.refl _ e).raise n) rfl

theorem event (h : Dev.KeepsLatch d e) (code : Nat) (st det : W16) (ctx : Nat) (tag : W16) (bl : List Blk) :
    Dev.KeepsLatch d (e.event code st det ctx tag bl) :=
  h.aside ((Dev.Aside.refl _ e).event code st det ctx tag bl)
    (congrArg Dev.ctxs (Dev.event_tells (R := [HL_FAULT, HL_EVENTS_LOST]) e code st det ctx tag bl (by simp) (by simp)).only :)

theorem onSlot (h : Dev.KeepsLatch d e) (n : Nat) (f : Slot → Slot) : Dev.KeepsLatch d (e.onSlot n f) :=
  h.aside ((Dev.Aside.refl _ e).onSlot n f) rfl

/-- A change of the fret timer that keeps the settled bit. -/
theorem setFt (h : Dev.KeepsLatch d e) {f : Ft → Ft} (hf : (f e.ft).settled = e.ft.settled) : Dev.KeepsLatch d (e.setFt f) :=
  h.trans ⟨rfl, rfl, hf, rfl⟩

theorem fw (h : Dev.KeepsLatch d e) (x : Fw) : Dev.KeepsLatch d { e with fw := x } := h.trans ⟨rfl, rfl, rfl, rfl⟩

theorem courses (h : Dev.KeepsLatch d e) (xs : Tab Course) : Dev.KeepsLatch d { e with courses := xs } := h.trans ⟨rfl, rfl, rfl, rfl⟩

theorem foldl (h : Dev.KeepsLatch d e) {β : Type} {f : Dev → β → Dev} (xs : List β) (hf : ∀ a, ∀ b ∈ xs, Dev.KeepsLatch a (f a b)) :
    Dev.KeepsLatch d (xs.foldl f e) :=
  foldl_keeps (Dev.KeepsLatch d ·) f xs (fun a b hb ha => ha.trans (hf a b hb)) e h

theorem slotReg {n : Nat} (hn : n < 4) {k : Nat} (hk : k < 0x40) : apart (slotBase n + k) := apart_slot hn hk
theorem slotWord {n : Nat} (hn : n < 4) : apart (slotBase n) := Nat.add_zero (slotBase n) ▸ slotReg hn (k := 0) (by decide)

/-- The loss-scale words of a clean step. -/
theorem lossScale (h : Dev.KeepsLatch d e) {a : Nat} (ha : apart a) {P Q : Prop} [Decidable P] [Decidable Q] (x y z : Nat) :
    Dev.KeepsLatch d (if P then (if Q then (e.setFld a 47 32 x).setFld a 31 27 y else e.setFld a 47 32 z) else e) := by
  split
  · split
    · exact (h.setFld _ _ _ ha).setFld _ _ _ ha
    · exact h.setFld _ _ _ ha
  · exact h

theorem decideClean (h : Dev.KeepsLatch d e) {n : Nat} (hn : n < 4) : Dev.KeepsLatch d (e.decideClean n) := by
  have hs : apart (slotBase n) := slotWord hn
  have h8 : apart (slotBase n + 8) := slotReg hn (by decide)
  have h10 : apart (slotBase n + 0x10) := slotReg hn (by decide)
  have h18 : apart (slotBase n + 0x18) := slotReg hn (by decide)
  have h20 : apart (slotBase n + 0x20) := slotReg hn (by decide)
  have hnorm : ∀ x y z : Nat, Dev.KeepsLatch d (((e.setFld (slotBase n + 0x10) 31 0 x).setFld (slotBase n + 0x18) 63 32 y).setFld
      (slotBase n + 0x18) 31 0 z) := fun x y z => ((h.setFld _ _ _ h10).setFld _ _ _ h18).setFld _ _ _ h18
  unfold Dev.decideClean
  exact ((((((hnorm _ _ _).setReg _ h8).setFld _ _ _ h20).setFld _ _ _ h20).setFld _ _ _ hs).setFld _ _ _ hs).lossScale hs _ _ _ |>.setFld _ _ _ hs

theorem decideSkip (h : Dev.KeepsLatch d e) {n : Nat} (hn : n < 4) (fin : Bool) : Dev.KeepsLatch d (e.decideSkip n fin) := by
  have hs : apart (slotBase n) := slotWord hn
  have h10 : apart (slotBase n + 0x10) := slotReg hn (by decide)
  have h18 : apart (slotBase n + 0x18) := slotReg hn (by decide)
  have h28 : apart (slotBase n + 0x28) := slotReg hn (by decide)
  have hcounted := ((((h.setFld 31 0 (if fin then fsqrt (e.fld (slotBase n + 0x10) 63 32) else f32Nan) h10).setFld 63 32 f32One h18).setFld
    31 0 0 h18).count 63 48 1 hs).count 63 0 1 h28
  unfold Dev.decideSkip
  dsimp only
  refine Dev.KeepsLatch.setFld ?_ _ _ _ hs
  split
  · exact (hcounted.setFld _ _ _ hs).setFld _ _ _ hs
  · exact hcounted

end Dev.KeepsLatch

/-! ## The steps' decisions -/

/-- `v` has the latched word, the settled bit and the contexts of `w`. -/
def World.KeepsLatch (w v : World) : Prop := Dev.KeepsLatch w.d v.d

namespace World.KeepsLatch

variable {w v : World}

theorem refl (w : World) : World.KeepsLatch w w := Dev.KeepsLatch.refl w.d

theorem trans {u : World} (h : World.KeepsLatch w v) (k : World.KeepsLatch v u) : World.KeepsLatch w u := Dev.KeepsLatch.trans h k

theorem onDev (h : World.KeepsLatch w v) {f : Dev → Dev} (hf : Dev.KeepsLatch v.d (f v.d)) : World.KeepsLatch w (v.onDev f) :=
  Dev.KeepsLatch.trans h hf

theorem log (h : World.KeepsLatch w v) (x : LogEntry) : World.KeepsLatch w (v.log x) := Dev.KeepsLatch.log h x

theorem raise (h : World.KeepsLatch w v) (n : Nat) : World.KeepsLatch w (v.raise n) := Dev.KeepsLatch.raise h n

theorem event (h : World.KeepsLatch w v) (code : Nat) (st det : W16) (ctx : Nat) (bl : List Blk) :
    World.KeepsLatch w (v.event code st det ctx bl) := Dev.KeepsLatch.event h code st det ctx 0xFFFF bl

theorem foldl (h : World.KeepsLatch w v) {β : Type} {f : World → β → World} (xs : List β) (hf : ∀ u, ∀ b ∈ xs, World.KeepsLatch u (f u b)) :
    World.KeepsLatch w (xs.foldl f v) :=
  foldl_keeps (World.KeepsLatch w ·) f xs (fun u b hb hu => hu.trans (hf u b hb)) v h

theorem decide_ (h : World.KeepsLatch w v) {n : Nat} (hn : n < 4) : World.KeepsLatch w (v.decide_ n) := by
  unfold World.decide_
  dsimp only
  generalize (v.d.fld (slotBase n) 25 24 == 0 && f32IsFinite (v.d.fld (slotBase n + 0x10) 63 32)) = clean
  have hdecided : World.KeepsLatch w ((v.onDev (fun d => if clean then d.decideClean n else
      d.decideSkip n (f32IsFinite (v.d.fld (slotBase n + 0x10) 63 32)))).onDev
        (fun d => d.onSlot n (fun s => { s with verdict := if clean then 1 else 2 }))) := by
    refine (h.onDev ?_).onDev ((Dev.KeepsLatch.refl _).onSlot n _)
    split
    · exact (Dev.KeepsLatch.refl _).decideClean hn
    · exact (Dev.KeepsLatch.refl _).decideSkip hn _
  generalize (v.onDev (fun d => if clean then d.decideClean n else
      d.decideSkip n (f32IsFinite (v.d.fld (slotBase n + 0x10) 63 32)))).onDev
        (fun d => d.onSlot n (fun s => { s with verdict := if clean then 1 else 2 })) = u at hdecided ⊢
  have hrecorded : ∀ bytes : List Byte, World.KeepsLatch w ((List.range 8).foldl (fun w t => if w.d.fenced t then w else
      w.putBlk (nearAddr t (parRecord (u.d.slot n).param)) bytes 0) u) := fun bytes =>
    hdecided.foldl _ (fun a t _ => by
      split
      · exact refl a
      · exact refl a)
  specialize hrecorded (u.d.stepRecord n clean (f32IsFinite (v.d.fld (slotBase n + 0x10) 63 32)))
  generalize (List.range 8).foldl (fun w t => if w.d.fenced t then w else
      w.putBlk (nearAddr t (parRecord (u.d.slot n).param)) (u.d.stepRecord n clean (f32IsFinite (v.d.fld (slotBase n + 0x10) 63 32))) 0) u = r at hrecorded ⊢
  have htold : ∀ {u : World} (code : Nat) (st det : W16) (ctx : Nat) (x : LogEntry), World.KeepsLatch w u →
      World.KeepsLatch w (((u.raise flagAbort).event code st det ctx []).log x) := fun code st det ctx x hu =>
    ((hu.raise _).event code st det ctx []).log x
  split
  · split
    · exact htold _ _ _ _ _ hrecorded
    · exact hrecorded
  · split
    · exact htold _ _ _ _ _ (hrecorded.log _)
    · exact hrecorded.log _

theorem settleSteps (h : World.KeepsLatch w v) (word : W128) : World.KeepsLatch w (v.settleSteps word) := by
  unfold World.settleSteps
  refine h.foldl _ (fun u n hn => ?_)
  have hn : n < 4 := List.mem_range.1 hn
  have hflags : World.KeepsLatch u (if u.d.slotState n = slotOpen ∨ u.d.slotState n = slotNormed then
      u.setFld (slotBase n) 25 24 (u.d.fld (slotBase n) 25 24 ||| word.toNat % 4) else u) := by
    split
    · exact (Dev.KeepsLatch.refl u.d).setFld 25 24 _ (Dev.KeepsLatch.slotWord hn)
    · exact refl u
  dsimp only
  generalize (if u.d.slotState n = slotOpen ∨ u.d.slotState n = slotNormed then
      u.setFld (slotBase n) 25 24 (u.d.fld (slotBase n) 25 24 ||| word.toNat % 4) else u) = x at hflags ⊢
  split
  · exact hflags.decide_ hn
  · exact hflags

theorem fwDecide (h : World.KeepsLatch w v) (unready : Bool) : World.KeepsLatch w (v.fwDecide unready) := by
  have hended : ∀ det : W16, Dev.KeepsLatch v.d ((v.d.opEnded 0x403 (fun _ => true) stManifestIncomplete det).uncommit 2) := fun det =>
    Dev.KeepsLatch.of_aside (Dev.Aside.uncommit (d := v.d) (e := v.d.opEnded 0x403 (fun _ => true) stManifestIncomplete det)
      (Dev.Aside.of_same rfl rfl rfl rfl rfl) 2) (Dev.wdShared_regsOnly _).ctxs
  unfold World.fwDecide
  split
  · split
    · exact (h.onDev ((hended _).fw _)).log _
    · exact h.onDev ((Dev.KeepsLatch.refl _).fw _)
  · exact h

end World.KeepsLatch

/-! ## ABORT -/

/-- A context that runs is asked to stop. -/
def Dev.asked (d : Dev) (i : Nat) : Prop := (d.ctx i).active = true ∧ (d.ctx i).stop ≠ none

theorem stopWins_none (n : Stop) : stopWins none n = true := rfl

theorem Dev.stopCtx_asked_self {d : Dev} {i : Nat} (h : (d.ctx i).active = true) (tgt : CtxSt) (st det : W16) (p : W32) :
    (d.stopCtx i tgt st det p).asked i := by
  have hact : (d.ctx i).st = .runnable ∨ (d.ctx i).st = .resident := by
    simpa [Ctx.active] using h
  unfold Dev.asked Dev.stopCtx
  dsimp only
  rw [Dev.onCtx_ctx_self, if_pos hact]
  split
  · exact ⟨h, Option.some_ne_none _⟩
  · next hw =>
    refine ⟨h, fun hnone => hw ?_⟩
    rw [hnone, stopWins_none]

theorem Dev.stopCtx_asked_ne {d : Dev} {i k : Nat} (h : k ≠ i) (tgt : CtxSt) (st det : W16) (p : W32) :
    (d.stopCtx i tgt st det p).ctx k = d.ctx k := Dev.onCtx_ctx_ne d _ h

/-- A stop asked of every running context of a list is asked of each. -/
theorem stopAll_asked (tgt : CtxSt) (st det : W16) (p : W32) (xs : List (Nat × Ctx)) (d : Dev) (i : Nat)
    (h : d.asked i ∨ ((d.ctx i).active = true ∧ ∃ x ∈ xs, x.1 = i)) :
    (xs.foldl (fun (d : Dev) (e : Nat × Ctx) => d.stopCtx e.1 tgt st det p) d).asked i := by
  induction xs generalizing d with
  | nil =>
    obtain h | ⟨_, x, hx, _⟩ := h
    · exact h
    · exact absurd hx List.not_mem_nil
  | cons x xs ih =>
    rw [List.foldl_cons]
    by_cases hx : i = x.1
    · subst hx
      refine ih _ (.inl (Dev.stopCtx_asked_self ?_ tgt st det p))
      exact h.elim (·.1) (·.1)
    · have hkeep := Dev.stopCtx_asked_ne (d := d) hx tgt st det p
      refine ih _ ?_
      unfold Dev.asked at h ⊢
      rw [hkeep]
      obtain h | ⟨hact, y, hy, hyi⟩ := h
      · exact .inl h
      · obtain rfl | hy := List.mem_cons.1 hy
        · exact absurd hyi.symm hx
        · exact .inr ⟨hact, y, hy, hyi⟩

/-- ABORT asks every running context to stop. -/
theorem World.abortAll_asked (w : World) {i : Nat} (hact : (w.d.ctx i).active = true) (hi : ∃ x ∈ w.d.ctxs, x.1 = i) :
    (w.abortAll.d.ctx i).stop ≠ none := by
  have hstop := stopAll_asked .parked stOk 0 0 w.d.ctxs w.d i (.inr ⟨hact, hi⟩)
  have hkeep : w.abortAll.d.ctxs = (w.d.ctxs.foldl (fun (d : Dev) (e : Nat × Ctx) => d.stopCtx e.1 .parked stOk 0 0) w.d).ctxs :=
    ((Dev.KeepsLatch.setFt (.refl _) (f := fun f => { f with split := false }) rfl).event ..).ctxs
  rw [Dev.ctx, hkeep]
  exact hstop.2

theorem World.abortAll_latch (w : World) : rget w.abortAll.d.regs FT_LATCH_LO = rget w.d.regs FT_LATCH_LO ∧
    rget w.abortAll.d.regs FT_LATCH_HI = rget w.d.regs FT_LATCH_HI ∧ w.abortAll.d.ft.settled = w.d.ft.settled := by
  have hstop : ∀ xs : List (Nat × Ctx), ∀ d : Dev, Dev.Aside False d (xs.foldl (fun (d : Dev) (e : Nat × Ctx) => d.stopCtx e.1 .parked stOk 0 0) d) :=
    fun xs d => (Dev.Aside.refl False d).foldl xs (fun a _ _ => (Dev.Aside.refl False a).same rfl rfl rfl rfl rfl)
  have hall : Dev.KeepsLatch (w.d.ctxs.foldl (fun (d : Dev) (e : Nat × Ctx) => d.stopCtx e.1 .parked stOk 0 0) w.d) w.abortAll.d :=
    (Dev.KeepsLatch.setFt (.refl _) (f := fun f => { f with split := false }) rfl).event ..
  have haside := hstop w.d.ctxs w.d
  refine ⟨hall.lo.trans (haside.regs _ ?_), hall.hi.trans (haside.regs _ ?_), ?_⟩
  · unfold ftReg FT_LATCH_LO FT_HOLD_CAUSE PWR_INPUT; decide
  · unfold ftReg FT_LATCH_HI FT_HOLD_CAUSE PWR_INPUT; decide
  · rw [hall.settled, haside.ft]

/-! ## The settle point -/

/-- The word of the settle point in the two latch registers. -/
def World.wordShown (w : World) : World :=
  w.onDev (fun d =>
    (d.setReg FT_LATCH_LO (BitVec.ofNat 64 (w.d.ft.word.toNat % 2 ^ 64))).setReg FT_LATCH_HI (BitVec.ofNat 64 (w.d.ft.word.toNat / 2 ^ 64)))

/-- The word of the settle point, latched. -/
def World.wordLatched (w : World) : World :=
  w.wordShown.setFt (fun f => { f with settled := true, cycle := w.wordShown.d.settleLen })

/-- The word latched, and every running context stopped where it holds ABORT. -/
def World.abortLatched (w : World) : World :=
  if wordFlag w.d.ft.word flagAbort then w.wordLatched.abortAll else w.wordLatched

/-- A settle point that differs from the latch: the hold is announced and no line waits any more. -/
def World.splitTold (w : World) : World :=
  ((((w.setBit FT_HOLD_CAUSE 10).raise flagAbort).log { entry 0x1E 0xFF 0xFF with event := 0x805, detail := 1, flags := 1 }).setFt
    (fun f => { f with launchStop := true, split := true })).onDev (fun d => { d with courses := d.courses.map (fun e =>
      (e.1, { e.2 with lines := e.2.lines.map (fun l => if l.phase = .waiting ∨ l.phase = .held then { l with phase := .abandoned } else l) })) })

theorem World.KeepsLatch.splitTold {w v : World} (h : World.KeepsLatch w v) : World.KeepsLatch w v.splitTold := by
  have htold : World.KeepsLatch w (((v.setBit FT_HOLD_CAUSE 10).raise flagAbort).log
      { entry 0x1E 0xFF 0xFF with event := 0x805, detail := 1, flags := 1 }) :=
    ((h.onDev ((Dev.KeepsLatch.refl v.d).setFld 10 10 1 apart_cause)).raise _).log _
  exact (htold.onDev ((Dev.KeepsLatch.refl _).setFt rfl)).onDev ((Dev.KeepsLatch.refl _).courses _)

theorem doSettlePoint_eq (w : World) (hl : w.d.ft.latched = true) (hs : w.d.ft.settled = false) :
    doSettlePoint w = ((if (wordFlag w.d.ft.word 2 != w.d.ft.latchedReq) = true then w.abortLatched.splitTold else w.abortLatched).settleSteps
      w.d.ft.word).fwDecide (wordFlag w.d.ft.word 7) := by
  have hneg : ¬ ((!w.d.ft.latched || w.d.ft.settled) = true) := by rw [hl, hs]; decide
  exact if_neg hneg

theorem doSettlePoint_keepsLatch {w : World} (hl : w.d.ft.latched = true) (hs : w.d.ft.settled = false) :
    World.KeepsLatch w.abortLatched (doSettlePoint w) := by
  rw [doSettlePoint_eq w hl hs]
  refine (World.KeepsLatch.settleSteps ?_ _).fwDecide _
  split
  · exact (World.KeepsLatch.refl _).splitTold
  · exact .refl _

theorem World.wordLatched_spec (w : World) : w.wordLatched.d.ft.settled = true ∧
    rget w.wordLatched.d.regs FT_LATCH_LO = BitVec.ofNat 64 (w.d.ft.word.toNat % 2 ^ 64) ∧
    rget w.wordLatched.d.regs FT_LATCH_HI = BitVec.ofNat 64 (w.d.ft.word.toNat / 2 ^ 64) := by
  refine ⟨rfl, ?_, ?_⟩
  · exact (Dev.setReg_rget_ne _ _ (by decide)).trans (Dev.setReg_rget_self ..)
  · exact Dev.setReg_rget_self ..

theorem World.abortLatched_spec (w : World) : w.abortLatched.d.ft.settled = true ∧
    rget w.abortLatched.d.regs FT_LATCH_LO = BitVec.ofNat 64 (w.d.ft.word.toNat % 2 ^ 64) ∧
    rget w.abortLatched.d.regs FT_LATCH_HI = BitVec.ofNat 64 (w.d.ft.word.toNat / 2 ^ 64) := by
  obtain ⟨hsettled, hlo, hhi⟩ := w.wordLatched_spec
  unfold World.abortLatched
  split
  · obtain ⟨hlo', hhi', hsettled'⟩ := w.wordLatched.abortAll_latch
    exact ⟨hsettled'.trans hsettled, hlo'.trans hlo, hhi'.trans hhi⟩
  · exact ⟨hsettled, hlo, hhi⟩

theorem World.abortLatched_stops {w : World} (hword : wordFlag w.d.ft.word flagAbort = true) {i : Nat}
    (hi : ∃ x ∈ w.d.ctxs, x.1 = i) (hact : (w.d.ctx i).active = true) : (w.abortLatched.d.ctx i).stop ≠ none := by
  unfold World.abortLatched
  rw [if_pos hword]
  exact w.wordLatched.abortAll_asked hact hi

/-- Settles O25: nothing after the latch changes the latched word, the settled bit or a stop asked for. -/
theorem settlePointLatchesTheWord : Obligations.SettlePointLatchesTheWord := by
  unfold Obligations.SettlePointLatchesTheWord
  refine ⟨fun s live hl hs => ?_, fun s live hs => ?_⟩
  · have hkept : World.KeepsLatch s.world.abortLatched (doSettlePoint s.world) := doSettlePoint_keepsLatch hl hs
    obtain ⟨hsettled, hlo, hhi⟩ := s.world.abortLatched_spec
    refine ⟨_, runLive_eq_world live rfl, hkept.settled.trans hsettled, hkept.lo.trans hlo, hkept.hi.trans hhi, ?_⟩
    intro hword x hx hact
    show (tget Ctx.init (doSettlePoint s.world).d.ctxs x.1).stop ≠ none
    rw [hkept.ctxs]
    exact World.abortLatched_stops (w := s.world) hword ⟨x, hx, rfl⟩ hact
  · exact runLive_eq_dev (f := doSettlePoint) (d := s.dev) live (if_pos (by
      show (!s.dev.ft.latched || s.dev.ft.settled) = true
      rw [hs, Bool.or_true]))

end Sys2Proof.Machine
end

section
/-! PROOF. The start of a fret: what ends, parks and is scheduled works aside of the fret counted (R46, R62). -/

namespace Sys2Proof.Machine

open Dev.Aside (apart apart_of_block apart_of_courses apart_slot apart_cause not_ftReg_CTX_SVC)

/-! ## Changes aside whatever the stack monitors show -/

namespace Dev.Aside

variable {d e : Dev}

theorem of_offRegs (hregs : d.RegsOnly e) (h : ∀ a, ftReg a → rget e.regs a = rget d.regs a) : Dev.Aside False d e where
  regs := h
  busy hf := hf.elim
  ft := by rw [show e.ft = d.ft from (congrArg Dev.ft hregs :)]
  hedge := (congrArg Dev.hedge hregs :)
  board := (congrArg Dev.board hregs :)
  steps hf := hf.elim

theorem setFldOff (h : Dev.Aside False d e) {a : Nat} (hi lo x : Nat) (ha : ¬ ftReg a) : Dev.Aside False d (e.setFld a hi lo x) :=
  h.trans (of_offRegs (e.setFld_regsOnly a hi lo x) (fun _ hb => e.setFld_rget_ne hi lo x (fun hba => ha (hba ▸ hb))))

theorem countOff (h : Dev.Aside False d e) {a : Nat} (hi lo n : Nat) (ha : ¬ ftReg a) : Dev.Aside False d (e.count a hi lo n) :=
  h.trans (of_offRegs (e.count_regsOnly a hi lo n) (fun _ hb => e.count_rget_ne hi lo n (fun hba => ha (hba ▸ hb))))

theorem configure (h : Dev.Aside False d e) (i : Nat) (b : List Byte) : Dev.Aside False d (e.configure i b) := by
  have hdropped : Dev.Aside False d (if (BitVec.ofNat 96 (numAt b 4 12) != (e.ctx i).mask) = true then e.dropResident i else e) := by
    split
    · exact h.dropResident i
    · exact h
  unfold Dev.configure
  exact (((hdropped.onSvc i _).setFldOff 63 63 1 (not_ftReg_CTX_SVC i)).setFldOff 55 48 _ (not_ftReg_CTX_SVC i)).onCtx i _

theorem stopAll (h : Dev.Aside False d e) (tgt : CtxSt) (st det : W16) (p : W32) (xs : List (Nat × Ctx)) :
    Dev.Aside False d (xs.foldl (fun (d : Dev) (e : Nat × Ctx) => d.stopCtx e.1 tgt st det p) e) :=
  h.foldl xs (fun a _ _ => (refl False a).onCtx ..)

theorem offUnits (h : Dev.Aside False d e) (i : Nat) : Dev.Aside False d (e.offUnits i) :=
  h.foldl _ (fun a c _ => of_courses (a.dropLines_coursesOnly c i))

theorem fhEmptied (h : Dev.Aside False d e) (n : Nat) : Dev.Aside False d { e with fh := [], fhPositions := n } := h.same rfl rfl rfl rfl rfl

theorem fhSnapshot (h : Dev.Aside False d e) (pos : Nat) : Dev.Aside False d (e.fhSnapshot pos) := by
  have htotal : ∀ n ∈ List.range 64, ∀ k < 0x18, apart (FH_TOTAL n + k) := fun n hn k hk => apart_of_block (by
    have := List.mem_range.1 hn
    unfold FH_TOTAL
    omega)
  have hcounts := h.foldl (List.range 64) (f := fun d n =>
      ((d.setReg (FH_TOTAL n) (BitVec.ofNat 64 (tget { total := 0, ovr := 0, under := 0 } d.fh n).total)).setReg (FH_TOTAL n + 8)
        (BitVec.ofNat 64 (tget { total := 0, ovr := 0, under := 0 } d.fh n).ovr)).setReg (FH_TOTAL n + 0x10)
        (BitVec.ofNat 64 (tget { total := 0, ovr := 0, under := 0 } d.fh n).under)) (fun a n hn =>
    (((refl False a).setReg _ (htotal n hn 0 (by decide))).setReg _ (htotal n hn 8 (by decide))).setReg _ (htotal n hn 0x10 (by decide)))
  unfold Dev.fhSnapshot
  exact ((hcounts.setReg _ (apart_of_block (by decide))).setReg (a := FH_SNAP_POS) _ (apart_of_block (by decide))).fhEmptied 1

theorem fhPosition (h : Dev.Aside False d e) (i : Nat) : Dev.Aside False d (e.fhPosition i) := by
  unfold Dev.fhPosition
  split
  · split
    · exact h.same rfl rfl rfl rfl rfl
    · split
      · exact h.fhSnapshot _
      · exact h.same rfl rfl rfl rfl rfl
  · exact h

/-- The registers of a course's status. -/
theorem apart_CC_STATUS (c : Nat) : apart (CC_STATUS c) := apart_of_courses (ccBase_le c)

/-- The waiting resets count the fret, and a hold for an update ends with it. -/
theorem resetsWaited (h : Dev.Aside False d e) (ts : List Nat) :
    Dev.Aside False d (ts.foldl (fun d t => if (d.tower t).step = .none then d else d.onTower t (fun x => { x with waited := x.waited + 1 })) e) :=
  h.foldl ts (fun a t _ => by
    split
    · exact refl False a
    · exact (refl False a).onTower t (fun _ => rfl))

end Dev.Aside

namespace World.Aside

variable {w v : World}

theorem courses (g : World.Aside False w v) (f : Dev → Tab Course) : World.Aside False w (v.onDev (fun d => { d with courses := f d })) :=
  g.onDev (Dev.Aside.of_same rfl rfl rfl rfl rfl)

theorem movePosition (g : World.Aside False w v) (i pos passes : Nat) : World.Aside False w (v.movePosition i pos passes) := by
  unfold World.movePosition
  refine g.foldl _ (fun u c _ => ?_)
  split
  · exact refl False u
  · exact (refl False u).moveSet ..

theorem completePosition (g : World.Aside False w v) (i : Nat) : World.Aside False w (v.completePosition i) := by
  have hoff : World.Aside False w (v.onDev (fun d => d.offUnits i)) := g.onDev ((Dev.Aside.refl False v.d).offUnits i)
  unfold World.completePosition
  dsimp only
  split
  · exact (hoff.movePosition ..).onCtx i _
  · split
    · exact hoff.onCtx i _
    · refine ((World.Aside.onDev (hoff.onCtx i _) ?_).onDev ?_).event ..
      · exact ((Dev.Aside.refl False _).endParks i).onCtx i _
      · exact (Dev.Aside.refl False _).idleSlots i

theorem ckptByService (g : World.Aside False w v) (i : Nat) : World.Aside False w (v.ckptByService i) := by
  have hasked : ∀ (b : Bool) (x : Option (Nat × Nat)) (k : Ckpt), World.Aside False w
      (if b = true then v.onDev (fun d =>
        { d.onSvc 1 (fun s => { s with asked := x }) with ckpts := (d.onSvc 1 (fun s => { s with asked := x })).ckpts ++ [k] }) else v) := fun b x k => by
    split
    · exact g.onDev (((Dev.Aside.refl False v.d).onSvc 1 (fun s => { s with asked := x })).same rfl rfl rfl rfl rfl)
    · exact g
  exact hasked _ _ _

/-- The courses of a service that has run go off. -/
theorem serviceIdle (g : World.Aside False w v) (cs : List Nat) :
    World.Aside False w (v.onDev (fun d => cs.foldl (fun d c =>
      if (d.course c).runner.isNone then d.setFld (CC_STATUS c) 0 0 0 else d) d)) :=
  g.onDev ((Dev.Aside.refl False v.d).foldl cs (fun a c _ => by
    split
    · exact (Dev.Aside.refl False a).setFld 0 0 0 (Dev.Aside.apart_CC_STATUS c)
    · exact Dev.Aside.refl False a))

/-- A position that is done is completed. -/
theorem doneCompleted (g : World.Aside False w v) (b : Bool) (i : Nat) :
    World.Aside False w (if b = true then v.completePosition i else v) := by
  split
  · exact g.completePosition i
  · exact g

theorem endPosition (g : World.Aside False w v) (ran : Bool) (i : Nat) : World.Aside False w (v.endPosition ran i) := by
  have hran : ∀ u, World.Aside False w u → ∀ (k : Nat) (open_ ranLast : Bool) (cs : List Nat), World.Aside False w
      (if k = 2 then
        if ranLast = true then u.onDev (fun d => cs.foldl (fun d c =>
          if (d.course c).runner.isNone then d.setFld (CC_STATUS c) 0 0 0 else d) d) else u
      else
        if ((if open_ = true then u.completePosition i else u).d.ctx i).active then
          (if open_ = true then u.completePosition i else u).ckptByService i
        else if open_ = true then u.completePosition i else u) := fun u hu k open_ ranLast cs => by
    have hdone := hu.doneCompleted open_ i
    generalize (if open_ = true then u.completePosition i else u) = x at hdone ⊢
    split
    · split
      · exact hu.serviceIdle cs
      · exact hu
    · split
      · exact hdone.ckptByService i
      · exact hdone
  unfold World.endPosition
  show World.Aside False w (if (!(v.d.ctx i).active) = true then v else _)
  split
  · exact g
  · exact hran _ (g.onCtx i _) _ _ _ _

theorem enterStop (g : World.Aside False w v) (i : Nat) (s : Stop) : World.Aside False w (v.enterStop i s) := by
  have hoff : ∀ f : Ctx → Ctx, World.Aside False w ((v.onDev (fun d => d.offUnits i)).onDev (fun d => d.onCtx i f)) := fun f =>
    World.Aside.onCtx (g.onDev ((Dev.Aside.refl False v.d).offUnits i)) i f
  have htold : ∀ u, World.Aside False w u → ∀ (code : Nat) (bl : List Blk), World.Aside False w
      (u.onDev (fun d => (d.endParks i).1.event code s.status s.detail i (d.endParks i).2 bl)) := fun u hu code bl =>
    hu.onDev (((Dev.Aside.refl False u.d).endParks i).event ..)
  unfold World.enterStop
  refine htold _ ?_ _ _
  split
  · exact (hoff _).raise _
  · exact hoff _

theorem boundary (g : World.Aside False w v) (ran : Bool) (i : Nat) : World.Aside False w (v.boundary ran i) := by
  have hdestroyed : ∀ u, World.Aside False w u → World.Aside False w (u.onDev (fun d => d.destroyCtx i)) := fun u hu =>
    hu.onDev ((Dev.Aside.refl False u.d).destroyCtx i)
  have hran : World.Aside False w (if (v.d.ctx i).ran && ran then
      v.onDev (fun d => d.onCtx i (fun x => { x with runFrets := x.runFrets + 1 })) else v) := by
    split
    · exact g.onCtx i _
    · exact g
  have hrest : ∀ u, World.Aside False w u → World.Aside False w
      (if (!(u.d.ctx i).active) = true then
        match (u.d.ctx i).destroy with | some _ => u.onDev (fun d => d.destroyCtx i) | none => u
      else if u.d.linesRunning i = true then u
      else if (u.d.ctx i).destroy.isSome = true then u.onDev (fun d => d.destroyCtx i)
      else match (u.d.ctx i).stop with
        | some s => u.enterStop i s
        | none =>
          if ((u.d.ctx i).parkPos = some (u.d.ctx i).pos ∨ (u.d.ctx i).parkPos = some 0) ∧ (!(u.d.ctx i).posOpen) = true then
            u.enterStop i { tgt := .parked, status := stOk, detail := 0, param := 0 }
          else u) := fun u hu => by
    split
    · split
      · exact hdestroyed u hu
      · exact hu
    · split
      · exact hu
      · split
        · exact hdestroyed u hu
        · split
          · exact hu.enterStop ..
          · split
            · exact hu.enterStop ..
            · exact hu
  unfold World.boundary
  show World.Aside False w (if (!(v.d.ctx i).active) = true then v else _)
  split
  · exact g
  · exact hrest _ ((hran.onCtx i _).doneCompleted _ i)

theorem stopServices (g : World.Aside False w v) (t : Nat) : World.Aside False w (v.stopServices t) := by
  unfold World.stopServices
  refine g.foldl _ (fun u x _ => ?_)
  refine (World.Aside.onDev ((refl False u).endService ..) ?_).event ..
  exact ((Dev.Aside.refl False _).dropResident _).onCtx _ _

theorem fwParks (g : World.Aside False w v) : World.Aside False w v.fwParks := by
  have hstopped : World.Aside False w (if v.d.replaces 4 || v.d.replaces 5 then
      v.onDev (fun d => d.ctxs.foldl (fun (d : Dev) (e : Nat × Ctx) => d.stopCtx e.1 .parked stOk 0 0) d) else v) := by
    split
    · exact g.onDev ((Dev.Aside.refl False v.d).stopAll ..)
    · exact g
  unfold World.fwParks
  dsimp only
  split
  · generalize (if v.d.replaces 4 || v.d.replaces 5 then
      v.onDev (fun d => d.ctxs.foldl (fun (d : Dev) (e : Nat × Ctx) => d.stopCtx e.1 .parked stOk 0 0) d) else v) = u at hstopped ⊢
    split
    · exact hstopped.foldl _ (fun x t _ => (refl False x).stopServices t)
    · exact hstopped
  · exact g

theorem svcReplaced (g : World.Aside False w v) : World.Aside False w v.svcReplaced := by
  unfold World.svcReplaced
  refine g.foldl _ (fun u i _ => ?_)
  split
  · split
    · exact (refl False u).onDev ((Dev.Aside.refl False u.d).configure ..)
    · exact refl False u
  · exact refl False u

theorem startPosition (g : World.Aside False w v) (i : Nat) (cs : List Nat) : World.Aside False w (v.startPosition i cs) := by
  unfold World.startPosition
  refine World.Aside.onCtx (World.Aside.foldl (g.onDev ((Dev.Aside.refl False v.d).fhPosition i)) _ (fun u c _ => ?_)) i _
  split
  · exact refl False u
  · exact (refl False u).onDev ((((Dev.Aside.refl False u.d).setFld 5 4 _ (Dev.Aside.apart_CC_STATUS c)).setFld 0 0 1
      (Dev.Aside.apart_CC_STATUS c)).onCourse c _)

theorem schedHedge {s : World × Sched} (g : World.Aside False w s.1) (i : Nat) : World.Aside False w (schedHedge s i).1 := by
  obtain ⟨u, q⟩ := s
  unfold Machine.schedHedge
  dsimp only
  split
  · split
    · exact g.startPosition ..
    · exact g
  · exact g

theorem schedService {s : World × Sched} (g : World.Aside False w s.1) (k : Nat) : World.Aside False w (schedService s k).1 := by
  obtain ⟨u, q⟩ := s
  unfold Machine.schedService
  dsimp only
  split
  · exact World.Aside.onDev (World.Aside.onDev (v := u) g ((Dev.Aside.refl False u.d).countOff 47 0 1 (not_ftReg_CTX_SVC k)))
      (((Dev.Aside.refl False _).foldl _ (fun a c _ => by
        split
        · exact ((Dev.Aside.refl False a).setFld 5 4 _ (Dev.Aside.apart_CC_STATUS c)).setFld 0 0 1 (Dev.Aside.apart_CC_STATUS c)
        · exact Dev.Aside.refl False a)).onCtx k _)
  · exact g

theorem schedAlone {s : World × Sched} (g : World.Aside False w s.1) (i : Nat) : World.Aside False w (schedAlone s i).1 := by
  obtain ⟨u, q⟩ := s
  have hcounted : ∀ (b : Bool) (cs : List Nat), World.Aside False w (if b = true then
      (List.range 8).foldl (fun w t => w.count (CTXR t + 0x10) 63 0 (cs.filter (fun c => c / 12 == t)).length) u else u) := fun b cs => by
    split
    · exact World.Aside.foldl g _ (fun a t _ => (refl False a).count 63 0 _ (apart_of_block (by unfold CTXR twBase; omega)))
    · exact g
  have hturn : ∀ (a : World) (b : Bool), World.Aside False w a → World.Aside False w
      (a.onDev (fun d => if b = true then { d with turn := some (d.placeRank i) } else d)) := fun a b ha => ha.onDev (by
    split
    · exact Dev.Aside.of_same rfl rfl rfl rfl rfl
    · exact Dev.Aside.refl False a.d)
  unfold Machine.schedAlone
  dsimp only
  split
  · exact (hturn _ _ (hcounted q.hedge _)).startPosition i _
  · exact g

theorem schedule (g : World.Aside False w v) : World.Aside False w v.schedule := by
  have hfold : ∀ (f : World × Sched → Nat → World × Sched), (∀ s i, World.Aside False w s.1 → World.Aside False w (f s i).1) →
      ∀ (is : List Nat) (s : World × Sched), World.Aside False w s.1 → World.Aside False w (is.foldl f s).1 := fun f hf is s hs =>
    foldl_keeps (fun s : World × Sched => World.Aside False w s.1) f is (fun s i _ h => hf s i h) s hs
  unfold World.schedule
  exact hfold _ (fun _ i h => h.schedAlone i) _ _ (hfold _ (fun _ i h => h.schedService i) _ _ (hfold _ (fun _ i h => h.schedHedge i) _ _ g))

theorem fetchLines (g : World.Aside False w v) : World.Aside False w v.fetchLines := by
  unfold World.fetchLines
  refine World.Aside.foldl (g.courses _) _ (fun u e _ => ?_)
  split
  · exact (refl False u).onDev ((Dev.Aside.refl False u.d).onCourse ..)
  · exact refl False u

end World.Aside

end Sys2Proof.Machine
end

section
/-! PROOF. FRET_START: one fret counted and the word begun from the sample (R46, R62, R16). -/

namespace Sys2Proof.Machine

open Dev.Aside (apart)

/-! ## Before the fret is counted -/

/-- The number of the fret is as before. -/
structure Dev.SameFret (d e : Dev) : Prop where
  num : rget e.regs FT_FRET_NUM = rget d.regs FT_FRET_NUM

namespace Dev.SameFret

variable {d e f : Dev}

theorem refl (d : Dev) : Dev.SameFret d d := ⟨rfl⟩

theorem trans (h : Dev.SameFret d e) (k : Dev.SameFret e f) : Dev.SameFret d f := ⟨k.num.trans h.num⟩

theorem aside (h : Dev.SameFret d e) (k : Dev.Aside False e f) : Dev.SameFret d f :=
  h.trans ⟨k.regs _ (by unfold ftReg FT_FRET_NUM FT_HOLD_CAUSE PWR_INPUT; decide)⟩

theorem setFt (h : Dev.SameFret d e) (f : Ft → Ft) : Dev.SameFret d (e.setFt f) := h.trans ⟨rfl⟩

theorem setFld (h : Dev.SameFret d e) {a : Nat} (hi lo x : Nat) (ha : FT_FRET_NUM ≠ a) : Dev.SameFret d (e.setFld a hi lo x) :=
  h.trans ⟨e.setFld_rget_ne hi lo x ha⟩

theorem count (h : Dev.SameFret d e) {a : Nat} (hi lo n : Nat) (ha : FT_FRET_NUM ≠ a) : Dev.SameFret d (e.count a hi lo n) :=
  h.trans ⟨e.count_rget_ne hi lo n ha⟩

theorem endFret (h : Dev.SameFret d e) : Dev.SameFret d e.endFret := by
  have hheld : ∀ x, Dev.SameFret d x → ∀ y z : Nat, Dev.SameFret d
      (((x.count FT_HOLD_FRETS 63 0 1).setFld FT_HOLD_STATUS 23 20 y).setFld FT_HOLD_STATUS 13 0 z) := fun x hx y z =>
    ((hx.count 63 0 1 (by decide)).setFld 23 20 y (by decide)).setFld 13 0 z (by decide)
  have hran : Dev.SameFret d (((e.setFt (fun f => { f with holdRun := 0 })).count FT_POS 63 0 1).setFld FT_HOLD_STATUS 23 20
      (min 15 ((e.setFt (fun f => { f with holdRun := 0 })).fld FT_HOLD_STATUS 23 20 + 1))) :=
    ((h.setFt _).count 63 0 1 (by decide)).setFld 23 20 _ (by decide)
  have hlogged : ∀ x, Dev.SameFret d x → ∀ (P : Prop) [Decidable P] (l : LogEntry), Dev.SameFret d (if P then x.log_ l else x) :=
    fun x hx P _ l => by
      split
      · exact hx.aside ((Dev.Aside.refl False x).log l)
      · exact hx
  unfold Dev.endFret
  split
  · exact h
  · split
    · dsimp only
      refine hlogged _ ?_ _ _
      refine hheld _ ?_ _ _
      have hset := h.setFt (fun f => { f with remain := f.remain - 1, holdRun := f.holdRun + 1 })
      generalize e.setFt (fun f => { f with remain := f.remain - 1, holdRun := f.holdRun + 1 }) = x at hset ⊢
      split
      · exact hset.count 47 0 1 (by decide)
      · exact hset
    · dsimp only
      generalize ((e.setFt (fun f => { f with holdRun := 0 })).count FT_POS 63 0 1).setFld FT_HOLD_STATUS 23 20
        (min 15 ((e.setFt (fun f => { f with holdRun := 0 })).fld FT_HOLD_STATUS 23 20 + 1)) = x at hran ⊢
      split
      · exact hran.trans ⟨rfl⟩
      · exact hran

end Dev.SameFret

theorem World.leaderMissing_sameFret {d : Dev} {w : World} (h : Dev.SameFret d w.d) : Dev.SameFret d w.leaderMissing.d := by
  have hlost : Dev.SameFret d (((w.d.setFld FT_HOLD_STATUS 18 18 1).count FT_LEADER 63 56 1).setFt
      (fun f => { f with leaderHold := true, aligned := 0 })) :=
    ((h.setFld 18 18 1 (by decide)).count 63 56 1 (by decide)).setFt _
  have htold : ∀ (v : World), Dev.SameFret d v.d → ∀ (b : Bool) (bl : List Blk) (l : LogEntry),
      Dev.SameFret d (if b = true then (v.event 0x815 stOk 0 0xFFFF bl).log l else v).d := fun v hv b bl l => by
    split
    · exact hv.aside (World.Aside.log (World.Aside.event (World.Aside.refl False v) ..) l)
    · exact hv
  unfold World.leaderMissing
  split
  · exact htold ((w.onDev (fun d => (d.setFld FT_HOLD_STATUS 18 18 1).count FT_LEADER 63 56 1)).setFt
      (fun f => { f with leaderHold := true, aligned := 0 })) hlost _ _ _
  · exact h

/-! ## The fret begins -/

/-- A fret counted, with its hold bit and its trim shown. -/
def Dev.fretCounted (d : Dev) : Dev :=
  ((d.count FT_FRET_NUM 63 0 1).setFld FT_HOLD_STATUS 17 17 0).setFld FT_ALIGN 31 16
    (((d.count FT_FRET_NUM 63 0 1).setFld FT_HOLD_STATUS 17 17 0).ft.trim % 65536).toNat

/-- The fret begun from the sample taken. -/
def Dev.fretBegun (d : Dev) : Dev :=
  ((d.fretCounted.takeSample.setFt Ft.begin_).setFt (fun f => if d.fretCounted.follows then f else { f with aligned := f.aligned + 1 })).fretOut.sendVote

/-- A whole register that counts by one saturates (R16). -/
theorem Dev.count_toNat (d : Dev) (a : Nat) :
    (rget (d.count a 63 0 1).regs a).toNat = min (2 ^ 64 - 1) ((rget d.regs a).toNat + 1) := by
  have hcount : (d.count a 63 0 1).regs = rcount d.regs a 63 0 1 := by
    unfold Dev.count
    rw [if_neg (by decide)]
  have hwhole : fieldOf (rget d.regs a) 63 0 = (rget d.regs a).toNat := by
    unfold fieldOf bitsOf
    rw [Nat.shiftRight_zero]
    exact Nat.mod_eq_of_lt (rget d.regs a).isLt
  rw [hcount, rget_rcount_self, withField_toNat _ _ (by decide) (by decide), hwhole]
  unfold satAdd
  have hlt := (rget d.regs a).isLt
  generalize (rget d.regs a).toNat = n at hlt ⊢
  omega

theorem Dev.fretCounted_spec (d : Dev) :
    (rget d.fretCounted.regs FT_FRET_NUM).toNat = min (2 ^ 64 - 1) ((rget d.regs FT_FRET_NUM).toNat + 1) ∧
      d.fretCounted.fld FT_HOLD_STATUS 17 17 = 0 := by
  unfold Dev.fretCounted
  refine ⟨?_, ?_⟩
  · rw [Dev.setFld_rget_ne _ _ _ _ (by decide), Dev.setFld_rget_ne _ _ _ _ (by decide)]
    exact Dev.count_toNat ..
  · rw [Dev.setFld_fld_ne _ _ _ _ _ _ (by decide), Dev.setFld_fld_fits _ _ _ (by decide) (by decide) (by decide)]

/-- What holds of the fret timer as a fret begins. -/
structure Dev.FretFresh (n : W64) (d : Dev) : Prop where
  num : (rget d.regs FT_FRET_NUM).toNat = min (2 ^ 64 - 1) (n.toNat + 1)
  cycle : d.ft.cycle = 0
  latched : d.ft.latched = false
  settled : d.ft.settled = false
  guard : d.ft.guard = false
  launchStop : d.ft.launchStop = false
  word : d.ft.word = d.ft.sample
  hold : d.fld FT_HOLD_STATUS 17 17 = 0

theorem Dev.FretFresh.aside {n : W64} {d e : Dev} (h : Dev.FretFresh n d) (k : Dev.Aside False d e) : Dev.FretFresh n e where
  num := by rw [k.regs _ (by unfold ftReg FT_FRET_NUM FT_HOLD_CAUSE PWR_INPUT; decide)]; exact h.num
  cycle := by rw [k.ft]; exact h.cycle
  latched := by rw [k.ft]; exact h.latched
  settled := by rw [k.ft]; exact h.settled
  guard := by rw [k.ft]; exact h.guard
  launchStop := by rw [k.ft]; exact h.launchStop
  word := by rw [k.ft]; exact h.word
  hold := (k.fld (by unfold ftReg FT_HOLD_STATUS FT_HOLD_CAUSE PWR_INPUT; decide) 17 17).trans h.hold

/-- The sample of a fret is its word, and nothing but FT_HOLD_CAUSE tells of it. -/
theorem Dev.takeSample_rget (d : Dev) {a : Nat} (ha : a ≠ FT_HOLD_CAUSE) : rget d.takeSample.regs a = rget d.regs a := rget_rput_ne _ _ ha

theorem Dev.fretOut_ft (d : Dev) : d.fretOut.ft = d.ft := by
  unfold Dev.fretOut
  split <;> rfl

theorem Dev.fretOut_regs (d : Dev) : d.fretOut.regs = d.regs := by
  unfold Dev.fretOut
  split <;> rfl

theorem Dev.fretBegun_fresh (d : Dev) : Dev.FretFresh (rget d.regs FT_FRET_NUM) d.fretBegun := by
  obtain ⟨hnum, hhold⟩ := d.fretCounted_spec
  have hregs : ∀ a, a ≠ FT_HOLD_CAUSE → rget d.fretBegun.regs a = rget d.fretCounted.regs a := fun a ha => by
    unfold Dev.fretBegun
    rw [(Dev.sendVote_onlyFlits _).regs, Dev.fretOut_regs]
    exact Dev.takeSample_rget _ ha
  have hft : d.fretBegun.ft = (if d.fretCounted.follows then d.fretCounted.takeSample.ft.begin_ else
      { d.fretCounted.takeSample.ft.begin_ with aligned := d.fretCounted.takeSample.ft.begin_.aligned + 1 }) := by
    unfold Dev.fretBegun
    rw [(Dev.sendVote_onlyFlits _).ft, Dev.fretOut_ft]
    rfl
  refine ⟨by rw [hregs _ (by decide)]; exact hnum, ?_, ?_, ?_, ?_, ?_, ?_, (Dev.fld_congr (hregs _ (by decide)) 17 17).trans hhold⟩
  all_goals
    rw [hft]
    split <;> rfl

/-! ## The start of a fret -/

/-- What ends with a fret. -/
def World.fretEnded (w : World) : World :=
  ((w.countIdle.recordLate.d.ctxs.map (·.1)).foldl (fun v i => v.endPosition (w.d.ft.latched && w.d.fld FT_HOLD_STATUS 17 17 == 0) i) w.countIdle.recordLate)

/-- The waiting resets count a fret. -/
def Dev.resetsWait (d : Dev) : Dev :=
  (List.range 8).foldl (fun d t => if (d.tower t).step = .none then d else d.onTower t (fun x => { x with waited := x.waited + 1 })) d

/-- The waiting resets count a fret, and an update that is not under way holds no more. -/
def Dev.fretTurned (d : Dev) : Dev :=
  if d.resetsWait.fw.state ≠ 4 then { d.resetsWait with fw := { d.resetsWait.fw with hold := false } } else d.resetsWait

theorem Dev.Aside.fretTurned {d e : Dev} (h : Dev.Aside False d e) : Dev.Aside False d e.fretTurned := by
  have hwaited : Dev.Aside False d e.resetsWait := h.resetsWaited (List.range 8)
  unfold Dev.fretTurned
  generalize e.resetsWait = x at hwaited ⊢
  split
  · exact hwaited.same rfl rfl rfl rfl rfl
  · exact hwaited

/-- What a begun fret starts. -/
def World.fretWork (w : World) (is : List Nat) : World :=
  (((is.foldl (fun w i => w.boundary false i) w.fwParks).svcReplaced).onDev Dev.fretTurned).fetchLines

theorem World.fretEnded_aside (w : World) : World.Aside False w w.fretEnded :=
  (((World.Aside.refl False w).courses _).courses _).foldl _ (fun u i _ => (World.Aside.refl False u).endPosition _ i)

theorem World.fretWork_aside (w : World) (is : List Nat) : World.Aside False w (w.fretWork is) := by
  have hstarted : World.Aside False w ((is.foldl (fun w i => w.boundary false i) w.fwParks).svcReplaced) :=
    ((World.Aside.refl False w).fwParks.foldl is (fun u i _ => (World.Aside.refl False u).boundary false i)).svcReplaced
  exact (hstarted.onDev (Dev.Aside.fretTurned (.refl False _))).fetchLines

theorem doFretStart_eq (w : World) : doFretStart w =
    (((w.fretEnded.onDev Dev.endFret).leaderMissing).onDev Dev.fretBegun).fretWork (w.countIdle.recordLate.d.ctxs.map (·.1)) := by
  unfold doFretStart World.fretEnded World.fretWork Dev.fretTurned Dev.resetsWait Dev.fretBegun Dev.fretCounted
  rfl

theorem doFretStart_fresh (w : World) : Dev.FretFresh (rget w.d.regs FT_FRET_NUM) (doFretStart w).d := by
  have hended : Dev.SameFret w.d w.fretEnded.d := (Dev.SameFret.refl w.d).aside w.fretEnded_aside
  have hbefore : Dev.SameFret w.d ((w.fretEnded.onDev Dev.endFret).leaderMissing).d :=
    World.leaderMissing_sameFret (w := w.fretEnded.onDev Dev.endFret) hended.endFret
  rw [doFretStart_eq, ← hbefore.num]
  generalize (w.fretEnded.onDev Dev.endFret).leaderMissing = v
  exact v.d.fretBegun_fresh.aside (World.fretWork_aside (v.onDev Dev.fretBegun) _)

/-- Settles O23: up to the count of the fret its number stands, and after the word begins everything works aside. -/
theorem fretStartBeginsTheNextFret : Obligations.FretStartBeginsTheNextFret := by
  unfold Obligations.FretStartBeginsTheNextFret
  intro s live
  have hfresh := doFretStart_fresh s.world
  obtain ⟨w, hw⟩ : ∃ w, doFretStart s.world = w := ⟨_, rfl⟩
  rw [hw] at hfresh
  exact ⟨_, runLive_eq_world live hw, hfresh.num, hfresh.cycle, hfresh.latched, hfresh.settled, hfresh.guard, hfresh.launchStop, hfresh.word,
    hfresh.hold⟩

end Sys2Proof.Machine
end

section
/-! PROOF. COMMAND_DONE: the event of an accepted command, and the run that MEM_FILL writes (R429, R434). -/

namespace Sys2Proof.Machine

/-! ## The pattern of a fill -/

theorem readBytes_add {m : Memory} (hm : m.wf = true) (a n k : Nat) : readBytes m a (n + k) = readBytes m a n ++ readBytes m (a + n) k := by
  rw [readBytes_eq m hm, readBytes_eq m hm, readBytes_eq m hm, List.range_add, List.map_append, List.map_map]
  congr 1
  exact List.map_congr_left (fun i _ => by rw [Function.comp_apply, Nat.add_assoc])

/-- A pattern of 4 bytes, 128 times. -/
def fillData (l : List Byte) : List Byte := (List.replicate 128 l).flatten

theorem fillData_length {l : List Byte} (hl : l.length = 4) : (fillData l).length = 512 := by
  unfold fillData
  rw [List.length_flatten, List.map_replicate, List.sum_replicate_nat, hl]

theorem fillData_split (l : List Byte) {i : Nat} (hi : i < 128) :
    fillData l = (List.replicate i l).flatten ++ (l ++ (List.replicate (127 - i) l).flatten) := by
  unfold fillData
  rw [show (128 : Nat) = i + (1 + (127 - i)) by omega, ← List.replicate_append_replicate, ← List.replicate_append_replicate, List.flatten_append, List.flatten_append]
  rw [List.replicate_one, List.flatten_singleton]

/-- Every word of a block that holds the pattern is the pattern. -/
theorem readBytes_fillData {m : Memory} (hm : m.wf = true) {a : Nat} {l : List Byte} (hl : l.length = 4)
    (h : readBytes m a 512 = fillData l) {i : Nat} (hi : i < 128) : readBytes m (a + 4 * i) 4 = l := by
  have hlead : ((List.replicate i l).flatten).length = 4 * i := by
    rw [List.length_flatten, List.map_replicate, List.sum_replicate_nat, hl, Nat.mul_comm]
  rw [fillData_split l hi, show (512 : Nat) = 4 * i + (4 + (508 - 4 * i)) by omega, readBytes_add hm, readBytes_add hm] at h
  obtain ⟨_, hrest⟩ := List.append_inj h (by rw [readBytes_len hm, hlead])
  exact (List.append_inj hrest (by rw [readBytes_len hm, hl])).1

/-! ## The end of a job -/

/-- A job's end without its event. -/
def Dev.jobOut (d : Dev) (j : HostJob) : Dev := (d.dropJob j.h j.opcode).settle j.h.port.val j.h.tag

/-- An event while the queue has room. -/
theorem Dev.event_room {d : Dev} (hroom : d.hl.events.length < 1024) (code : Nat) (st det : W16) (ctx : Nat) (tag : W16) (bl : List Blk) :
    ∃ p : Pkt, d.event code st det ctx tag bl = { d with hl := { d.hl with events := d.hl.events ++ [p] } } ∧
      p.opcode = BitVec.ofNat 16 code ∧ p.status = st ∧ p.detail = det ∧ p.tag = tag :=
  ⟨_, if_neg (by omega), rfl, rfl, rfl, rfl⟩

theorem World.concludeJob_spec (w : World) (j : HostJob) (st det : W16) (hroom : w.d.hl.events.length < 1024) :
    ∃ p : Pkt, (w.concludeJob j st det).d = { w.d.jobOut j with hl := { (w.d.jobOut j).hl with events := w.d.hl.events ++ [p] } } ∧
      p.opcode = 0x804 ∧ p.status = st ∧ p.detail = det ∧ p.tag = j.h.tag :=
  Dev.event_room (d := w.d.jobOut j) hroom 0x804 st det j.h.ctx.toNat j.h.tag _

/-- With no job, no held command and no checkpoint nothing is tried again. -/
theorem World.retry_idle {w : World} (hjobs : w.d.hl.jobs = []) (hheld : w.d.hl.held = []) (hckpts : w.d.ckpts = []) : w.retry = w := by
  have hmem : w.retryMem = w := by rw [World.retryMem, hjobs, List.foldl_nil]
  have hstart : w.startHeld = w := by rw [World.startHeld, hheld, List.foldl_nil]
  rw [World.retry, hmem, hstart, World.streamGo, hckpts]
  rfl

theorem Dev.jobOut_jobs_only {d : Dev} {j : HostJob} (h : d.hl.jobs = [j]) : (d.jobOut j).hl.jobs = [] := by
  have hdrop : (d.jobOut j).hl.jobs = d.hl.jobs.filter (fun k => !(k.opcode == j.opcode && k.h.port == j.h.port && k.h.tag == j.h.tag)) := rfl
  rw [hdrop, h]
  simp

theorem World.concludeJob_retry {w : World} {j : HostJob} {st det : W16} (hroom : w.d.hl.events.length < 1024) (hjobs : w.d.hl.jobs = [j])
    (hheld : w.d.hl.held = []) (hckpts : w.d.ckpts = []) : (w.concludeJob j st det).retry = w.concludeJob j st det := by
  obtain ⟨p, hd, _⟩ := w.concludeJob_spec j st det hroom
  refine World.retry_idle ?_ ?_ ?_
  · rw [hd]
    exact Dev.jobOut_jobs_only hjobs
  · rw [hd]
    exact hheld
  · rw [hd]
    exact hckpts

/-! ## COMMAND_DONE -/

theorem doCommandDone_told {w : World} {port : Fin 2} {tag : W16} {bad : List Nat} {j : HostJob} {st det : W16}
    (h : w.d.jobNamed port tag = some j) (hres : j.result = some (st, det)) (hfar : w.d.farBusy (hostWho j.h) = false) :
    doCommandDone port tag bad w = w.concludeJob j st det := by
  unfold Dev.jobNamed at h
  unfold doCommandDone
  simp only [h, hres, hfar, Bool.false_eq_true, if_false]

theorem doCommandDone_aligned {w : World} {port : Fin 2} {tag : W16} {bad : List Nat} {j : HostJob}
    (h : w.d.jobNamed port tag = some j) (hres : j.result = none) (hop : j.opcode = 0x301) (hal : 4 ≤ w.d.ft.aligned) :
    doCommandDone port tag bad w = w.concludeJob j stOk 0 := by
  unfold Dev.jobNamed at h
  unfold doCommandDone
  simp only [h, hres, hop, hal, if_true]

/-- The run that a fill writes. -/
def HostJob.fillRun (j : HostJob) : List Blk := List.replicate j.h.p2.toNat (mkBlk (fillData (leBytes 4 j.h.p3.toNat)))

theorem doCommandDone_fill {w : World} {port : Fin 2} {tag : W16} {bad : List Nat} {j : HostJob}
    (h : w.d.jobNamed port tag = some j) (hres : j.result = none) (hop : j.opcode = 0x203)
    (hopen : w.d.runClosed (pair j.h.p0 j.h.p1) j.h.p2.toNat = false) :
    doCommandDone port tag bad w = (w.storeBlocks j.h (pair j.h.p0 j.h.p1) j.fillRun).jobWorked j stOk 0 := by
  unfold Dev.jobNamed at h
  unfold doCommandDone
  simp only [h, hres, hop, hopen, Bool.false_eq_true, if_false]
  rfl

/-- The stores and the device of a live command's end. -/
theorem commandDone_eq {s : State} {port : Fin 2} {tag : W16} {bad : List Nat} {w : World} (live : s.live)
    (h : doCommandDone port tag bad s.world = w) : exec (.commandDone port tag bad) s = .next (commit s w.retry) :=
  runLive_eq_world (f := fun w => (doCommandDone port tag bad w).retry) live (congrArg World.retry h)

theorem World.concludeJob_wr (w : World) (j : HostJob) (st det : W16) : (w.concludeJob j st det).wr = w.wr := rfl
theorem World.concludeJob_mem (w : World) (j : HostJob) (st det : W16) : (w.concludeJob j st det).mem = w.mem := rfl

/-! ## The run of a fill -/

/-- The stores once the run of a fill stands, before its event. -/
def World.filled (w : World) (j : HostJob) : World := w.putBlks (runOf (pair j.h.p0 j.h.p1) j.fillRun)

theorem World.filled_word {w : World} (hw : w.mem.wf = true) (j : HostJob) {k i : Nat} (hk : k < j.h.p2.toNat) (hi : i < 128) :
    readBytes (w.filled j).mem (pair j.h.p0 j.h.p1 + 512 * k + 4 * i) 4 = leBytes 4 j.h.p3.toNat := by
  have hlen : (fillData (leBytes 4 j.h.p3.toNat)).length = 512 := fillData_length (leBytes_length ..)
  have hget : j.fillRun[k]? = some (mkBlk (fillData (leBytes 4 j.h.p3.toNat))) := by
    unfold HostJob.fillRun
    rw [List.getElem?_replicate, if_pos hk]
  have hblock := World.putBlks_at hw (l := runOf (pair j.h.p0 j.h.p1) j.fillRun) (k := k) (by rw [runOf_getElem?, hget]; rfl) (fun n e hn he => by
    rw [runOf_getElem?, Option.map_eq_some_iff] at he
    obtain ⟨b', _, rfl⟩ := he
    dsimp only
    omega)
  have hdata : padTo 512 (mkBlk (fillData (leBytes 4 j.h.p3.toNat))).data = fillData (leBytes 4 j.h.p3.toNat) := by
    rw [mkBlk, padTo_self hlen, padTo_self hlen]
  exact readBytes_fillData (World.putBlks_wf hw _) (leBytes_length ..) (hblock.1.trans hdata) hi

theorem World.filled_out (w : World) (j : HostJob) {x : Nat} (hx : x < pair j.h.p0 j.h.p1 ∨ pair j.h.p0 j.h.p1 + 512 * j.h.p2.toNat ≤ x) :
    readByte (w.filled j).mem x = readByte w.mem x := by
  refine World.putBlks_readByte_out _ _ (fun e he => ?_)
  obtain ⟨n, hn⟩ := List.getElem?_of_mem he
  rw [runOf_getElem?, Option.map_eq_some_iff] at hn
  obtain ⟨b', hb', rfl⟩ := hn
  have hlt := (List.getElem?_eq_some_iff.mp hb').1
  unfold HostJob.fillRun at hlt
  rw [List.length_replicate] at hlt
  dsimp only
  omega

theorem doCommandDone_filled {w : World} {port : Fin 2} {tag : W16} {bad : List Nat} {j : HostJob}
    (h : w.d.jobNamed port tag = some j) (hres : j.result = none) (hop : j.opcode = 0x203)
    (hopen : w.d.runClosed (pair j.h.p0 j.h.p1) j.h.p2.toNat = false) (ht : tierOf (pair j.h.p0 j.h.p1) ≠ 3)
    (hfar : w.d.farBusy (hostWho j.h) = false) : doCommandDone port tag bad w = (w.filled j).concludeJob j stOk 0 := by
  have hd : (w.filled j).d = w.d := World.putBlks_d ..
  rw [doCommandDone_fill h hres hop hopen, World.storeBlocks_near _ _ _ ht]
  show (w.filled j).jobWorked j stOk 0 = _
  unfold World.jobWorked
  rw [hd, hfar, if_neg Bool.false_ne_true]

/-! ## COMMAND_DONE -/

theorem commandDoneTells {port : Fin 2} {tag : W16} {bad : List Nat} {s : State} {j : HostJob} {st det : W16} (live : s.live)
    (hnamed : s.dev.jobNamed port tag = some j)
    (h : j.result = some (st, det) ∧ s.dev.farBusy (hostWho j.h) = false ∨
      j.result = none ∧ j.opcode = 0x301 ∧ 4 ≤ s.dev.ft.aligned ∧ st = stOk ∧ det = 0) :
    exec (.commandDone port tag bad) s = .next (commit s (s.world.concludeJob j st det).retry) := by
  refine commandDone_eq live ?_
  obtain ⟨hres, hfar⟩ | ⟨hres, hop, hal, rfl, rfl⟩ := h
  · exact doCommandDone_told hnamed hres hfar
  · exact doCommandDone_aligned hnamed hres hop hal

/-- Settles O15: the event of the end, and the run of a fill before it. -/
theorem commandDoneConcludes : Obligations.CommandDoneConcludes := by
  unfold Obligations.CommandDoneConcludes
  refine ⟨fun port tag bad s j st det live hnamed h hroom => ?_, fun port tag bad s j live hm hnamed hres hop => ?_⟩
  · have hexec := commandDoneTells (bad := bad) live hnamed h
    obtain ⟨p, hd, hcode, hst, hdet, htag⟩ := s.world.concludeJob_spec j st det hroom
    refine ⟨hexec, rfl, (congrArg Dev.out hd :), (congrArg (fun d : Dev => d.hl.outstanding) hd :),
      ⟨p, (congrArg (fun d : Dev => d.hl.events) hd :), hcode, hst, hdet, htag⟩, fun hjobs hheld hckpts => ?_⟩
    rw [hexec, World.concludeJob_retry hroom hjobs hheld hckpts]
  · intro a hopen ht hfar hroom
    have hd : (s.world.filled j).d = s.dev := World.putBlks_d ..
    have hexec := commandDone_eq (bad := bad) live (doCommandDone_filled (w := s.world) hnamed hres hop hopen ht hfar)
    have hmem : (commit s ((s.world.filled j).concludeJob j stOk 0)).mem = (s.world.filled j).mem :=
      commit_mem_tracks (s := s) (w := s.world.filled j) (World.putBlks_tracks s.world_tracks _)
    rw [← hd] at hroom
    obtain ⟨p, hp, hcode, hst, _, htag⟩ := (s.world.filled j).concludeJob_spec j stOk 0 hroom
    refine ⟨_, hexec, fun k i hk hi => ?_, fun x hx => ?_, ⟨p, ?_, hcode, hst, htag⟩, fun hjobs hheld hckpts => ?_⟩
    · rw [hmem]
      exact World.filled_word (w := s.world) hm j hk hi
    · rw [hmem]
      exact s.world.filled_out j hx
    · rw [hp, hd]
    · rw [← hd] at hjobs hheld hckpts
      rw [hexec, World.concludeJob_retry hroom hjobs hheld hckpts]

end Sys2Proof.Machine
end

section
/-! SUPPORT. A housekeeping round: what it measures, and that its later work leaves the measurement alone (R521 to R531). -/

namespace Sys2Proof.Machine

open Dev.Aside (apart apart_of_block)

/-! ## The measurement -/

/-- `e` has the reset level, the rounds counted and the module's input of `d`. -/
structure Dev.RoundAlike (d e : Dev) : Prop where
  level : e.level = d.level
  rounds : e.board.rounds = d.board.rounds
  input : rget e.regs PWR_INPUT = rget d.regs PWR_INPUT

namespace Dev.RoundAlike

variable {d e f : Dev}

theorem refl (d : Dev) : Dev.RoundAlike d d := ⟨rfl, rfl, rfl⟩

theorem trans (h : Dev.RoundAlike d e) (k : Dev.RoundAlike e f) : Dev.RoundAlike d f :=
  ⟨k.level.trans h.level, k.rounds.trans h.rounds, k.input.trans h.input⟩

theorem of_regs (h : d.RegsOnly e) (ha : rget e.regs PWR_INPUT = rget d.regs PWR_INPUT) : Dev.RoundAlike d e :=
  ⟨(congrArg Dev.level h :), by rw [h.board], ha⟩

theorem of_tells {R : List Nat} (h : Dev.Tells R d e) (hR : PWR_INPUT ∉ R) : Dev.RoundAlike d e :=
  ⟨(congrArg Dev.level h.only :), (congrArg (fun d : Dev => d.board.rounds) h.only :), h.regs _ hR⟩

/-- A change of the board that counts no round. -/
theorem board (h : Dev.RoundAlike d e) {b : Board} (hb : b.rounds = e.board.rounds) : Dev.RoundAlike d { e with board := b } :=
  h.trans ⟨rfl, hb, rfl⟩

end Dev.RoundAlike

/-- `v` has the reset level, the rounds counted and the module's input of `w`. -/
def World.RoundAlike (w v : World) : Prop := Dev.RoundAlike w.d v.d

namespace World.RoundAlike

variable {w v u : World}

theorem refl (w : World) : World.RoundAlike w w := Dev.RoundAlike.refl w.d
theorem trans (h : World.RoundAlike w v) (k : World.RoundAlike v u) : World.RoundAlike w u := Dev.RoundAlike.trans h k
theorem onDev (h : World.RoundAlike w v) {f : Dev → Dev} (hf : Dev.RoundAlike v.d (f v.d)) : World.RoundAlike w (v.onDev f) :=
  Dev.RoundAlike.trans h hf
theorem setFld (h : World.RoundAlike w v) {a : Nat} (hi lo x : Nat) (ha : PWR_INPUT ≠ a) : World.RoundAlike w (v.setFld a hi lo x) :=
  h.onDev (Dev.RoundAlike.of_regs (v.d.setFld_regsOnly a hi lo x) (v.d.setFld_rget_ne hi lo x ha))
theorem setReg (h : World.RoundAlike w v) {a : Nat} (x : W64) (ha : PWR_INPUT ≠ a) : World.RoundAlike w (v.setReg a x) :=
  h.onDev (Dev.RoundAlike.of_regs (v.d.setReg_regsOnly a x) (v.d.setReg_rget_ne x ha))
theorem setBit (h : World.RoundAlike w v) {a : Nat} (n : Nat) (ha : PWR_INPUT ≠ a) : World.RoundAlike w (v.setBit a n) := h.setFld n n 1 ha
theorem count (h : World.RoundAlike w v) {a : Nat} (hi lo n : Nat) (ha : PWR_INPUT ≠ a) : World.RoundAlike w (v.count a hi lo n) :=
  h.onDev (Dev.RoundAlike.of_regs (v.d.count_regsOnly a hi lo n) (v.d.count_rget_ne hi lo n ha))
theorem log (h : World.RoundAlike w v) (x : LogEntry) : World.RoundAlike w (v.log x) :=
  h.onDev (Dev.RoundAlike.of_tells (Dev.log_tells [] v.d x) List.not_mem_nil)
theorem event (h : World.RoundAlike w v) (code : Nat) (st det : W16) (ctx : Nat) (bl : List Blk) :
    World.RoundAlike w (v.event code st det ctx bl) :=
  h.trans (Dev.RoundAlike.of_tells (R := [HL_FAULT, HL_EVENTS_LOST])
    (Dev.event_tells v.d code st det ctx 0xFFFF bl (by simp) (by simp)) (by decide))
theorem ite {P : Prop} [Decidable P] {a b : World} (ha : World.RoundAlike w a) (hb : World.RoundAlike w b) :
    World.RoundAlike w (if P then a else b) := by
  split
  · exact ha
  · exact hb

theorem foldl (h : World.RoundAlike w v) {β : Type} {f : World → β → World} (xs : List β) (hf : ∀ u, ∀ b ∈ xs, World.RoundAlike u (f u b)) :
    World.RoundAlike w (xs.foldl f v) :=
  foldl_keeps (World.RoundAlike w ·) f xs (fun u b hb hu => hu.trans (hf u b hb)) v h

theorem input_ne_THM (t k : Nat) (hk : k < 0x20 ∨ 0x20 < k) (hlt : k < 0x10000) : PWR_INPUT ≠ THM t + k := by
  unfold PWR_INPUT THM twBase
  omega

theorem railRound (h : World.RoundAlike w v) (i mv cur : Nat) : World.RoundAlike w (v.railRound i mv cur) := by
  have ha : PWR_INPUT ≠ THM (i / 6) + 0x40 + 8 * (i % 6) := by
    unfold PWR_INPUT THM twBase
    omega
  unfold World.railRound
  extract_lets t n a out run was u1 u2 u3 u4 u5
  have h1 : World.RoundAlike w u1 := h.onDev ((Dev.RoundAlike.refl _).board rfl)
  have h3 : World.RoundAlike w u3 := (h1.setFld 47 32 mv ha).setFld 31 16 cur ha
  have h4 : World.RoundAlike w u4 := ite (h3.setBit 1 ha) h3
  have h5 : World.RoundAlike w u5 := h4.setFld 0 0 _ ha
  exact ite (h5.log _) h5

theorem levelChanged (h : World.RoundAlike w v) (l s : Nat) : World.RoundAlike w (v.levelChanged l s) := by
  unfold World.levelChanged
  extract_lets st u
  have hu : World.RoundAlike w u := ite (h.event ..) h
  exact ite hu (hu.log _)

theorem powerRound (h : World.RoundAlike w v) (pin : Nat) : World.RoundAlike w (v.powerRound pin) := by
  unfold World.powerRound
  extract_lets lim lv ovr under up down new u
  have hu : World.RoundAlike w u := World.RoundAlike.setFld (v := v.onDev (fun d => { d with board := { d.board with
      overRun := if up then 0 else ovr
      underRun := if down then 0 else under } })) (h.onDev ((Dev.RoundAlike.refl _).board rfl)) 3 2 new (by decide)
  exact ite (hu.levelChanged ..) hu

theorem thermalRound (h : World.RoundAlike w v) (n : Nat) : World.RoundAlike w (v.thermalRound n) := by
  unfold World.thermalRound
  extract_lets lv run new u
  have hu : World.RoundAlike w u := World.RoundAlike.setFld (v := v.onDev (fun d => { d with board := { d.board with
      levelRun := if new ≠ lv then 0 else run } })) (h.onDev ((Dev.RoundAlike.refl _).board rfl)) 1 0 new (by decide)
  exact ite (hu.levelChanged ..) hu

theorem recordSensor (d : Dev) {t : Nat} {s : SensorRound} : Dev.RoundAlike d (d.recordSensor t s) := by
  have ha : PWR_INPUT ≠ THM_SENSOR t s.k := by
    unfold PWR_INPUT THM_SENSOR THM twBase
    omega
  unfold Dev.recordSensor
  exact Dev.RoundAlike.board (Dev.RoundAlike.of_regs (d.setReg_regsOnly _ _) (d.setReg_rget_ne _ ha)) rfl

theorem towerTemps (h : World.RoundAlike w v) (t : Nat) (r : RoundInput) : World.RoundAlike w (v.towerTemps t r).1 := by
  have h0 : PWR_INPUT ≠ THM t := Nat.add_zero (THM t) ▸ input_ne_THM t 0 (by decide) (by decide)
  have h10 : PWR_INPUT ≠ THM t + 0x10 := input_ne_THM t _ (by decide) (by decide)
  have h18 : PWR_INPUT ≠ THM t + 0x18 := input_ne_THM t _ (by decide) (by decide)
  unfold World.towerTemps
  extract_lets rs rises level warn oldLevel oldWarn wasForced newForced newSus hot u1 b2n u2 u3 u4 u5 u6 u7 u8
  have h1 : World.RoundAlike w u1 := h.onDev (foldl_keeps (Dev.RoundAlike v.d ·) _ _ (fun a s _ ha => ha.trans (recordSensor a)) _ (.refl v.d))
  clear_value u1
  have h2 : World.RoundAlike w u2 := h1.setReg _ h0
  clear_value u2
  have h3 : World.RoundAlike w u3 := ite (h2.count 31 0 1 h10) h2
  clear_value u3
  have h4 : World.RoundAlike w u4 := ite (h3.count 63 32 1 h10) h3
  clear_value u4
  have h5 : World.RoundAlike w u5 := ite (h4.setBit 0 h18) h4
  clear_value u5
  have h6 : World.RoundAlike w u6 := ite (h5.setBit 1 h18) h5
  clear_value u6
  have h7 : World.RoundAlike w u7 := ite h6 (h6.setBit 2 h18)
  clear_value u7
  have h8 : World.RoundAlike w u8 := ite h7 (h7.setBit 3 h18)
  clear_value u8
  exact h8.foldl _ (fun a s _ => ite ((refl a).log _) (refl a))

end World.RoundAlike

/-- What a measurement leaves: its level, one round more, and the module's input (R531). -/
theorem World.measure_spec (w : World) (r : RoundInput) :
    (w.measure r).d.level = w.d.level ∧ (w.measure r).d.board.rounds = w.d.board.rounds + 1 ∧
      rget (w.measure r).d.regs PWR_INPUT = BitVec.ofNat 64 ((r.vin.toNat <<< 32) + (r.iin.toNat <<< 16) + r.pin.toNat) := by
  unfold World.measure
  extract_lets u1 vin u2 u3 s u4 onset u5 st v e u6 u7 u8
  have h1 : World.RoundAlike w u1 := (World.RoundAlike.refl w).foldl _ (fun u i _ => (World.RoundAlike.refl u).railRound ..)
  clear_value u1
  have h2 : World.RoundAlike w u2 := h1.onDev ((Dev.RoundAlike.refl _).board rfl)
  have h3 : rget u3.d.regs PWR_INPUT = BitVec.ofNat 64 ((r.vin.toNat <<< 32) + (r.iin.toNat <<< 16) + r.pin.toNat) := u2.d.setReg_rget_self ..
  have h3d : u3.d.level = w.d.level ∧ u3.d.board.rounds = w.d.board.rounds := ⟨h2.level, h2.rounds⟩
  clear_value u2 u3
  have h4 : World.RoundAlike u3 u4 :=
    foldl_keeps (fun s : World × Nat × Bool => World.RoundAlike u3 s.1)
      (fun (s : World × Nat × Bool) t => ((s.1.towerTemps t r).1, max s.2.1 (s.1.towerTemps t r).2.1, s.2.2 || (s.1.towerTemps t r).2.2))
      (List.range 8) (fun s t _ hs => hs.towerTemps t r) (u3, 0, false) (World.RoundAlike.refl u3)
  have h5 : u5.d.board.rounds = u4.d.board.rounds + 1 := rfl
  have h5d : u5.d.level = u4.d.level ∧ rget u5.d.regs PWR_INPUT = rget u4.d.regs PWR_INPUT := ⟨rfl, rfl⟩
  clear_value u4 u5
  have hv : World.RoundAlike u5 v := World.RoundAlike.ite ((World.RoundAlike.refl u5).event ..) (World.RoundAlike.refl u5)
  have h6 : World.RoundAlike u5 u6 := World.RoundAlike.ite (hv.log _) (World.RoundAlike.refl u5)
  clear_value u6
  have h7 : World.RoundAlike u5 u7 := (h6.thermalRound _).powerRound _
  clear_value u7
  have h8 : World.RoundAlike u5 u8 := World.RoundAlike.onDev h7 (Dev.RoundAlike.board (Dev.RoundAlike.of_regs (u7.d.setFld_regsOnly ..)
    (u7.d.setFld_rget_ne _ _ _ (by decide))) rfl)
  have h9 : World.RoundAlike u5 (u8.onDev (fun d => d.alert)) := h8.onDev ((Dev.RoundAlike.refl _).board rfl)
  exact ⟨h9.level.trans (h5d.1.trans (h4.level.trans h3d.1)), by rw [h9.rounds, h5, h4.rounds, h3d.2],
    h9.input.trans (h5d.2.trans (h4.input.trans h3))⟩

/-- The module's input as a number. -/
theorem inputWord (vin iin pin : BitVec 16) :
    (BitVec.ofNat 64 ((vin.toNat <<< 32) + (iin.toNat <<< 16) + pin.toNat)).toNat = vin.toNat * 2 ^ 32 + iin.toNat * 2 ^ 16 + pin.toNat := by
  have hv := vin.isLt
  have hi := iin.isLt
  have hp := pin.isLt
  rw [BitVec.toNat_ofNat, Nat.shiftLeft_eq, Nat.shiftLeft_eq]
  omega

end Sys2Proof.Machine
end

section
/-! SUPPORT. The work of a housekeeping round after its measurement: clocks, lanes and wear work aside (R488, R492, R355). -/

namespace Sys2Proof.Machine

open Dev.Aside (apart apart_of_block)

namespace Dev.Aside

variable {d e : Dev}

/-- A change of the towers: no reset is asked about. -/
theorem towersOff (h : Dev.Aside False d e) (ts : Tab Tower) : Dev.Aside False d { e with towers := ts } :=
  h.trans ⟨fun _ _ => rfl, fun hf => hf.elim, rfl, rfl, rfl, fun hf => hf.elim⟩

theorem onTowerOff (h : Dev.Aside False d e) (t : Nat) (f : Tower → Tower) : Dev.Aside False d (e.onTower t f) := h.towersOff _

theorem links (h : Dev.Aside False d e) (xs : Tab Link) : Dev.Aside False d { e with links := xs } := h.same rfl rfl rfl rfl rfl

theorem wardens (h : Dev.Aside False d e) (xs : Tab Warden) : Dev.Aside False d { e with wardens := xs } := h.same rfl rfl rfl rfl rfl

theorem logs (h : Dev.Aside False d e) (x : Log) : Dev.Aside False d { e with log := x } := h.same rfl rfl rfl rfl rfl

theorem drainLog (h : Dev.Aside False d e) : Dev.Aside False d e.drainLog := by
  unfold Dev.drainLog
  exact h.logs _

theorem not_ftReg_STK (t k : Nat) (hk : k < 0x10000) : ¬ ftReg (STK t + k) := by
  unfold ftReg STK twBase PWR_INPUT
  omega

theorem not_ftReg_stackWord (t : Nat) : ¬ ftReg (STK t) := Nat.add_zero (STK t) ▸ not_ftReg_STK t 0 (by decide)

theorem not_ftReg_link {l k : Nat} (hl : l < 32) (hk : k < 0x40) : ¬ ftReg (linkBase l + k) := by
  unfold ftReg linkBase twBase PWR_INPUT
  split <;> omega

theorem not_ftReg_linkWord {l : Nat} (hl : l < 32) : ¬ ftReg (linkBase l) := Nat.add_zero (linkBase l) ▸ not_ftReg_link hl (by decide)

theorem hlStatus (h : Dev.Aside False d e) : Dev.Aside False d e.hlStatus :=
  h.trans (of_tells (R := [HL_STATUS]) (Dev.hlStatus_tells e (List.mem_singleton.2 rfl)) (fun a ha => by
    obtain rfl := List.mem_singleton.1 ha
    exact apart_of_block (by decide)))

theorem setLinkState (h : Dev.Aside False d e) {l : Nat} (hl : l < 32) (s : Nat) : Dev.Aside False d (e.setLinkState l s) := by
  have hset : Dev.Aside False d (e.setFld (linkBase l) 19 16 s) := h.setFldOff 19 16 s (not_ftReg_linkWord hl)
  unfold Dev.setLinkState
  dsimp only
  split
  · exact hset.hlStatus
  · exact hset

end Dev.Aside

namespace World.Aside

variable {w v : World}

theorem setFldOff (g : World.Aside False w v) {a : Nat} (hi lo x : Nat) (ha : ¬ ftReg a) : World.Aside False w (v.setFld a hi lo x) :=
  Dev.Aside.setFldOff g hi lo x ha

theorem countOff (g : World.Aside False w v) {a : Nat} (hi lo n : Nat) (ha : ¬ ftReg a) : World.Aside False w (v.count a hi lo n) :=
  Dev.Aside.countOff g hi lo n ha

theorem stackEvent (g : World.Aside False w v) (t cls idx state free kind layer : Nat) (st : W16) (logCls : Nat) :
    World.Aside False w (v.stackEvent t cls idx state free kind layer st logCls) := by
  unfold World.stackEvent
  dsimp only
  split
  · exact g.event ..
  · exact (g.event ..).log _

theorem revalidate (g : World.Aside False w v) (cause : W16) : World.Aside False w (v.revalidate cause) := by
  unfold World.revalidate
  refine g.foldl _ (fun u x _ => ?_)
  dsimp only
  split
  · exact refl False u
  · split
    · exact (refl False u).onCtx ..
    · split
      · exact World.Aside.log ((refl False u).onCtx ..) _
      · exact (refl False u).onCtx ..

theorem askCoreReset (g : World.Aside False w v) (t why : Nat) (held : Bool) : World.Aside False w (v.askCoreReset t why held) := by
  have hrst : apart (RST t + 8) := apart_of_block (by unfold RST twBase; omega)
  have hcause : ∀ e : Dev, Dev.Aside False v.d e → Dev.Aside False v.d (e.setBit FT_HOLD_CAUSE 4) := fun e he => he.setBit 4 Dev.Aside.apart_cause
  unfold World.askCoreReset
  split
  · exact g.onDev ((Dev.Aside.refl False v.d).onTowerOff t _)
  · exact (g.onDev (hcause _ ((Dev.Aside.refl False v.d).onTowerOff t _))).setFld 1 1 1 hrst

theorem fenceTower (g : World.Aside False w v) (t : Nat) : World.Aside False w (v.fenceTower t) := by
  have hident : apart IDENT_DEVICE := apart_of_block (by decide)
  unfold World.fenceTower
  split
  · exact g
  · exact (((((g.setFld _ _ 1 hident).setFldOff 4 4 1 (Dev.Aside.not_ftReg_stackWord t)).stopServices t).revalidate _).stackEvent ..).askCoreReset ..

/-! ## The clocks, the wear and the lanes of a round -/

theorem clockRound (g : World.Aside False w v) (t l good : Nat) : World.Aside False w (v.clockRound t l good) := by
  have hset : World.Aside False w (v.setFld (STK t + 0x48) (4 * l + 3) (4 * l) good) :=
    g.setFldOff _ _ _ (Dev.Aside.not_ftReg_STK t _ (by decide))
  unfold World.clockRound
  dsimp only
  split
  · exact hset.stackEvent ..
  · split
    · exact ((hset.setFldOff 4 4 1 (Dev.Aside.not_ftReg_STK t _ (by decide))).stackEvent ..).fenceTower t
    · exact hset

theorem warnAndRefresh (g : World.Aside False w v) (t : Nat) (r : RoundInput) :
    World.Aside False w (v.onDev (fun d => (d.clockWarn t).refreshRate t r)) := by
  refine g.onDev ?_
  unfold Dev.refreshRate Dev.clockWarn
  exact ((Dev.Aside.refl False v.d).setFldOff 5 5 _ (Dev.Aside.not_ftReg_stackWord t)).setFld 2 2 _ (Dev.Aside.apart_MEMR t)

theorem wearStatus (g : World.Aside False w v) (t : Nat) : World.Aside False w (v.wearStatus t) := by
  have hset : ∀ (x : W64) (y : Nat), World.Aside False w ((v.setReg (STK t + 0x38) x).setFld (STK t) 6 6 y) := fun x y =>
    (g.setReg x (apart_of_block (by unfold STK twBase; omega))).setFldOff 6 6 y (Dev.Aside.not_ftReg_stackWord t)
  have hwarned : ∀ u, World.Aside False w u → ∀ n : Nat, World.Aside False w (if 50000 ≤ n ∧ !(u.d.tower t).warned then
      ((u.setFld (STK t) 7 7 1).onDev (fun d => d.onTower t (fun x => { x with warned := true }))).stackEvent t 0 0 0 0 5 0 stOk 0x34
    else u) := fun u hu n => by
    split
    · exact (World.Aside.onDev (hu.setFldOff 7 7 1 (Dev.Aside.not_ftReg_stackWord t)) ((Dev.Aside.refl False _).onTowerOff t _)).stackEvent ..
    · exact hu
  exact hwarned _ (hset _ _) _

theorem linkLost (g : World.Aside False w v) {l : Nat} (hl : l < 32) (s : Nat) : World.Aside False w (v.linkLost l s) := by
  have hset : World.Aside False w (v.onDev (fun d => d.setLinkState l s)) := g.onDev ((Dev.Aside.refl False v.d).setLinkState hl s)
  have hef : ∀ k, k < 0x100 → apart (EFR (l / 3) + k) := fun k hk => apart_of_block (by unfold EFR twBase; omega)
  unfold World.linkLost
  dsimp only
  generalize v.onDev (fun d => d.setLinkState l s) = u at hset ⊢
  split
  · split
    · exact ((((hset.raise _).setBit 5 (hef 0x10 (by decide))).setReg _ (hef 0x18 (by decide))).event ..).log _
    · exact hset
  · split
    · exact ((World.Aside.raise (hset.setBit 2 (apart_of_block (by decide))) _).event ..).log _
    · exact hset

theorem retrain (g : World.Aside False w v) {l : Nat} (hl : l < 32) (full : Bool) : World.Aside False w (v.retrain l full) := by
  have hheld : ∀ e, Dev.Aside False v.d e → Dev.Aside False v.d (if l < 24 then e.setBit FT_HOLD_CAUSE 3 else e) := fun e he => by
    split
    · exact he.setBit 3 Dev.Aside.apart_cause
    · exact he
  have hcount : ¬ ftReg (linkRetrains l) := by
    unfold linkRetrains
    split
    · exact Dev.Aside.not_ftReg_link hl (by decide)
    · exact Dev.Aside.not_ftReg_link hl (by decide)
  unfold World.retrain
  exact g.onDev (((hheld _ ((Dev.Aside.refl False v.d).links _)).setLinkState hl 1).countOff 31 0 1 hcount)

theorem lanesFail (g : World.Aside False w v) {l : Nat} (hl : l < 32) (lanes : Nat) : World.Aside False w (v.lanesFail l lanes) := by
  have hlanes : ∀ x, World.Aside False w (v.onDev (fun d => d.setLanes l x)) := fun x =>
    g.onDev ((Dev.Aside.refl False v.d).setFldOff _ _ x (Dev.Aside.not_ftReg_linkWord hl))
  unfold World.lanesFail
  dsimp only
  split
  · exact g
  · split
    · exact g
    · split
      · exact World.Aside.linkLost ((hlanes _).onDev ((Dev.Aside.refl False _).links _)) hl 5
      · exact (hlanes _).retrain hl _

theorem laneRound (g : World.Aside False w v) (e : Fin 32 × Fin 8 × Nat) : World.Aside False w (v.laneRound e) := by
  have hl := e.1.isLt
  have hfec : ¬ ftReg (linkFec e.1.val) := by
    unfold linkFec
    split
    · exact Dev.Aside.not_ftReg_link hl (by decide)
    · exact Dev.Aside.not_ftReg_link hl (by decide)
  have hover : ∀ (u : World) (lim : Nat), World.Aside False w u → World.Aside False w
      (if lim < e.2.2 then u.lanesFail e.1.val (2 ^ e.2.1.val) else u) := fun u lim hu => by
    split
    · exact hu.lanesFail hl _
    · exact hu
  unfold World.laneRound
  dsimp only
  by_cases hn : laneCount e.1.val ≤ e.2.1.val
  · rw [if_pos hn]
    exact g
  · rw [if_neg hn]
    exact hover _ _ (g.countOff 31 0 _ hfec)

/-- The wear of a tower's hottest reading. -/
theorem towerWorn (g : World.Aside False w v) (t : Nat) (temp : Option Int) :
    World.Aside False w (match temp with
      | some x => (v.onDev (fun d => d.onTower t (fun y => y.wear x))).wearStatus t
      | none => v) := by
  split
  · exact World.Aside.wearStatus (g.onDev ((Dev.Aside.refl False v.d).onTowerOff t _)) t
  · exact g

end World.Aside

/-- The work of a round after its measurement. -/
def World.roundWork (w : World) (r : RoundInput) : World :=
  let w := (List.range 8).foldl (fun w t =>
    let w := (List.range 4).foldl (fun w l => w.clockRound t l (r.sites.getD (4 * t + l) 0xF).toNat) w
    let w := w.onDev (fun d => (d.clockWarn t).refreshRate t r)
    match w.d.wearTemp t r with
    | some v => (w.onDev (fun d => d.onTower t (fun x => x.wear v))).wearStatus t
    | none => w) w
  let w := r.lanes.foldl World.laneRound w
  let w := r.uncorrected.foldl (fun (w : World) e => w.count (linkFec e.1.val) 63 32 e.2) w
  let w := w.onDev (fun d => { d with wardens := d.wardens.map (fun (e : Nat × Warden) =>
    (e.1, { e.2 with dog := e.2.dog.map (· + 1) })) })
  if w.d.fld HL_STATUS 9 9 = 1 ∧ w.d.custodyWarden.isSome ∧ !w.d.restarting then w.onDev (fun d => d.drainLog) else w

theorem World.roundWork_aside (w : World) (r : RoundInput) : World.Aside False w (w.roundWork r) := by
  have hfec : ∀ l : Fin 32, ¬ ftReg (linkFec l.val) := fun l => by
    unfold linkFec
    split
    · exact Dev.Aside.not_ftReg_link l.isLt (by decide)
    · exact Dev.Aside.not_ftReg_link l.isLt (by decide)
  have hend : ∀ u, World.Aside False w u → World.Aside False w
      (if u.d.fld HL_STATUS 9 9 = 1 ∧ u.d.custodyWarden.isSome ∧ !u.d.restarting then u.onDev (fun d => d.drainLog) else u) := fun u hu => by
    split
    · exact hu.onDev (Dev.Aside.refl False u.d).drainLog
    · exact hu
  refine hend _ (World.Aside.onDev (World.Aside.foldl (World.Aside.foldl (World.Aside.foldl (World.Aside.refl False w) _ (fun u t _ => ?_)) _
    (fun u x _ => ?_)) _ (fun u x _ => ?_)) ((Dev.Aside.refl False _).wardens _))
  · exact (World.Aside.warnAndRefresh ((World.Aside.refl False u).foldl _ (fun a l _ => (World.Aside.refl False a).clockRound t l _)) t r).towerWorn t _
  · exact (World.Aside.refl False u).laneRound x
  · exact (World.Aside.refl False u).countOff 63 32 _ (hfec x.1)

end Sys2Proof.Machine
end

section
/-! PROOF. Housekeeping, patrol scrub, events, the digest comparison and a retrieval batch (R520 to R531, R219, R445, R427). -/

namespace Sys2Proof.Machine

/-! ## Housekeeping rounds -/

theorem doHousekeepingRound_off {w : World} (r : RoundInput) (h : w.d.level = .powerOn) : doHousekeepingRound r w = w := if_pos h

theorem doHousekeepingRound_held {w : World} (r : RoundInput) (h : w.d.level = .system ∨ w.d.level = .tripHold) :
    doHousekeepingRound r w = w.measure r := by
  have hoff : w.d.level ≠ .powerOn := by obtain h | h := h <;> simp [h]
  have hrun : (w.measure r).d.level ≠ .run := by
    rw [(w.measure_spec r).1]
    obtain h | h := h <;> simp [h]
  unfold doHousekeepingRound
  rw [if_neg hoff]
  exact if_pos hrun

theorem doHousekeepingRound_run {w : World} (r : RoundInput) (h : w.d.level = .run) :
    doHousekeepingRound r w = if (w.measure r).d.tripped = true then (w.measure r).systemReset 6 true else (w.measure r).roundWork r := by
  have hoff : w.d.level ≠ .powerOn := by simp [h]
  have hrun : ¬ (w.measure r).d.level ≠ .run := by
    rw [(w.measure_spec r).1, h]
    exact fun hne => hne rfl
  unfold doHousekeepingRound
  rw [if_neg hoff]
  exact if_neg hrun

theorem World.systemReset_tripHold (w : World) (bit : Nat) : (w.systemReset bit true).d.level = .tripHold :=
  (w.systemReset_regsOnly bit true).level

theorem housekeepingRound_eq {r : RoundInput} {s : State} {w : World} (h : doHousekeepingRound r s.world = w) :
    exec (.housekeepingRound r) s = .next (commit s w) := congrArg (fun w => Host.Outcome.next (commit s w)) h

theorem housekeepingRound_trips {r : RoundInput} {s : State} (live : s.live) (ht : (s.world.measure r).d.tripped = true) :
    ∃ t, exec (.housekeepingRound r) s = .next t ∧ t.dev.level = .tripHold ∧ ∀ n, n < 8 → t.dev.fld (RST n) 6 6 = 1 := by
  refine ⟨_, housekeepingRound_eq ((doHousekeepingRound_run (w := s.world) r live).trans (if_pos ht)), ?_, fun n hn => ?_⟩
  · exact World.systemReset_tripHold ..
  · exact World.systemReset_cause _ true hn (by decide)

theorem housekeepingRound_goesOn {r : RoundInput} {s : State} (live : s.live) (ht : (s.world.measure r).d.tripped = false) :
    ∃ t, exec (.housekeepingRound r) s = .next t ∧ t.dev.board.rounds = s.dev.board.rounds + 1 ∧
      (rget t.dev.regs PWR_INPUT).toNat = r.vin.toNat * 2 ^ 32 + r.iin.toNat * 2 ^ 16 + r.pin.toNat := by
  obtain ⟨_, hrounds, hinput⟩ := s.world.measure_spec r
  have haside := (s.world.measure r).roundWork_aside r
  have hgo : ¬ (s.world.measure r).d.tripped = true := by rw [ht]; exact Bool.false_ne_true
  obtain ⟨w, hw⟩ : ∃ w, (s.world.measure r).roundWork r = w := ⟨_, rfl⟩
  rw [hw] at haside
  refine ⟨_, housekeepingRound_eq ((doHousekeepingRound_run (w := s.world) r live).trans ((if_neg hgo).trans hw)), ?_, ?_⟩
  · exact (congrArg Board.rounds haside.board).trans hrounds
  · show (rget w.d.regs PWR_INPUT).toNat = _
    rw [haside.regs PWR_INPUT (.inr rfl), hinput]
    exact inputWord ..

/-! ## Patrol scrub -/

/-- What is told of a word that cannot be corrected. -/
def World.deepTold (w : World) (t a : Nat) : World :=
  ((w.count (MEMR t + 0x40) 63 32 1).setBit (MEMR t + 0x58) 4).log { entry 0x08 t 0xFF with addr := a }

theorem World.deepTold_mem (w : World) (t a : Nat) : (w.deepTold t a).mem = w.mem := by
  unfold World.deepTold
  rw [World.log_mem, World.setBit_mem, World.count_mem]

theorem World.deepUncorrected_good {w : World} {t a : Nat} (htier : tierOf a = 2) (ht : towerOf a = t) (ha : a % 512 = 0)
    (hok : addrOk 0 a = true) (hsyn : w.synOf a = 0) : w.deepUncorrected t a = (w.deepTold t a).put (.syn a 0xFFFFFFFF) := by
  have hblock : blockOf a = a := by
    unfold blockOf
    omega
  unfold World.deepUncorrected
  rw [hblock]
  dsimp only
  rw [if_pos ⟨htier, ht, hok⟩]
  have htold : (w.deepTold t a).synOf a = 0 := by
    rw [World.synOf, World.deepTold_mem]
    exact hsyn
  unfold World.deepTold at htold ⊢
  generalize ((w.count (MEMR t + 0x40) 63 32 1).setBit (MEMR t + 0x58) 4).log { entry 0x08 t 0xFF with addr := a } = v at htold ⊢
  rw [if_pos (.inl htold), htold]
  rfl

/-- A patrol step counts and shows that it scrubs. -/
def World.scrubbed (w : World) (t corrected : Nat) : World := (w.setBit (MEMR t) 1).count (MEMR t + 0x40) 31 0 corrected

theorem World.scrubbed_shown (w : World) (t corrected a : Nat) : ((w.scrubbed t corrected).deepTold t a).d.fld (MEMR t) 1 1 = 1 := by
  have h40 : MEMR t ≠ MEMR t + 0x40 := by omega
  have h58 : MEMR t ≠ MEMR t + 0x58 := by omega
  unfold World.deepTold World.scrubbed
  rw [World.log_d, Dev.log_fld, World.setBit_d, Dev.setBit_fld_ne _ _ _ _ h58]
  rw [World.count_d, Dev.count_fld_ne _ _ _ _ _ _ h40, World.count_d, Dev.count_fld_ne _ _ _ _ _ _ h40]
  rw [World.setBit_d, Dev.setBit_fld_self _ _ (by decide)]

theorem World.deepTold_shown (w : World) (t a : Nat) : (w.deepTold t a).d.fld (MEMR t + 0x58) 4 4 = 1 := by
  unfold World.deepTold
  rw [World.log_d, Dev.log_fld, World.setBit_d, Dev.setBit_fld_self _ _ (by decide)]

theorem patrolScrub_off {t : Fin 8} {n : Nat} {bad : List Nat} {s : State} (live : s.live) (h : s.dev.fld (MEMR t.val + 0x48) 31 31 ≠ 1) :
    exec (.patrolScrub t n bad) s = .next s :=
  runLive_eq_dev (f := doPatrolScrub t n bad) (d := s.dev) live (if_neg h)

theorem patrolScrub_turns {t : Fin 8} {n a : Nat} {s : State} (live : s.live) (hon : s.dev.fld (MEMR t.val + 0x48) 31 31 = 1)
    (htier : tierOf a = 2) (ht : towerOf a = t.val) (ha : a % 512 = 0) (hok : addrOk 0 a = true) (hsyn : s.world.synOf a = 0) :
    ∃ u, exec (.patrolScrub t n [a]) s = .next u ∧ u.mem.bytes = s.mem.bytes ∧ tget 0 u.mem.syn a = 0xFFFFFFFF ∧
      u.dev.fld (MEMR t.val + 0x58) 4 4 = 1 ∧ u.dev.fld (MEMR t.val) 1 1 = 1 := by
  have hdeep := World.deepUncorrected_good (w := s.world.scrubbed t.val n) htier ht ha hok hsyn
  have hdo : doPatrolScrub t n [a] s.world = (((s.world.scrubbed t.val n).deepTold t.val a).put (.syn a 0xFFFFFFFF)) :=
    (if_pos hon).trans hdeep
  refine ⟨_, runLive_eq_world live hdo, rfl, tget_applySyn_self .., ?_, ?_⟩
  · exact World.deepTold_shown ..
  · exact World.scrubbed_shown ..

/-! ## Events -/

theorem eventSend_none {s : State} (live : s.live)
    (h : s.dev.eventPort = none ∨ s.dev.hl.events.find? (fun e => !s.dev.eventWaits e) = none) : exec .eventSend s = .next s := by
  refine runLive_eq_dev (f := doEventSend) (d := s.dev) live ?_
  show doEventSend s.world = s.world
  unfold doEventSend
  obtain h | h := h
  · rw [show s.world.d.eventPort = none from h]
  · rw [show s.world.d.hl.events.find? (fun e => !s.world.d.eventWaits e) = none from h]
    split
    · next heq => cases heq
    · rfl

/-- An event with the sequence number it leaves with. -/
def Dev.numbered (d : Dev) (e : Pkt) : Pkt := { e with param := BitVec.ofNat 32 (d.fld HL_EVENT_SEQ 31 0) }

/-- An event taken out of the queue and sent. -/
def Dev.eventGone (d : Dev) (p : Nat) (e : Pkt) : Dev :=
  (Dev.emit { d with hl := { d.hl with events := d.hl.events.erase e } } (.event p (d.numbered e))).sendHost (4 * p) (d.numbered e)

/-- An event counted. -/
def Dev.eventCounted (d : Dev) (seq : Nat) : Dev := (d.setFld HL_EVENT_SEQ 31 0 ((seq + 1) % 2 ^ 32)).count HL_EVENTS_SENT 63 0 1

theorem Dev.eventGone_spec (d : Dev) (p : Nat) (e : Pkt) :
    (d.eventGone p e).regs = d.regs ∧ (d.eventGone p e).hl = { d.hl with events := d.hl.events.erase e } ∧
      (d.eventGone p e).said = d.said ++ [.event p (d.numbered e)] := by
  unfold Dev.eventGone
  have honly := Dev.sendHost_linksOnly (Dev.emit { d with hl := { d.hl with events := d.hl.events.erase e } } (.event p (d.numbered e))) (4 * p)
    (d.numbered e)
  refine ⟨(congrArg Dev.regs honly :), (congrArg Dev.hl honly :), ?_⟩
  rw [Dev.sendHost, Dev.sendPacket_said]
  simp [Dev.said, Dev.emit, Out.isFlit]

theorem Dev.eventCounted_spec (d : Dev) (seq : Nat) :
    (d.eventCounted seq).hl = d.hl ∧ (d.eventCounted seq).out = d.out ∧ (d.eventCounted seq).fld HL_EVENT_SEQ 31 0 = (seq + 1) % 2 ^ 32 := by
  have hset := d.setFld_regsOnly HL_EVENT_SEQ 31 0 ((seq + 1) % 2 ^ 32)
  have hcount := (d.setFld HL_EVENT_SEQ 31 0 ((seq + 1) % 2 ^ 32)).count_regsOnly HL_EVENTS_SENT 63 0 1
  unfold Dev.eventCounted
  refine ⟨hcount.hl.trans hset.hl, hcount.out.trans hset.out, ?_⟩
  rw [Dev.count_fld_ne _ _ _ _ _ _ (by decide), Dev.setFld_fld_self _ _ _ (by decide) (by decide)]
  exact Nat.mod_mod _ _

theorem doEventSend_some {w : World} {p : Nat} {e : Pkt} (hp : w.d.eventPort = some p)
    (he : w.d.hl.events.find? (fun e => !w.d.eventWaits e) = some e) (hlost : w.d.hl.lost = 0) :
    doEventSend w = { w with d := (w.d.eventGone p e).eventCounted (w.d.fld HL_EVENT_SEQ 31 0) } := by
  have hhl : ((w.d.eventGone p e).eventCounted (w.d.fld HL_EVENT_SEQ 31 0)).hl.lost = 0 := by
    rw [(Dev.eventCounted_spec ..).1, (Dev.eventGone_spec ..).2.1]
    exact hlost
  have htell : ((w.d.eventGone p e).eventCounted (w.d.fld HL_EVENT_SEQ 31 0)).tellLost =
      (w.d.eventGone p e).eventCounted (w.d.fld HL_EVENT_SEQ 31 0) := if_pos hhl
  unfold doEventSend
  rw [hp, he, ← htell]
  rfl

theorem eventSend_first {s : State} {p : Nat} {e : Pkt} (live : s.live) (hp : s.dev.eventPort = some p)
    (he : s.dev.hl.events.find? (fun e => !s.dev.eventWaits e) = some e) (hlost : s.dev.hl.lost = 0) :
    ∃ t, exec .eventSend s = .next t ∧ t.mem = s.mem ∧ t.dev.hl.events = s.dev.hl.events.erase e ∧
      t.dev.said = s.dev.said ++ [.event p { e with param := BitVec.ofNat 32 (s.dev.fld HL_EVENT_SEQ 31 0) }] ∧
      t.dev.fld HL_EVENT_SEQ 31 0 = (s.dev.fld HL_EVENT_SEQ 31 0 + 1) % 2 ^ 32 := by
  obtain ⟨hregs, hhl, hsaid⟩ := s.dev.eventGone_spec p e
  obtain ⟨hhl', hout', hseq⟩ := (s.dev.eventGone p e).eventCounted_spec (s.dev.fld HL_EVENT_SEQ 31 0)
  refine ⟨_, runLive_eq_dev live (doEventSend_some (w := s.world) hp he hlost), rfl, ?_, ?_, hseq⟩
  · show ((s.dev.eventGone p e).eventCounted (s.dev.fld HL_EVENT_SEQ 31 0)).hl.events = _
    rw [hhl', hhl]
  · show ((s.dev.eventGone p e).eventCounted (s.dev.fld HL_EVENT_SEQ 31 0)).said = _
    rw [Dev.said, hout', ← Dev.said, hsaid]
    rfl

/-! ## The digest comparison -/

/-- The comparison is over, with the repairs it can make. -/
def World.digestKept (w : World) (ok : List DigestDiff) : World :=
  w.onDev (fun d => d.onSvc 2 (fun s => { s with due := [], repairs := s.repairs ++ ok }))

/-- A hold asked for where there are repairs. -/
def World.digestHeld (w : World) (ok : List DigestDiff) : World :=
  if ok.isEmpty = true then w
  else (w.setFt (fun f => { f with wardenHold := if f.wardenHold = 0 then 1 else f.wardenHold })).setBit FT_HOLD_CAUSE 5

/-- A difference that cannot be repaired stops the context. -/
def World.digestStopped (w : World) (ctx : Nat) : World :=
  ((w.raise flagMismatch).onDev (fun d => d.stopCtx ctx .faulted stReplicaDiverged 0 0)).log
    { entry 0x13 0xFF 0x7 with status := stReplicaDiverged, ctx := ctx, event := 0x803 }

theorem doDigestCompare_eq {w : World} {differs : List DigestDiff} (hact : (w.d.svc 2).active = true) (hdue : (w.d.svc 2).due ≠ [])
    (hran : (w.d.ctx 2).ran = true) :
    let v := w.d.svc 2
    let mine := differs.filter (fun e => v.due.contains e.run && w.digestDiffers v.config e)
    let ok := mine.filter (fun e => (w.digestFix v.config e).isSome)
    doDigestCompare differs w = if ok.length = mine.length then (w.digestKept ok).digestHeld ok
      else ((w.digestKept ok).digestHeld ok).digestStopped (numAt v.config 32 2) := by
  intro v mine ok
  have hgo : ¬ ((!(w.d.svc 2).active || (w.d.svc 2).due.isEmpty || !(w.d.ctx 2).ran) = true) := by
    rw [hact, hran]
    simpa using hdue
  unfold doDigestCompare
  exact if_neg hgo

theorem World.digestHeld_spec (w : World) (ok : List DigestDiff) :
    (w.digestHeld ok).d.svcs = w.d.svcs ∧ (w.digestHeld ok).d.ctxs = w.d.ctxs ∧ (w.digestHeld ok).wr = w.wr ∧
      (ok ≠ [] → (w.digestHeld ok).d.ft.wardenHold = (if w.d.ft.wardenHold = 0 then 1 else w.d.ft.wardenHold) ∧
        (w.digestHeld ok).d.fld FT_HOLD_CAUSE 5 5 = 1) ∧
      (ok = [] → (w.digestHeld ok).d.ft.wardenHold = w.d.ft.wardenHold) := by
  cases ok with
  | nil => exact ⟨rfl, rfl, rfl, fun h => absurd rfl h, fun _ => rfl⟩
  | cons x xs => exact ⟨rfl, rfl, rfl, fun _ => ⟨rfl, Dev.setBit_fld_self _ _ (by decide)⟩, fun h => absurd h (List.cons_ne_nil _ _)⟩

theorem World.digestStopped_spec (w : World) (ctx : Nat) :
    (w.digestStopped ctx).d.svcs = w.d.svcs ∧ (w.digestStopped ctx).wr = w.wr ∧ (w.digestStopped ctx).d.regs = w.d.regs ∧
      (w.digestStopped ctx).d.ft.wardenHold = w.d.ft.wardenHold ∧ (w.digestStopped ctx).d.ft.posFlags.getLsbD flagMismatch = true := by
  unfold World.digestStopped
  rw [World.log_d, World.log_wr, Dev.logEntry_svcs, Dev.logEntry_regs, Dev.logEntry_ft]
  refine ⟨rfl, rfl, rfl, rfl, ?_⟩
  show (w.d.ft.posFlags ||| BitVec.ofNat 64 (1 <<< flagMismatch)).getLsbD flagMismatch = true
  rw [BitVec.getLsbD_or, show (BitVec.ofNat 64 (1 <<< flagMismatch)).getLsbD flagMismatch = true by decide, Bool.or_true]

theorem digestCompare_keeps {differs : List DigestDiff} {s : State} (live : s.live) (hact : (s.dev.svc 2).active = true)
    (hdue : (s.dev.svc 2).due ≠ []) (hran : (s.dev.ctx 2).ran = true) :
    let v := s.dev.svc 2
    let mine := differs.filter (fun e => v.due.contains e.run && s.world.digestDiffers v.config e)
    let ok := mine.filter (fun e => (s.world.digestFix v.config e).isSome)
    ∃ t, exec (.digestCompare differs) s = .next t ∧ t.mem = s.mem ∧ (t.dev.svc 2).due = [] ∧ (t.dev.svc 2).repairs = v.repairs ++ ok ∧
      (ok ≠ [] → t.dev.ft.wardenHold = (if s.dev.ft.wardenHold = 0 then 1 else s.dev.ft.wardenHold) ∧ t.dev.fld FT_HOLD_CAUSE 5 5 = 1) ∧
      (ok = [] → t.dev.ft.wardenHold = s.dev.ft.wardenHold) ∧
      (ok.length = mine.length → t.dev.ctxs = s.dev.ctxs) ∧ (ok.length ≠ mine.length → t.dev.ft.posFlags.getLsbD flagMismatch = true) := by
  intro v mine ok
  have hdo : doDigestCompare differs s.world = if ok.length = mine.length then (s.world.digestKept ok).digestHeld ok
      else ((s.world.digestKept ok).digestHeld ok).digestStopped (numAt v.config 32 2) := doDigestCompare_eq (w := s.world) hact hdue hran
  obtain ⟨hsvcs, hctxs, hwr, hheld, hstill⟩ := (s.world.digestKept ok).digestHeld_spec ok
  have hsvc : ((s.world.digestKept ok).digestHeld ok).d.svc 2 = { v with due := [], repairs := v.repairs ++ ok } := by
    rw [Dev.svc, hsvcs]
    exact Dev.onSvc_svc_self s.dev 2 _
  generalize hkept : (s.world.digestKept ok).digestHeld ok = w at hdo hsvcs hctxs hwr hheld hstill hsvc
  by_cases hall : ok.length = mine.length
  · rw [if_pos hall] at hdo
    refine ⟨_, runLive_eq_world live hdo, commit_mem_nil hwr, ?_, ?_, hheld, hstill, fun _ => hctxs, fun h => absurd hall h⟩
    · rw [commit_dev, hsvc]
    · rw [commit_dev, hsvc]
  · rw [if_neg hall] at hdo
    obtain ⟨hsvcs', hwr', hregs', hhold', hflag⟩ := w.digestStopped_spec (numAt v.config 32 2)
    have hsvc' : (w.digestStopped (numAt v.config 32 2)).d.svc 2 = { v with due := [], repairs := v.repairs ++ ok } := by
      rw [Dev.svc, hsvcs']
      exact hsvc
    refine ⟨_, runLive_eq_world live hdo, commit_mem_nil (hwr'.trans hwr), ?_, ?_, fun h => ⟨hhold'.trans (hheld h).1, ?_⟩,
      fun h => hhold'.trans (hstill h), fun h => absurd h hall, fun _ => hflag⟩
    · rw [commit_dev, hsvc']
    · rw [commit_dev, hsvc']
    · rw [commit_dev, Dev.fld_congr (congrArg (rget · FT_HOLD_CAUSE) hregs') 5 5]
      exact (hheld h).2

/-! ## A retrieval batch -/

/-- `v` has the number of the fret, the contexts, the services and the outputs of `w`. -/
structure World.Stages (w v : World) : Prop where
  fret : v.d.fretNum = w.d.fretNum
  ctxs : v.d.ctxs = w.d.ctxs
  svcs : v.d.svcs = w.d.svcs
  out : v.d.out = w.d.out

namespace World.Stages

variable {w v u : World}

theorem refl (w : World) : World.Stages w w := ⟨rfl, rfl, rfl, rfl⟩

theorem trans (h : World.Stages w v) (k : World.Stages v u) : World.Stages w u :=
  ⟨k.fret.trans h.fret, k.ctxs.trans h.ctxs, k.svcs.trans h.svcs, k.out.trans h.out⟩

theorem foldl (h : World.Stages w v) {β : Type} {f : World → β → World} (xs : List β) (hf : ∀ u, ∀ b ∈ xs, World.Stages u (f u b)) :
    World.Stages w (xs.foldl f v) :=
  foldl_keeps (World.Stages w ·) f xs (fun u b hb hu => hu.trans (hf u b hb)) v h

theorem count (w : World) {a : Nat} (hi lo n : Nat) (ha : FT_FRET_NUM ≠ a) : World.Stages w (w.count a hi lo n) := by
  have hregs := w.d.count_regsOnly a hi lo n
  exact ⟨Dev.count_fld_ne _ _ _ _ _ _ ha, hregs.ctxs, hregs.svcs, hregs.out⟩

theorem log (w : World) (x : LogEntry) : World.Stages w (w.log x) :=
  ⟨Dev.log_fld .., Dev.logEntry_ctxs .., Dev.logEntry_svcs .., Dev.logEntry_out ..⟩

theorem raise (w : World) (n : Nat) : World.Stages w (w.raise n) := ⟨rfl, rfl, rfl, rfl⟩

theorem fret_ne_MEMR (t k : Nat) (hk : k < 0x10000) : FT_FRET_NUM ≠ MEMR t + k := by
  unfold FT_FRET_NUM MEMR twBase
  omega

theorem consumed (w : World) (t n unit ctx : Nat) : World.Stages w (w.consumed t n unit ctx) := by
  have hraised : World.Stages w ((w.raise flagPoison).raise flagNonfinite) := (raise w _).trans (raise _ _)
  unfold World.consumed
  split
  · exact refl w
  · exact (hraised.trans (count _ 63 0 n (fret_ne_MEMR t _ (by decide)))).trans (log _ _)

theorem putBlk (w : World) (a : Nat) (data : List Byte) (syn : W32) : World.Stages w (w.putBlk a data syn) := ⟨rfl, rfl, rfl, rfl⟩

theorem stageIndex (h : World.Stages w v) (cfg : List Byte) : World.Stages w (v.stageIndex cfg) := by
  unfold World.stageIndex
  refine h.foldl _ (fun u t _ => ?_)
  exact (count u 63 0 _ (fret_ne_MEMR t _ (by decide))).foldl _ (fun a x _ => putBlk ..)

end World.Stages

/-- The index staged and the batch taken out of the queue. -/
def World.batchStaged (w : World) (inst : Nat) (cfg : List Byte) (rest : List HostCmd) : World :=
  World.onDev (World.stageIndex ((List.range 8).foldl
    (fun w t => w.consumed t (w.poisonCount (indexBlocks cfg t)) 1 inst) w) cfg) (fun d => d.onSvc inst (fun s => { s with queue := rest }))

/-- The queue of a service alone is set. -/
theorem World.queueSet_spec (w : World) (inst : Nat) (rest : List HostCmd) :
    (w.onDev (fun d => d.onSvc inst (fun s => { s with queue := rest }))).d.fretNum = w.d.fretNum ∧
      (w.onDev (fun d => d.onSvc inst (fun s => { s with queue := rest }))).d.ctxs = w.d.ctxs ∧
      (w.onDev (fun d => d.onSvc inst (fun s => { s with queue := rest }))).d.out = w.d.out ∧
      ((w.onDev (fun d => d.onSvc inst (fun s => { s with queue := rest }))).d.svc inst).queue = rest :=
  ⟨rfl, rfl, rfl, congrArg Service.queue (Dev.onSvc_svc_self w.d inst _)⟩

theorem World.batchStaged_stages (w : World) (inst : Nat) (cfg : List Byte) : World.Stages w (World.stageIndex ((List.range 8).foldl
    (fun w t => w.consumed t (w.poisonCount (indexBlocks cfg t)) 1 inst) w) cfg) :=
  World.Stages.stageIndex ((World.Stages.refl w).foldl (List.range 8) (fun u t _ => .consumed u t (u.poisonCount (indexBlocks cfg t)) 1 inst)) cfg

theorem World.batchStaged_spec (w : World) (inst : Nat) (cfg : List Byte) (rest : List HostCmd) :
    (w.batchStaged inst cfg rest).d.fretNum = w.d.fretNum ∧ (w.batchStaged inst cfg rest).d.ctxs = w.d.ctxs ∧
      (w.batchStaged inst cfg rest).d.out = w.d.out ∧ ((w.batchStaged inst cfg rest).d.svc inst).queue = rest := by
  have hstaged := w.batchStaged_stages inst cfg
  unfold World.batchStaged
  generalize World.stageIndex ((List.range 8).foldl (fun w t => w.consumed t (w.poisonCount (indexBlocks cfg t)) 1 inst) w) cfg = v at hstaged ⊢
  obtain ⟨hfret, hctxs, hout, hqueue⟩ := v.queueSet_spec inst rest
  exact ⟨hfret.trans hstaged.fret, hctxs.trans hstaged.ctxs, hout.trans hstaged.out, hqueue⟩

theorem World.reply_svc (w : World) (h : HostCmd) (op : Nat) (st det : W16) (p : W32) (bl : List Blk) (i : Nat) :
    (w.reply h op st det p bl).d.svc i = w.d.svc i := by
  have hsvcs : (w.d.replyPkt h op st det p bl).svcs = w.d.svcs := (congrArg Dev.svcs (w.d.replyPkt_hostOnly h op st det p bl) :)
  rw [World.reply_d, Dev.svc, Dev.svc, ← hsvcs]
  rfl

theorem doRetrievalBatchDone_good {w : World} {inst : Nat} {bad : List Nat} {h : HostCmd} {rest : List HostCmd}
    (hq : (w.d.svc inst).queue = h :: rest) (h8 : 8 ≤ inst) (h16 : inst < 16) (hact : (w.d.svc inst).active = true)
    (hran : (w.d.ctx inst).ran = true)
    (hgood : (((List.range 8).flatMap (indexBlocks (w.d.svc inst).config)).filter (w.failing bad)) = []) :
    let cfg := (w.d.svc inst).config
    let b := payloadBytes h.payload
    let q := batchOf b
    let rs := (queryRows cfg b q.queries).map (fun v => w.scan cfg v q.k)
    let nans := BitVec.ofNat 32 (rs.foldl (fun n r => n + r.2) 0)
    let bl := mkBlks (rs.flatMap (fun r => resultBytes (numAt cfg 32 1 == 9) q.k r.1))
    let u := w.batchStaged inst cfg rest
    doRetrievalBatchDone inst bad w = World.reply
      (if q.dest = 1 then u.sendBlocks (svcJob inst (firstCourse (u.d.ctx inst).mask.toNat)) 1 q.rank q.ctx q.window 0 q.addr
        (bl.map (fun x => (0, x))) else u) h 0x502 stOk 0 nans (if q.dest = 1 then [] else bl) := by
  intro cfg b q rs nans bl u
  have hgo : ¬ ((!(decide (8 ≤ inst) && decide (inst < 16) && (w.d.svc inst).active && (w.d.ctx inst).ran)) = true) := by
    simp [h8, h16, hact, hran]
  have hfails : ¬ ((!(((List.range 8).flatMap (indexBlocks (w.d.svc inst).config)).filter (w.failing bad)).isEmpty) = true) := by
    rw [hgood]
    decide
  unfold doRetrievalBatchDone
  dsimp only
  rw [hq]
  dsimp only
  rw [if_neg hgo, if_neg hfails]
  rfl

theorem retrievalBatchDone_here {inst : Nat} {bad : List Nat} {s : State} {h : HostCmd} {rest : List HostCmd} (live : s.live)
    (hq : (s.dev.svc inst).queue = h :: rest) (h8 : 8 ≤ inst) (h16 : inst < 16) (hact : (s.dev.svc inst).active = true)
    (hran : (s.dev.ctx inst).ran = true)
    (hgood : (((List.range 8).flatMap (indexBlocks (s.dev.svc inst).config)).filter (s.world.failing bad)) = []) :
    let cfg := (s.dev.svc inst).config
    let b := payloadBytes h.payload
    let q := batchOf b
    let rs := (queryRows cfg b q.queries).map (fun v => s.world.scan cfg v q.k)
    let nans := BitVec.ofNat 32 (rs.foldl (fun n r => n + r.2) 0)
    let bl := mkBlks (rs.flatMap (fun r => resultBytes (numAt cfg 32 1 == 9) q.k r.1))
    let w := s.world.batchStaged inst cfg rest
    (q.dest ≠ 1 → ∃ t, exec (.retrievalBatchDone inst bad) s = .next t ∧ t = commit s (w.reply h 0x502 stOk 0 nans bl) ∧
      (t.dev.svc inst).queue = rest ∧ t.dev.said = s.dev.said ++ [replyOf s.dev h 0x502 stOk 0 nans bl]) ∧
    (q.dest = 1 → exec (.retrievalBatchDone inst bad) s = .next (commit s (World.reply
      (w.sendBlocks (svcJob inst (firstCourse (s.dev.ctx inst).mask.toNat)) 1 q.rank q.ctx q.window 0 q.addr (bl.map (fun x => (0, x))))
      h 0x502 stOk 0 nans []))) := by
  intro cfg b q rs nans bl w
  have hdo : doRetrievalBatchDone inst bad s.world = World.reply
      (if q.dest = 1 then w.sendBlocks (svcJob inst (firstCourse (w.d.ctx inst).mask.toNat)) 1 q.rank q.ctx q.window 0 q.addr
        (bl.map (fun x => (0, x))) else w) h 0x502 stOk 0 nans (if q.dest = 1 then [] else bl) :=
    doRetrievalBatchDone_good (w := s.world) hq h8 h16 hact hran hgood
  obtain ⟨hfret, hctxs, hout, hqueue⟩ := s.world.batchStaged_spec inst cfg rest
  refine ⟨fun hdest => ⟨_, runLive_eq_world live (hdo.trans ?_), rfl, ?_, ?_⟩, fun hdest => runLive_eq_world live (hdo.trans ?_)⟩
  · rw [if_neg hdest, if_neg hdest]
  · rw [commit_dev, World.reply_svc]
    exact hqueue
  · rw [commit_dev]
    exact World.reply_says_of_fretNum hfret hout ..
  · have hmask : w.d.ctx inst = s.dev.ctx inst := by
      rw [Dev.ctx, show w.d.ctxs = _ from hctxs]
      rfl
    rw [if_pos hdest, if_pos hdest, hmask]

/-- Settles O59: one lemma for each command's cases. -/
theorem housekeepingAndServiceRuns : Obligations.HousekeepingAndServiceRuns := by
  unfold Obligations.HousekeepingAndServiceRuns
  refine ⟨fun r s => ⟨fun h => ?_, fun h => housekeepingRound_eq (doHousekeepingRound_held (w := s.world) r h), housekeepingRound_trips,
      housekeepingRound_goesOn⟩, fun t die s => ?_, fun t n bad s live h => patrolScrub_off live h,
    fun t n a s live hon htier ht ha hok hsyn => patrolScrub_turns live hon htier ht ha hok hsyn,
    fun s live h => eventSend_none live h, fun s p e live hp he hlost => eventSend_first live hp he hlost,
    fun differs s live hact hdue hran => digestCompare_keeps live hact hdue hran,
    fun inst bad s h rest live hq h8 h16 hact hran hgood => retrievalBatchDone_here live hq h8 h16 hact hran hgood⟩
  · exact housekeepingRound_eq (doHousekeepingRound_off (w := s.world) r h)
  · by_cases live : s.dev.level = .run
    · exact runLive_eq_dev (f := doDramRefresh t die) (d := s.dev) live rfl
    · exact runLive_reset live _

end Sys2Proof.Machine
end
